-- ==== Sys2Proof/Word.lean ====
section
/-! DEFINITION. The byte and the plainest arithmetic of the model: byte strings in network and little-endian order (R7, R8), bit
fields of numbers, wrapping and saturating arithmetic. -/
namespace Sys2Proof

/-- One byte of a frame, of the buffer or of HBM. -/
abbrev Byte := BitVec 8

/-- `bits v hi lo` is the field in bits hi..lo of v. -/
def bits (v hi lo : Nat) : Nat := (v / 2 ^ lo) % 2 ^ (hi + 1 - lo)

/-- Bit n of v is set. -/
def bit (v n : Nat) : Bool := (v / 2 ^ n) % 2 == 1

/-- v with bit n set. -/
def setBit (v n : Nat) : Nat := v ||| 2 ^ n

/-- v with bit n clear. -/
def clearBit (v n : Nat) : Nat := if bit v n then v - 2 ^ n else v

/-- The number a byte string spells in network order. -/
def ofBytesBE (bs : List Byte) : Nat := bs.foldl (fun a b => a * 256 + b.toNat) 0

/-- The number a byte string spells in little-endian order (R8). -/
def ofBytesLE : List Byte → Nat
  | [] => 0
  | b :: bs => b.toNat + 256 * ofBytesLE bs

/-- The n bytes of v in little-endian order (R8). -/
def bytesLE : Nat → Nat → List Byte
  | 0, _ => []
  | n + 1, v => BitVec.ofNat 8 v :: bytesLE n (v / 256)

/-- The n bytes of v in network order. -/
def bytesBE (n v : Nat) : List Byte := (bytesLE n v).reverse

/-- The value of v modulo 2^w read as two's complement. -/
def toSigned (w v : Nat) : Int := if 2 * (v % 2 ^ w) < 2 ^ w then (v % 2 ^ w : Nat) else ((v % 2 ^ w : Nat) : Int) - 2 ^ w

/-- The w-bit pattern of an integer. -/
def ofSigned (w : Nat) (v : Int) : Nat := (v % (2 ^ w : Nat)).toNat

/-- v clamped to lo..hi. -/
def clampI (lo hi v : Int) : Int := if v < lo then lo else if hi < v then hi else v

/-- a + b, at most m. -/
def satAdd (m a b : Nat) : Nat := min m (a + b)

/-- n ÷ d rounded up. -/
def ceilDiv (n d : Nat) : Nat := (n + d - 1) / d

/-- Rounding of n ÷ d to nearest, halves to even (R363). -/
def roundHalfEven (n d : Int) : Int :=
  let q := n.fdiv d
  let r := n - q * d
  if 2 * r < d then q else if d < 2 * r then q + 1 else if q % 2 = 0 then q else q + 1

/-- The bytes of bs from offset o, n of them, missing bytes read as zero. -/
def sliceZ (bs : List Byte) (o n : Nat) : List Byte :=
  let t := (bs.drop o).take n
  t ++ List.replicate (n - t.length) 0

/-- bs with the bytes from offset o replaced by new ones, within its length. -/
def patch (bs : List Byte) (o : Nat) (new : List Byte) : List Byte :=
  (bs.take o ++ new ++ bs.drop (o + new.length)).take bs.length

end Sys2Proof
end

