-- ==== Sys2Proof/Operand.lean ====
section
/-! DEFINITION. The structured operands commands carry. -/
namespace Sys2Proof

/-- A preemptible fragment as received (R113): start or continuation, frame count of its SMD, fragment count, whether it is the last of its
frame, whether its mCRC was right, its bytes without preamble and mCRC (the last one ends with the FCS of the frame). -/
structure Fragment where
  start : Bool
  frameCount : Nat
  fragCount : Nat
  last : Bool
  crcOk : Bool
  bytes : List Byte
  deriving DecidableEq, Repr

/-- What the peer's MAC merge sublayer sends in the verification of R110: nothing by the end of the VERIFY_TIME, a verify mPacket of its own, or
the respond mPacket that answers the device's. -/
inductive MPacket where
  | none | verify | respond
  deriving DecidableEq, Repr

/-- What a word of on-die memory holds, where the spec gives its address no meaning (log entry 16): nothing in use, element `elem` of an object,
a cell of the frame with a FRAME_ID, a word of a pool buffer, or both copies of a control word of a queue with the cells then lost (R458). -/
inductive Holds where
  | nothing
  | object (idx inst sub elem : Nat)
  | cell (frameId cell : Nat)
  | buffer (handle word : Nat)
  | control (queue cellsLost : Nat)
  deriving DecidableEq, Repr

/-- A word a scrub access finds other than clean (R453, R465): its place in the access unit, its bits in error (3 uncorrectable, 4 the poison
codeword or beside it), and what it holds. -/
structure ScrubWord where
  word : Nat
  bits : Nat
  holds : Holds := .nothing
  deriving DecidableEq, Repr

end Sys2Proof
end

