-- ==== Sys2Proof/Syntax.lean ====
section
/-! DEFINITION. The commands of the device: one constructor per row of the table of operations and events (spec/95), with what the
command carries from outside. The order of a constructor's operands is the order its docstring names them in. -/
namespace Sys2Proof

/-- A command from outside the device: a write or read of one of its objects, an arrival on a port or link, or an event whose time has
come. -/
inductive Instr where
  /-- `TICK_BOUNDARY` (R42). At the end of each tick the device performs the ordered boundary actions and opens the next tick. The
  replica differences the sori find (sorus, raw units) and the transfers each sorus link passed in the tick (sorus, count). -/
  | tickBoundary (slips : List (Nat × Int)) (passed : List (Nat × Nat))
  /-- `REFCLK_COMPARISON` (R60). Once per millisecond each sorus lane reference is compared against TB_OSC, declaring or clearing a
  reference fault. The sorus, whether its reference is present, its deviation. -/
  | refclkComparison (sorus : Nat) (present : Bool) (ppm : Int)
  /-- `PORT_ENABLE` (R67). A port becoming enabled starts link bring-up from step 1. -/
  | portEnable (port : Nat)
  /-- `OCTET_CONFIG_CHANGE` (R67). A change of octet mode, rate or channel takes its ports down, flushes vanished ports and starts
  bring-up of the new ports. The octet and the values its three objects take. -/
  | octetConfigChange (octet mode rate channel : Nat)
  /-- `AUTO_NEGOTIATION_COMPLETE` (R64). Clause 73 auto-negotiation completes on a KR or CR port. The port and whether the link resolved
  to BASE-R FEC. -/
  | autoNegotiationComplete (port : Nat) (baseR : Bool)
  /-- `LINK_TRAINING_COMPLETE` (R64). IEEE 802.3 link training completes with transmitter taps agreed and receivers adapted. -/
  | linkTrainingComplete (port : Nat)
  /-- `PCS_LOCK` (R678). Alignment-marker lock, deskew and FEC lock complete, and the port reads UP from the next boundary. -/
  | pcsLock (port : Nat)
  /-- `BRING_UP_TIMEOUT` (R69). A port not UP within 500 ms restarts bring-up and counts the attempt. -/
  | bringUpTimeout (port : Nat)
  /-- `LINK_LOSS` (R70). Loss of signal, alignment lock or eight uncorrectable codewords takes an UP port to DOWN at the next boundary. -/
  | linkLoss (port : Nat)
  /-- `LINK_RESTART` (R70). One millisecond after falling to DOWN the port restarts bring-up from step 1. -/
  | linkRestart (port : Nat)
  /-- `EYE_SCAN` (R72). The background eye scan measures one active lane and updates its eye height and width. The physical lane and
  what was measured. -/
  | eyeScan (lane height width : Nat)
  /-- `SHED_HELLO_SEND` (R76). Every 2,000,000 ticks a shedding-enabled UP port sends HELLO. -/
  | shedHelloSend (port : Nat)
  /-- `PEER_CAPABLE_TIMEOUT` (R76). No matching HELLO for 6,000,000 ticks clears PORT.SHED.PEER_CAPABLE. -/
  | peerCapableTimeout (port : Nat)
  /-- `SHED_WINDOW_END` (R77). At the end of a shed window the port compares its load and may request half its lanes. -/
  | shedWindowEnd (port : Nat)
  /-- `RESTORE_WINDOW_END` (R77). At the end of a restore window a shed port compares its load and may request twice its lanes. -/
  | restoreWindowEnd (port : Nat)
  /-- `SHED_HELLO_RECEIVED` (R76). A valid HELLO of equal width sets PORT.SHED.PEER_CAPABLE. The port and the width the HELLO names. -/
  | shedHelloReceived (port width : Nat)
  /-- `SHED_REQUEST_RECEIVED` (R80). A received REQUEST is answered at the next boundary with ACCEPT or REFUSE. -/
  | shedRequestReceived (port target seq : Nat)
  /-- `SHED_ACCEPT_RECEIVED` (R81). An ACCEPT agrees the change and leads to the changeover hold or restore wake. -/
  | shedAcceptReceived (port target seq : Nat)
  /-- `SHED_REFUSE_RECEIVED` (R80). A REFUSE ends the request and is counted in PORT.SHED.REFUSED. -/
  | shedRefuseReceived (port seq reason : Nat)
  /-- `SHED_SWITCHED_RECEIVED` (R81). On SWITCHED the receiver switches to the new lane count. -/
  | shedSwitchedReceived (port count : Nat)
  /-- `RESTORE_NOW_RECEIVED` (R80). A RESTORE_NOW is always accepted and starts a restore to full width. -/
  | restoreNowReceived (port target seq : Nat)
  /-- `SHED_BAD_FRAME` (R74). A shedding frame with bad FCS or version is discarded and counted. -/
  | shedBadFrame (port : Nat)
  /-- `SHED_REQUEST_TIMEOUT` (R80). An unanswered REQUEST or RESTORE_NOW is resent up to three times, then the shed is abandoned or the
  port goes DOWN. -/
  | shedRequestTimeout (port : Nat)
  /-- `CHANGEOVER_HOLD_START` (R81). After agreement and the end of any frame in transmission the 8-tick hold begins and SWITCHED is
  sent. -/
  | changeoverHoldStart (port : Nat)
  /-- `CHANGEOVER_HOLD_END` (R81). At the end of the hold the new lane count applies to transmitter, receiver and scheduler. -/
  | changeoverHoldEnd (port : Nat)
  /-- `LANE_WAKE_END` (R82). The 32-tick wake of added lanes for a restore ends and the hold follows. -/
  | laneWakeEnd (port : Nat)
  /-- `PORT_PARK` (R85). A write of PORT.PARK 1 parks the port: it forwards nothing and asks to shed to one lane. -/
  | portPark (port : Nat)
  /-- `PORT_UNPARK` (R86). A write of PORT.PARK 0 wakes the port, restoring full width and returning it to UP. -/
  | portUnpark (port : Nat)
  /-- `FRAME_RECEPTION` (R88). A frame arrives at a port's MAC and is stamped, reassembled, tested for wake and stripped of transit
  header and tags. The port; the bytes of an express frame with its FCS, or none and the fragments of a preemptible one; whether the
  PCS met an error within it; whether an uncorrectable codeword touched it; the raw units into the clock at which its timestamp
  point crosses the balls. -/
  | frameReception (port : Nat) (bytes : List Byte) (frags : List Fragment) (codeError fecError : Bool) (sub : Nat)
  /-- `FRAME_HAND_OFF` (R92). After 256 bytes or at its end the frame enters its pipeline for parsing, classification, lookups, stream
  stage and admission. The port, and whether the frame is preemptible. -/
  | frameHandOff (port : Nat) (pre : Bool)
  /-- `FLOW_CONTROL_REFRESH` (R109). While a class is asserted the request is repeated every TX_REFRESH ticks. -/
  | flowControlRefresh (port : Nat)
  /-- `FRAME_END` (R88). At a frame's end the MAC checks size and FCS and accepts, tail-marks, drops or delivers it under KEEP_BAD. The
  port, and whether the frame is preemptible. -/
  | frameEnd (port : Nat) (pre : Bool)
  /-- `TAIL_CHECK` (R135). Once both walk and frame end are done, spans and the last header are tested against the known length. -/
  | tailCheck (port : Nat)
  /-- `PAUSE_FRAME_RECEIVED` (R105). A PAUSE frame loads the hold timer of every class it names. -/
  | pauseFrameReceived (port quanta : Nat)
  /-- `PFC_FRAME_RECEIVED` (R105). A PFC frame loads the hold timers of the classes its enabled priorities name. The port, the enable
  vector, the eight quanta. -/
  | pfcFrameReceived (port enables : Nat) (quanta : List Nat)
  /-- `MAC_CONTROL_OTHER` (R104). Any other MAC control frame is consumed and counted. -/
  | macControlOther (port length : Nat)
  /-- `PAUSE_TIMER_EXPIRY` (R106). A class hold timer reaches zero and the class may start frames again. -/
  | pauseTimerExpiry (port cls : Nat)
  /-- `PREEMPTION_VERIFICATION` (R110). Verify mPackets are exchanged every VERIFY_TIME ms, ending ACTIVE or FAILED after three
  attempts. The port, and what came from the peer. -/
  | preemptionVerification (port : Nat) (peer : MPacket)
  /-- `SCHEDULER_CHOICE` (R324). When a path is free the scheduler chooses an eligible queue and its head copy starts through the egress
  pipeline. The port, the path (0 express or only, 1 preemptible), the raw units into the clock at which the first bit crosses. -/
  | schedulerChoice (port path sub : Nat)
  /-- `GATE_CLOSE_PREEMPTION` (R356). A preemptible copy is preempted at its gate's close and resumes at the next opening. -/
  | gateClosePreemption (port : Nat)
  /-- `COPY_LAST_BYTE` (R330). At a copy's last byte it is charged to buckets, deficit or tag and releases its reference. -/
  | copyLastByte (port path : Nat)
  /-- `RECIRCULATION_PASS` (R265). A complete head of a recirculation queue is copied into a pool buffer and re-enters its pipeline as a
  second pass. -/
  | recirculationPass (sorus : Nat)
  /-- `CAPTURE_JOB` (R266). A spore capture job reads the frame's first cell and the spore writer writes a record. -/
  | captureJob
  /-- `REFILL_COMPLETE` (R281). A refill read places a spilled cell in a bank 96 clocks after issue. The HBM address read and how often
  its transfer failed its CRC. -/
  | refillComplete (addr fails : Nat)
  /-- `CREDIT_FRAME_SEND` (R288). Every FAB.CREDIT.INTERVAL ticks a trunk port sends a credit frame with its cumulative grants. -/
  | creditFrameSend (port : Nat)
  /-- `CREDIT_FRAME_RECEIVED` (R287). A received credit frame sets G of each credit-controlled class. The port and the eight grants. -/
  | creditFrameReceived (port : Nat) (grants : List Nat)
  /-- `CREDIT_STALL` (R290). A head copy waiting for credit for STALL_TICKS ticks counts a stall and raises an event. -/
  | creditStall (queue : Nat)
  /-- `HOLD_EXPIRY` (R293). A hold running out flushes the port's queues and refuses new copies. -/
  | holdExpiry (port : Nat)
  /-- `STASH` (R314). A buffer left in a receive ring for STASH_AFTER ticks is moved to an HBM stash slot. -/
  | stash (handle : Nat)
  /-- `POOL_QUARANTINE` (R316). A cell is quarantined from allocation, at once or when released. -/
  | poolQuarantine (cell : Nat)
  /-- `POOL_UNQUARANTINE` (R316). A cell is removed from the quarantine list. -/
  | poolUnquarantine (cell : Nat)
  /-- `GATE_CONFIG_INSTALL` (R346). A write of GATE.CONFIG_CHANGE 1 copies the administrative list and fixes the change time. -/
  | gateConfigInstall (port : Nat)
  /-- `GATE_CONFIG_CANCEL` (R347). A write of GATE.CONFIG_CHANGE 0 cancels a pending change not yet reached. -/
  | gateConfigCancel (port : Nat)
  /-- `GATE_LIST_CHANGE` (R348). At the change time the copied list becomes the operational list. -/
  | gateListChange (port : Nat)
  /-- `STREAM_GATE_LIST_CHANGE` (R349). A staged stream-gate list takes over at its change time. -/
  | streamGateListChange (gate : Nat)
  /-- `TIME_VIEW_SET` (R367). A write places a view at an absolute time at its boundary. The view and the TIME80 value written (seconds
  in the low 48 bits). -/
  | timeViewSet (view t : Nat)
  /-- `TIME_VIEW_STEP` (R367). A write moves a view by a signed amount at its boundary. The step in 2⁻¹⁶ ns. -/
  | timeViewStep (view : Nat) (step : Int)
  /-- `TIME_VIEW_INCREMENT` (R367). A write changes a view's rate, making a FREE or HOLDOVER view TRACKING. -/
  | timeViewIncrement (view increment : Nat)
  /-- `HOLDOVER_ENTRY` (R369). A view without an increment write for HOLDOVER_AFTER seconds enters holdover. -/
  | holdoverEntry (view : Nat)
  /-- `REF_A_WRITE` (R372). A write of TIME.REF_A.OFFSET gives a reference-A measurement. The offset in 2⁻¹⁶ ns. -/
  | refAWrite (offset : Int)
  /-- `REF_B_EDGE` (R372). An edge on the reference-B pin is stamped and measured against the voted view. The pin (0 PPS_IN, 1 to 8 TIO0
  to TIO7), the edge, and the raw units into the clock at which it crosses the ball. -/
  | refBEdge (pin : Nat) (rising : Bool) (sub : Nat)
  /-- `REF_B_LABEL_TIMEOUT` (R375). An edge not labelled within 990 ms is measured by the nearest-second rule. -/
  | refBLabelTimeout
  /-- `TOD_IN_MESSAGE` (R375). A labelling message on a TOD_IN pin gives the second of the latest reference-B edge, or is discarded if
  bad. -/
  | todInMessage (pin : Nat) (message : List Byte)
  /-- `REFERENCE_VOTE` (R374). In the first clock of a tick after a new measurement the references are voted and the view may be frozen. -/
  | referenceVote
  /-- `VOTE_RELEASE` (R376). A write of TIME.VOTE.RELEASE 1 lifts the freeze until the next vote. -/
  | voteRelease
  /-- `PPS_OUT_PULSE` (R380). A PPS_OUT pin rises at each whole second of its view and falls after the pulse width. -/
  | ppsOutPulse (pin : Nat)
  /-- `TOD_OUT_MESSAGE` (R381). A TOD_OUT pin sends a time message 10 ms after each whole second. -/
  | todOutMessage (pin : Nat)
  /-- `TIO_EVENT_EDGE` (R382). An EVENT_IN edge is stamped into the pin's FIFO, or counted as too close or lost. The pin, the edge, and
  the raw units into the clock. -/
  | tioEventEdge (pin : Nat) (rising : Bool) (sub : Nat)
  /-- `TIO_EVENT_NEXT` (R382). A read of TIO.EVENT.NEXT returns and removes the oldest pin entry. -/
  | tioEventNext (pin : Nat)
  /-- `CAPTURE_NEXT` (R399). A read of STAMP.CAPTURE.NEXT returns and removes the oldest capture record. -/
  | captureNext
  /-- `WATCH_CLEAR` (R408). A write of WATCH.CLEAR clears a stream's watch results at its boundary. -/
  | watchClear (stream : Nat)
  /-- `WATCH_REPORT` (R409). At each report period a watched stream may send a STREAM_EXTREME record. -/
  | watchReport (stream : Nat)
  /-- `MAT_ENABLE` (R415). Writing MAT.ENABLE 1 puts the device into a mat as JOINING. -/
  | matEnable
  /-- `MAT_DATA_FRAME` (R424). A DATA frame from a trunk is forwarded from its transit header without lookups. The port, and whether the
  frame is preemptible. -/
  | matDataFrame (port : Nat) (pre : Bool)
  /-- `HEARTBEAT_SEND` (R429). Every HEARTBEAT.INTERVAL ticks a member sends heartbeats on trunks and the management network. -/
  | heartbeatSend
  /-- `HEARTBEAT` (R430). A received heartbeat keeps its sender reachable by that path and updates mat state. The path (0 trunk, 1
  management datagram with its tag, 2 relay) and the message of R427. -/
  | heartbeat (path : Nat) (message : List Byte)
  /-- `HEARTBEAT_TIMEOUT` (R430). No heartbeat on a path for HEARTBEAT.TIMEOUT ticks makes the member unreachable by it. -/
  | heartbeatTimeout (device path : Nat)
  /-- `LEASE_REQUEST` (R433). A voter receives a lease claim or renewal and refuses, grants or collects it. The path (0 trunk, 1
  management datagram with its tag, 2 relay) and the message of R427. -/
  | leaseRequest (path : Nat) (message : List Byte)
  /-- `LEASE_COLLECT_END` (R433). After MAT.LEASE.COLLECT ticks the voter grants to the last holder or lowest device and refuses others. -/
  | leaseCollectEnd
  /-- `LEASE_GRANT` (R434). A received grant counts towards holding the lease for its term. The path (0 trunk, 1 management datagram
  with its tag, 2 relay) and the message of R427. -/
  | leaseGrant (path : Nat) (message : List Byte)
  /-- `LEASE_REFUSE` (R433). A received refusal ends the request for that voter. The path (0 trunk, 1 management datagram with its tag,
  2 relay) and the message of R427. -/
  | leaseRefuse (path : Nat) (message : List Byte)
  /-- `LEASE_RENEWAL_SEND` (R434). The master sends a renewal every MAT.LEASE.RENEW ticks. -/
  | leaseRenewalSend
  /-- `LEASE_END` (R434). A master whose lease end arrives unrenewed becomes ISOLATED. -/
  | leaseEnd
  /-- `LEASE_CLAIM` (R435). The standby claims the next term once its voter end plus guard has passed without renewal. -/
  | leaseClaim
  /-- `MASTERLESS_TIMEOUT` (R435). A member that hears no master for DURATION plus GUARD ticks claims or becomes ISOLATED. -/
  | masterlessTimeout
  /-- `TABLE_UPDATE` (R441). A received TABLE_UPDATE is ordered and broadcast by the master, or queued for application by a member. The
  path (0 trunk, 1 management datagram with its tag, 2 relay) and the message of R427. -/
  | tableUpdate (path : Nat) (message : List Byte)
  /-- `SYNC_RECORD_APPLY` (R442). A broadcast SET or DELETE is applied in the learning slots of the member. -/
  | syncRecordApply
  /-- `TABLE_ACK` (R441). A member's acknowledgement of applied updates reaches the master. The path (0 trunk, 1 management datagram
  with its tag, 2 relay) and the message of R427. -/
  | tableAck (path : Nat) (message : List Byte)
  /-- `SIGNATURE_SEND` (R444). Every 2,000,000 ticks the master sends a SIGNATURE of sampled updates. -/
  | signatureSend
  /-- `SIGNATURE` (R444). The standby compares a received signature with its own and may become SUSPECT or UNFIT. The path (0 trunk, 1
  management datagram with its tag, 2 relay) and the message of R427. -/
  | signature (path : Nat) (message : List Byte)
  /-- `RESYNC_REQUEST` (R439). The master sends every learned entry followed by RESYNC_DONE. The path (0 trunk, 1 management datagram
  with its tag, 2 relay) and the message of R427. -/
  | resyncRequest (path : Nat) (message : List Byte)
  /-- `RESYNC_DONE` (R439). A rejoining device becomes MEMBER or STANDBY after applying RESYNC_DONE. The path (0 trunk, 1 management
  datagram with its tag, 2 relay) and the message of R427. -/
  | resyncDone (path : Nat) (message : List Byte)
  /-- `MAT_REJOIN` (R439). A write of MAT.REJOIN 1 leaves isolated state, flushes foreign entries and resynchronises. -/
  | matRejoin
  /-- `TIME_REQ_SEND` (R445). Every MAT.TIME.INTERVAL ticks a member sends a TIME_REQ to the master. -/
  | timeReqSend
  /-- `TIME_REQ` (R445). The master answers a TIME_REQ with a TIME_RESP carrying t2 and t3. -/
  | timeReq (port seq sub : Nat)
  /-- `TIME_RESP` (R445). A member computes reference C from the four stamps of a response. The port, the SEQ echoed, the two stamps it
  carries in 2⁻¹⁶ ns, and the raw units into the clock at which it arrives. -/
  | timeResp (port seq t2 t3 sub : Nat)
  /-- `TIME_RESP_TIMEOUT` (R445). A response not arriving within MAT.TIME.INTERVAL ticks is counted lost. -/
  | timeRespTimeout
  /-- `LEARNING_EXECUTE` (R191). Learning requests of the previous tick are carried out as inserts or moves in the learning slots. -/
  | learningExecute
  /-- `SWEEP_PASS_START` (R197). A sweep pass begins at each multiple of EM.AGE.INTERVAL, or late after the previous pass. -/
  | sweepPassStart
  /-- `SWEEP_VISIT` (R198). The sweeper visits a bucket, clearing hit bits, setting clear-seen or staging removals. -/
  | sweepVisit (bank : Nat)
  /-- `EM_INSERT` (R201). A batch INSERT record writes a key into the lowest free way of its bucket. -/
  | emInsert
  /-- `EM_DELETE` (R201). A batch DELETE record makes an entry invalid by key or by position. -/
  | emDelete
  /-- `EM_READ` (R201). A batch READ record returns an entry's words and bits. -/
  | emRead
  /-- `EM_REPLACE` (R201). A batch REPLACE record rewrites an entry's result or whole way. -/
  | emReplace
  /-- `EM_SEARCH` (R201). A batch SEARCH record returns the lowest matching valid entry. -/
  | emSearch
  /-- `EM_FLUSH` (R201). A batch FLUSH record invalidates every matching entry and counts them. -/
  | emFlush
  /-- `EM_BATCH_DONE` (R204). BUSY returns to 0 at the boundary opening the first tick in which every change is visible. -/
  | emBatchDone
  /-- `SHADOW_DATA_WRITE` (R206). A write of EM.SHADOW.DATA stores shadow records and advances the offset. -/
  | shadowDataWrite (data : List Byte)
  /-- `SHADOW_COMPARE_RANGE` (R207). A range of 512 entries is compared against the shadow by CRC, setting or skipping its mismatch bit. -/
  | shadowCompareRange (bank : Nat)
  /-- `FRER_RESET_TIMER` (R234). A recovery function's reset timer reaching 0 sets take_any and resets its history. -/
  | frerResetTimer (stream : Nat)
  /-- `CLASS_SWAP` (R165). A write of CLASS.SWAP stages a swap to a READY slot. -/
  | classSwap (slot : Nat)
  /-- `SLOT_DATA_WRITE` (R162). A write of CLASS.SLOT.DATA stores slot words and advances the offset. -/
  | slotDataWrite (slot : Nat) (data : List Byte)
  /-- `SLOT_SEAL` (R164). A write of CLASS.SLOT.SEAL starts the slot's CRC check and zeroes its rule counters. -/
  | slotSeal (slot rules lines crc : Nat)
  /-- `SEAL_CHECK_END` (R164). At the boundary after the seal check the slot becomes READY or FAILED. -/
  | sealCheckEnd (slot : Nat)
  /-- `WRITE_BACK` (R460). A corrected word is rewritten, or the write-back is abandoned for a newer write. The memory and die; whether
  another write reached the word since its finding. -/
  | writeBack (mem die : Nat) (raced : Bool)
  /-- `SCRUB_ACCESS` (R465). The scrubber reads one access unit, scheduling write-backs or writing poison. The memory and die, whether a
  consumer read instead of the scrubber, the words found other than clean. -/
  | scrubAccess (mem die : Nat) (requested : Bool) (words : List ScrubWord)
  /-- `HBM_CORRECTION_COLLECT` (R467). Once per second the stacks' corrections are collected into the counters. Corrections of each
  stack since the last collection; addresses of units that have become uncorrectable. -/
  | hbmCorrectionCollect (counts bad : List Nat)
  /-- `FLIP_ARM` (R469). A write of INTEG.FLIP.ARM 1 arms the mask for the target's next consumer write. -/
  | flipArm
  /-- `FLIP_DISARM` (R469). A write of INTEG.FLIP.ARM 0 disarms the flip. -/
  | flipDisarm
  /-- `LOG_CLEAR` (R462). A write of INTEG.LOG.CLEAR clears one or every correction-log entry. -/
  | logClear (entry : Nat)
  /-- `UE_LOG_CLEAR` (R463). A write of INTEG.UE_LOG.CLEAR clears uncorrectable-log entries. -/
  | ueLogClear (entry : Nat)
  /-- `EM_RETIRE` (R471). A write of INTEG.EM.RETIRE retires a position, relocating its entry if possible. -/
  | emRetire (position : Nat)
  /-- `EM_UNRETIRE` (R471). A write of INTEG.EM.UNRETIRE returns a position to use. -/
  | emUnretire (position : Nat)
  /-- `COUNTER_WRITE` (R479). A write of a counter object sets its words and sticky bits and clears poison. -/
  | counterWrite (idx sub inst : Nat) (words : List Nat)
  /-- `DUMP_DUE` (R480). A counter dump falls due, its snapshot is taken and the engine begins writing, or it is skipped. -/
  | dumpDue
  /-- `DUMP_COMPLETE` (R483). After the last body byte the header is completed with COMPLETE 1 and the dump interrupt signalled. -/
  | dumpComplete
  /-- `HBM_READ_DATA` (R484). A read of CTR.HBM_READ.DATA returns bytes of a dump or spore ring from HBM. -/
  | hbmReadData
  /-- `WINDOW_CLOSE` (R487). A port's bandwidth window closes and its result is set. -/
  | windowClose (port : Nat)
  /-- `SPORE_RING_RESET` (R490). A write of the spore ring base, size or mode empties the ring. -/
  | sporeRingReset (base records mode : Nat)
  /-- `ACCUMULATOR_CLOSE` (R499). An open accumulator closes after its hold and its record joins the write queue. -/
  | accumulatorClose (code : Nat)
  /-- `RECORD_WRITE` (R502). Every two ticks the writer writes one queued record to MRAM, or discards it when full. -/
  | recordWrite
  /-- `REC_CLEAR` (R504). A write of REC.CLEAR 1 starts clearing the event store. -/
  | recClear
  /-- `REC_CLEAR_DONE` (R504). Clearing completes, WRITE_INDEX returns to 0 and recording resumes. -/
  | recClearDone
  /-- `REC_WINDOW` (R509). A read of REC.WINDOW returns valid records from the cursor. -/
  | recWindow
  /-- `JOURNAL_START` (R513). A write of JOURNAL.START 1 starts the journal and its checkpoint at its boundary. -/
  | journalStart
  /-- `JOURNAL_START_WHEN_CLEAN` (R513). A write of JOURNAL.START 2 waits for an empty fabric before starting. -/
  | journalStartWhenClean
  /-- `JOURNAL_CLEAN_START` (R513). The first clean boundary starts a waiting journal with CLEAN_START 1. -/
  | journalCleanStart
  /-- `CHECKPOINT_DONE` (R521). The checkpoint copy completes and its header is written. -/
  | checkpointDone
  /-- `JOURNAL_STOP` (R524). A write of JOURNAL.STOP 1 ends recording and writes the END record. -/
  | journalStop
  /-- `JOURNAL_FULL` (R524). The journal area filling ends recording with reason FULL. -/
  | journalFull
  /-- `JOURNAL_TRIGGER` (R524). TRIGGER.AFTER ticks after the trigger code's occurrence the journal stops. -/
  | journalTrigger
  /-- `REPLAY_START` (R525). A write of REPLAY.START 1 enters maintenance mode and loads the checkpoint. -/
  | replayStart
  /-- `REPLAY_LOAD_END` (R526). Loading ends and replay ticks begin from START_TICK, or the state becomes FAILED. -/
  | replayLoadEnd
  /-- `REPLAY_FRAME_ENTRY` (R527). A journalled frame record enters its pipeline at its recorded clock. -/
  | replayFrameEntry
  /-- `REPLAY_END` (R530). Replay stops at STOP_TICK or the END record and reads DONE. -/
  | replayEnd
  /-- `JOURNAL_HBM_DATA_WRITE` (R534). A write of JOURNAL.HBM.DATA loads journal or checkpoint bytes in maintenance mode. -/
  | journalHbmDataWrite (data : List Byte)
  /-- `JOURNAL_HBM_DATA_READ` (R534). A read of JOURNAL.HBM.DATA returns bytes of the journal, checkpoint or result area. -/
  | journalHbmDataRead
  /-- `PERTURB_LOCK` (R536). A write of PERTURB.LOCK 1 bars arming until a cold reset. -/
  | perturbLock
  /-- `PERTURB_CLEAR` (R546). A write of PERTURB.CLEAR 1 disables and defaults every item and lifts delays. -/
  | perturbClear
  /-- `PULSE_START` (R539). A back-pressure pulse starts at its offset and holds a pipeline or port for its length. -/
  | pulseStart (entry : Nat)
  /-- `PULSE_END` (R539). A pulse's length elapses and the held unit resumes. -/
  | pulseEnd (entry : Nat)
  /-- `EPOCH_STALL` (R542). A stall entry holds the named pipelines for its length at tick start or swap. -/
  | epochStall (entry : Nat)
  /-- `BLUNTOAK_HELLO` (R558). A HELLO is answered with CHALLENGE naming a session slot, or REJECT. The entry (0 window, 1 and 2 the
  management ports), the source (address × 65536 + UDP port), the message. -/
  | bluntoakHello (entry source : Nat) (message : List Byte)
  /-- `BLUNTOAK_OPEN` (R558). An OPEN tagged with the session key opens the session and is answered OPENED. The entry (0 window, 1 and 2
  the management ports), the source (address × 65536 + UDP port), the message. -/
  | bluntoakOpen (entry source : Nat) (message : List Byte)
  /-- `BLUNTOAK_CLOSE` (R562). A CLOSE ends the session and is answered CLOSED. The entry (0 window, 1 and 2 the management ports), the
  source (address × 65536 + UDP port), the message. -/
  | bluntoakClose (entry source : Nat) (message : List Byte)
  /-- `OP_READ` (R569). A READ record returns an object's value, or a snapshot handle for a large one. The entry (0 window, 1 and 2 the
  management ports), the source (address × 65536 + UDP port), the message. -/
  | opRead (entry source : Nat) (message : List Byte)
  /-- `OP_WRITE` (R566). A WRITE record is checked and staged for its boundary. The entry (0 window, 1 and 2 the management ports), the
  source (address × 65536 + UDP port), the message. -/
  | opWrite (entry source : Nat) (message : List Byte)
  /-- `OP_WRITE_SEG` (R570). A WRITE_SEG record adds a segment of a BLOB or STR write, accepted at FINAL. The entry (0 window, 1 and 2
  the management ports), the source (address × 65536 + UDP port), the message. -/
  | opWriteSeg (entry source : Nat) (message : List Byte)
  /-- `OP_READ_SEG` (R569). A READ_SEG record returns a piece of a held snapshot. The entry (0 window, 1 and 2 the management ports),
  the source (address × 65536 + UDP port), the message. -/
  | opReadSeg (entry source : Nat) (message : List Byte)
  /-- `GROUP_BEGIN` (R571). GROUP_BEGIN opens the session's commit group. The entry (0 window, 1 and 2 the management ports), the source
  (address × 65536 + UDP port), the message. -/
  | groupBegin (entry source : Nat) (message : List Byte)
  /-- `GROUP_COMMIT` (R571). GROUP_COMMIT checks the group and stages it whole, or refuses it. The entry (0 window, 1 and 2 the
  management ports), the source (address × 65536 + UDP port), the message. -/
  | groupCommit (entry source : Nat) (message : List Byte)
  /-- `GROUP_ABORT` (R564). GROUP_ABORT discards the open group. The entry (0 window, 1 and 2 the management ports), the source (address
  × 65536 + UDP port), the message. -/
  | groupAbort (entry source : Nat) (message : List Byte)
  /-- `OP_DESCRIBE` (R565). A DESCRIBE record returns an object's descriptor or the next one's. The entry (0 window, 1 and 2 the
  management ports), the source (address × 65536 + UDP port), the message. -/
  | opDescribe (entry source : Nat) (message : List Byte)
  /-- `CHALLENGE_TIMEOUT` (R558). A slot held by an unanswered CHALLENGE for 2,000,000 ticks is freed. -/
  | challengeTimeout (slot : Nat)
  /-- `SESSION_IDLE_TIMEOUT` (R562). A session idle for DICT.SESSION_IDLE seconds closes. -/
  | sessionIdleTimeout (slot : Nat)
  /-- `HELLO_LOCKOUT_END` (R559). After 20,000,000 ticks a locked-out source may send HELLO again. -/
  | helloLockoutEnd (address : Nat)
  /-- `SNAPSHOT_TIMEOUT` (R569). A snapshot unread for 2,000,000 ticks is freed. -/
  | snapshotTimeout (slot handle : Nat)
  /-- `DICT_KEY_WRITE` (R562). A write of a role key sets it and closes that role's sessions. -/
  | dictKeyWrite (role : Nat) (key : List Byte)
  /-- `WINDOW_DOORBELL` (R573). A DOORBELL write submits the PCIe window's REQUEST message. The value written, and what the REQUEST area
  holds. -/
  | windowDoorbell (value : Nat) (message : List Byte)
  /-- `WINDOW_ACK` (R573). An ACK write clears READY and frees the RESPONSE buffer. -/
  | windowAck (value : Nat)
  /-- `ARP_REQUEST` (R555). A management port answers ARP for its IPv4 address. The management port and the frame with its FCS. -/
  | arpRequest (port : Nat) (frame : List Byte)
  /-- `NEIGHBOUR_SOLICITATION` (R555). A management port answers IPv6 neighbour solicitation. The management port and the frame with its
  FCS. -/
  | neighbourSolicitation (port : Nat) (frame : List Byte)
  /-- `ECHO_REQUEST` (R555). A management port answers ICMP and ICMPv6 echo. The management port and the frame with its FCS. -/
  | echoRequest (port : Nat) (frame : List Byte)
  /-- `RING_ENABLE` (R582). Enabling a host ring resets its indexes and phase. -/
  | ringEnable (ring : Nat)
  /-- `RING_DISABLE` (R595). Disabling a ring drops its backlog and frees its buffers. -/
  | ringDisable (ring : Nat)
  /-- `SQ_TAIL` (R583). An SQ_TAIL doorbell lets the device read new commands. -/
  | sqTail (ring value : Nat)
  /-- `CQ_HEAD` (R584). A CQ_HEAD doorbell frees completion entries for backlogged deliveries. -/
  | cqHead (ring value : Nat)
  /-- `FETCH` (R589). A FETCH command copies buffer bytes to host memory, optionally freeing the buffer. The ring and the submission
  entry read. -/
  | fetch (ring : Nat) (entry : List Byte)
  /-- `FREE` (R310). A FREE command returns a buffer to its pool, refusing double or foreign frees. The ring and the submission entry
  read. -/
  | free (ring : Nat) (entry : List Byte)
  /-- `HAND` (R310). A HAND command gives a buffer to another ring. The ring and the submission entry read. -/
  | hand (ring : Nat) (entry : List Byte)
  /-- `INJECT` (R590). An INJECT command takes a frame from host memory or a buffer for injection. The ring, the submission entry, the
  bytes read from host memory, and whether that read succeeded. -/
  | inject (ring : Nat) (entry frame : List Byte) (readOk : Bool)
  /-- `INJECTED_FRAME_ENTRY` (R591). A queued injected frame enters its pipeline as a first pass. -/
  | injectedFrameEntry (pipeline : Nat)
  /-- `DELIVERY_COMPLETE` (R586). A host delivery's last byte reaches its buffer and a RECEIVE completion is written or backlogged. -/
  | deliveryComplete (ring : Nat)
  /-- `COALESCE_TIMEOUT` (R597). Completions waiting COALESCE_TICKS raise the ring's interrupt vector. -/
  | coalesceTimeout (ring : Nat)
  /-- `HOST_LINK_DOWN` (R594). The PCIe link falling ends commands in progress with PCIE_ERROR and stops deliveries. -/
  | hostLinkDown
  /-- `PCIE_HOT_RESET` (R601). A PCIe Hot Reset or FLR resets the host interface, or the device warm when PCIE_WARM is 1. -/
  | pcieHotReset
  /-- `PCIE_PERST` (R656). PCIE_PERST_N low holds the host interface in reset. -/
  | pciePerst (low : Bool)
  /-- `POWER_ON_RESET` (R603). A rail leaving regulation and returning restarts the whole device, crust included. How many bytes of a
  recorder write under way were made. -/
  | powerOnReset (cut : Nat)
  /-- `COLD_RESET` (R603). RESET_N low and released restarts every die except the crust's MRAM and keepers. Whether the crust could
  write its queue out first; else how many bytes of a write under way were made. -/
  | coldReset (waited : Bool) (cut : Nat)
  /-- `OSC_LOSS` (R640). TB_OSC absent for 2 µs stops every die but the crust and causes a cold reset. How many bytes of a recorder
  write under way were made. -/
  | oscLoss (cut : Nat)
  /-- `START_UP` (R616). The device qualifies clocks, clears SRAM, trains HBM, loads the seed and opens the dictionary. The bytes of the
  two copies in the flash, and the byte the regulator answers for VOUT_MODE, if it answers. -/
  | startUp (copyA copyB : List Byte) (voutMode : Option Nat)
  /-- `WARM_RESET` (R604). A warm reset writes the recorder queue, discards sessions, queues and W items, adopts the level and reloads
  the seed. The cause code of R601. -/
  | warmReset (cause : Nat)
  /-- `SORUS_RESET_LOGIC` (R605). A sorus reset of form LOGIC discards its packets and restores its state while lanes keep lock. -/
  | sorusResetLogic (sorus : Nat)
  /-- `SORUS_RESET_LANES` (R605). A sorus reset of form LANES also resets the lane complex. -/
  | sorusResetLanes (sorus : Nat)
  /-- `SORUS_RESET_END` (R605). At B + 2,000 the sorus returns its ports to UP or starts bring-up. -/
  | sorusResetEnd (sorus : Nat)
  /-- `PIPELINE_FLUSH` (R606). A pipeline flush discards its packets and holds it for 64 clocks. -/
  | pipelineFlush (pipeline : Nat)
  /-- `SORUS_PARK` (R618). Writing POWER.SORUS.PARK 1 flushes its queues and powers the sorus down. -/
  | sorusPark (sorus : Nat)
  /-- `SORUS_WAKE` (R619). A write of PARK 0 or a wake match wakes a parked sorus through a LOGIC reset. -/
  | sorusWake (sorus : Nat)
  /-- `IDLE_EXIT` (R620). The hub leaves idle 200 ticks after a sorus wake. -/
  | idleExit
  /-- `RECOVERY_START` (R627). A recovery action starts at the boundary after its fault and holds its window. -/
  | recoveryStart
  /-- `RECOVERY_WINDOW_END` (R627). A recovery window ends and the subsystem's queue head starts. -/
  | recoveryWindowEnd
  /-- `ISOLATION_ENTRY` (R632). The device enters isolated state, forwarding with frozen tables and views in holdover. -/
  | isolationEntry
  /-- `TEMPERATURE_SAMPLE` (R652). Every 2,000 ticks all thirteen sensors are read and TEMP_ALERT_N set. The thirteen readings in units
  of 0.0625 degrees C: dies 0 to 8, then HBM stacks 0 to 3. -/
  | temperatureSample (readings : List Int)
  /-- `PMB_ALERT` (R644). PMB_ALERT_N asserted is counted and STATUS_WORD read. The STATUS_WORD the regulator answers. -/
  | pmbAlert (status : Nat)
  /-- `AVS_STEP` (R644). At most once per 2,000 ticks the rail moves 5 mV towards its target over PMBus. Whether the regulator
  acknowledged the step, and its READ_VOUT in mV and READ_IOUT in A. -/
  | avsStep (ack : Bool) (vout iout : Nat)
  /-- `AVS_RETRY` (R644). A failed PMBus transaction is retried at 100 µs intervals up to three times. The same for a retry. -/
  | avsRetry (ack : Bool) (vout iout : Nat)
  /-- `AVS_READBACK` (R644). Every 20,000 ticks READ_VOUT and READ_IOUT are read. READ_VOUT in mV and READ_IOUT in A. -/
  | avsReadback (vout iout : Nat)
  /-- `OPERATING_SECOND` (R668). Each second of operation the crust advances its keepers and a temperature-history bin. -/
  | operatingSecond
  /-- `AGE_SAMPLE_START` (R661). At each sample period the ring oscillators and path monitors begin a 2,000-tick count. -/
  | ageSampleStart
  /-- `AGE_SAMPLE_END` (R662). The count ends and margins, budget and projected years are computed. By die, the shifts of the ring
  oscillators in ppm and the slacks of the path monitors in ps. -/
  | ageSampleEnd (shifts slacks : List (List Int))
  /-- `VMIN_TEST` (R661). The SRAM minimum-voltage arrays are stepped down to find AGE.VMIN. By die, the lowest step in mV at which the
  array passed. -/
  | vminTest (steps : List Nat)
  /-- `PLANNER_DECISION` (R663). After a sample the margin planner may raise the target, write lane guards and propose a plan. -/
  | plannerDecision
  /-- `PLAN_RELEARN` (R664). A write of AGE.PLAN.RELEARN 1 returns the target to the boot setpoint. -/
  | planRelearn
  /-- `REPLACE_MAINTAIN` (R674). A write of AGE.REPLACE.MAINTAIN 1 enters maintenance mode without a load. -/
  | replaceMaintain
  /-- `REPLACE_ADOPT` (R674). A write of AGE.REPLACE.ADOPT 1 checks and adopts a journal from another unit. -/
  | replaceAdopt
  /-- `RC_READ` (R14). A read of an RC object returns its value and clears it in the same clock. The object, its instance and sub, the
  first element read and how many. -/
  | rcRead (idx inst sub first count : Nat)
  /-- `OBJECT_WRITE` (R20). A write of an object with no row of its own sets its value at its boundary. The object, its instance and
  sub, the byte offset in an array, the payload. -/
  | objectWrite (idx inst sub off : Nat) (data : List Byte)
  /-- `SORUS_LINK_CRC_ERROR` (R27). A die-to-die transfer fails its CRC, is counted and retried, sets DEGRADED, and on a third
  successive failure declares a link fault of the sorus. The sorus and which failure in succession of the transfer this is, 1 to 3. -/
  | sorusLinkCrcError (sorus attempt : Nat)
  /-- `SIGNAL_DETECT` (R678). Signal is detected and clock recovery locks on every lane of a port in bring-up, letting auto-negotiation,
  training or PCS lock proceed. -/
  | signalDetect (port : Nat)
  /-- `FEC_CODEWORD_DECODED` (R62). The receive FEC decodes a codeword, counting corrections per port and per lane and uncorrectable
  codewords towards the eight that take a port down. The port, the symbols corrected on each physical lane, whether the codeword was
  uncorrectable. -/
  | fecCodewordDecoded (port : Nat) (symbols : List (Nat × Nat)) (uncorrectable : Bool)
  /-- `HOST_LINK_UP` (R594). The PCIe link trains and HOST.LINK.STATE becomes UP, so deliveries, command reads, interrupts and host
  dumps resume. -/
  | hostLinkUp (speed width : Nat)
  /-- `BUS_MASTER_ENABLE_CHANGE` (R594). The host changes Bus Master Enable in configuration space, stopping or resuming deliveries,
  command reads, interrupts and host dumps. -/
  | busMasterEnableChange (enable : Bool)
  /-- `MSIX_UNMASK` (R596). The host unmasks an MSI-X vector whose pending bit is set, and the device sends its message. -/
  | msixUnmask (vector : Nat)
  /-- `OSC_RESTORED` (R640). TB_OSC has run again for 2 microseconds after a loss, releasing the held dies and starting the cold start. -/
  | oscRestored
  /-- `REPLAY_FLOW_RECORD` (R528). During replay a FLOW record is taken at its recorded clock under the PAUSE, PFC or credit rules. -/
  | replayFlowRecord
  /-- `STASH_DONE` (R314). The last cell of a stashed buffer has been read into its HBM slot, its cells return to the free store and
  waiting commands act on the slot. -/
  | stashDone (handle : Nat)
  /-- `FETCH_DONE` (R589). A FETCH copy to host memory completes, its FETCH_DONE completion is written and any FREE_AFTER is applied. -/
  | fetchDone (ring : Nat) (ok : Bool)
  /-- `CLAIM_RETRY` (R435). A lease claim that found no majority is made again after 2 times COLLECT plus 1,000 times MAT.DEVICE ticks. -/
  | claimRetry
  deriving DecidableEq, Repr

end Sys2Proof
end

