-- ==== Sys2Proof/WellFormed.lean ====
section
/-! DEFINITION. Which commands name units the device has (R5). -/
namespace Sys2Proof

/-- A number below the count of units of its kind. -/
def below (x n : Nat) : Bool := decide (x < n)

/-- A memory and the die that holds it (R454): 1 to 7 in the hub, 8 and 9 in a sorus. -/
def memoryOf (mem die : Nat) : Bool := (decide (1 ≤ mem ∧ mem ≤ 7) && die == 8) || ((mem == 8 || mem == 9) && decide (die < 8))

/-- An address within the 64 GiB of HBM (R37). -/
def hbmAddr (a : Nat) : Bool := decide (a < 0x1000000000)

/-- A generation and a width that HOST.LINK.SPEED and HOST.LINK.WIDTH can name. -/
def linkSpeed (speed width : Nat) : Bool := decide (1 ≤ speed ∧ speed ≤ 5) && (width == 1 || width == 2 || width == 4)

/-- Lanes that exist. -/
def lanesOk (symbols : List (Nat × Nat)) : Bool := symbols.all fun x => below x.1 1024

/-- Every HBM address that the command names exists (R37). -/
def Instr.addressed (i : Instr) : Bool :=
  match i with
  | .refillComplete addr _ => hbmAddr addr
  | .hbmCorrectionCollect _ bad => bad.all hbmAddr
  | _ => true

/-- The command names units that the device has. -/
def Instr.wf (i : Instr) : Bool :=
  match i with
  | .tickBoundary _ _ => true
  | .refclkComparison sorus _ _ => below sorus 8
  | .portEnable port => below port 1024
  | .octetConfigChange octet _ _ _ => below octet 128
  | .autoNegotiationComplete port _ => below port 1024
  | .linkTrainingComplete port => below port 1024
  | .pcsLock port => below port 1024
  | .bringUpTimeout port => below port 1024
  | .linkLoss port => below port 1024
  | .linkRestart port => below port 1024
  | .eyeScan lane _ _ => below lane 1024
  | .shedHelloSend port => below port 1024
  | .peerCapableTimeout port => below port 1024
  | .shedWindowEnd port => below port 1024
  | .restoreWindowEnd port => below port 1024
  | .shedHelloReceived port _ => below port 1024
  | .shedRequestReceived port _ _ => below port 1024
  | .shedAcceptReceived port _ _ => below port 1024
  | .shedRefuseReceived port _ _ => below port 1024
  | .shedSwitchedReceived port _ => below port 1024
  | .restoreNowReceived port _ _ => below port 1024
  | .shedBadFrame port => below port 1024
  | .shedRequestTimeout port => below port 1024
  | .changeoverHoldStart port => below port 1024
  | .changeoverHoldEnd port => below port 1024
  | .laneWakeEnd port => below port 1024
  | .portPark port => below port 1024
  | .portUnpark port => below port 1024
  | .frameReception port _ _ _ _ _ => below port 1024
  | .frameHandOff port _ => below port 1024
  | .flowControlRefresh port => below port 1024
  | .frameEnd port _ => below port 1024
  | .tailCheck port => below port 1024
  | .pauseFrameReceived port _ => below port 1024
  | .pfcFrameReceived port _ _ => below port 1024
  | .macControlOther port _ => below port 1024
  | .pauseTimerExpiry port cls => below port 1024 && below cls 8
  | .preemptionVerification port _ => below port 1024
  | .schedulerChoice port _ _ => below port 1024
  | .gateClosePreemption port => below port 1024
  | .copyLastByte port _ => below port 1024
  | .recirculationPass sorus => below sorus 8
  | .captureJob => true
  | .refillComplete addr _ => addr < 0x800000000
  | .creditFrameSend port => below port 1024
  | .creditFrameReceived port _ => below port 1024
  | .creditStall queue => below queue 16384
  | .holdExpiry port => below port 1024
  | .stash _ => true
  | .poolQuarantine cell => below cell 1048576
  | .poolUnquarantine cell => below cell 1048576
  | .gateConfigInstall port => below port 1024
  | .gateConfigCancel port => below port 1024
  | .gateListChange port => below port 1024
  | .streamGateListChange gate => below gate 256
  | .timeViewSet view _ => below view 4
  | .timeViewStep view _ => below view 4
  | .timeViewIncrement view _ => below view 4
  | .holdoverEntry view => below view 4
  | .refAWrite _ => true
  | .refBEdge pin _ sub => below pin 9 && below sub 64
  | .refBLabelTimeout => true
  | .todInMessage pin _ => below pin 8
  | .referenceVote => true
  | .voteRelease => true
  | .ppsOutPulse pin => below pin 8
  | .todOutMessage pin => below pin 8
  | .tioEventEdge pin _ sub => below pin 8 && below sub 64
  | .tioEventNext pin => below pin 8
  | .captureNext => true
  | .watchClear stream => below stream 65536
  | .watchReport stream => below stream 65536
  | .matEnable => true
  | .matDataFrame port _ => below port 1024
  | .heartbeatSend => true
  | .heartbeat path _ => below path 3
  | .heartbeatTimeout device path => below device 8 && below path 3
  | .leaseRequest path _ => below path 3
  | .leaseCollectEnd => true
  | .leaseGrant path _ => below path 3
  | .leaseRefuse path _ => below path 3
  | .leaseRenewalSend => true
  | .leaseEnd => true
  | .leaseClaim => true
  | .masterlessTimeout => true
  | .tableUpdate path _ => below path 3
  | .syncRecordApply => true
  | .tableAck path _ => below path 3
  | .signatureSend => true
  | .signature path _ => below path 3
  | .resyncRequest path _ => below path 3
  | .resyncDone path _ => below path 3
  | .matRejoin => true
  | .timeReqSend => true
  | .timeReq port _ sub => below port 1024 && below sub 64
  | .timeResp port _ _ _ sub => below port 1024 && below sub 64
  | .timeRespTimeout => true
  | .learningExecute => true
  | .sweepPassStart => true
  | .sweepVisit bank => below bank 256
  | .emInsert => true
  | .emDelete => true
  | .emRead => true
  | .emReplace => true
  | .emSearch => true
  | .emFlush => true
  | .emBatchDone => true
  | .shadowDataWrite _ => true
  | .shadowCompareRange bank => below bank 256
  | .frerResetTimer stream => below stream 65536
  | .classSwap slot => below slot 2
  | .slotDataWrite slot _ => below slot 2
  | .slotSeal slot _ _ _ => below slot 2
  | .sealCheckEnd slot => below slot 2
  | .writeBack mem die _ => memoryOf mem die
  | .scrubAccess mem die _ _ => memoryOf mem die
  | .hbmCorrectionCollect _ bad => bad.all hbmAddr
  | .flipArm => true
  | .flipDisarm => true
  | .logClear _ => true
  | .ueLogClear _ => true
  | .emRetire position => below position 4194304
  | .emUnretire _ => true
  | .counterWrite _ _ _ _ => true
  | .dumpDue => true
  | .dumpComplete => true
  | .hbmReadData => true
  | .windowClose port => below port 1024
  | .sporeRingReset _ _ _ => true
  | .accumulatorClose _ => true
  | .recordWrite => true
  | .recClear => true
  | .recClearDone => true
  | .recWindow => true
  | .journalStart => true
  | .journalStartWhenClean => true
  | .journalCleanStart => true
  | .checkpointDone => true
  | .journalStop => true
  | .journalFull => true
  | .journalTrigger => true
  | .replayStart => true
  | .replayLoadEnd => true
  | .replayFrameEntry => true
  | .replayEnd => true
  | .journalHbmDataWrite _ => true
  | .journalHbmDataRead => true
  | .perturbLock => true
  | .perturbClear => true
  | .pulseStart entry => below entry 64
  | .pulseEnd entry => below entry 64
  | .epochStall entry => below entry 8
  | .bluntoakHello _ _ _ => true
  | .bluntoakOpen _ _ _ => true
  | .bluntoakClose _ _ _ => true
  | .opRead _ _ _ => true
  | .opWrite _ _ _ => true
  | .opWriteSeg _ _ _ => true
  | .opReadSeg _ _ _ => true
  | .groupBegin _ _ _ => true
  | .groupCommit _ _ _ => true
  | .groupAbort _ _ _ => true
  | .opDescribe _ _ _ => true
  | .challengeTimeout slot => below slot 16
  | .sessionIdleTimeout slot => below slot 16
  | .helloLockoutEnd _ => true
  | .snapshotTimeout slot handle => below slot 16 && below handle 8
  | .dictKeyWrite _ _ => true
  | .windowDoorbell _ _ => true
  | .windowAck _ => true
  | .arpRequest port _ => below port 2
  | .neighbourSolicitation port _ => below port 2
  | .echoRequest port _ => below port 2
  | .ringEnable ring => below ring 16
  | .ringDisable ring => below ring 16
  | .sqTail ring _ => below ring 16
  | .cqHead ring _ => below ring 16
  | .fetch ring _ => below ring 16
  | .free ring _ => below ring 16
  | .hand ring _ => below ring 16
  | .inject ring _ _ _ => below ring 16
  | .injectedFrameEntry pipeline => below pipeline 64
  | .deliveryComplete ring => below ring 16
  | .coalesceTimeout ring => below ring 16
  | .hostLinkDown => true
  | .pcieHotReset => true
  | .pciePerst _ => true
  | .powerOnReset _ => true
  | .coldReset _ _ => true
  | .oscLoss _ => true
  | .startUp _ _ _ => true
  | .warmReset _ => true
  | .sorusResetLogic sorus => below sorus 8
  | .sorusResetLanes sorus => below sorus 8
  | .sorusResetEnd sorus => below sorus 8
  | .pipelineFlush pipeline => below pipeline 64
  | .sorusPark sorus => below sorus 8
  | .sorusWake sorus => below sorus 8
  | .idleExit => true
  | .recoveryStart => true
  | .recoveryWindowEnd => true
  | .isolationEntry => true
  | .temperatureSample _ => true
  | .pmbAlert _ => true
  | .avsStep _ _ _ => true
  | .avsRetry _ _ _ => true
  | .avsReadback _ _ => true
  | .operatingSecond => true
  | .ageSampleStart => true
  | .ageSampleEnd _ _ => true
  | .vminTest _ => true
  | .plannerDecision => true
  | .planRelearn => true
  | .replaceMaintain => true
  | .replaceAdopt => true
  | .rcRead _ _ _ _ _ => true
  | .objectWrite _ _ _ _ _ => true
  | .sorusLinkCrcError sorus _ => below sorus 8
  | .signalDetect port => below port 1024
  | .fecCodewordDecoded port symbols _ => below port 1024 && lanesOk symbols
  | .hostLinkUp speed width => linkSpeed speed width
  | .busMasterEnableChange _ => true
  | .msixUnmask vector => below vector 64
  | .oscRestored => true
  | .replayFlowRecord => true
  | .stashDone _ => true
  | .fetchDone ring _ => below ring 16
  | .claimRetry => true

end Sys2Proof
end

