-- ==== Sys2Proof/Decode.lean ====
section
/-! DEFINITION. Reading a command from a word. The table of operations and events gives its rows no bits: the device takes commands from its pins,
links and registers, and none is spelt by a word. -/
namespace Sys2Proof

/-- The command that a word spells: none, as no row of the table has bits. -/
def decodeTableWord (_nbits _w : Nat) : Option Instr := none

end Sys2Proof
end

