-- ==== Sys2Proof/Config.lean ====
section
/-! DEFINITION. What the spec leaves open: free values, constants without a body that no proof can look into. Each takes the counter of free
values (a field of the state) or the operands it depends on. -/
namespace Sys2Proof.Config

/-- The FRAME_ID the fabric gives a stored frame: R241 states its range and not which record is taken (log entry 7). -/
opaque frameId : Nat → BitVec 20

/-- Whether a buffer cell is held by some frame or buffer, where the spec leaves the placement of cells open (R240, log entry 8). -/
opaque cellHeld : Nat → Nat → Bool

/-- A number for a value the spec leaves open, by the counter of free values (each use has its own log entry). -/
opaque freeNat : Nat → Nat

/-- Clocks of a packet's ingress lookup and of whatever else lies between its pipeline and admission (R152): fixed, and the spec gives none of them. -/
opaque lookupClocks : Nat

/-- A byte of a region of a checkpoint whose contents the spec does not give (R522), by the free value drawn for the checkpoint and the byte's offset in the
area; past the area, the bytes of those regions' CRCs. -/
opaque internalByte : Nat → Nat → BitVec 8

/-- What the internal regions of a checkpoint taken on another unit hold (R522), by the bytes of those regions: values under the model's keys of objects, the
views' parameter sets (view, raw value from which it holds, offset, anchor, increment). -/
opaque internalValues : List Byte → List (Nat × Int)
opaque internalViews : List Byte → List (Nat × Nat × Int × Nat × Nat)

/-- Ed25519 verification (RFC 8032): public key, message, signature (log entry 9). -/
opaque ed25519Verify : List Byte → List Byte → List Byte → Bool

end Sys2Proof.Config
end

