-- ==== Sys2Proof/Machine/Defaults.lean ====
section
/-! DEFINITION. The shipped parser set of R139 to R141 (descriptors, transitions, extractions, LUT 0), from which the defaults of the
PARSE.LAYER objects are read, and the default table of the buffer pools (R303). -/
namespace Sys2Proof.Machine

/-- Word 0 of a descriptor from its fields (R124). -/
def layerWord0 (mode zeroInvalid terminal group lutSel shift width off base min nextW nextO : Nat) : Nat :=
  2 ^ 63 + mode * 2 ^ 61 + zeroInvalid * 2 ^ 60 + terminal * 2 ^ 59 + group * 2 ^ 57 + lutSel * 2 ^ 55 + shift * 2 ^ 52 +
  width * 2 ^ 48 + off * 2 ^ 38 + base * 2 ^ 30 + min * 2 ^ 22 + nextW * 2 ^ 17 + nextO * 2 ^ 7

/-- The span half of word 1 (R125). -/
def layerSpan (zeroInvalid off adjust : Nat) : Nat := 2 ^ 63 + zeroInvalid * 2 ^ 62 + off * 2 ^ 52 + adjust * 2 ^ 44

/-- The fragment half of word 1 (R125). -/
def layerFrag (off mask : Nat) : Nat := 2 ^ 43 + off * 2 ^ 33 + mask * 2 ^ 17

/-- Word w of the shipped descriptor of a layer type (R139). -/
def shippedDesc (code w : Nat) : Nat :=
  match code, w with
  | 1, 0 => layerWord0 0 0 0 0 0 0 0 0 14 0 16 96
  | 2, 0 => layerWord0 0 0 0 0 0 0 0 0 4 0 16 16
  | 3, 0 => layerWord0 0 0 0 0 0 0 0 0 4 0 16 16
  | 4, 0 => layerWord0 0 0 0 0 0 0 0 0 4 0 16 23
  | 5, 0 => layerWord0 1 1 0 0 0 2 4 4 0 20 8 72
  | 6, 0 => layerWord0 0 0 0 0 0 0 0 0 40 0 8 48
  | 7, 0 => layerWord0 1 0 0 1 0 3 8 8 8 8 8 0
  | 8, 0 => layerWord0 1 0 0 1 0 3 8 8 8 8 8 0
  | 9, 0 => layerWord0 0 0 0 1 0 0 0 0 8 0 8 0
  | 10, 0 => layerWord0 1 0 0 1 0 3 8 8 8 8 8 0
  | 11, 0 => layerWord0 0 0 0 0 0 0 0 0 8 0 16 16
  | 12, 0 => layerWord0 1 1 1 0 0 2 4 96 0 20 0 0
  | 13, 0 => layerWord0 2 0 0 0 0 0 4 0 0 0 16 16
  | 14, 0 => layerWord0 0 0 0 0 0 0 0 0 8 0 0 0
  | 15, 0 => layerWord0 0 0 1 0 0 0 0 0 34 0 0 0
  | 16, 0 => layerWord0 0 0 1 0 0 0 0 0 14 0 0 0
  | 17, 0 => layerWord0 0 0 1 0 0 0 0 0 8 0 0 0
  | 5, 1 => layerSpan 1 16 0 + layerFrag 48 0x3FFF
  | 6, 1 => layerSpan 1 32 40
  | 9, 1 => layerFrag 16 0xFFF9
  | 11, 1 => layerSpan 1 32 0
  | 15, 1 => layerSpan 1 16 0
  | 16, 1 => layerSpan 1 16 0
  | 17, 1 => layerSpan 1 16 0
  | _, _ => 0

/-- A valid transition entry (R126). -/
def layerNext (value mask layer : Nat) : Nat := 2 ^ 63 + layer * 2 ^ 56 + value * 2 ^ 32 + mask * 2 ^ 16

/-- The shipped transitions of a layer type, in order (R139). -/
def shippedTransitions (code : Nat) : List (Nat × Nat × Nat) :=
  let ether := [(0x8100, 0xFFFF, 3), (0x88A8, 0xFFFF, 2), (0x8847, 0xFFFF, 4), (0x8848, 0xFFFF, 4), (0x0800, 0xFFFF, 5),
    (0x86DD, 0xFFFF, 6), (0x88F7, 0xFFFF, 15), (0x88BA, 0xFFFF, 17)]
  let ext := [(43, 0xFFFF, 8), (44, 0xFFFF, 9), (60, 0xFFFF, 10), (17, 0xFFFF, 11), (6, 0xFFFF, 12), (47, 0xFFFF, 13),
    (4, 0xFFFF, 5), (41, 0xFFFF, 6)]
  match code with
  | 1 => ether
  | 2 => ether
  | 3 => ether
  | 4 => [(0x0000, 0x8000, 4), (0x8020, 0x8078, 5), (0x8030, 0x8078, 6)]
  | 5 => [(17, 0xFFFF, 11), (6, 0xFFFF, 12), (47, 0xFFFF, 13), (4, 0xFFFF, 5), (41, 0xFFFF, 6)]
  | 6 => [(0, 0xFFFF, 7), (43, 0xFFFF, 8), (44, 0xFFFF, 9), (60, 0xFFFF, 10), (17, 0xFFFF, 11), (6, 0xFFFF, 12), (47, 0xFFFF, 13),
    (4, 0xFFFF, 5)]
  | 7 => ext
  | 8 => ext
  | 9 => ext
  | 10 => ext
  | 11 => [(319, 0xFFFF, 15), (320, 0xFFFF, 15), (4712, 0xFFFF, 16), (4713, 0xFFFF, 16), (4789, 0xFFFF, 14)]
  | 13 => [(0x0800, 0xFFFF, 5), (0x86DD, 0xFFFF, 6), (0x8847, 0xFFFF, 4), (0x6558, 0xFFFF, 1)]
  | 14 => [(0, 0, 1)]
  | _ => []

/-- Transition entry e of the shipped set of a layer type. -/
def shippedNext (code e : Nat) : Nat :=
  match (shippedTransitions code)[e]? with
  | some (v, m, l) => layerNext v m l
  | none => 0

/-- A valid extraction entry (R127): keep-first, slot, width, offset. -/
def layerExtract (keep slot width off : Nat) : Nat := 2 ^ 31 + keep * 2 ^ 30 + slot * 2 ^ 25 + (width - 1) * 2 ^ 19 + off * 2 ^ 9

/-- The shipped extractions of a layer type (R141), in ascending slot order: DEDUCED, log entry 6. -/
def shippedExtractions (code : Nat) : List Nat :=
  match code with
  | 1 => [layerExtract 1 0 48 0, layerExtract 1 2 48 48]
  | 4 => [layerExtract 1 4 32 0, layerExtract 0 5 32 0]
  | 5 => [layerExtract 1 9 32 96, layerExtract 1 13 32 128, layerExtract 1 14 32 0, layerExtract 1 15 16 64, layerExtract 0 28 32 96,
      layerExtract 0 29 32 128]
  | 6 => [layerExtract 1 6 64 64, layerExtract 1 8 64 128, layerExtract 1 10 64 192, layerExtract 1 12 64 256, layerExtract 1 14 32 0,
      layerExtract 1 15 16 48]
  | 11 => [layerExtract 1 16 16 0, layerExtract 1 17 16 16]
  | 12 => [layerExtract 1 16 16 0, layerExtract 1 17 16 16]
  | 13 => [layerExtract 1 19 32 0]
  | 14 => [layerExtract 1 18 24 32]
  | 15 => [layerExtract 1 20 32 0, layerExtract 1 21 32 32, layerExtract 1 22 16 240]
  | 16 => [layerExtract 1 23 32 0, layerExtract 1 24 16 32, layerExtract 1 25 32 48, layerExtract 1 26 32 80]
  | 17 => [layerExtract 1 27 32 0]
  | _ => []

/-- Entry e of PARSE.LUT 0 as shipped: GRE header lengths (R140). -/
def shippedLut (lut e : Nat) : Nat :=
  if lut = 0 then ([4, 8, 8, 12, 0, 0, 0, 0, 8, 12, 12, 16, 0, 0, 0, 0].getD e 0) else 0

/-- Element e of a text: its characters' codes, and its length at 65,535. -/
def textAt (s : String) (e : Nat) : Int :=
  if e = 65535 then (s.toList.length : Nat) else ((s.toList.map Char.toNat).getD e 0 : Nat)

/-- Default of an object whose default depends on its instance or element; tag as in the catalogue. 1 to 4: R139 to R141;
5: FID = VID (R211); 6: port, kind PORT (R156, R211); 7: group 0 floods every port (R268); 8: offset XOR 1 (R338);
9 to 12: the pool table of R303 and R318; 13: R511; 15: slot A CURRENT, slot B EMPTY (R161); 18 to 20: the texts of R4. -/
def specialDefault (tag inst elem : Nat) : Int :=
  match tag with
  | 1 => shippedDesc inst elem
  | 2 => shippedNext inst elem
  | 3 => ((shippedExtractions inst).getD elem 0 : Nat)
  | 4 => shippedLut inst elem
  | 5 => elem
  | 6 => inst
  | 7 => if inst = 0 then (0xFFFFFFFFFFFFFFFF : Nat) else 0
  | 8 => ((inst % 16) ^^^ 1 : Nat)
  | 9 => ([256, 2048, 9216, 16384].getD inst 0 : Nat)
  | 10 => ([4096, 4096, 2048, 1024].getD inst 0 : Nat)
  | 11 => ([65536, 131072, 196608, 262144].getD inst 0 : Nat)
  | 12 => ([16384, 16384, 8192, 8192].getD inst 0 : Nat)
  | 15 => if inst = 0 then 5 else 0
  | 18 => textAt "Fletil Microsystems" elem
  | 19 => textAt "OZ9204" elem
  | 20 => textAt "B0" elem
  | 13 => if inst = 0x0901 then 256 else 1
  | _ => 0

end Sys2Proof.Machine
end

