-- ==== Sys2Proof/Machine/Object.lean ====
section
/-! DEFINITION. Objects of the dictionary (R10 to R19): types, access, kept-across codes, the descriptor of an object, and the store
that holds their values: a list of (key, value) pairs, keys rising, no value equal to its object's default. -/
namespace Sys2Proof.Machine

/-- Scalar types of R12; a BLOB or STR holds bytes; `wide` is the model's own, for state that is no object of the dictionary. -/
inductive ObjTy where
  | bool | u8 | u16 | u32 | u64 | s32 | s64 | enum8 | time80 | blob | str | wide
  deriving DecidableEq, Repr

/-- Access codes of R14. -/
inductive Access where
  | ro | rw | wo | w1c | rc
  deriving DecidableEq, Repr

/-- Kept-across codes of R17; none is the "—" of R19. -/
inductive Kept where
  | none | n | p | c | w | s | f
  deriving DecidableEq, Repr

/-- Bytes of one value of a type in a payload (R12); 1 for the byte of a BLOB or STR. -/
def ObjTy.bytes : ObjTy → Nat
  | .bool => 1 | .u8 => 1 | .u16 => 2 | .u32 => 4 | .u64 => 8 | .s32 => 4 | .s64 => 8 | .enum8 => 1 | .time80 => 10 | .blob => 1 | .str => 1 | .wide => 8

/-- The value v as a value of the type: wrapped to its width. A BLOB or STR element may hold a byte or, at `lenElem`, its length. -/
def ObjTy.norm (t : ObjTy) (v : Int) : Int :=
  match t with
  | .bool => if v = 0 then 0 else 1
  | .u8 => v % 2 ^ 8
  | .u16 => v % 2 ^ 16
  | .u32 => v % 2 ^ 32
  | .u64 => v % 2 ^ 64
  | .s32 => toSigned 32 (ofSigned 32 v)
  | .s64 => toSigned 64 (ofSigned 64 v)
  | .enum8 => v % 2 ^ 8
  | .time80 => v % 2 ^ 80
  | .blob => v % 2 ^ 32
  | .str => v % 2 ^ 32
  | .wide => v

/-- Descriptor of an object (R10, R11, R565). `lim` lists the value ranges its row admits (none: its type's whole range); `live`
marks an object that reports other state (R19); `ctr` marks a 48-bit counter with a sticky wrap bit (R118). -/
structure Obj where
  idx : Nat
  sub : Nat
  ty : ObjTy
  count : Nat := 1
  arr : Bool := false
  ctr : Bool := false
  acc : Access
  kept : Kept
  dflt : List Int := [0]
  spec : Nat := 0
  insts : Nat := 0
  role : Nat := 1
  lim : List (Int × Int) := []
  live : Bool := false
  deriving DecidableEq, Repr

/-- Element number under which a BLOB or STR holds its length. -/
def lenElem : Nat := 65535

/-- The key of element e of instance i of an object. -/
def Obj.key (o : Obj) (i e : Nat) : Nat := ((o.idx * 256 + o.sub) * 65536 + i) * 65536 + e

/-- The (index, sub) pair a key belongs to. -/
def keyObj (k : Nat) : Nat := k / 4294967296

/-- The default of element e of instance i. -/
def Obj.default (o : Obj) (i e : Nat) : Int :=
  if o.spec = 0 then o.dflt.getD e (o.dflt.getLastD 0) else specialDefault o.spec i e

/-- The store: keys rising, no entry equal to its default. -/
abbrev Store := List (Nat × Int)

/-- The value listed under a key. -/
def Store.find : Store → Nat → Option Int
  | [], _ => none
  | (a, v) :: t, k => if a = k then some v else Store.find t k

/-- List v under key k. -/
def Store.put : Store → Nat → Int → Store
  | [], k, v => [(k, v)]
  | (a, w) :: t, k, v => if k < a then (k, v) :: (a, w) :: t else if k = a then (k, v) :: t else (a, w) :: Store.put t k v

/-- Remove every entry under key k. -/
def Store.del : Store → Nat → Store
  | [], _ => []
  | (a, w) :: t, k => if a = k then Store.del t k else (a, w) :: Store.del t k

/-- Keys strictly rising. -/
def Store.sorted : Store → Bool
  | [] => true
  | [_] => true
  | (a, _) :: (b, w) :: t => decide (a < b) && Store.sorted ((b, w) :: t)

/-- The value of element e of instance i of an object. -/
def Store.rd (st : Store) (o : Obj) (i e : Nat) : Int := (Store.find st (o.key i e)).getD (o.default i e)

/-- Set element e of instance i to v as a value of its type. -/
def Store.wr (st : Store) (o : Obj) (i e : Nat) (v : Int) : Store :=
  if o.ty.norm v = o.default i e then Store.del st (o.key i e) else Store.put st (o.key i e) (o.ty.norm v)

end Sys2Proof.Machine
end

