-- ==== Sys2Proof/Machine/Catalogue.lean ====
section
/-! DEFINITION. The objects of the dictionary: one constant per row of the object tables of spec/00 to spec/27, with its address, type, access,
default, kept-across code (R10 to R17), instance range, write role (R552, R576) and the value ranges its row admits. -/
namespace Sys2Proof.Machine.Od

/-- DEVICE.VENDOR (R4). -/
def DEVICE_VENDOR : Obj := { idx := 0x1000, sub := 0x01, ty := .str, acc := .ro, kept := .n, spec := 18 }
/-- DEVICE.PART (R4). -/
def DEVICE_PART : Obj := { idx := 0x1000, sub := 0x02, ty := .str, acc := .ro, kept := .n, spec := 19 }
/-- DEVICE.REVISION (R4). -/
def DEVICE_REVISION : Obj := { idx := 0x1000, sub := 0x03, ty := .str, acc := .ro, kept := .n, spec := 20 }
/-- DEVICE.BEHAVIOUR_LEVEL (R4). -/
def DEVICE_BEHAVIOUR_LEVEL : Obj := { idx := 0x1000, sub := 0x04, ty := .u8, acc := .ro, kept := .w, dflt := [1] }
/-- DEVICE.LEVELS_SUPPORTED (R4). -/
def DEVICE_LEVELS_SUPPORTED : Obj := { idx := 0x1000, sub := 0x05, ty := .u32, acc := .ro, kept := .n, dflt := [2] }
/-- DEVICE.SORI_PRESENT (R37). -/
def DEVICE_SORI_PRESENT : Obj := { idx := 0x1000, sub := 0x10, ty := .u8, acc := .ro, kept := .n, dflt := [255] }
/-- DEVICE.HBM_PRESENT (R37). -/
def DEVICE_HBM_PRESENT : Obj := { idx := 0x1000, sub := 0x11, ty := .u8, acc := .ro, kept := .n, dflt := [15] }
/-- DEVICE.HBM_BYTES (R37). -/
def DEVICE_HBM_BYTES : Obj := { idx := 0x1000, sub := 0x12, ty := .u64, acc := .ro, kept := .n, dflt := [68719476736] }
/-- DEVICE.SUBSYSTEMS (R37). -/
def DEVICE_SUBSYSTEMS : Obj := { idx := 0x1000, sub := 0x13, ty := .u8, acc := .ro, kept := .n, dflt := [25] }
/-- DEVICE.SORUS_LINK.STATE (R37). The spec gives no default and no course of start-up: 0 DOWN before start-up and in a sorus reset, 2 UP at their end, never 1
TRAINING (DESIGN CHOICE, log entry 38). -/
def DEVICE_SORUS_LINK_STATE : Obj := { idx := 0x1010, sub := 0x01, ty := .enum8, acc := .ro, kept := .s, insts := 7, live := true }
/-- DEVICE.SORUS_LINK.CRC_ERRORS (R37). -/
def DEVICE_SORUS_LINK_CRC_ERRORS : Obj := { idx := 0x1010, sub := 0x02, ty := .u32, acc := .rc, kept := .s, insts := 7 }
/-- DEVICE.SORUS_LINK.FAULTS (R37). -/
def DEVICE_SORUS_LINK_FAULTS : Obj := { idx := 0x1010, sub := 0x03, ty := .u32, acc := .rc, kept := .p, insts := 7 }
/-- TIME.REPLICA_SLIPS (R37). -/
def TIME_REPLICA_SLIPS : Obj := { idx := 0x6000, sub := 0x30, ty := .u32, acc := .rc, kept := .s, insts := 7 }
/-- TICK.NUMBER (R58). -/
def TICK_NUMBER : Obj := { idx := 0x1100, sub := 0x01, ty := .u64, acc := .ro, kept := .c }
/-- TICK.ALIGN_ENABLE (R58). -/
def TICK_ALIGN_ENABLE : Obj := { idx := 0x1100, sub := 0x02, ty := .bool, acc := .rw, kept := .w, dflt := [1] }
/-- TICK.ALIGN_VIEW (R58). -/
def TICK_ALIGN_VIEW : Obj := { idx := 0x1100, sub := 0x03, ty := .u8, acc := .rw, kept := .w, lim := [(0, 3)] }
/-- TICK.PHASE_ERROR (R58). -/
def TICK_PHASE_ERROR : Obj := { idx := 0x1100, sub := 0x04, ty := .s32, acc := .ro, kept := .none, live := true }
/-- TICK.LOCKED (R58). -/
def TICK_LOCKED : Obj := { idx := 0x1100, sub := 0x05, ty := .bool, acc := .ro, kept := .none, live := true }
/-- TICK.LONG_COUNT (R58). -/
def TICK_LONG_COUNT : Obj := { idx := 0x1100, sub := 0x06, ty := .u32, acc := .rc, kept := .c }
/-- TICK.SHORT_COUNT (R58). -/
def TICK_SHORT_COUNT : Obj := { idx := 0x1100, sub := 0x07, ty := .u32, acc := .rc, kept := .c }
/-- TICK.DEFERRED (R58). -/
def TICK_DEFERRED : Obj := { idx := 0x1100, sub := 0x08, ty := .u32, acc := .rc, kept := .w }
/-- TICK.PLAN.BUF (R58). -/
def TICK_PLAN_BUF : Obj := { idx := 0x1100, sub := 0x10, ty := .u16, count := 4, arr := true, acc := .rw, kept := .w, dflt := [1, 8, 2, 4] }
/-- TICK.PLAN.EM (R58). -/
def TICK_PLAN_EM : Obj := { idx := 0x1100, sub := 0x11, ty := .u16, count := 5, arr := true, acc := .rw, kept := .w, dflt := [32, 64, 16, 16, 16] }
/-- TICK.PLAN.HBM (R58). -/
def TICK_PLAN_HBM : Obj := { idx := 0x1100, sub := 0x12, ty := .u32, count := 4, arr := true, acc := .rw, kept := .w, dflt := [61440, 1024, 65536, 32000] }
/-- TICK.PLAN.STATUS (R58). -/
def TICK_PLAN_STATUS : Obj := { idx := 0x1100, sub := 0x13, ty := .enum8, acc := .ro, kept := .w }
/-- TICK.PLAN.APPLIED (R58). -/
def TICK_PLAN_APPLIED : Obj := { idx := 0x1100, sub := 0x14, ty := .u64, acc := .ro, kept := .w }
/-- DET.SEED (R58). -/
def DET_SEED : Obj := { idx := 0x1100, sub := 0x20, ty := .u64, acc := .rw, kept := .w }
/-- LANE.TX.POLARITY (R87). -/
def LANE_TX_POLARITY : Obj := { idx := 0x2000, sub := 0x01, ty := .bool, acc := .rw, kept := .w, insts := 1023 }
/-- LANE.RX.POLARITY (R87). -/
def LANE_RX_POLARITY : Obj := { idx := 0x2000, sub := 0x02, ty := .bool, acc := .rw, kept := .w, insts := 1023 }
/-- LANE.TX.TAPS (R87). -/
def LANE_TX_TAPS : Obj := { idx := 0x2000, sub := 0x03, ty := .s32, count := 5, arr := true, acc := .rw, kept := .w, dflt := [0, 0, -8, 112, 0], insts := 1023 }
/-- LANE.EQ.REACH (R87). -/
def LANE_EQ_REACH : Obj := { idx := 0x2000, sub := 0x04, ty := .enum8, acc := .rw, kept := .w, insts := 1023, lim := [(0, 1)] }
/-- LANE.EQ.GUARD (R87). -/
def LANE_EQ_GUARD : Obj := { idx := 0x2000, sub := 0x05, ty := .u16, acc := .rw, kept := .w, dflt := [12], insts := 1023 }
/-- LANE.EYE.HEIGHT (R87). -/
def LANE_EYE_HEIGHT : Obj := { idx := 0x2000, sub := 0x06, ty := .u16, acc := .ro, kept := .none, insts := 1023, live := true }
/-- LANE.EYE.WIDTH (R87). -/
def LANE_EYE_WIDTH : Obj := { idx := 0x2000, sub := 0x07, ty := .u16, acc := .ro, kept := .none, insts := 1023, live := true }
/-- LANE.STATE (R87). -/
def LANE_STATE : Obj := { idx := 0x2000, sub := 0x08, ty := .enum8, acc := .ro, kept := .none, insts := 1023, live := true }
/-- LANE.SYMBOL_ERRORS (R87). -/
def LANE_SYMBOL_ERRORS : Obj := { idx := 0x2000, sub := 0x09, ty := .u64, acc := .rc, kept := .s, insts := 1023 }
/-- OCTET.MODE (R87). -/
def OCTET_MODE : Obj := { idx := 0x2010, sub := 0x01, ty := .enum8, acc := .rw, kept := .w, insts := 127, lim := [(0, 4)] }
/-- OCTET.RATE (R87). -/
def OCTET_RATE : Obj := { idx := 0x2010, sub := 0x02, ty := .enum8, acc := .rw, kept := .w, insts := 127, lim := [(0, 4)] }
/-- OCTET.TX.LANE_MAP (R87). -/
def OCTET_TX_LANE_MAP : Obj := { idx := 0x2010, sub := 0x03, ty := .u8, count := 8, arr := true, acc := .rw, kept := .w, dflt := [0, 1, 2, 3, 4, 5, 6, 7], insts := 127 }
/-- OCTET.RX.LANE_MAP (R87). -/
def OCTET_RX_LANE_MAP : Obj := { idx := 0x2010, sub := 0x04, ty := .u8, count := 8, arr := true, acc := .rw, kept := .w, dflt := [0, 1, 2, 3, 4, 5, 6, 7], insts := 127 }
/-- OCTET.CHANNEL (R87). -/
def OCTET_CHANNEL : Obj := { idx := 0x2010, sub := 0x05, ty := .enum8, acc := .rw, kept := .w, insts := 127, lim := [(0, 1)] }
/-- PORT.ENABLE (R87). -/
def PORT_ENABLE : Obj := { idx := 0x2080, sub := 0x01, ty := .bool, acc := .rw, kept := .w, dflt := [1], insts := 1023 }
/-- PORT.LINK.STATE (R87). -/
def PORT_LINK_STATE : Obj := { idx := 0x2080, sub := 0x02, ty := .enum8, acc := .ro, kept := .none, insts := 1023, live := true }
/-- PORT.AN.ENABLE (R87). -/
def PORT_AN_ENABLE : Obj := { idx := 0x2080, sub := 0x03, ty := .bool, acc := .rw, kept := .w, dflt := [1], insts := 1023 }
/-- PORT.TRAINING.ENABLE (R87). -/
def PORT_TRAINING_ENABLE : Obj := { idx := 0x2080, sub := 0x04, ty := .bool, acc := .rw, kept := .w, dflt := [1], insts := 1023 }
/-- PORT.FEC.MODE (R87). -/
def PORT_FEC_MODE : Obj := { idx := 0x2080, sub := 0x05, ty := .enum8, acc := .rw, kept := .w, insts := 1023, lim := [(0, 2)] }
/-- PORT.FEC.CORRECTED (R87). -/
def PORT_FEC_CORRECTED : Obj := { idx := 0x2080, sub := 0x06, ty := .u64, acc := .rc, kept := .s, insts := 1023 }
/-- PORT.FEC.UNCORRECTED (R87). -/
def PORT_FEC_UNCORRECTED : Obj := { idx := 0x2080, sub := 0x07, ty := .u64, acc := .rc, kept := .s, insts := 1023 }
/-- PORT.LINK.DOWN_COUNT (R87). -/
def PORT_LINK_DOWN_COUNT : Obj := { idx := 0x2080, sub := 0x08, ty := .u32, acc := .rc, kept := .s, insts := 1023 }
/-- PORT.ACTIVE_LANES (R87). -/
def PORT_ACTIVE_LANES : Obj := { idx := 0x2080, sub := 0x09, ty := .u8, acc := .ro, kept := .none, insts := 1023, live := true }
/-- PORT.PARK (R87). -/
def PORT_PARK : Obj := { idx := 0x2080, sub := 0x0A, ty := .bool, acc := .rw, kept := .w, insts := 1023 }
/-- PORT.WAKES (R87). -/
def PORT_WAKES : Obj := { idx := 0x2080, sub := 0x0B, ty := .u32, acc := .rc, kept := .s, insts := 1023 }
/-- PORT.PARKED_DROPS (R87). -/
def PORT_PARKED_DROPS : Obj := { idx := 0x2080, sub := 0x0C, ty := .u64, acc := .rc, kept := .s, insts := 1023 }
/-- PORT.FEC.ACTIVE (R87). -/
def PORT_FEC_ACTIVE : Obj := { idx := 0x2080, sub := 0x0D, ty := .enum8, acc := .ro, kept := .none, insts := 1023, live := true }
/-- PORT.SHED.ENABLE (R87). -/
def PORT_SHED_ENABLE : Obj := { idx := 0x2200, sub := 0x01, ty := .bool, acc := .rw, kept := .w, insts := 1023 }
/-- PORT.SHED.MIN_LANES (R87). -/
def PORT_SHED_MIN_LANES : Obj := { idx := 0x2200, sub := 0x02, ty := .u8, acc := .rw, kept := .w, dflt := [1], insts := 1023, lim := [(1, 2), (4, 4), (8, 8)] }
/-- PORT.SHED.WINDOW (R87). -/
def PORT_SHED_WINDOW : Obj := { idx := 0x2200, sub := 0x03, ty := .u32, acc := .rw, kept := .w, dflt := [2000000], insts := 1023, lim := [(1, 4294967295)] }
/-- PORT.SHED.BELOW (R87). -/
def PORT_SHED_BELOW : Obj := { idx := 0x2200, sub := 0x04, ty := .u16, acc := .rw, kept := .w, dflt := [500], insts := 1023, lim := [(0, 1000)] }
/-- PORT.SHED.RESTORE_WINDOW (R87). -/
def PORT_SHED_RESTORE_WINDOW : Obj := { idx := 0x2200, sub := 0x05, ty := .u32, acc := .rw, kept := .w, dflt := [200], insts := 1023, lim := [(1, 4294967295)] }
/-- PORT.SHED.ABOVE (R87). -/
def PORT_SHED_ABOVE : Obj := { idx := 0x2200, sub := 0x06, ty := .u16, acc := .rw, kept := .w, dflt := [800], insts := 1023, lim := [(0, 1000)] }
/-- PORT.SHED.QUEUE_RESTORE (R87). -/
def PORT_SHED_QUEUE_RESTORE : Obj := { idx := 0x2200, sub := 0x07, ty := .u32, acc := .rw, kept := .w, dflt := [262144], insts := 1023 }
/-- PORT.SHED.PEER_CAPABLE (R87). -/
def PORT_SHED_PEER_CAPABLE : Obj := { idx := 0x2200, sub := 0x08, ty := .bool, acc := .ro, kept := .none, insts := 1023, live := true }
/-- PORT.SHED.SHEDS (R87). -/
def PORT_SHED_SHEDS : Obj := { idx := 0x2200, sub := 0x09, ty := .u32, acc := .rc, kept := .s, insts := 1023 }
/-- PORT.SHED.RESTORES (R87). -/
def PORT_SHED_RESTORES : Obj := { idx := 0x2200, sub := 0x0A, ty := .u32, acc := .rc, kept := .s, insts := 1023 }
/-- PORT.SHED.REFUSED (R87). -/
def PORT_SHED_REFUSED : Obj := { idx := 0x2200, sub := 0x0B, ty := .u32, acc := .rc, kept := .s, insts := 1023 }
/-- PORT.SHED.BLOCKED (R87). -/
def PORT_SHED_BLOCKED : Obj := { idx := 0x2200, sub := 0x0C, ty := .u32, acc := .rc, kept := .s, insts := 1023 }
/-- PORT.SHED.GATE_OVERLAPS (R87). -/
def PORT_SHED_GATE_OVERLAPS : Obj := { idx := 0x2200, sub := 0x0D, ty := .u32, acc := .rc, kept := .s, insts := 1023 }
/-- PORT.SHED.LOAD (R87). -/
def PORT_SHED_LOAD : Obj := { idx := 0x2200, sub := 0x0E, ty := .u16, acc := .ro, kept := .none, insts := 1023, live := true }
/-- PORT.SHED.SOURCE_ADDRESS (R87). -/
def PORT_SHED_SOURCE_ADDRESS : Obj := { idx := 0x2200, sub := 0x0F, ty := .u64, acc := .rw, kept := .w, insts := 1023 }
/-- PORT.SHED.BAD_FRAMES (R87). -/
def PORT_SHED_BAD_FRAMES : Obj := { idx := 0x2200, sub := 0x10, ty := .u32, acc := .rc, kept := .s, insts := 1023 }
/-- PORT.MAC_ADDRESS (R116). -/
def PORT_MAC_ADDRESS : Obj := { idx := 0x2100, sub := 0x01, ty := .u64, acc := .rw, kept := .w, insts := 1023 }
/-- PORT.KEEP_BAD (R116). -/
def PORT_KEEP_BAD : Obj := { idx := 0x2100, sub := 0x02, ty := .bool, acc := .rw, kept := .w, insts := 1023 }
/-- PORT.KEEP_BAD.RING (R116). -/
def PORT_KEEP_BAD_RING : Obj := { idx := 0x2100, sub := 0x03, ty := .u8, acc := .rw, kept := .w, insts := 1023, lim := [(0, 15)] }
/-- PORT.MTU (R116). -/
def PORT_MTU : Obj := { idx := 0x2100, sub := 0x04, ty := .u16, acc := .rw, kept := .w, dflt := [9216], insts := 1023, lim := [(64, 12288)] }
/-- PORT.RX.TPID_S (R116). -/
def PORT_RX_TPID_S : Obj := { idx := 0x2100, sub := 0x05, ty := .u16, acc := .rw, kept := .w, dflt := [34984], insts := 1023, lim := [(0, 33023), (33025, 65535)] }
/-- PORT.RX.STRIP (R116). -/
def PORT_RX_STRIP : Obj := { idx := 0x2100, sub := 0x06, ty := .enum8, acc := .rw, kept := .w, insts := 1023, lim := [(0, 2)] }
/-- PORT.PVID (R116). -/
def PORT_PVID : Obj := { idx := 0x2100, sub := 0x07, ty := .u16, acc := .rw, kept := .w, dflt := [1], insts := 1023, lim := [(1, 4094)] }
/-- PORT.DEFAULT_PCP (R116). -/
def PORT_DEFAULT_PCP : Obj := { idx := 0x2100, sub := 0x08, ty := .u8, acc := .rw, kept := .w, insts := 1023, lim := [(0, 7)] }
/-- PORT.TX.TAG_MODE (R116). -/
def PORT_TX_TAG_MODE : Obj := { idx := 0x2100, sub := 0x09, ty := .enum8, acc := .rw, kept := .w, insts := 1023, lim := [(0, 3)] }
/-- PORT.TX.TPID_S (R116). -/
def PORT_TX_TPID_S : Obj := { idx := 0x2100, sub := 0x0A, ty := .u16, acc := .rw, kept := .w, dflt := [34984], insts := 1023, lim := [(0, 33023), (33025, 65535)] }
/-- PORT.TX.S_VID (R116). -/
def PORT_TX_S_VID : Obj := { idx := 0x2100, sub := 0x0B, ty := .u16, acc := .rw, kept := .w, dflt := [1], insts := 1023, lim := [(1, 4094)] }
/-- PORT.TX.UNTAGGED_VID (R116). -/
def PORT_TX_UNTAGGED_VID : Obj := { idx := 0x2100, sub := 0x0C, ty := .u16, acc := .rw, kept := .w, insts := 1023, lim := [(0, 4094)] }
/-- PORT.FLOW.MODE (R116). -/
def PORT_FLOW_MODE : Obj := { idx := 0x2140, sub := 0x01, ty := .enum8, acc := .rw, kept := .w, insts := 1023, lim := [(0, 2)] }
/-- PORT.FLOW.RX_ENABLE (R116). -/
def PORT_FLOW_RX_ENABLE : Obj := { idx := 0x2140, sub := 0x02, ty := .bool, acc := .rw, kept := .w, dflt := [1], insts := 1023 }
/-- PORT.PFC.CLASS_MAP (R116). -/
def PORT_PFC_CLASS_MAP : Obj := { idx := 0x2140, sub := 0x03, ty := .u8, count := 8, arr := true, acc := .rw, kept := .w, dflt := [0, 1, 2, 3, 4, 5, 6, 7], insts := 1023, lim := [(0, 7)] }
/-- PORT.PFC.PAUSE_IMMUNE (R116). -/
def PORT_PFC_PAUSE_IMMUNE : Obj := { idx := 0x2140, sub := 0x04, ty := .enum8, count := 8, arr := true, acc := .rw, kept := .w, insts := 1023, lim := [(0, 2)] }
/-- PORT.FLOW.TX_ENABLE (R116). -/
def PORT_FLOW_TX_ENABLE : Obj := { idx := 0x2140, sub := 0x05, ty := .u8, acc := .rw, kept := .w, insts := 1023 }
/-- PORT.FLOW.XOFF (R116). -/
def PORT_FLOW_XOFF : Obj := { idx := 0x2140, sub := 0x06, ty := .u32, count := 8, arr := true, acc := .rw, kept := .w, dflt := [131072], insts := 1023 }
/-- PORT.FLOW.XON (R116). -/
def PORT_FLOW_XON : Obj := { idx := 0x2140, sub := 0x07, ty := .u32, count := 8, arr := true, acc := .rw, kept := .w, dflt := [65536], insts := 1023 }
/-- PORT.FLOW.TX_QUANTA (R116). -/
def PORT_FLOW_TX_QUANTA : Obj := { idx := 0x2140, sub := 0x08, ty := .u16, acc := .rw, kept := .w, dflt := [65535], insts := 1023 }
/-- PORT.FLOW.TX_REFRESH (R116). -/
def PORT_FLOW_TX_REFRESH : Obj := { idx := 0x2140, sub := 0x09, ty := .u16, acc := .rw, kept := .w, dflt := [160], insts := 1023, lim := [(1, 65535)] }
/-- PORT.FLOW.HELD (R116). -/
def PORT_FLOW_HELD : Obj := { idx := 0x2140, sub := 0x0A, ty := .u8, acc := .ro, kept := .none, insts := 1023, live := true }
/-- PORT.PREEMPT.ENABLE (R116). -/
def PORT_PREEMPT_ENABLE : Obj := { idx := 0x2160, sub := 0x01, ty := .bool, acc := .rw, kept := .w, insts := 1023 }
/-- PORT.PREEMPT.VERIFY_DISABLE (R116). -/
def PORT_PREEMPT_VERIFY_DISABLE : Obj := { idx := 0x2160, sub := 0x02, ty := .bool, acc := .rw, kept := .w, insts := 1023 }
/-- PORT.PREEMPT.ADD_FRAG_SIZE (R116). -/
def PORT_PREEMPT_ADD_FRAG_SIZE : Obj := { idx := 0x2160, sub := 0x03, ty := .u8, acc := .rw, kept := .w, insts := 1023, lim := [(0, 3)] }
/-- PORT.PREEMPT.VERIFY_TIME (R116). -/
def PORT_PREEMPT_VERIFY_TIME : Obj := { idx := 0x2160, sub := 0x04, ty := .u8, acc := .rw, kept := .w, dflt := [10], insts := 1023, lim := [(1, 128)] }
/-- PORT.PREEMPT.STATUS (R116). -/
def PORT_PREEMPT_STATUS : Obj := { idx := 0x2160, sub := 0x05, ty := .enum8, acc := .ro, kept := .none, insts := 1023, live := true }
/-- PORT.WAKE.ENABLE (R116). -/
def PORT_WAKE_ENABLE : Obj := { idx := 0x2180, sub := 0x01, ty := .u16, acc := .rw, kept := .w, insts := 1023 }
/-- PORT.WAKE.MASK (R117). -/
def PORT_WAKE_MASK : Obj := { idx := 0x2190, sub := 0x01, ty := .u8, count := 16, arr := true, acc := .rw, kept := .w, insts := 16383 }
/-- PORT.WAKE.CHECK (R117). -/
def PORT_WAKE_CHECK : Obj := { idx := 0x2190, sub := 0x02, ty := .u16, acc := .rw, kept := .w, insts := 16383 }
/-- PORT.WAKE.MATCHES (R117). -/
def PORT_WAKE_MATCHES : Obj := { idx := 0x2190, sub := 0x03, ty := .u32, acc := .rc, kept := .s, insts := 16383 }
/-- PORT.RX.GOOD (R118). -/
def PORT_RX_GOOD : Obj := { idx := 0x2120, sub := 0x01, ty := .u64, count := 2, arr := true, ctr := true, acc := .rw, kept := .c, dflt := [0, 0], insts := 1023 }
/-- PORT.RX.RUNTS (R118). -/
def PORT_RX_RUNTS : Obj := { idx := 0x2120, sub := 0x02, ty := .u64, count := 2, arr := true, ctr := true, acc := .rw, kept := .c, dflt := [0, 0], insts := 1023 }
/-- PORT.RX.GIANTS (R118). -/
def PORT_RX_GIANTS : Obj := { idx := 0x2120, sub := 0x03, ty := .u64, count := 2, arr := true, ctr := true, acc := .rw, kept := .c, dflt := [0, 0], insts := 1023 }
/-- PORT.RX.FCS_ERRORS (R118). -/
def PORT_RX_FCS_ERRORS : Obj := { idx := 0x2120, sub := 0x04, ty := .u64, count := 2, arr := true, ctr := true, acc := .rw, kept := .c, dflt := [0, 0], insts := 1023 }
/-- PORT.RX.FEC_ERRORS (R118). -/
def PORT_RX_FEC_ERRORS : Obj := { idx := 0x2120, sub := 0x05, ty := .u64, count := 2, arr := true, ctr := true, acc := .rw, kept := .c, dflt := [0, 0], insts := 1023 }
/-- PORT.RX.CODE_ERRORS (R118). -/
def PORT_RX_CODE_ERRORS : Obj := { idx := 0x2120, sub := 0x06, ty := .u64, count := 2, arr := true, ctr := true, acc := .rw, kept := .c, dflt := [0, 0], insts := 1023 }
/-- PORT.RX.STOMPED (R118). -/
def PORT_RX_STOMPED : Obj := { idx := 0x2120, sub := 0x07, ty := .u64, count := 2, arr := true, ctr := true, acc := .rw, kept := .c, dflt := [0, 0], insts := 1023 }
/-- PORT.RX.ASSEMBLY_ERRORS (R118). -/
def PORT_RX_ASSEMBLY_ERRORS : Obj := { idx := 0x2120, sub := 0x08, ty := .u64, count := 2, arr := true, ctr := true, acc := .rw, kept := .c, dflt := [0, 0], insts := 1023 }
/-- PORT.RX.MAC_CONTROL_OTHER (R118). -/
def PORT_RX_MAC_CONTROL_OTHER : Obj := { idx := 0x2120, sub := 0x09, ty := .u64, count := 2, arr := true, ctr := true, acc := .rw, kept := .c, dflt := [0, 0], insts := 1023 }
/-- PORT.RX.NO_TRANSIT (R118). -/
def PORT_RX_NO_TRANSIT : Obj := { idx := 0x2120, sub := 0x0A, ty := .u64, count := 2, arr := true, ctr := true, acc := .rw, kept := .c, dflt := [0, 0], insts := 1023 }
/-- PORT.RX.KEEP_BAD_DELIVERED (R118). -/
def PORT_RX_KEEP_BAD_DELIVERED : Obj := { idx := 0x2120, sub := 0x0B, ty := .u64, count := 2, arr := true, ctr := true, acc := .rw, kept := .c, dflt := [0, 0], insts := 1023 }
/-- PORT.RX.KEEP_BAD_REFUSED (R118). -/
def PORT_RX_KEEP_BAD_REFUSED : Obj := { idx := 0x2120, sub := 0x0C, ty := .u64, count := 2, arr := true, ctr := true, acc := .rw, kept := .c, dflt := [0, 0], insts := 1023 }
/-- PORT.RX.PAUSE (R118). -/
def PORT_RX_PAUSE : Obj := { idx := 0x2120, sub := 0x0D, ty := .u64, count := 2, arr := true, ctr := true, acc := .rw, kept := .c, dflt := [0, 0], insts := 1023 }
/-- PORT.RX.PFC (R118). -/
def PORT_RX_PFC : Obj := { idx := 0x2120, sub := 0x0E, ty := .u64, count := 2, arr := true, ctr := true, acc := .rw, kept := .c, dflt := [0, 0], insts := 1023 }
/-- PORT.RX.PFC_PRIORITY (R118). -/
def PORT_RX_PFC_PRIORITY : Obj := { idx := 0x2120, sub := 0x0F, ty := .u64, count := 8, arr := true, ctr := true, acc := .rw, kept := .c, insts := 1023 }
/-- PORT.RX.FLOW_IGNORED (R118). -/
def PORT_RX_FLOW_IGNORED : Obj := { idx := 0x2120, sub := 0x10, ty := .u64, count := 2, arr := true, ctr := true, acc := .rw, kept := .c, dflt := [0, 0], insts := 1023 }
/-- PORT.TX.GOOD (R118). -/
def PORT_TX_GOOD : Obj := { idx := 0x2120, sub := 0x11, ty := .u64, count := 2, arr := true, ctr := true, acc := .rw, kept := .c, dflt := [0, 0], insts := 1023 }
/-- PORT.TX.GIANTS (R118). -/
def PORT_TX_GIANTS : Obj := { idx := 0x2120, sub := 0x12, ty := .u64, count := 2, arr := true, ctr := true, acc := .rw, kept := .c, dflt := [0, 0], insts := 1023 }
/-- PORT.TX.STOMPED (R118). -/
def PORT_TX_STOMPED : Obj := { idx := 0x2120, sub := 0x13, ty := .u64, count := 2, arr := true, ctr := true, acc := .rw, kept := .c, dflt := [0, 0], insts := 1023 }
/-- PORT.TX.PAUSE (R118). -/
def PORT_TX_PAUSE : Obj := { idx := 0x2120, sub := 0x14, ty := .u64, count := 2, arr := true, ctr := true, acc := .rw, kept := .c, dflt := [0, 0], insts := 1023 }
/-- PORT.TX.PFC (R118). -/
def PORT_TX_PFC : Obj := { idx := 0x2120, sub := 0x15, ty := .u64, count := 2, arr := true, ctr := true, acc := .rw, kept := .c, dflt := [0, 0], insts := 1023 }
/-- PORT.TX.PADDED (R118). -/
def PORT_TX_PADDED : Obj := { idx := 0x2120, sub := 0x16, ty := .u64, count := 2, arr := true, ctr := true, acc := .rw, kept := .c, dflt := [0, 0], insts := 1023 }
/-- PORT.PREEMPT.RX_FRAGMENTS (R118). -/
def PORT_PREEMPT_RX_FRAGMENTS : Obj := { idx := 0x2120, sub := 0x17, ty := .u64, count := 2, arr := true, ctr := true, acc := .rw, kept := .c, dflt := [0, 0], insts := 1023 }
/-- PORT.PREEMPT.TX_FRAGMENTS (R118). -/
def PORT_PREEMPT_TX_FRAGMENTS : Obj := { idx := 0x2120, sub := 0x18, ty := .u64, count := 2, arr := true, ctr := true, acc := .rw, kept := .c, dflt := [0, 0], insts := 1023 }
/-- PARSE.GROUP_LIMIT (R142). -/
def PARSE_GROUP_LIMIT : Obj := { idx := 0x3000, sub := 0x01, ty := .u8, count := 3, arr := true, acc := .rw, kept := .w, dflt := [4, 12, 12], lim := [(0, 12)] }
/-- PARSE.MALFORMED_REASONS (R142). -/
def PARSE_MALFORMED_REASONS : Obj := { idx := 0x3000, sub := 0x02, ty := .u64, count := 7, arr := true, ctr := true, acc := .rw, kept := .c }
/-- PARSE.LAYER.DESC (R142). -/
def PARSE_LAYER_DESC : Obj := { idx := 0x3010, sub := 0x01, ty := .u64, count := 2, arr := true, acc := .rw, kept := .w, spec := 1, insts := 63 }
/-- PARSE.LAYER.NEXT (R142). -/
def PARSE_LAYER_NEXT : Obj := { idx := 0x3010, sub := 0x02, ty := .u64, count := 8, arr := true, acc := .rw, kept := .w, spec := 2, insts := 63 }
/-- PARSE.LAYER.EXTRACT (R142). -/
def PARSE_LAYER_EXTRACT : Obj := { idx := 0x3010, sub := 0x03, ty := .u32, count := 8, arr := true, acc := .rw, kept := .w, spec := 3, insts := 63 }
/-- PARSE.LUT (R142). -/
def PARSE_LUT : Obj := { idx := 0x3020, sub := 0x01, ty := .u8, count := 16, arr := true, acc := .rw, kept := .w, spec := 4, insts := 3 }
/-- PARSE.START_LAYER (R142). -/
def PARSE_START_LAYER : Obj := { idx := 0x3080, sub := 0x01, ty := .u8, acc := .rw, kept := .w, dflt := [1], insts := 1023, lim := [(1, 63)] }
/-- PARSE.DEPTH (R142). -/
def PARSE_DEPTH : Obj := { idx := 0x3080, sub := 0x02, ty := .u8, acc := .rw, kept := .w, dflt := [12], insts := 1023, lim := [(1, 12)] }
/-- PARSE.MALFORMED_ACTION (R142). -/
def PARSE_MALFORMED_ACTION : Obj := { idx := 0x3080, sub := 0x03, ty := .enum8, acc := .rw, kept := .w, insts := 1023, lim := [(0, 2)] }
/-- PARSE.HOST_RING (R142). -/
def PARSE_HOST_RING : Obj := { idx := 0x3080, sub := 0x04, ty := .u8, acc := .rw, kept := .w, insts := 1023, lim := [(0, 15)] }
/-- PARSE.SLOW_PATH_RING (R142). -/
def PARSE_SLOW_PATH_RING : Obj := { idx := 0x3080, sub := 0x05, ty := .u8, acc := .rw, kept := .w, insts := 1023, lim := [(0, 15)] }
/-- PARSE.MALFORMED (R143). -/
def PARSE_MALFORMED : Obj := { idx := 0x30A0, sub := 0x01, ty := .u64, count := 2, arr := true, ctr := true, acc := .rw, kept := .c, dflt := [0, 0], insts := 1023 }
/-- PARSE.MALFORMED_LATE (R143). -/
def PARSE_MALFORMED_LATE : Obj := { idx := 0x30A0, sub := 0x02, ty := .u64, count := 2, arr := true, ctr := true, acc := .rw, kept := .c, dflt := [0, 0], insts := 1023 }
/-- PARSE.DEPTH_EXCEEDED (R143). -/
def PARSE_DEPTH_EXCEEDED : Obj := { idx := 0x30A0, sub := 0x03, ty := .u64, count := 2, arr := true, ctr := true, acc := .rw, kept := .c, dflt := [0, 0], insts := 1023 }
/-- PARSE.FRAGMENTS (R143). -/
def PARSE_FRAGMENTS : Obj := { idx := 0x30A0, sub := 0x04, ty := .u64, count := 2, arr := true, ctr := true, acc := .rw, kept := .c, dflt := [0, 0], insts := 1023 }
/-- PARSE.SLOW_PATH (R143). -/
def PARSE_SLOW_PATH : Obj := { idx := 0x30A0, sub := 0x05, ty := .u64, count := 2, arr := true, ctr := true, acc := .rw, kept := .c, dflt := [0, 0], insts := 1023 }
/-- PARSE.SLOW_PATH_REFUSED (R143). -/
def PARSE_SLOW_PATH_REFUSED : Obj := { idx := 0x30A0, sub := 0x06, ty := .u64, count := 2, arr := true, ctr := true, acc := .rw, kept := .c, dflt := [0, 0], insts := 1023 }
/-- PARSE.HOST_REFUSED (R143). -/
def PARSE_HOST_REFUSED : Obj := { idx := 0x30A0, sub := 0x07, ty := .u64, count := 2, arr := true, ctr := true, acc := .rw, kept := .c, dflt := [0, 0], insts := 1023 }
/-- CLASS.EPOCH (R171). -/
def CLASS_EPOCH : Obj := { idx := 0x3400, sub := 0x01, ty := .u8, acc := .ro, kept := .w }
/-- CLASS.SWAP (R171). -/
def CLASS_SWAP : Obj := { idx := 0x3400, sub := 0x02, ty := .u8, acc := .wo, kept := .none, lim := [(0, 1)], live := true }
/-- CLASS.DRAIN_COUNT (R171). -/
def CLASS_DRAIN_COUNT : Obj := { idx := 0x3400, sub := 0x03, ty := .u32, count := 2, arr := true, acc := .ro, kept := .w, dflt := [0, 0] }
/-- CLASS.MANAGEMENT_SET (R171). -/
def CLASS_MANAGEMENT_SET : Obj := { idx := 0x3400, sub := 0x04, ty := .u8, acc := .rw, kept := .w }
/-- CLASS.PRIVILEGED_SET (R171). -/
def CLASS_PRIVILEGED_SET : Obj := { idx := 0x3400, sub := 0x05, ty := .u8, acc := .rw, kept := .w }
/-- CLASS.SWAP_TICK (R171). -/
def CLASS_SWAP_TICK : Obj := { idx := 0x3400, sub := 0x06, ty := .u64, acc := .ro, kept := .w }
/-- CLASS.SWAPS (R171). -/
def CLASS_SWAPS : Obj := { idx := 0x3400, sub := 0x07, ty := .u32, acc := .rc, kept := .w }
/-- CLASS.POISON_HITS (R171). -/
def CLASS_POISON_HITS : Obj := { idx := 0x3400, sub := 0x08, ty := .u32, acc := .rc, kept := .c }
/-- CLASS.REPAIRS (R171). -/
def CLASS_REPAIRS : Obj := { idx := 0x3400, sub := 0x09, ty := .u32, acc := .rc, kept := .c }
/-- CLASS.SLOT.STATE (R171). -/
def CLASS_SLOT_STATE : Obj := { idx := 0x3410, sub := 0x01, ty := .enum8, acc := .ro, kept := .w, spec := 15, insts := 1 }
/-- CLASS.SLOT.OFFSET (R171). -/
def CLASS_SLOT_OFFSET : Obj := { idx := 0x3410, sub := 0x02, ty := .u32, acc := .rw, kept := .w, insts := 1, lim := [(0, 393215)] }
/-- CLASS.SLOT.DATA (R171). -/
def CLASS_SLOT_DATA : Obj := { idx := 0x3410, sub := 0x03, ty := .blob, acc := .rw, kept := .w, insts := 1, live := true }
/-- CLASS.SLOT.SEAL (R171). -/
def CLASS_SLOT_SEAL : Obj := { idx := 0x3410, sub := 0x04, ty := .u32, count := 3, arr := true, acc := .rw, kept := .w, dflt := [0, 0, 0], insts := 1 }
/-- CLASS.SLOT.LAST_REFUSAL (R171). -/
def CLASS_SLOT_LAST_REFUSAL : Obj := { idx := 0x3410, sub := 0x05, ty := .enum8, acc := .ro, kept := .w, insts := 1 }
/-- CLASS.SLOT.COMPUTED_CRC (R171). -/
def CLASS_SLOT_COMPUTED_CRC : Obj := { idx := 0x3410, sub := 0x06, ty := .u32, acc := .ro, kept := .w, insts := 1 }
/-- CLASS.DEFAULT_ACTION (R171). -/
def CLASS_DEFAULT_ACTION : Obj := { idx := 0x3480, sub := 0x01, ty := .u64, count := 2, arr := true, acc := .rw, kept := .w, dflt := [0, 0], insts := 1023 }
/-- CLASS.POISON_ACTION (R171). -/
def CLASS_POISON_ACTION : Obj := { idx := 0x3480, sub := 0x02, ty := .enum8, acc := .rw, kept := .w, insts := 1023, lim := [(0, 2)] }
/-- CLASS.IN.NO_MATCH (R172). -/
def CLASS_IN_NO_MATCH : Obj := { idx := 0x34C0, sub := 0x01, ty := .u64, count := 2, arr := true, ctr := true, acc := .rw, kept := .c, dflt := [0, 0], insts := 1023 }
/-- CLASS.IN.FAULTS (R172). -/
def CLASS_IN_FAULTS : Obj := { idx := 0x34C0, sub := 0x02, ty := .u64, count := 2, arr := true, ctr := true, acc := .rw, kept := .c, dflt := [0, 0], insts := 1023 }
/-- CLASS.IN.DROPS (R172). -/
def CLASS_IN_DROPS : Obj := { idx := 0x34C0, sub := 0x03, ty := .u64, count := 2, arr := true, ctr := true, acc := .rw, kept := .c, dflt := [0, 0], insts := 1023 }
/-- CLASS.IN.HOST_REFUSED (R172). -/
def CLASS_IN_HOST_REFUSED : Obj := { idx := 0x34C0, sub := 0x04, ty := .u64, count := 2, arr := true, ctr := true, acc := .rw, kept := .c, dflt := [0, 0], insts := 1023 }
/-- CLASS.IN.MGMT_REFUSED (R172). -/
def CLASS_IN_MGMT_REFUSED : Obj := { idx := 0x34C0, sub := 0x05, ty := .u64, count := 2, arr := true, ctr := true, acc := .rw, kept := .c, dflt := [0, 0], insts := 1023 }
/-- CLASS.RECIRCULATED (R172). -/
def CLASS_RECIRCULATED : Obj := { idx := 0x34C0, sub := 0x06, ty := .u64, count := 2, arr := true, ctr := true, acc := .rw, kept := .c, dflt := [0, 0], insts := 1023 }
/-- CLASS.RECIRC_REFUSED (R172). -/
def CLASS_RECIRC_REFUSED : Obj := { idx := 0x34C0, sub := 0x07, ty := .u64, count := 2, arr := true, ctr := true, acc := .rw, kept := .c, dflt := [0, 0], insts := 1023 }
/-- CLASS.OUT.NO_MATCH (R172). -/
def CLASS_OUT_NO_MATCH : Obj := { idx := 0x34C0, sub := 0x08, ty := .u64, count := 2, arr := true, ctr := true, acc := .rw, kept := .c, dflt := [0, 0], insts := 1023 }
/-- CLASS.OUT.FAULTS (R172). -/
def CLASS_OUT_FAULTS : Obj := { idx := 0x34C0, sub := 0x09, ty := .u64, count := 2, arr := true, ctr := true, acc := .rw, kept := .c, dflt := [0, 0], insts := 1023 }
/-- CLASS.OUT.DROPS (R172). -/
def CLASS_OUT_DROPS : Obj := { idx := 0x34C0, sub := 0x0A, ty := .u64, count := 2, arr := true, ctr := true, acc := .rw, kept := .c, dflt := [0, 0], insts := 1023 }
/-- EM.HASH_SEED (R211). -/
def EM_HASH_SEED : Obj := { idx := 0x3800, sub := 0x01, ty := .u64, acc := .rw, kept := .w }
/-- EM.OCCUPANCY (R211). -/
def EM_OCCUPANCY : Obj := { idx := 0x3800, sub := 0x02, ty := .u32, acc := .ro, kept := .none, live := true }
/-- EM.AGE.INTERVAL (R211). -/
def EM_AGE_INTERVAL : Obj := { idx := 0x3800, sub := 0x03, ty := .u32, acc := .rw, kept := .w, dflt := [200000000] }
/-- EM.SHADOW.ENABLE (R211). -/
def EM_SHADOW_ENABLE : Obj := { idx := 0x3800, sub := 0x04, ty := .bool, acc := .rw, kept := .w }
/-- EM.SHADOW.SCOPE (R211). -/
def EM_SHADOW_SCOPE : Obj := { idx := 0x3800, sub := 0x05, ty := .enum8, acc := .rw, kept := .w, dflt := [1], lim := [(0, 1)] }
/-- EM.SHADOW.OFFSET (R211). -/
def EM_SHADOW_OFFSET : Obj := { idx := 0x3800, sub := 0x06, ty := .u32, acc := .rw, kept := .w, lim := [(0, 4194303)] }
/-- EM.SHADOW.DATA (R211). -/
def EM_SHADOW_DATA : Obj := { idx := 0x3800, sub := 0x07, ty := .blob, acc := .wo, kept := .none, live := true }
/-- EM.SHADOW.MISMATCH (R211). -/
def EM_SHADOW_MISMATCH : Obj := { idx := 0x3800, sub := 0x08, ty := .u64, count := 128, arr := true, acc := .w1c, kept := .w }
/-- EM.SHADOW.BASE (R211). -/
def EM_SHADOW_BASE : Obj := { idx := 0x3800, sub := 0x09, ty := .u64, acc := .rw, kept := .c, dflt := [38654705664] }
/-- EM.FID.MAP (R211). -/
def EM_FID_MAP : Obj := { idx := 0x3800, sub := 0x10, ty := .u16, count := 4096, arr := true, acc := .rw, kept := .w, spec := 5, lim := [(0, 4095)] }
/-- EM.FID.FLOOD_GROUP (R211). -/
def EM_FID_FLOOD_GROUP : Obj := { idx := 0x3800, sub := 0x11, ty := .u16, count := 4096, arr := true, acc := .rw, kept := .w }
/-- EM.CMD.BATCH (R211). -/
def EM_CMD_BATCH : Obj := { idx := 0x3800, sub := 0x20, ty := .blob, acc := .rw, kept := .w }
/-- EM.CMD.START (R211). -/
def EM_CMD_START : Obj := { idx := 0x3800, sub := 0x21, ty := .u32, acc := .wo, kept := .none, live := true }
/-- EM.CMD.STATUS (R211). -/
def EM_CMD_STATUS : Obj := { idx := 0x3800, sub := 0x22, ty := .u32, count := 3, arr := true, acc := .ro, kept := .w, dflt := [0, 0, 0] }
/-- EM.CMD.DONE_TICK (R211). -/
def EM_CMD_DONE_TICK : Obj := { idx := 0x3800, sub := 0x23, ty := .u64, acc := .ro, kept := .w }
/-- EM.PORT.SRC_KEY (R211). -/
def EM_PORT_SRC_KEY : Obj := { idx := 0x3880, sub := 0x01, ty := .enum8, acc := .rw, kept := .w, dflt := [1], insts := 1023, lim := [(0, 1), (3, 3)] }
/-- EM.PORT.DST_KEY (R211). -/
def EM_PORT_DST_KEY : Obj := { idx := 0x3880, sub := 0x02, ty := .enum8, acc := .rw, kept := .w, dflt := [1], insts := 1023, lim := [(0, 3)] }
/-- EM.PORT.LEARN_ENABLE (R211). -/
def EM_PORT_LEARN_ENABLE : Obj := { idx := 0x3880, sub := 0x03, ty := .bool, acc := .rw, kept := .w, dflt := [1], insts := 1023 }
/-- EM.PORT.LEARN_DEST (R211). -/
def EM_PORT_LEARN_DEST : Obj := { idx := 0x3880, sub := 0x04, ty := .u32, acc := .rw, kept := .w, spec := 6, insts := 1023 }
/-- EM.PORT.MISS_ACTION (R211). -/
def EM_PORT_MISS_ACTION : Obj := { idx := 0x3880, sub := 0x05, ty := .enum8, acc := .rw, kept := .w, insts := 1023, lim := [(0, 1)] }
/-- EM.PORT.MPLS_DOMAIN (R211). -/
def EM_PORT_MPLS_DOMAIN : Obj := { idx := 0x3880, sub := 0x06, ty := .u16, acc := .rw, kept := .w, insts := 1023, lim := [(0, 4095)] }
/-- EM.PORT.HANDLE_SLOT (R211). -/
def EM_PORT_HANDLE_SLOT : Obj := { idx := 0x3880, sub := 0x07, ty := .u8, acc := .rw, kept := .w, dflt := [24], insts := 1023, lim := [(0, 31)] }
/-- EM.PORT.HAIRPIN (R211). -/
def EM_PORT_HAIRPIN : Obj := { idx := 0x3880, sub := 0x08, ty := .bool, acc := .rw, kept := .w, insts := 1023 }
/-- EM.LEARN.INSERTS (R212). -/
def EM_LEARN_INSERTS : Obj := { idx := 0x3800, sub := 0x30, ty := .u64, acc := .rc, kept := .c }
/-- EM.LEARN.MOVES (R212). -/
def EM_LEARN_MOVES : Obj := { idx := 0x3800, sub := 0x31, ty := .u64, acc := .rc, kept := .c }
/-- EM.LEARN.MOVE_REFUSED (R212). -/
def EM_LEARN_MOVE_REFUSED : Obj := { idx := 0x3800, sub := 0x32, ty := .u64, acc := .rc, kept := .c }
/-- EM.LEARN.FULL (R212). -/
def EM_LEARN_FULL : Obj := { idx := 0x3800, sub := 0x33, ty := .u64, acc := .rc, kept := .c }
/-- EM.LEARN.OVERFLOW (R212). -/
def EM_LEARN_OVERFLOW : Obj := { idx := 0x3800, sub := 0x34, ty := .u64, acc := .rc, kept := .c }
/-- EM.AGE.PASSES (R212). -/
def EM_AGE_PASSES : Obj := { idx := 0x3800, sub := 0x35, ty := .u64, acc := .rc, kept := .c }
/-- EM.AGE.LATE (R212). -/
def EM_AGE_LATE : Obj := { idx := 0x3800, sub := 0x36, ty := .u64, acc := .rc, kept := .c }
/-- EM.AGE.REMOVED (R212). -/
def EM_AGE_REMOVED : Obj := { idx := 0x3800, sub := 0x37, ty := .u64, acc := .rc, kept := .c }
/-- EM.AGE.WITHDRAWN (R212). -/
def EM_AGE_WITHDRAWN : Obj := { idx := 0x3800, sub := 0x38, ty := .u64, acc := .rc, kept := .c }
/-- EM.POISON_HITS (R212). -/
def EM_POISON_HITS : Obj := { idx := 0x3800, sub := 0x39, ty := .u64, acc := .rc, kept := .c }
/-- EM.BANK_WAITS (R212). -/
def EM_BANK_WAITS : Obj := { idx := 0x3800, sub := 0x3A, ty := .u64, acc := .rc, kept := .c }
/-- EM.SHADOW.PASSES (R212). -/
def EM_SHADOW_PASSES : Obj := { idx := 0x3800, sub := 0x3B, ty := .u64, acc := .rc, kept := .c }
/-- EM.SHADOW.SKIPPED (R212). -/
def EM_SHADOW_SKIPPED : Obj := { idx := 0x3800, sub := 0x3C, ty := .u64, acc := .rc, kept := .c }
/-- EM.SRC_MISS (R213). -/
def EM_SRC_MISS : Obj := { idx := 0x38C0, sub := 0x01, ty := .u64, count := 2, arr := true, ctr := true, acc := .rw, kept := .c, dflt := [0, 0], insts := 1023 }
/-- EM.DST_MISS (R213). -/
def EM_DST_MISS : Obj := { idx := 0x38C0, sub := 0x02, ty := .u64, count := 2, arr := true, ctr := true, acc := .rw, kept := .c, dflt := [0, 0], insts := 1023 }
/-- EM.FLOODED (R213). -/
def EM_FLOODED : Obj := { idx := 0x38C0, sub := 0x03, ty := .u64, count := 2, arr := true, ctr := true, acc := .rw, kept := .c, dflt := [0, 0], insts := 1023 }
/-- EM.LEARN_FULL (R213). -/
def PEM_LEARN_FULL : Obj := { idx := 0x38C0, sub := 0x04, ty := .u64, count := 2, arr := true, ctr := true, acc := .rw, kept := .c, dflt := [0, 0], insts := 1023 }
/-- EM.MISS_DROPS (R213). -/
def EM_MISS_DROPS : Obj := { idx := 0x38C0, sub := 0x05, ty := .u64, count := 2, arr := true, ctr := true, acc := .rw, kept := .c, dflt := [0, 0], insts := 1023 }
/-- EM.SAME_PORT_DROPS (R213). -/
def EM_SAME_PORT_DROPS : Obj := { idx := 0x38C0, sub := 0x06, ty := .u64, count := 2, arr := true, ctr := true, acc := .rw, kept := .c, dflt := [0, 0], insts := 1023 }
/-- METER.MODE (R235). -/
def METER_MODE : Obj := { idx := 0x3C10, sub := 0x01, ty := .enum8, acc := .rw, kept := .w, insts := 65535, lim := [(0, 3)] }
/-- METER.CIR (R235). -/
def METER_CIR : Obj := { idx := 0x3C10, sub := 0x02, ty := .u64, acc := .rw, kept := .w, dflt := [838860800000], insts := 65535, lim := [(0, 838860800000)] }
/-- METER.EIR (R235). -/
def METER_EIR : Obj := { idx := 0x3C10, sub := 0x03, ty := .u64, acc := .rw, kept := .w, dflt := [838860800000], insts := 65535, lim := [(0, 838860800000)] }
/-- METER.CBS (R235). -/
def METER_CBS : Obj := { idx := 0x3C10, sub := 0x04, ty := .u32, acc := .rw, kept := .w, dflt := [16777215], insts := 65535, lim := [(0, 16777215)] }
/-- METER.EBS (R235). -/
def METER_EBS : Obj := { idx := 0x3C10, sub := 0x05, ty := .u32, acc := .rw, kept := .w, dflt := [16777215], insts := 65535, lim := [(0, 16777215)] }
/-- METER.OVERHEAD (R235). -/
def METER_OVERHEAD : Obj := { idx := 0x3C10, sub := 0x06, ty := .u8, acc := .rw, kept := .w, insts := 65535, lim := [(0, 63)] }
/-- METER.COUPLING (R235). -/
def METER_COUPLING : Obj := { idx := 0x3C10, sub := 0x07, ty := .bool, acc := .rw, kept := .w, insts := 65535 }
/-- METER.YELLOW_ACTION (R235). -/
def METER_YELLOW_ACTION : Obj := { idx := 0x3C10, sub := 0x08, ty := .enum8, acc := .rw, kept := .w, insts := 65535, lim := [(0, 1)] }
/-- METER.RED_ACTION (R235). -/
def METER_RED_ACTION : Obj := { idx := 0x3C10, sub := 0x09, ty := .enum8, acc := .rw, kept := .w, insts := 65535, lim := [(0, 1)] }
/-- METER.MARK_DEI (R235). -/
def METER_MARK_DEI : Obj := { idx := 0x3C10, sub := 0x0A, ty := .bool, acc := .rw, kept := .w, insts := 65535 }
/-- METER.MARK_ALL_RED_ENABLE (R235). -/
def METER_MARK_ALL_RED_ENABLE : Obj := { idx := 0x3C10, sub := 0x0B, ty := .bool, acc := .rw, kept := .w, insts := 65535 }
/-- METER.MARK_ALL_RED (R235). -/
def METER_MARK_ALL_RED : Obj := { idx := 0x3C10, sub := 0x0C, ty := .bool, acc := .rw, kept := .w, insts := 65535, lim := [(0, 0)] }
/-- METER.TOKENS (R235). -/
def METER_TOKENS : Obj := { idx := 0x3C10, sub := 0x0D, ty := .u64, count := 2, arr := true, acc := .ro, kept := .w, dflt := [1099511562240, 1099511562240], insts := 65535 }
/-- METER.DROPPED (R235). -/
def METER_DROPPED : Obj := { idx := 0x3C10, sub := 0x0E, ty := .u64, acc := .rc, kept := .c, insts := 65535 }
/-- FILTER.ENABLE (R236). -/
def FILTER_ENABLE : Obj := { idx := 0x3C40, sub := 0x01, ty := .bool, acc := .rw, kept := .w, insts := 65535 }
/-- FILTER.MAX_SDU (R236). -/
def FILTER_MAX_SDU : Obj := { idx := 0x3C40, sub := 0x02, ty := .u16, acc := .rw, kept := .w, insts := 65535, lim := [(0, 12288)] }
/-- FILTER.BLOCK_OVERSIZE (R236). -/
def FILTER_BLOCK_OVERSIZE : Obj := { idx := 0x3C40, sub := 0x03, ty := .bool, acc := .rw, kept := .w, insts := 65535 }
/-- FILTER.BLOCKED (R236). -/
def FILTER_BLOCKED : Obj := { idx := 0x3C40, sub := 0x04, ty := .bool, acc := .rw, kept := .w, insts := 65535, lim := [(0, 0)] }
/-- FILTER.GATE (R236). -/
def FILTER_GATE : Obj := { idx := 0x3C40, sub := 0x05, ty := .u16, acc := .rw, kept := .w, dflt := [65535], insts := 65535, lim := [(0, 255), (65535, 65535)] }
/-- FILTER.FLOW_METER (R236). -/
def FILTER_FLOW_METER : Obj := { idx := 0x3C40, sub := 0x06, ty := .u32, acc := .rw, kept := .w, dflt := [65536], insts := 65535, lim := [(0, 131071)] }
/-- GATE.LIST (R236). -/
def GATE_LIST : Obj := { idx := 0x3C60, sub := 0x01, ty := .u64, count := 64, arr := true, acc := .rw, kept := .w, insts := 255 }
/-- GATE.ENTRIES (R236). -/
def GATE_ENTRIES : Obj := { idx := 0x3C60, sub := 0x02, ty := .u8, acc := .rw, kept := .w, insts := 255, lim := [(0, 64)] }
/-- GATE.BASE_TIME (R236). -/
def GATE_BASE_TIME : Obj := { idx := 0x3C60, sub := 0x03, ty := .time80, acc := .rw, kept := .w, insts := 255 }
/-- GATE.CYCLE (R236). -/
def GATE_CYCLE : Obj := { idx := 0x3C60, sub := 0x04, ty := .u32, acc := .rw, kept := .w, dflt := [1000000], insts := 255, lim := [(1, 4294967295)] }
/-- GATE.VIEW (R236). -/
def GATE_VIEW : Obj := { idx := 0x3C60, sub := 0x05, ty := .u8, acc := .rw, kept := .w, insts := 255, lim := [(0, 3)] }
/-- GATE.CLOSE_ON_INVALID (R236). -/
def GATE_CLOSE_ON_INVALID : Obj := { idx := 0x3C60, sub := 0x06, ty := .bool, acc := .rw, kept := .w, insts := 255 }
/-- GATE.CLOSED_INVALID (R236). -/
def GATE_CLOSED_INVALID : Obj := { idx := 0x3C60, sub := 0x07, ty := .bool, acc := .rw, kept := .w, insts := 255, lim := [(0, 0)] }
/-- FRER.GEN.ENABLE (R237). -/
def FRER_GEN_ENABLE : Obj := { idx := 0x3C80, sub := 0x01, ty := .bool, acc := .rw, kept := .w, insts := 65535 }
/-- FRER.GEN.NEXT (R237). -/
def FRER_GEN_NEXT : Obj := { idx := 0x3C80, sub := 0x02, ty := .u16, acc := .rw, kept := .w, insts := 65535 }
/-- FRER.REC.ENABLE (R237). -/
def FRER_REC_ENABLE : Obj := { idx := 0x3C80, sub := 0x03, ty := .bool, acc := .rw, kept := .w, insts := 65535 }
/-- FRER.REC.HISTORY (R237). -/
def FRER_REC_HISTORY : Obj := { idx := 0x3C80, sub := 0x04, ty := .u8, acc := .rw, kept := .w, dflt := [32], insts := 65535, lim := [(1, 64)] }
/-- FRER.REC.RESET_TICKS (R237). -/
def FRER_REC_RESET_TICKS : Obj := { idx := 0x3C80, sub := 0x05, ty := .u32, acc := .rw, kept := .w, dflt := [2000], insts := 65535 }
/-- FRER.REC.TAKE_NO_SEQ (R237). -/
def FRER_REC_TAKE_NO_SEQ : Obj := { idx := 0x3C80, sub := 0x06, ty := .bool, acc := .rw, kept := .w, insts := 65535 }
/-- FRER.REC.KEEP_SEQ (R237). -/
def FRER_REC_KEEP_SEQ : Obj := { idx := 0x3C80, sub := 0x07, ty := .bool, acc := .rw, kept := .w, insts := 65535 }
/-- FRER.REC.STATE (R237). -/
def FRER_REC_STATE : Obj := { idx := 0x3C80, sub := 0x08, ty := .u64, count := 3, arr := true, acc := .ro, kept := .w, dflt := [0, 0, 1], insts := 65535 }
/-- FRER.REC.OUT_OF_ORDER (R237). -/
def FRER_REC_OUT_OF_ORDER : Obj := { idx := 0x3C80, sub := 0x09, ty := .u32, acc := .rc, kept := .c, insts := 65535 }
/-- FRER.REC.ROGUE (R237). -/
def FRER_REC_ROGUE : Obj := { idx := 0x3C80, sub := 0x0A, ty := .u32, acc := .rc, kept := .c, insts := 65535 }
/-- FRER.REC.LOST (R237). -/
def FRER_REC_LOST : Obj := { idx := 0x3C80, sub := 0x0B, ty := .u32, acc := .rc, kept := .c, insts := 65535 }
/-- FRER.REC.TAGLESS (R237). -/
def FRER_REC_TAGLESS : Obj := { idx := 0x3C80, sub := 0x0C, ty := .u32, acc := .rc, kept := .c, insts := 65535 }
/-- FRER.REC.RESETS (R237). -/
def FRER_REC_RESETS : Obj := { idx := 0x3C80, sub := 0x0D, ty := .u32, acc := .rc, kept := .c, insts := 65535 }
/-- FRER.PORT.RTAG_MODE (R237). -/
def FRER_PORT_RTAG_MODE : Obj := { idx := 0x3C90, sub := 0x01, ty := .enum8, acc := .rw, kept := .w, insts := 1023, lim := [(0, 1)] }
/-- METER.GREEN (R238). -/
def METER_GREEN : Obj := { idx := 0x3CC0, sub := 0x01, ty := .u64, count := 2, arr := true, ctr := true, acc := .rw, kept := .c, dflt := [0, 0], insts := 65535 }
/-- METER.YELLOW (R238). -/
def METER_YELLOW : Obj := { idx := 0x3CC0, sub := 0x02, ty := .u64, count := 2, arr := true, ctr := true, acc := .rw, kept := .c, dflt := [0, 0], insts := 65535 }
/-- METER.RED (R238). -/
def METER_RED : Obj := { idx := 0x3CC0, sub := 0x03, ty := .u64, count := 2, arr := true, ctr := true, acc := .rw, kept := .c, dflt := [0, 0], insts := 65535 }
/-- FILTER.PASSED (R238). -/
def FILTER_PASSED : Obj := { idx := 0x3CD0, sub := 0x01, ty := .u64, count := 2, arr := true, ctr := true, acc := .rw, kept := .c, dflt := [0, 0], insts := 65535 }
/-- FILTER.SDU_DROPPED (R238). -/
def FILTER_SDU_DROPPED : Obj := { idx := 0x3CD0, sub := 0x02, ty := .u64, count := 2, arr := true, ctr := true, acc := .rw, kept := .c, dflt := [0, 0], insts := 65535 }
/-- FILTER.GATE_DROPPED (R238). -/
def FILTER_GATE_DROPPED : Obj := { idx := 0x3CD0, sub := 0x03, ty := .u64, count := 2, arr := true, ctr := true, acc := .rw, kept := .c, dflt := [0, 0], insts := 65535 }
/-- FRER.REC.PASSED (R238). -/
def FRER_REC_PASSED : Obj := { idx := 0x3CE0, sub := 0x01, ty := .u64, count := 2, arr := true, ctr := true, acc := .rw, kept := .c, dflt := [0, 0], insts := 65535 }
/-- FRER.REC.DISCARDED (R238). -/
def FRER_REC_DISCARDED : Obj := { idx := 0x3CE0, sub := 0x02, ty := .u64, count := 2, arr := true, ctr := true, acc := .rw, kept := .c, dflt := [0, 0], insts := 65535 }
/-- FAB.CELLS_FREE (R268). -/
def FAB_CELLS_FREE : Obj := { idx := 0x4000, sub := 0x01, ty := .u32, acc := .ro, kept := .none, live := true }
/-- FAB.CELLS_HELD (R268). -/
def FAB_CELLS_HELD : Obj := { idx := 0x4000, sub := 0x02, ty := .u32, acc := .ro, kept := .none, live := true }
/-- FAB.DESCRIPTORS_FREE (R268). -/
def FAB_DESCRIPTORS_FREE : Obj := { idx := 0x4000, sub := 0x03, ty := .u32, acc := .ro, kept := .none, live := true }
/-- FAB.LAG.HASH_SLOTS (R268). -/
def FAB_LAG_HASH_SLOTS : Obj := { idx := 0x4000, sub := 0x04, ty := .u32, acc := .rw, kept := .w, dflt := [205327] }
/-- FAB.LAG.HASH_SEED (R268). -/
def FAB_LAG_HASH_SEED : Obj := { idx := 0x4000, sub := 0x05, ty := .u32, acc := .rw, kept := .w }
/-- FAB.SPORE.PENDING (R268). -/
def FAB_SPORE_PENDING : Obj := { idx := 0x4000, sub := 0x06, ty := .u16, acc := .ro, kept := .none, live := true }
/-- FAB.QUEUE.LIMIT (R268). -/
def FAB_QUEUE_LIMIT : Obj := { idx := 0x4010, sub := 0x01, ty := .u32, acc := .rw, kept := .w, dflt := [32768], insts := 16391, lim := [(0, 1048576)] }
/-- FAB.QUEUE.DEPTH_CELLS (R268). -/
def FAB_QUEUE_DEPTH_CELLS : Obj := { idx := 0x4010, sub := 0x02, ty := .u32, acc := .ro, kept := .none, insts := 16391, live := true }
/-- FAB.QUEUE.DEPTH_FRAMES (R268). -/
def FAB_QUEUE_DEPTH_FRAMES : Obj := { idx := 0x4010, sub := 0x03, ty := .u32, acc := .ro, kept := .none, insts := 16391, live := true }
/-- FAB.PORT.CUT_THROUGH (R268). -/
def FAB_PORT_CUT_THROUGH : Obj := { idx := 0x4020, sub := 0x01, ty := .bool, acc := .rw, kept := .w, dflt := [1], insts := 1023 }
/-- FAB.INGRESS_CELLS (R268). -/
def FAB_INGRESS_CELLS : Obj := { idx := 0x4020, sub := 0x02, ty := .u32, count := 8, arr := true, acc := .ro, kept := .none, insts := 1023, live := true }
/-- FAB.GROUP.PORTS (R268). -/
def FAB_GROUP_PORTS : Obj := { idx := 0x4040, sub := 0x01, ty := .u64, count := 16, arr := true, acc := .rw, kept := .w, spec := 7, insts := 65535 }
/-- FAB.GROUP.LAGS (R268). -/
def FAB_GROUP_LAGS : Obj := { idx := 0x4040, sub := 0x02, ty := .u16, count := 4, arr := true, acc := .rw, kept := .w, insts := 65535, lim := [(0, 1023), (32768, 33791)] }
/-- FAB.GROUP.MAT_MEMBERS (R268). -/
def FAB_GROUP_MAT_MEMBERS : Obj := { idx := 0x4040, sub := 0x03, ty := .u8, acc := .rw, kept := .w, insts := 65535 }
/-- FAB.LAG.MEMBERS (R268). -/
def FAB_LAG_MEMBERS : Obj := { idx := 0x4060, sub := 0x01, ty := .u16, count := 16, arr := true, acc := .rw, kept := .w, insts := 1023, lim := [(0, 1023), (32768, 33791)] }
/-- FAB.LAG.ACTIVE (R268). -/
def FAB_LAG_ACTIVE : Obj := { idx := 0x4060, sub := 0x02, ty := .u16, acc := .ro, kept := .none, insts := 1023, live := true }
/-- FAB.DROP.NO_CELLS (R269). -/
def FAB_DROP_NO_CELLS : Obj := { idx := 0x4000, sub := 0x30, ty := .u64, acc := .rc, kept := .c }
/-- FAB.DROP.NO_DESCRIPTOR (R269). -/
def FAB_DROP_NO_DESCRIPTOR : Obj := { idx := 0x4000, sub := 0x31, ty := .u64, acc := .rc, kept := .c }
/-- FAB.NO_PORT (R269). -/
def FAB_NO_PORT : Obj := { idx := 0x4000, sub := 0x32, ty := .u64, acc := .rc, kept := .c }
/-- FAB.LAG.NO_MEMBER (R269). -/
def FAB_LAG_NO_MEMBER : Obj := { idx := 0x4000, sub := 0x33, ty := .u64, acc := .rc, kept := .c }
/-- FAB.PRUNED (R269). -/
def FAB_PRUNED : Obj := { idx := 0x4000, sub := 0x34, ty := .u64, acc := .rc, kept := .c }
/-- FAB.GROUP_EMPTY (R269). -/
def FAB_GROUP_EMPTY : Obj := { idx := 0x4000, sub := 0x35, ty := .u64, acc := .rc, kept := .c }
/-- FAB.POISON_DROPS (R269). -/
def FAB_POISON_DROPS : Obj := { idx := 0x4000, sub := 0x36, ty := .u64, acc := .rc, kept := .c }
/-- FAB.POISON_STOMPED (R269). -/
def FAB_POISON_STOMPED : Obj := { idx := 0x4000, sub := 0x37, ty := .u64, acc := .rc, kept := .c }
/-- FAB.REF_FAULTS (R269). -/
def FAB_REF_FAULTS : Obj := { idx := 0x4000, sub := 0x38, ty := .u64, acc := .rc, kept := .c }
/-- FAB.SPORE.SKIPPED (R269). -/
def FAB_SPORE_SKIPPED : Obj := { idx := 0x4000, sub := 0x39, ty := .u64, acc := .rc, kept := .c }
/-- FAB.RECIRC.NO_BUFFER (R269). -/
def FAB_RECIRC_NO_BUFFER : Obj := { idx := 0x4000, sub := 0x3A, ty := .u64, acc := .rc, kept := .c }
/-- FAB.RECIRC.BAD_DROPPED (R269). -/
def FAB_RECIRC_BAD_DROPPED : Obj := { idx := 0x4000, sub := 0x3B, ty := .u64, acc := .rc, kept := .c }
/-- FAB.QUEUE.ADMITTED (R270). -/
def FAB_QUEUE_ADMITTED : Obj := { idx := 0x40C0, sub := 0x01, ty := .u64, count := 2, arr := true, ctr := true, acc := .rw, kept := .c, dflt := [0, 0], insts := 16391 }
/-- FAB.QUEUE.DROPPED (R270). -/
def FAB_QUEUE_DROPPED : Obj := { idx := 0x40C0, sub := 0x02, ty := .u64, count := 2, arr := true, ctr := true, acc := .rw, kept := .c, dflt := [0, 0], insts := 16391 }
/-- FAB.PORT.TAIL_MARKED (R270). -/
def FAB_PORT_TAIL_MARKED : Obj := { idx := 0x40E0, sub := 0x01, ty := .u64, count := 2, arr := true, ctr := true, acc := .rw, kept := .c, dflt := [0, 0], insts := 1023 }
/-- FAB.PORT.BAD_AT_ADMISSION (R270). -/
def FAB_PORT_BAD_AT_ADMISSION : Obj := { idx := 0x40E0, sub := 0x02, ty := .u64, count := 2, arr := true, ctr := true, acc := .rw, kept := .c, dflt := [0, 0], insts := 1023 }
/-- FAB.PORT.CT_STARTED (R270). -/
def FAB_PORT_CT_STARTED : Obj := { idx := 0x40E0, sub := 0x03, ty := .u64, count := 2, arr := true, ctr := true, acc := .rw, kept := .c, dflt := [0, 0], insts := 1023 }
/-- FAB.PORT.SF_STARTED (R270). -/
def FAB_PORT_SF_STARTED : Obj := { idx := 0x40E0, sub := 0x04, ty := .u64, count := 2, arr := true, ctr := true, acc := .rw, kept := .c, dflt := [0, 0], insts := 1023 }
/-- FAB.SPILL.CELLS_OUT (R297). -/
def FAB_SPILL_CELLS_OUT : Obj := { idx := 0x4000, sub := 0x40, ty := .u32, acc := .ro, kept := .none, live := true }
/-- FAB.SPILL.PAGES_USED (R297). -/
def FAB_SPILL_PAGES_USED : Obj := { idx := 0x4000, sub := 0x41, ty := .u32, acc := .ro, kept := .none, live := true }
/-- FAB.SPILL.REFILL_FLOOR (R297). -/
def FAB_SPILL_REFILL_FLOOR : Obj := { idx := 0x4000, sub := 0x42, ty := .u32, acc := .rw, kept := .w, dflt := [8192], lim := [(0, 65536)] }
/-- FAB.SPILL.REFILL_AHEAD (R297). -/
def FAB_SPILL_REFILL_AHEAD : Obj := { idx := 0x4000, sub := 0x43, ty := .u16, acc := .rw, kept := .w, dflt := [96], lim := [(1, 65535)] }
/-- FAB.CREDIT.INTERVAL (R297). -/
def FAB_CREDIT_INTERVAL : Obj := { idx := 0x4000, sub := 0x44, ty := .u16, acc := .rw, kept := .w, dflt := [2], lim := [(1, 65535)] }
/-- FAB.CREDIT.STALL_TICKS (R297). -/
def FAB_CREDIT_STALL_TICKS : Obj := { idx := 0x4000, sub := 0x45, ty := .u32, acc := .rw, kept := .w, dflt := [2000000] }
/-- FAB.CREDIT.FLOOR (R297). -/
def FAB_CREDIT_FLOOR : Obj := { idx := 0x4000, sub := 0x46, ty := .u32, acc := .ro, kept := .none, live := true }
/-- FAB.QUEUE.RED_PROFILE (R298). -/
def FAB_QUEUE_RED_PROFILE : Obj := { idx := 0x4010, sub := 0x10, ty := .u8, acc := .rw, kept := .w, dflt := [255], insts := 16383, lim := [(0, 63), (255, 255)] }
/-- FAB.QUEUE.RED_AVG (R298). -/
def FAB_QUEUE_RED_AVG : Obj := { idx := 0x4010, sub := 0x11, ty := .u32, acc := .ro, kept := .w, insts := 16383 }
/-- FAB.QUEUE.SPILL_ENABLE (R298). -/
def FAB_QUEUE_SPILL_ENABLE : Obj := { idx := 0x4010, sub := 0x12, ty := .bool, acc := .rw, kept := .w, dflt := [1], insts := 16383 }
/-- FAB.QUEUE.SPILL_PAGES_LIMIT (R298). -/
def FAB_QUEUE_SPILL_PAGES_LIMIT : Obj := { idx := 0x4010, sub := 0x13, ty := .u32, acc := .rw, kept := .w, dflt := [1048576], insts := 16383, lim := [(0, 16777216)] }
/-- FAB.QUEUE.SPILL_PAGES (R298). -/
def FAB_QUEUE_SPILL_PAGES : Obj := { idx := 0x4010, sub := 0x14, ty := .u32, acc := .ro, kept := .none, insts := 16383, live := true }
/-- PORT.HOLD_TIME (R299). -/
def PORT_HOLD_TIME : Obj := { idx := 0x4020, sub := 0x10, ty := .u32, acc := .rw, kept := .w, dflt := [4000], insts := 1023, lim := [(0, 2000000)] }
/-- PORT.MAX_AGE (R299). -/
def PORT_MAX_AGE : Obj := { idx := 0x4020, sub := 0x11, ty := .u32, count := 8, arr := true, acc := .rw, kept := .w, insts := 1023, lim := [(0, 0x7FFFFFFF)] }
/-- PORT.HOLD_STATE (R299). -/
def PORT_HOLD_STATE : Obj := { idx := 0x4020, sub := 0x12, ty := .enum8, acc := .ro, kept := .none, insts := 1023, live := true }
/-- FAB.SPILL.ON (R299). -/
def FAB_SPILL_ON : Obj := { idx := 0x4020, sub := 0x13, ty := .u32, acc := .rw, kept := .w, dflt := [8192], insts := 1023 }
/-- FAB.SPILL.OFF (R299). -/
def FAB_SPILL_OFF : Obj := { idx := 0x4020, sub := 0x14, ty := .u32, acc := .rw, kept := .w, dflt := [6144], insts := 1023 }
/-- FAB.SPILL.STATE (R299). -/
def FAB_SPILL_STATE : Obj := { idx := 0x4020, sub := 0x15, ty := .bool, acc := .ro, kept := .none, insts := 1023, live := true }
/-- FAB.CREDIT.ENABLE (R299). -/
def FAB_CREDIT_ENABLE : Obj := { idx := 0x4020, sub := 0x20, ty := .u8, acc := .rw, kept := .w, dflt := [255], insts := 1023 }
/-- FAB.CREDIT.CELLS (R299). -/
def FAB_CREDIT_CELLS : Obj := { idx := 0x4020, sub := 0x21, ty := .u32, count := 8, arr := true, acc := .rw, kept := .w, dflt := [2048], insts := 1023 }
/-- FAB.CREDIT.BALANCE (R299). -/
def FAB_CREDIT_BALANCE : Obj := { idx := 0x4020, sub := 0x22, ty := .s32, count := 8, arr := true, acc := .ro, kept := .none, insts := 1023, live := true }
/-- FAB.CREDIT.GRANTED (R299). -/
def FAB_CREDIT_GRANTED : Obj := { idx := 0x4020, sub := 0x23, ty := .u32, count := 8, arr := true, acc := .ro, kept := .none, insts := 1023, live := true }
/-- FAB.RED.MIN (R300). -/
def FAB_RED_MIN : Obj := { idx := 0x4080, sub := 0x01, ty := .u32, count := 3, arr := true, acc := .rw, kept := .w, dflt := [16384, 8192, 4096], insts := 63 }
/-- FAB.RED.MAX (R300). -/
def FAB_RED_MAX : Obj := { idx := 0x4080, sub := 0x02, ty := .u32, count := 3, arr := true, acc := .rw, kept := .w, dflt := [32768, 16384, 8192], insts := 63 }
/-- FAB.RED.MAX_P (R300). -/
def FAB_RED_MAX_P : Obj := { idx := 0x4080, sub := 0x03, ty := .u32, count := 3, arr := true, acc := .rw, kept := .w, dflt := [6554, 13107, 32768], insts := 63, lim := [(0, 65536)] }
/-- FAB.RED.WEIGHT (R300). -/
def FAB_RED_WEIGHT : Obj := { idx := 0x4080, sub := 0x04, ty := .u8, acc := .rw, kept := .w, dflt := [4], insts := 63, lim := [(0, 15)] }
/-- FAB.SPILL.BUDGET_SHORT (R301). -/
def FAB_SPILL_BUDGET_SHORT : Obj := { idx := 0x4000, sub := 0x50, ty := .u64, acc := .rc, kept := .c }
/-- FAB.SPILL.QUEUE_FULL (R301). -/
def FAB_SPILL_QUEUE_FULL : Obj := { idx := 0x4000, sub := 0x51, ty := .u64, acc := .rc, kept := .c }
/-- FAB.SPILL.AREA_FULL (R301). -/
def FAB_SPILL_AREA_FULL : Obj := { idx := 0x4000, sub := 0x52, ty := .u64, acc := .rc, kept := .c }
/-- FAB.CREDIT.FRAMES (R301). -/
def FAB_CREDIT_FRAMES : Obj := { idx := 0x4000, sub := 0x53, ty := .u64, acc := .rc, kept := .c }
/-- FAB.CREDIT.OVERRUNS (R301). -/
def FAB_CREDIT_OVERRUNS : Obj := { idx := 0x4000, sub := 0x54, ty := .u64, acc := .rc, kept := .c }
/-- FAB.CREDIT.STALLS (R301). -/
def FAB_CREDIT_STALLS : Obj := { idx := 0x4000, sub := 0x55, ty := .u64, acc := .rc, kept := .c }
/-- FAB.QUEUE.RED_DROPPED (R302). -/
def FAB_QUEUE_RED_DROPPED : Obj := { idx := 0x40C0, sub := 0x03, ty := .u64, count := 2, arr := true, ctr := true, acc := .rw, kept := .c, dflt := [0, 0], insts := 16391 }
/-- FAB.QUEUE.FLOOR_DROPPED (R302). -/
def FAB_QUEUE_FLOOR_DROPPED : Obj := { idx := 0x40C0, sub := 0x04, ty := .u64, count := 2, arr := true, ctr := true, acc := .rw, kept := .c, dflt := [0, 0], insts := 16391 }
/-- FAB.QUEUE.AGED (R302). -/
def FAB_QUEUE_AGED : Obj := { idx := 0x40C0, sub := 0x05, ty := .u64, count := 2, arr := true, ctr := true, acc := .rw, kept := .c, dflt := [0, 0], insts := 16391 }
/-- FAB.QUEUE.FLUSHED (R302). -/
def FAB_QUEUE_FLUSHED : Obj := { idx := 0x40C0, sub := 0x06, ty := .u64, count := 2, arr := true, ctr := true, acc := .rw, kept := .c, dflt := [0, 0], insts := 16391 }
/-- FAB.QUEUE.SPILLED (R302). -/
def FAB_QUEUE_SPILLED : Obj := { idx := 0x40C0, sub := 0x07, ty := .u64, count := 2, arr := true, ctr := true, acc := .rw, kept := .c, dflt := [0, 0], insts := 16391 }
/-- POOL.TRANSFER_LIMIT (R318). -/
def POOL_TRANSFER_LIMIT : Obj := { idx := 0x4800, sub := 0x01, ty := .u32, acc := .rw, kept := .w, dflt := [4096], lim := [(1, 4096)] }
/-- POOL.TRANSFER_BACKLOG (R318). -/
def POOL_TRANSFER_BACKLOG : Obj := { idx := 0x4800, sub := 0x02, ty := .u32, acc := .ro, kept := .none, live := true }
/-- POOL.STASH_AFTER (R318). -/
def POOL_STASH_AFTER : Obj := { idx := 0x4800, sub := 0x03, ty := .u32, acc := .rw, kept := .w, dflt := [20000] }
/-- POOL.CELLS_HELD (R318). -/
def POOL_CELLS_HELD : Obj := { idx := 0x4800, sub := 0x04, ty := .u32, acc := .ro, kept := .none, live := true }
/-- POOL.QUARANTINE (R318). -/
def POOL_QUARANTINE : Obj := { idx := 0x4800, sub := 0x05, ty := .u32, acc := .wo, kept := .none, role := 2, lim := [(0, 1048575)], live := true }
/-- POOL.UNQUARANTINE (R318). -/
def POOL_UNQUARANTINE : Obj := { idx := 0x4800, sub := 0x06, ty := .u32, acc := .wo, kept := .none, live := true }
/-- POOL.QUARANTINE_LIST (R318). -/
def POOL_QUARANTINE_LIST : Obj := { idx := 0x4800, sub := 0x07, ty := .u32, count := 4096, arr := true, acc := .ro, kept := .n, dflt := [4294967295] }
/-- POOL.QUARANTINE_COUNT (R318). -/
def POOL_QUARANTINE_COUNT : Obj := { idx := 0x4800, sub := 0x08, ty := .u16, acc := .ro, kept := .n }
/-- POOL.SIZE_BYTES (R318). -/
def POOL_SIZE_BYTES : Obj := { idx := 0x4810, sub := 0x01, ty := .u32, acc := .ro, kept := .n, spec := 9, insts := 3 }
/-- POOL.BUFFERS (R318). -/
def POOL_BUFFERS : Obj := { idx := 0x4810, sub := 0x02, ty := .u32, acc := .rw, kept := .w, spec := 10, insts := 3, lim := [(0, 262144)] }
/-- POOL.ADMIT_FLOOR (R318). -/
def POOL_ADMIT_FLOOR : Obj := { idx := 0x4810, sub := 0x03, ty := .u32, acc := .rw, kept := .w, spec := 11, insts := 3, lim := [(0, 1048576)] }
/-- POOL.IN_USE (R318). -/
def POOL_IN_USE : Obj := { idx := 0x4810, sub := 0x04, ty := .u32, acc := .ro, kept := .none, insts := 3, live := true }
/-- POOL.STASH_SLOTS (R318). -/
def POOL_STASH_SLOTS : Obj := { idx := 0x4810, sub := 0x05, ty := .u32, acc := .rw, kept := .w, spec := 12, insts := 3 }
/-- POOL.STASHED (R318). -/
def POOL_STASHED : Obj := { idx := 0x4810, sub := 0x06, ty := .u32, acc := .ro, kept := .none, insts := 3, live := true }
/-- POOL.NO_POOL (R319). -/
def POOL_NO_POOL : Obj := { idx := 0x4800, sub := 0x30, ty := .u64, acc := .rc, kept := .c }
/-- POOL.BAD_HANDLE (R319). -/
def POOL_BAD_HANDLE : Obj := { idx := 0x4800, sub := 0x31, ty := .u64, acc := .rc, kept := .c }
/-- POOL.ALLOCS (R319). -/
def POOL_ALLOCS : Obj := { idx := 0x4810, sub := 0x10, ty := .u64, acc := .rc, kept := .c, insts := 3 }
/-- POOL.REFUSED_LIMIT (R319). -/
def POOL_REFUSED_LIMIT : Obj := { idx := 0x4810, sub := 0x11, ty := .u64, acc := .rc, kept := .c, insts := 3 }
/-- POOL.REFUSED_CELLS (R319). -/
def POOL_REFUSED_CELLS : Obj := { idx := 0x4810, sub := 0x12, ty := .u64, acc := .rc, kept := .c, insts := 3 }
/-- POOL.REFUSED_FLOOR (R319). -/
def POOL_REFUSED_FLOOR : Obj := { idx := 0x4810, sub := 0x13, ty := .u64, acc := .rc, kept := .c, insts := 3 }
/-- POOL.REFUSED_TRANSFER (R319). -/
def POOL_REFUSED_TRANSFER : Obj := { idx := 0x4810, sub := 0x14, ty := .u64, acc := .rc, kept := .c, insts := 3 }
/-- POOL.DOUBLE_FREES (R319). -/
def POOL_DOUBLE_FREES : Obj := { idx := 0x4810, sub := 0x15, ty := .u64, acc := .rc, kept := .c, insts := 3 }
/-- POOL.FOREIGN_FREES (R319). -/
def POOL_FOREIGN_FREES : Obj := { idx := 0x4810, sub := 0x16, ty := .u64, acc := .rc, kept := .c, insts := 3 }
/-- POOL.NO_STASH (R319). -/
def POOL_NO_STASH : Obj := { idx := 0x4810, sub := 0x17, ty := .u64, acc := .rc, kept := .c, insts := 3 }
/-- POOL.STASHES (R319). -/
def POOL_STASHES : Obj := { idx := 0x4810, sub := 0x18, ty := .u64, acc := .rc, kept := .c, insts := 3 }
/-- SCHED.LEVEL (R338). -/
def SCHED_LEVEL : Obj := { idx := 0x5010, sub := 0x01, ty := .u8, acc := .rw, kept := .w, spec := 8, insts := 16383, lim := [(0, 15)] }
/-- SCHED.QUANTUM (R338). -/
def SCHED_QUANTUM : Obj := { idx := 0x5010, sub := 0x02, ty := .u32, acc := .rw, kept := .w, dflt := [16384], insts := 16383, lim := [(12352, 16777215)] }
/-- SCHED.WEIGHT (R338). -/
def SCHED_WEIGHT : Obj := { idx := 0x5010, sub := 0x03, ty := .u16, acc := .rw, kept := .w, dflt := [1], insts := 16383, lim := [(1, 65535)] }
/-- SCHED.DEFICIT (R338). -/
def SCHED_DEFICIT : Obj := { idx := 0x5010, sub := 0x04, ty := .s32, acc := .ro, kept := .s, insts := 16383 }
/-- SCHED.TAG (R338). -/
def SCHED_TAG : Obj := { idx := 0x5010, sub := 0x05, ty := .u64, acc := .ro, kept := .s, insts := 16383 }
/-- SHAPER.CIR (R338). -/
def SHAPER_CIR : Obj := { idx := 0x5010, sub := 0x06, ty := .u64, acc := .rw, kept := .w, insts := 16383, lim := [(0, 838860800000)] }
/-- SHAPER.PIR (R338). -/
def SHAPER_PIR : Obj := { idx := 0x5010, sub := 0x07, ty := .u64, acc := .rw, kept := .w, dflt := [838860800000], insts := 16383, lim := [(0, 838860800000)] }
/-- SHAPER.CBS (R338). -/
def SHAPER_CBS : Obj := { idx := 0x5010, sub := 0x08, ty := .u32, acc := .rw, kept := .w, dflt := [65536], insts := 16383, lim := [(0, 16777215)] }
/-- SHAPER.PBS (R338). -/
def SHAPER_PBS : Obj := { idx := 0x5010, sub := 0x09, ty := .u32, acc := .rw, kept := .w, dflt := [65536], insts := 16383, lim := [(0, 16777215)] }
/-- SHAPER.RESET_TO_FULL (R338). -/
def SHAPER_RESET_TO_FULL : Obj := { idx := 0x5010, sub := 0x0A, ty := .bool, acc := .rw, kept := .w, dflt := [1], insts := 16383 }
/-- SHAPER.TOKENS (R338). -/
def SHAPER_TOKENS : Obj := { idx := 0x5010, sub := 0x0B, ty := .s64, count := 2, arr := true, acc := .ro, kept := .s, dflt := [4294967296, 4294967296], insts := 16383 }
/-- SCHED.LEVEL_MODE (R339). -/
def SCHED_LEVEL_MODE : Obj := { idx := 0x5080, sub := 0x01, ty := .enum8, count := 16, arr := true, acc := .rw, kept := .w, insts := 1023, lim := [(0, 2)] }
/-- SCHED.OVERHEAD (R339). -/
def SCHED_OVERHEAD : Obj := { idx := 0x5080, sub := 0x02, ty := .u8, acc := .rw, kept := .w, dflt := [20], insts := 1023, lim := [(0, 63)] }
/-- SCHED.VTIME (R339). -/
def SCHED_VTIME : Obj := { idx := 0x5080, sub := 0x03, ty := .u64, count := 16, arr := true, acc := .ro, kept := .s, insts := 1023 }
/-- SCHED.TURN (R339). -/
def SCHED_TURN : Obj := { idx := 0x5080, sub := 0x04, ty := .u8, count := 16, arr := true, acc := .ro, kept := .s, dflt := [255], insts := 1023 }
/-- SCHED.PORT.QUEUED_BYTES (R339). -/
def SCHED_PORT_QUEUED_BYTES : Obj := { idx := 0x5080, sub := 0x05, ty := .u64, acc := .ro, kept := .none, insts := 1023, live := true }
/-- SCHED.PATHS (R339). -/
def SCHED_PATHS : Obj := { idx := 0x5080, sub := 0x06, ty := .u8, acc := .ro, kept := .none, insts := 1023, live := true }
/-- SHAPER.CIR (R339). -/
def PSHAPER_CIR : Obj := { idx := 0x5080, sub := 0x10, ty := .u64, acc := .rw, kept := .w, insts := 1023, lim := [(0, 838860800000)] }
/-- SHAPER.PIR (R339). -/
def PSHAPER_PIR : Obj := { idx := 0x5080, sub := 0x11, ty := .u64, acc := .rw, kept := .w, dflt := [838860800000], insts := 1023, lim := [(0, 838860800000)] }
/-- SHAPER.CBS (R339). -/
def PSHAPER_CBS : Obj := { idx := 0x5080, sub := 0x12, ty := .u32, acc := .rw, kept := .w, dflt := [65536], insts := 1023, lim := [(0, 16777215)] }
/-- SHAPER.PBS (R339). -/
def PSHAPER_PBS : Obj := { idx := 0x5080, sub := 0x13, ty := .u32, acc := .rw, kept := .w, dflt := [65536], insts := 1023, lim := [(0, 16777215)] }
/-- SHAPER.RESET_TO_FULL (R339). -/
def PSHAPER_RESET_TO_FULL : Obj := { idx := 0x5080, sub := 0x14, ty := .bool, acc := .rw, kept := .w, dflt := [1], insts := 1023 }
/-- SHAPER.TOKENS (R339). -/
def PSHAPER_TOKENS : Obj := { idx := 0x5080, sub := 0x15, ty := .s64, count := 2, arr := true, acc := .ro, kept := .s, dflt := [4294967296, 4294967296], insts := 1023 }
/-- SCHED.QUEUE.SENT (R340). -/
def SCHED_QUEUE_SENT : Obj := { idx := 0x50C0, sub := 0x01, ty := .u64, count := 2, arr := true, ctr := true, acc := .rw, kept := .c, dflt := [0, 0], insts := 16383 }
/-- SCHED.QUEUE.SENT_COMMITTED (R340). -/
def SCHED_QUEUE_SENT_COMMITTED : Obj := { idx := 0x50C0, sub := 0x02, ty := .u64, count := 2, arr := true, ctr := true, acc := .rw, kept := .c, dflt := [0, 0], insts := 16383 }
/-- GATE.ADMIN.LIST (R359). -/
def GATE_ADMIN_LIST : Obj := { idx := 0x5100, sub := 0x01, ty := .u64, count := 1024, arr := true, acc := .rw, kept := .w, insts := 1023 }
/-- GATE.ADMIN.ENTRIES (R359). -/
def GATE_ADMIN_ENTRIES : Obj := { idx := 0x5100, sub := 0x02, ty := .u16, acc := .rw, kept := .w, insts := 1023, lim := [(0, 1024)] }
/-- GATE.ADMIN.BASE_TIME (R359). -/
def GATE_ADMIN_BASE_TIME : Obj := { idx := 0x5100, sub := 0x03, ty := .time80, acc := .rw, kept := .w, insts := 1023 }
/-- GATE.ADMIN.CYCLE (R359). -/
def GATE_ADMIN_CYCLE : Obj := { idx := 0x5100, sub := 0x04, ty := .u32, acc := .rw, kept := .w, dflt := [1000000], insts := 1023, lim := [(1000, 1000000000)] }
/-- GATE.ADMIN.CYCLE_EXTENSION (R359). -/
def GATE_ADMIN_CYCLE_EXTENSION : Obj := { idx := 0x5100, sub := 0x05, ty := .u32, acc := .rw, kept := .w, insts := 1023 }
/-- GATE.ADMIN.VIEW (R359). -/
def GATE_ADMIN_VIEW : Obj := { idx := 0x5100, sub := 0x06, ty := .u8, acc := .rw, kept := .w, insts := 1023, lim := [(0, 3)] }
/-- GATE.CONFIG_CHANGE (R359). -/
def GATE_CONFIG_CHANGE : Obj := { idx := 0x5100, sub := 0x07, ty := .u8, acc := .wo, kept := .none, insts := 1023, lim := [(0, 1)], live := true }
/-- GATE.CONFIG_PENDING (R359). -/
def GATE_CONFIG_PENDING : Obj := { idx := 0x5100, sub := 0x08, ty := .bool, acc := .ro, kept := .w, insts := 1023 }
/-- GATE.CONFIG_CHANGE_TIME (R359). -/
def GATE_CONFIG_CHANGE_TIME : Obj := { idx := 0x5100, sub := 0x09, ty := .time80, acc := .ro, kept := .w, insts := 1023 }
/-- GATE.OPER.LIST (R359). -/
def GATE_OPER_LIST : Obj := { idx := 0x5100, sub := 0x0A, ty := .u64, count := 1024, arr := true, acc := .ro, kept := .w, insts := 1023 }
/-- GATE.OPER.ENTRIES (R359). -/
def GATE_OPER_ENTRIES : Obj := { idx := 0x5100, sub := 0x0B, ty := .u16, acc := .ro, kept := .w, insts := 1023 }
/-- GATE.OPER.BASE_TIME (R359). -/
def GATE_OPER_BASE_TIME : Obj := { idx := 0x5100, sub := 0x0C, ty := .time80, acc := .ro, kept := .w, insts := 1023 }
/-- GATE.OPER.CYCLE (R359). -/
def GATE_OPER_CYCLE : Obj := { idx := 0x5100, sub := 0x0D, ty := .u32, acc := .ro, kept := .w, dflt := [1000000], insts := 1023 }
/-- GATE.OPER.CYCLE_EXTENSION (R359). -/
def GATE_OPER_CYCLE_EXTENSION : Obj := { idx := 0x5100, sub := 0x0E, ty := .u32, acc := .ro, kept := .w, insts := 1023 }
/-- GATE.OPER.VIEW (R359). -/
def GATE_OPER_VIEW : Obj := { idx := 0x5100, sub := 0x0F, ty := .u8, acc := .ro, kept := .w, insts := 1023 }
/-- GATE.STATE (R359). -/
def GATE_STATE : Obj := { idx := 0x5100, sub := 0x10, ty := .u16, acc := .ro, kept := .none, insts := 1023, live := true }
/-- GATE.MAX_OPEN (R359). -/
def GATE_MAX_OPEN : Obj := { idx := 0x5100, sub := 0x11, ty := .u32, count := 16, arr := true, acc := .ro, kept := .w, dflt := [4294967295], insts := 1023 }
/-- GATE.CONFIG_CHANGES (R359). -/
def GATE_CONFIG_CHANGES : Obj := { idx := 0x5100, sub := 0x12, ty := .u32, acc := .rc, kept := .w, insts := 1023 }
/-- GATE.CLOSE_PREEMPTS (R359). -/
def GATE_CLOSE_PREEMPTS : Obj := { idx := 0x5100, sub := 0x13, ty := .u32, acc := .rc, kept := .s, insts := 1023 }
/-- GATE.OVERRUNS (R359). -/
def GATE_OVERRUNS : Obj := { idx := 0x5100, sub := 0x14, ty := .u32, acc := .rc, kept := .s, insts := 1023 }
/-- GATE.QUEUE.TOO_LONG (R360). -/
def GATE_QUEUE_TOO_LONG : Obj := { idx := 0x5140, sub := 0x01, ty := .u64, count := 2, arr := true, ctr := true, acc := .rw, kept := .c, dflt := [0, 0], insts := 16383 }
/-- TIME.VIEW.NOW (R385). -/
def TIME_VIEW_NOW : Obj := { idx := 0x6010, sub := 0x01, ty := .time80, acc := .ro, kept := .none, insts := 3, live := true }
/-- TIME.VIEW.NOW_SUB (R385). -/
def TIME_VIEW_NOW_SUB : Obj := { idx := 0x6010, sub := 0x02, ty := .u16, acc := .ro, kept := .none, insts := 3, live := true }
/-- TIME.VIEW.INCREMENT (R385). -/
def TIME_VIEW_INCREMENT : Obj := { idx := 0x6010, sub := 0x03, ty := .u64, acc := .rw, kept := .c, dflt := [2748779069440], insts := 3 }
/-- TIME.VIEW.SET (R385). -/
def TIME_VIEW_SET : Obj := { idx := 0x6010, sub := 0x04, ty := .time80, acc := .wo, kept := .none, insts := 3, live := true }
/-- TIME.VIEW.SET_SUB (R385). -/
def TIME_VIEW_SET_SUB : Obj := { idx := 0x6010, sub := 0x05, ty := .u16, acc := .rw, kept := .w, insts := 3 }
/-- TIME.VIEW.STEP (R385). -/
def TIME_VIEW_STEP : Obj := { idx := 0x6010, sub := 0x06, ty := .s64, acc := .wo, kept := .none, insts := 3, live := true }
/-- TIME.VIEW.STATE (R385). -/
def TIME_VIEW_STATE : Obj := { idx := 0x6010, sub := 0x07, ty := .enum8, acc := .ro, kept := .c, insts := 3 }
/-- TIME.VIEW.HOLDOVER_AFTER (R385). -/
def TIME_VIEW_HOLDOVER_AFTER : Obj := { idx := 0x6010, sub := 0x08, ty := .u16, acc := .rw, kept := .w, dflt := [2], insts := 3 }
/-- TIME.VIEW.HOLDOVER_INCREMENT (R385). -/
def TIME_VIEW_HOLDOVER_INCREMENT : Obj := { idx := 0x6010, sub := 0x09, ty := .u64, acc := .rw, kept := .c, insts := 3 }
/-- TIME.VIEW.LAST_WRITE_TICK (R385). -/
def TIME_VIEW_LAST_WRITE_TICK : Obj := { idx := 0x6010, sub := 0x0A, ty := .u64, acc := .ro, kept := .c, insts := 3 }
/-- TIME.VIEW.PARAMS (R385). -/
def TIME_VIEW_PARAMS : Obj := { idx := 0x6010, sub := 0x0B, ty := .u64, count := 4, arr := true, acc := .ro, kept := .c, dflt := [0, 0, 0, 0], insts := 3 }
/-- TIME.VIEW.STEPS (R385). -/
def TIME_VIEW_STEPS : Obj := { idx := 0x6010, sub := 0x0C, ty := .u32, acc := .rc, kept := .c, insts := 3 }
/-- TIME.VIEW.STALE_CONVERSIONS (R385). -/
def TIME_VIEW_STALE_CONVERSIONS : Obj := { idx := 0x6010, sub := 0x0D, ty := .u32, acc := .rc, kept := .c, insts := 3 }
/-- TIME.RAW (R386). -/
def TIME_RAW : Obj := { idx := 0x6000, sub := 0x01, ty := .u64, count := 2, arr := true, acc := .ro, kept := .none, live := true }
/-- TIME.REF_A.OFFSET (R386). -/
def TIME_REF_A_OFFSET : Obj := { idx := 0x6000, sub := 0x02, ty := .s64, acc := .wo, kept := .none, live := true }
/-- TIME.REF_A.ENABLE (R386). -/
def TIME_REF_A_ENABLE : Obj := { idx := 0x6000, sub := 0x03, ty := .bool, acc := .rw, kept := .w, dflt := [1] }
/-- TIME.REF_B.ENABLE (R386). -/
def TIME_REF_B_ENABLE : Obj := { idx := 0x6000, sub := 0x04, ty := .bool, acc := .rw, kept := .w }
/-- TIME.REF_B.SOURCE (R386). -/
def TIME_REF_B_SOURCE : Obj := { idx := 0x6000, sub := 0x05, ty := .u8, acc := .rw, kept := .w, lim := [(0, 8)] }
/-- TIME.REF_B.EDGE (R386). -/
def TIME_REF_B_EDGE : Obj := { idx := 0x6000, sub := 0x06, ty := .enum8, acc := .rw, kept := .w, lim := [(0, 1)] }
/-- TIME.REF_B.DELAY (R386). -/
def TIME_REF_B_DELAY : Obj := { idx := 0x6000, sub := 0x07, ty := .s64, acc := .rw, kept := .w }
/-- TIME.REF_C.ENABLE (R386). -/
def TIME_REF_C_ENABLE : Obj := { idx := 0x6000, sub := 0x08, ty := .bool, acc := .rw, kept := .w }
/-- TIME.REF.MAX_AGE (R386). -/
def TIME_REF_MAX_AGE : Obj := { idx := 0x6000, sub := 0x09, ty := .u32, count := 3, arr := true, acc := .rw, kept := .w, dflt := [4000000], lim := [(1, 4294967295)] }
/-- TIME.REF.LAST (R386). -/
def TIME_REF_LAST : Obj := { idx := 0x6000, sub := 0x0A, ty := .s64, count := 3, arr := true, acc := .ro, kept := .w }
/-- TIME.REF.LAST_TICK (R386). -/
def TIME_REF_LAST_TICK : Obj := { idx := 0x6000, sub := 0x0B, ty := .u64, count := 3, arr := true, acc := .ro, kept := .w }
/-- TIME.VOTE.VIEW (R386). -/
def TIME_VOTE_VIEW : Obj := { idx := 0x6000, sub := 0x10, ty := .u8, acc := .rw, kept := .w, lim := [(0, 3)] }
/-- TIME.VOTE.WINDOW (R386). -/
def TIME_VOTE_WINDOW : Obj := { idx := 0x6000, sub := 0x11, ty := .u32, acc := .rw, kept := .w, dflt := [150], lim := [(1, 1000000)] }
/-- TIME.VOTE.FREEZE_ON (R386). -/
def TIME_VOTE_FREEZE_ON : Obj := { idx := 0x6000, sub := 0x12, ty := .u8, acc := .rw, kept := .w, dflt := [1], lim := [(0, 7)] }
/-- TIME.VOTE.OUTCOME (R386). -/
def TIME_VOTE_OUTCOME : Obj := { idx := 0x6000, sub := 0x13, ty := .enum8, acc := .ro, kept := .w }
/-- TIME.VOTE.FROZEN (R386). -/
def TIME_VOTE_FROZEN : Obj := { idx := 0x6000, sub := 0x14, ty := .bool, acc := .ro, kept := .w }
/-- TIME.VOTE.RELEASE (R386). -/
def TIME_VOTE_RELEASE : Obj := { idx := 0x6000, sub := 0x15, ty := .bool, acc := .wo, kept := .none, live := true }
/-- TIME.VOTE.COUNTS (R386). -/
def TIME_VOTE_COUNTS : Obj := { idx := 0x6000, sub := 0x16, ty := .u32, count := 8, arr := true, acc := .rc, kept := .c }
/-- TIO.MODE (R387). -/
def TIO_MODE : Obj := { idx := 0x6040, sub := 0x01, ty := .enum8, acc := .rw, kept := .w, insts := 7, lim := [(0, 5)] }
/-- TIO.VIEW (R387). -/
def TIO_VIEW : Obj := { idx := 0x6040, sub := 0x02, ty := .u8, acc := .rw, kept := .w, insts := 7, lim := [(0, 3)] }
/-- TIO.OUT_DELAY (R387). -/
def TIO_OUT_DELAY : Obj := { idx := 0x6040, sub := 0x03, ty := .s32, acc := .rw, kept := .w, insts := 7 }
/-- TIO.PULSE_WIDTH (R387). -/
def TIO_PULSE_WIDTH : Obj := { idx := 0x6040, sub := 0x04, ty := .u32, acc := .rw, kept := .w, dflt := [100000000], insts := 7, lim := [(100, 900000000)] }
/-- TIO.MUTE (R387). -/
def TIO_MUTE : Obj := { idx := 0x6040, sub := 0x05, ty := .bool, acc := .rw, kept := .w, insts := 7 }
/-- TIO.EDGE (R387). -/
def TIO_EDGE : Obj := { idx := 0x6040, sub := 0x06, ty := .enum8, acc := .rw, kept := .w, insts := 7, lim := [(0, 2)] }
/-- TIO.EVENT.COUNT (R387). -/
def TIO_EVENT_COUNT : Obj := { idx := 0x6040, sub := 0x07, ty := .u8, acc := .ro, kept := .w, insts := 7 }
/-- TIO.EVENT.NEXT (R387). -/
def TIO_EVENT_NEXT : Obj := { idx := 0x6040, sub := 0x08, ty := .u64, count := 4, arr := true, acc := .rc, kept := .w, insts := 7 }
/-- TIO.EVENT.LOST (R387). -/
def TIO_EVENT_LOST : Obj := { idx := 0x6040, sub := 0x09, ty := .u32, acc := .rc, kept := .c, insts := 7 }
/-- TIO.EVENT.TOO_CLOSE (R387). -/
def TIO_EVENT_TOO_CLOSE : Obj := { idx := 0x6040, sub := 0x0A, ty := .u32, acc := .rc, kept := .c, insts := 7 }
/-- TIO.TOD_BAD (R387). -/
def TIO_TOD_BAD : Obj := { idx := 0x6040, sub := 0x0B, ty := .u32, acc := .rc, kept := .c, insts := 7 }
/-- STAMP.TC_VIEW (R411). -/
def STAMP_TC_VIEW : Obj := { idx := 0x6800, sub := 0x01, ty := .u8, acc := .rw, kept := .w, lim := [(0, 3)] }
/-- STAMP.PTP_LAYER (R411). -/
def STAMP_PTP_LAYER : Obj := { idx := 0x6800, sub := 0x02, ty := .u8, acc := .rw, kept := .w, dflt := [15], lim := [(1, 63)] }
/-- STAMP.TC_DOMAINS (R411). -/
def STAMP_TC_DOMAINS : Obj := { idx := 0x6800, sub := 0x03, ty := .u64, count := 4, arr := true, acc := .rw, kept := .w, dflt := [18446744073709551615] }
/-- STAMP.LONG_RESIDENCE (R411). -/
def STAMP_LONG_RESIDENCE : Obj := { idx := 0x6800, sub := 0x04, ty := .u32, acc := .rw, kept := .w, dflt := [10000000] }
/-- STAMP.CAPTURE.COUNT (R411). -/
def STAMP_CAPTURE_COUNT : Obj := { idx := 0x6800, sub := 0x05, ty := .u16, acc := .ro, kept := .w }
/-- STAMP.CAPTURE.NEXT (R411). -/
def STAMP_CAPTURE_NEXT : Obj := { idx := 0x6800, sub := 0x06, ty := .u64, count := 4, arr := true, acc := .rc, kept := .w }
/-- STAMP.IOAM_LAYER (R411). -/
def STAMP_IOAM_LAYER : Obj := { idx := 0x6800, sub := 0x07, ty := .u8, acc := .rw, kept := .w, dflt := [7], lim := [(1, 63)] }
/-- STAMP.IOAM.NODE_ID (R411). -/
def STAMP_IOAM_NODE_ID : Obj := { idx := 0x6800, sub := 0x08, ty := .u32, acc := .rw, kept := .w, lim := [(0, 16777215)] }
/-- STAMP.IOAM.NAMESPACES (R411). -/
def STAMP_IOAM_NAMESPACES : Obj := { idx := 0x6800, sub := 0x09, ty := .u32, count := 4, arr := true, acc := .rw, kept := .w, dflt := [65536, 0] }
/-- STAMP.IOAM.VIEW (R411). -/
def STAMP_IOAM_VIEW : Obj := { idx := 0x6800, sub := 0x0A, ty := .u8, acc := .rw, kept := .w, lim := [(0, 3)] }
/-- STAMP.CORRECTED (R412). -/
def STAMP_CORRECTED : Obj := { idx := 0x6800, sub := 0x30, ty := .u64, acc := .rc, kept := .c }
/-- STAMP.SATURATED (R412). -/
def STAMP_SATURATED : Obj := { idx := 0x6800, sub := 0x31, ty := .u64, acc := .rc, kept := .c }
/-- STAMP.LONG_RESIDENCE_COUNT (R412). -/
def STAMP_LONG_RESIDENCE_COUNT : Obj := { idx := 0x6800, sub := 0x32, ty := .u64, acc := .rc, kept := .c }
/-- STAMP.CHECKSUM_UNSUPPORTED (R412). -/
def STAMP_CHECKSUM_UNSUPPORTED : Obj := { idx := 0x6800, sub := 0x33, ty := .u64, acc := .rc, kept := .c }
/-- STAMP.CAPTURE.LOST (R412). -/
def STAMP_CAPTURE_LOST : Obj := { idx := 0x6800, sub := 0x34, ty := .u64, acc := .rc, kept := .c }
/-- STAMP.IOAM.WRITTEN (R412). -/
def STAMP_IOAM_WRITTEN : Obj := { idx := 0x6800, sub := 0x35, ty := .u64, acc := .rc, kept := .c }
/-- STAMP.IOAM.OVERFLOW (R412). -/
def STAMP_IOAM_OVERFLOW : Obj := { idx := 0x6800, sub := 0x36, ty := .u64, acc := .rc, kept := .c }
/-- STAMP.IOAM.BAD_LENGTH (R412). -/
def STAMP_IOAM_BAD_LENGTH : Obj := { idx := 0x6800, sub := 0x37, ty := .u64, acc := .rc, kept := .c }
/-- STAMP.NO_INGRESS_EVENTS (R412). -/
def STAMP_NO_INGRESS_EVENTS : Obj := { idx := 0x6800, sub := 0x38, ty := .u64, acc := .rc, kept := .c }
/-- STAMP.PORT.TC_MODE (R413). -/
def STAMP_PORT_TC_MODE : Obj := { idx := 0x6880, sub := 0x01, ty := .enum8, acc := .rw, kept := .w, insts := 1023, lim := [(0, 2)] }
/-- STAMP.PORT.LINK_DELAY (R413). -/
def STAMP_PORT_LINK_DELAY : Obj := { idx := 0x6880, sub := 0x02, ty := .s64, acc := .rw, kept := .w, insts := 1023 }
/-- STAMP.PORT.RX_ADJUST (R413). -/
def STAMP_PORT_RX_ADJUST : Obj := { idx := 0x6880, sub := 0x03, ty := .s32, acc := .rw, kept := .w, insts := 1023 }
/-- STAMP.PORT.TX_ADJUST (R413). -/
def STAMP_PORT_TX_ADJUST : Obj := { idx := 0x6880, sub := 0x04, ty := .s32, acc := .rw, kept := .w, insts := 1023 }
/-- STAMP.PORT.TWO_STEP_CAPTURE (R413). -/
def STAMP_PORT_TWO_STEP_CAPTURE : Obj := { idx := 0x6880, sub := 0x05, ty := .bool, acc := .rw, kept := .w, insts := 1023 }
/-- STAMP.PORT.IOAM_ENABLE (R413). -/
def STAMP_PORT_IOAM_ENABLE : Obj := { idx := 0x6880, sub := 0x06, ty := .bool, acc := .rw, kept := .w, insts := 1023 }
/-- STAMP.EVENT_COPIES (R413). -/
def STAMP_EVENT_COPIES : Obj := { idx := 0x6880, sub := 0x07, ty := .u64, acc := .rc, kept := .c, insts := 1023 }
/-- WATCH.ENABLE (R414). -/
def WATCH_ENABLE : Obj := { idx := 0x6900, sub := 0x01, ty := .bool, acc := .rw, kept := .w, insts := 65535 }
/-- WATCH.MODE (R414). -/
def WATCH_MODE : Obj := { idx := 0x6900, sub := 0x02, ty := .enum8, acc := .rw, kept := .w, dflt := [1], insts := 65535, lim := [(0, 1)] }
/-- WATCH.PERIOD (R414). -/
def WATCH_PERIOD : Obj := { idx := 0x6900, sub := 0x03, ty := .u32, acc := .rw, kept := .w, dflt := [20000000], insts := 65535, lim := [(1000, 1000000000)] }
/-- WATCH.GRID_BASE (R414). -/
def WATCH_GRID_BASE : Obj := { idx := 0x6900, sub := 0x04, ty := .time80, acc := .rw, kept := .w, insts := 65535 }
/-- WATCH.VIEW (R414). -/
def WATCH_VIEW : Obj := { idx := 0x6900, sub := 0x05, ty := .u8, acc := .rw, kept := .w, insts := 65535, lim := [(0, 3)] }
/-- WATCH.BIN_LOW (R414). -/
def WATCH_BIN_LOW : Obj := { idx := 0x6900, sub := 0x06, ty := .s32, acc := .rw, kept := .w, insts := 65535 }
/-- WATCH.BIN_WIDTH (R414). -/
def WATCH_BIN_WIDTH : Obj := { idx := 0x6900, sub := 0x07, ty := .u32, acc := .rw, kept := .w, dflt := [1000], insts := 65535, lim := [(1, 4294967295)] }
/-- WATCH.LATE (R414). -/
def WATCH_LATE : Obj := { idx := 0x6900, sub := 0x08, ty := .u32, acc := .rw, kept := .w, dflt := [1000000], insts := 65535 }
/-- WATCH.SEQ_SOURCE (R414). -/
def WATCH_SEQ_SOURCE : Obj := { idx := 0x6900, sub := 0x09, ty := .enum8, acc := .rw, kept := .w, insts := 65535, lim := [(0, 2)] }
/-- WATCH.SEQ_SLOT (R414). -/
def WATCH_SEQ_SLOT : Obj := { idx := 0x6900, sub := 0x0A, ty := .u8, acc := .rw, kept := .w, insts := 65535, lim := [(0, 31)] }
/-- WATCH.SEQ_WIDTH (R414). -/
def WATCH_SEQ_WIDTH : Obj := { idx := 0x6900, sub := 0x0B, ty := .u8, acc := .rw, kept := .w, dflt := [16], insts := 65535, lim := [(2, 32)] }
/-- WATCH.REPORT_PERIOD (R414). -/
def WATCH_REPORT_PERIOD : Obj := { idx := 0x6900, sub := 0x0C, ty := .u32, acc := .rw, kept := .w, dflt := [2000000], insts := 65535 }
/-- WATCH.RECORD_ABOVE (R414). -/
def WATCH_RECORD_ABOVE : Obj := { idx := 0x6900, sub := 0x0D, ty := .u32, acc := .rw, kept := .w, insts := 65535 }
/-- WATCH.CLEAR (R414). -/
def WATCH_CLEAR : Obj := { idx := 0x6900, sub := 0x0E, ty := .bool, acc := .wo, kept := .none, insts := 65535, live := true }
/-- WATCH.HIST (R414). -/
def WATCH_HIST : Obj := { idx := 0x6900, sub := 0x0F, ty := .u32, count := 16, arr := true, acc := .ro, kept := .c, insts := 65535 }
/-- WATCH.EXTREMES (R414). -/
def WATCH_EXTREMES : Obj := { idx := 0x6900, sub := 0x10, ty := .s64, count := 2, arr := true, acc := .ro, kept := .c, dflt := [0, 0], insts := 65535 }
/-- WATCH.FRAMES (R414). -/
def WATCH_FRAMES : Obj := { idx := 0x6900, sub := 0x11, ty := .u64, acc := .ro, kept := .c, insts := 65535 }
/-- WATCH.LATE_COUNT (R414). -/
def WATCH_LATE_COUNT : Obj := { idx := 0x6900, sub := 0x12, ty := .u32, acc := .ro, kept := .c, insts := 65535 }
/-- WATCH.GAPS (R414). -/
def WATCH_GAPS : Obj := { idx := 0x6900, sub := 0x13, ty := .u32, acc := .ro, kept := .c, insts := 65535 }
/-- WATCH.REORDERS (R414). -/
def WATCH_REORDERS : Obj := { idx := 0x6900, sub := 0x14, ty := .u32, acc := .ro, kept := .c, insts := 65535 }
/-- WATCH.NO_STAMP (R414). -/
def WATCH_NO_STAMP : Obj := { idx := 0x6900, sub := 0x15, ty := .u32, acc := .ro, kept := .c, insts := 65535 }
/-- MAT.ENABLE (R448). -/
def MAT_ENABLE : Obj := { idx := 0x7000, sub := 0x01, ty := .bool, acc := .rw, kept := .w }
/-- MAT.DEVICE (R448). -/
def MAT_DEVICE : Obj := { idx := 0x7000, sub := 0x02, ty := .u8, acc := .rw, kept := .w, lim := [(0, 7)] }
/-- MAT.MEMBERS (R448). -/
def MAT_MEMBERS : Obj := { idx := 0x7000, sub := 0x03, ty := .u8, acc := .rw, kept := .w }
/-- MAT.CANDIDATES (R448). -/
def MAT_CANDIDATES : Obj := { idx := 0x7000, sub := 0x04, ty := .u8, acc := .rw, kept := .w }
/-- MAT.VIEW (R448). -/
def MAT_VIEW : Obj := { idx := 0x7000, sub := 0x05, ty := .u8, acc := .rw, kept := .w, lim := [(0, 3)] }
/-- MAT.STATE (R448). -/
def MAT_STATE : Obj := { idx := 0x7000, sub := 0x06, ty := .enum8, acc := .ro, kept := .w }
/-- MAT.MASTER (R448). -/
def MAT_MASTER : Obj := { idx := 0x7000, sub := 0x07, ty := .u8, acc := .ro, kept := .w, dflt := [255] }
/-- MAT.STANDBY (R448). -/
def MAT_STANDBY : Obj := { idx := 0x7000, sub := 0x08, ty := .u8, acc := .ro, kept := .w, dflt := [255] }
/-- MAT.TERM (R448). -/
def MAT_TERM : Obj := { idx := 0x7000, sub := 0x09, ty := .u64, acc := .ro, kept := .n }
/-- MAT.LAST_HOLDER (R448). -/
def MAT_LAST_HOLDER : Obj := { idx := 0x7000, sub := 0x0A, ty := .u8, acc := .ro, kept := .n, dflt := [255] }
/-- MAT.LEASE.DURATION (R448). -/
def MAT_LEASE_DURATION : Obj := { idx := 0x7000, sub := 0x0B, ty := .u32, acc := .rw, kept := .w, dflt := [400000] }
/-- MAT.LEASE.RENEW (R448). -/
def MAT_LEASE_RENEW : Obj := { idx := 0x7000, sub := 0x0C, ty := .u32, acc := .rw, kept := .w, dflt := [100000] }
/-- MAT.LEASE.GUARD (R448). -/
def MAT_LEASE_GUARD : Obj := { idx := 0x7000, sub := 0x0D, ty := .u32, acc := .rw, kept := .w, dflt := [40000] }
/-- MAT.LEASE.COLLECT (R448). -/
def MAT_LEASE_COLLECT : Obj := { idx := 0x7000, sub := 0x0E, ty := .u32, acc := .rw, kept := .w, dflt := [10000] }
/-- MAT.LEASE.END_TICK (R448). -/
def MAT_LEASE_END_TICK : Obj := { idx := 0x7000, sub := 0x0F, ty := .u64, acc := .ro, kept := .w }
/-- MAT.HEARTBEAT.INTERVAL (R448). -/
def MAT_HEARTBEAT_INTERVAL : Obj := { idx := 0x7000, sub := 0x10, ty := .u32, acc := .rw, kept := .w, dflt := [20000], lim := [(1, 4294967295)] }
/-- MAT.HEARTBEAT.TIMEOUT (R448). -/
def MAT_HEARTBEAT_TIMEOUT : Obj := { idx := 0x7000, sub := 0x11, ty := .u32, acc := .rw, kept := .w, dflt := [200000] }
/-- MAT.REACH (R448). -/
def MAT_REACH : Obj := { idx := 0x7000, sub := 0x12, ty := .u8, count := 8, arr := true, acc := .ro, kept := .w }
/-- MAT.SPLIT (R448). -/
def MAT_SPLIT : Obj := { idx := 0x7000, sub := 0x13, ty := .bool, acc := .ro, kept := .w }
/-- MAT.REJOIN (R448). -/
def MAT_REJOIN : Obj := { idx := 0x7000, sub := 0x14, ty := .bool, acc := .wo, kept := .none, live := true }
/-- MAT.AUTO_REJOIN (R448). -/
def MAT_AUTO_REJOIN : Obj := { idx := 0x7000, sub := 0x15, ty := .bool, acc := .rw, kept := .w }
/-- MAT.KEY (R448). -/
def MAT_KEY : Obj := { idx := 0x7000, sub := 0x16, ty := .blob, acc := .wo, kept := .n, live := true }
/-- MAT.MGMT.PEERS (R448). -/
def MAT_MGMT_PEERS : Obj := { idx := 0x7000, sub := 0x17, ty := .u8, count := 144, arr := true, acc := .rw, kept := .w }
/-- MAT.SYNC.CONFLICT_TICKS (R448). -/
def MAT_SYNC_CONFLICT_TICKS : Obj := { idx := 0x7000, sub := 0x18, ty := .u32, acc := .rw, kept := .w, dflt := [2000] }
/-- MAT.CHECK.SAMPLE (R448). -/
def MAT_CHECK_SAMPLE : Obj := { idx := 0x7000, sub := 0x19, ty := .u16, acc := .rw, kept := .w, dflt := [64] }
/-- MAT.CHECK.STATE (R448). -/
def MAT_CHECK_STATE : Obj := { idx := 0x7000, sub := 0x1A, ty := .enum8, acc := .ro, kept := .w }
/-- MAT.TIME.INTERVAL (R448). -/
def MAT_TIME_INTERVAL : Obj := { idx := 0x7000, sub := 0x1B, ty := .u32, acc := .rw, kept := .w, dflt := [2000], lim := [(1, 4294967295)] }
/-- MAT.TRUNK.PORTS (R449). -/
def MAT_TRUNK_PORTS : Obj := { idx := 0x7010, sub := 0x01, ty := .u16, count := 16, arr := true, acc := .rw, kept := .w, insts := 7 }
/-- MAT.TRUNK.ACTIVE (R449). -/
def MAT_TRUNK_ACTIVE : Obj := { idx := 0x7010, sub := 0x02, ty := .u16, acc := .ro, kept := .none, insts := 7, live := true }
/-- MAT.TRUNK.ASYMMETRY (R449). -/
def MAT_TRUNK_ASYMMETRY : Obj := { idx := 0x7010, sub := 0x03, ty := .s32, acc := .rw, kept := .w, insts := 7 }
/-- MAT.BAD_HEADER (R450). -/
def MAT_BAD_HEADER : Obj := { idx := 0x7000, sub := 0x30, ty := .u64, acc := .rc, kept := .c }
/-- MAT.UNREACHABLE (R450). -/
def MAT_UNREACHABLE : Obj := { idx := 0x7000, sub := 0x31, ty := .u64, acc := .rc, kept := .c }
/-- MAT.RELAYED (R450). -/
def MAT_RELAYED : Obj := { idx := 0x7000, sub := 0x32, ty := .u64, acc := .rc, kept := .c }
/-- MAT.STAMP_LOST (R450). -/
def MAT_STAMP_LOST : Obj := { idx := 0x7000, sub := 0x33, ty := .u64, acc := .rc, kept := .c }
/-- MAT.EPOCH_SKEW (R450). -/
def MAT_EPOCH_SKEW : Obj := { idx := 0x7000, sub := 0x34, ty := .u64, acc := .rc, kept := .c }
/-- MAT.AUTH_FAILURES (R450). -/
def MAT_AUTH_FAILURES : Obj := { idx := 0x7000, sub := 0x35, ty := .u64, acc := .rc, kept := .c }
/-- MAT.LEASE.LOST (R450). -/
def MAT_LEASE_LOST : Obj := { idx := 0x7000, sub := 0x36, ty := .u64, acc := .rc, kept := .c }
/-- MAT.SYNC.UPDATES_SENT (R450). -/
def MAT_SYNC_UPDATES_SENT : Obj := { idx := 0x7000, sub := 0x37, ty := .u64, acc := .rc, kept := .c }
/-- MAT.SYNC.UPDATES_APPLIED (R450). -/
def MAT_SYNC_UPDATES_APPLIED : Obj := { idx := 0x7000, sub := 0x38, ty := .u64, acc := .rc, kept := .c }
/-- MAT.SYNC.CONFLICTS (R450). -/
def MAT_SYNC_CONFLICTS : Obj := { idx := 0x7000, sub := 0x39, ty := .u64, acc := .rc, kept := .c }
/-- MAT.SYNC.REFUSED_STATIC (R450). -/
def MAT_SYNC_REFUSED_STATIC : Obj := { idx := 0x7000, sub := 0x3A, ty := .u64, acc := .rc, kept := .c }
/-- MAT.CHECK.MISMATCHES (R450). -/
def MAT_CHECK_MISMATCHES : Obj := { idx := 0x7000, sub := 0x3B, ty := .u64, acc := .rc, kept := .c }
/-- MAT.TIME.LOST (R450). -/
def MAT_TIME_LOST : Obj := { idx := 0x7000, sub := 0x3C, ty := .u64, acc := .rc, kept := .c }
/-- INTEG.LOG (R474). -/
def INTEG_LOG : Obj := { idx := 0x7800, sub := 0x01, ty := .u64, count := 64, arr := true, acc := .ro, kept := .c }
/-- INTEG.LOG.CLEAR (R474). -/
def INTEG_LOG_CLEAR : Obj := { idx := 0x7800, sub := 0x02, ty := .u8, acc := .wo, kept := .none, lim := [(0, 31), (255, 255)], live := true }
/-- INTEG.UE_LOG (R474). -/
def INTEG_UE_LOG : Obj := { idx := 0x7800, sub := 0x03, ty := .u64, count := 32, arr := true, acc := .ro, kept := .c }
/-- INTEG.UE_LOG.CLEAR (R474). -/
def INTEG_UE_LOG_CLEAR : Obj := { idx := 0x7800, sub := 0x04, ty := .u8, acc := .wo, kept := .none, lim := [(0, 15), (255, 255)], live := true }
/-- INTEG.FLIP.MASK (R474). -/
def INTEG_FLIP_MASK : Obj := { idx := 0x7800, sub := 0x10, ty := .u64, count := 2, arr := true, acc := .rw, kept := .w, dflt := [0, 0] }
/-- INTEG.FLIP.TARGET (R474). -/
def INTEG_FLIP_TARGET : Obj := { idx := 0x7800, sub := 0x11, ty := .u64, acc := .rw, kept := .w }
/-- INTEG.FLIP.ARM (R474). -/
def INTEG_FLIP_ARM : Obj := { idx := 0x7800, sub := 0x12, ty := .bool, acc := .rw, kept := .w }
/-- INTEG.FLIP.DONE_TICK (R474). -/
def INTEG_FLIP_DONE_TICK : Obj := { idx := 0x7800, sub := 0x13, ty := .u64, acc := .ro, kept := .w }
/-- INTEG.EM.RETIRE (R474). -/
def INTEG_EM_RETIRE : Obj := { idx := 0x7800, sub := 0x20, ty := .u32, acc := .wo, kept := .none, role := 2, lim := [(0, 4194303)], live := true }
/-- INTEG.EM.UNRETIRE (R474). -/
def INTEG_EM_UNRETIRE : Obj := { idx := 0x7800, sub := 0x21, ty := .u32, acc := .wo, kept := .none, live := true }
/-- INTEG.EM.RETIRED_LIST (R474). -/
def INTEG_EM_RETIRED_LIST : Obj := { idx := 0x7800, sub := 0x22, ty := .u32, count := 4096, arr := true, acc := .ro, kept := .n, dflt := [4294967295] }
/-- INTEG.EM.RETIRED_COUNT (R474). -/
def INTEG_EM_RETIRED_COUNT : Obj := { idx := 0x7800, sub := 0x23, ty := .u16, acc := .ro, kept := .n }
/-- INTEG.LOG_OVERFLOW (R475). -/
def INTEG_LOG_OVERFLOW : Obj := { idx := 0x7800, sub := 0x30, ty := .u64, acc := .rc, kept := .c }
/-- INTEG.UE_LOG_OVERFLOW (R475). -/
def INTEG_UE_LOG_OVERFLOW : Obj := { idx := 0x7800, sub := 0x31, ty := .u64, acc := .rc, kept := .c }
/-- INTEG.SCRUB_RACES (R475). -/
def INTEG_SCRUB_RACES : Obj := { idx := 0x7800, sub := 0x32, ty := .u64, acc := .rc, kept := .c }
/-- INTEG.CONFIG_POISON_DROPS (R475). -/
def INTEG_CONFIG_POISON_DROPS : Obj := { idx := 0x7800, sub := 0x33, ty := .u64, acc := .rc, kept := .c }
/-- INTEG.STATE_RESETS (R475). -/
def INTEG_STATE_RESETS : Obj := { idx := 0x7800, sub := 0x34, ty := .u64, acc := .rc, kept := .c }
/-- INTEG.COUNTER_RESTARTS (R475). -/
def INTEG_COUNTER_RESTARTS : Obj := { idx := 0x7800, sub := 0x35, ty := .u64, acc := .rc, kept := .c }
/-- INTEG.CELLS_LOST (R475). -/
def INTEG_CELLS_LOST : Obj := { idx := 0x7800, sub := 0x36, ty := .u64, acc := .rc, kept := .c }
/-- INTEG.MEM.CORRECTED (R475). -/
def INTEG_MEM_CORRECTED : Obj := { idx := 0x7810, sub := 0x01, ty := .u64, acc := .rc, kept := .c, insts := 255 }
/-- INTEG.MEM.UNCORRECTABLE (R475). -/
def INTEG_MEM_UNCORRECTABLE : Obj := { idx := 0x7810, sub := 0x02, ty := .u64, acc := .rc, kept := .c, insts := 255 }
/-- INTEG.MEM.SCRUB_PASSES (R475). -/
def INTEG_MEM_SCRUB_PASSES : Obj := { idx := 0x7810, sub := 0x03, ty := .u64, acc := .rc, kept := .c, insts := 255 }
/-- INTEG.MEM.LAST_PASS_TICKS (R475). -/
def INTEG_MEM_LAST_PASS_TICKS : Obj := { idx := 0x7810, sub := 0x04, ty := .u64, acc := .ro, kept := .c, insts := 255 }
/-- INTEG.HBM.CORRECTED (R475). -/
def INTEG_HBM_CORRECTED : Obj := { idx := 0x7820, sub := 0x01, ty := .u64, acc := .rc, kept := .c, insts := 3 }
/-- INTEG.HBM.UNCORRECTABLE (R475). -/
def INTEG_HBM_UNCORRECTABLE : Obj := { idx := 0x7820, sub := 0x02, ty := .u64, acc := .rc, kept := .c, insts := 3 }
/-- INTEG.HBM.LINK_CRC_ERRORS (R475). -/
def INTEG_HBM_LINK_CRC_ERRORS : Obj := { idx := 0x7820, sub := 0x03, ty := .u64, acc := .rc, kept := .c, insts := 3 }
/-- INTEG.HBM.LINK_FAULTS (R475). -/
def INTEG_HBM_LINK_FAULTS : Obj := { idx := 0x7820, sub := 0x04, ty := .u64, acc := .rc, kept := .c, insts := 3 }
/-- CTR.DUMP.PERIOD (R494). -/
def CTR_DUMP_PERIOD : Obj := { idx := 0x8000, sub := 0x01, ty := .u32, acc := .rw, kept := .w, lim := [(0, 60000)] }
/-- CTR.DUMP.TARGET (R494). -/
def CTR_DUMP_TARGET : Obj := { idx := 0x8000, sub := 0x02, ty := .enum8, acc := .rw, kept := .w, lim := [(0, 1)] }
/-- CTR.DUMP.RING_BASE (R494). -/
def CTR_DUMP_RING_BASE : Obj := { idx := 0x8000, sub := 0x03, ty := .u64, acc := .rw, kept := .w, dflt := [36507222016] }
/-- CTR.DUMP.SLOTS (R494). -/
def CTR_DUMP_SLOTS : Obj := { idx := 0x8000, sub := 0x04, ty := .u8, acc := .rw, kept := .w, dflt := [4], lim := [(1, 64)] }
/-- CTR.DUMP.HOST_ADDR (R494). -/
def CTR_DUMP_HOST_ADDR : Obj := { idx := 0x8000, sub := 0x05, ty := .u64, acc := .rw, kept := .w }
/-- CTR.DUMP.VIEW (R494). -/
def CTR_DUMP_VIEW : Obj := { idx := 0x8000, sub := 0x06, ty := .u8, acc := .rw, kept := .w, lim := [(0, 3)] }
/-- CTR.DUMP.SEQ (R494). -/
def CTR_DUMP_SEQ : Obj := { idx := 0x8000, sub := 0x07, ty := .u64, acc := .ro, kept := .c }
/-- CTR.DUMP.LAST_COMPLETE (R494). -/
def CTR_DUMP_LAST_COMPLETE : Obj := { idx := 0x8000, sub := 0x08, ty := .u64, acc := .ro, kept := .c, dflt := [18446744073709551615] }
/-- CTR.DUMP.STATE (R494). -/
def CTR_DUMP_STATE : Obj := { idx := 0x8000, sub := 0x09, ty := .enum8, acc := .ro, kept := .w }
/-- CTR.MAP (R494). -/
def CTR_MAP : Obj := { idx := 0x8000, sub := 0x0A, ty := .u64, count := 128, arr := true, acc := .ro, kept := .n, spec := 14 }
/-- CTR.HBM_READ.ADDR (R494). -/
def CTR_HBM_READ_ADDR : Obj := { idx := 0x8000, sub := 0x0B, ty := .u64, acc := .rw, kept := .w }
/-- CTR.HBM_READ.DATA (R494). -/
def CTR_HBM_READ_DATA : Obj := { idx := 0x8000, sub := 0x0C, ty := .blob, acc := .ro, kept := .none, live := true }
/-- CTR.PORT.WINDOW (R494). -/
def CTR_PORT_WINDOW : Obj := { idx := 0x8000, sub := 0x10, ty := .u32, acc := .rw, kept := .w, dflt := [2000] }
/-- SPORE.RING.BASE (R494). -/
def SPORE_RING_BASE : Obj := { idx := 0x8100, sub := 0x01, ty := .u64, acc := .rw, kept := .w, dflt := [35433480192] }
/-- SPORE.RING.RECORDS (R494). -/
def SPORE_RING_RECORDS : Obj := { idx := 0x8100, sub := 0x02, ty := .u32, acc := .rw, kept := .w, dflt := [1048576], lim := [(2, 5592405)] }
/-- SPORE.RING.MODE (R494). -/
def SPORE_RING_MODE : Obj := { idx := 0x8100, sub := 0x03, ty := .enum8, acc := .rw, kept := .w, lim := [(0, 1)] }
/-- SPORE.RING.WRITE (R494). -/
def SPORE_RING_WRITE : Obj := { idx := 0x8100, sub := 0x04, ty := .u32, acc := .ro, kept := .w }
/-- SPORE.RING.READ (R494). -/
def SPORE_RING_READ : Obj := { idx := 0x8100, sub := 0x05, ty := .u32, acc := .rw, kept := .w }
/-- SPORE.RECORD_NUMBER (R494). -/
def SPORE_RECORD_NUMBER : Obj := { idx := 0x8100, sub := 0x06, ty := .u64, acc := .ro, kept := .w }
/-- SLOT.COUNTS (R495). -/
def SLOT_COUNTS : Obj := { idx := 0x8040, sub := 0x01, ty := .u64, count := 9, arr := true, acc := .ro, kept := .c, insts := 63 }
/-- CTR.PORT.WINDOW_RESULT (R495). -/
def CTR_PORT_WINDOW_RESULT : Obj := { idx := 0x8080, sub := 0x01, ty := .u64, count := 7, arr := true, acc := .ro, kept := .w, insts := 1023 }
/-- SPORE.SAMPLER.RATE (R495). -/
def SPORE_SAMPLER_RATE : Obj := { idx := 0x8110, sub := 0x01, ty := .u32, acc := .rw, kept := .w, dflt := [1], insts := 65535 }
/-- SPORE.SAMPLER.OFFERED (R495). -/
def SPORE_SAMPLER_OFFERED : Obj := { idx := 0x8110, sub := 0x02, ty := .u64, acc := .rc, kept := .c, insts := 65535 }
/-- SPORE.SAMPLER.SELECTED (R495). -/
def SPORE_SAMPLER_SELECTED : Obj := { idx := 0x8110, sub := 0x03, ty := .u64, acc := .rc, kept := .c, insts := 65535 }
/-- CTR.DUMP.SKIPPED (R496). -/
def CTR_DUMP_SKIPPED : Obj := { idx := 0x8000, sub := 0x30, ty := .u64, acc := .rc, kept := .c }
/-- CTR.HBM_READ.POISONED (R496). -/
def CTR_HBM_READ_POISONED : Obj := { idx := 0x8000, sub := 0x31, ty := .u64, acc := .rc, kept := .c }
/-- SPORE.WRITTEN (R496). -/
def SPORE_WRITTEN : Obj := { idx := 0x8100, sub := 0x30, ty := .u64, acc := .rc, kept := .c }
/-- SPORE.FULL_DROPS (R496). -/
def SPORE_FULL_DROPS : Obj := { idx := 0x8100, sub := 0x31, ty := .u64, acc := .rc, kept := .c }
/-- REC.WRITE_INDEX (R511). -/
def REC_WRITE_INDEX : Obj := { idx := 0x8800, sub := 0x01, ty := .u32, acc := .ro, kept := .n }
/-- REC.FULL (R511). -/
def REC_FULL : Obj := { idx := 0x8800, sub := 0x02, ty := .bool, acc := .ro, kept := .n }
/-- REC.STATE (R511). -/
def REC_STATE : Obj := { idx := 0x8800, sub := 0x03, ty := .enum8, acc := .ro, kept := .none }
/-- REC.CURSOR (R511). -/
def REC_CURSOR : Obj := { idx := 0x8800, sub := 0x04, ty := .u32, acc := .rw, kept := .w, lim := [(0, 131071)] }
/-- REC.WINDOW_RECORDS (R511). -/
def REC_WINDOW_RECORDS : Obj := { idx := 0x8800, sub := 0x05, ty := .u8, acc := .rw, kept := .w, dflt := [64], lim := [(1, 64)] }
/-- REC.WINDOW (R511). -/
def REC_WINDOW : Obj := { idx := 0x8800, sub := 0x06, ty := .blob, acc := .ro, kept := .none, live := true }
/-- REC.CLEAR (R511). -/
def REC_CLEAR : Obj := { idx := 0x8800, sub := 0x07, ty := .bool, acc := .wo, kept := .none, role := 2, live := true }
/-- REC.QUEUED (R511). -/
def REC_QUEUED : Obj := { idx := 0x8800, sub := 0x08, ty := .u8, acc := .ro, kept := .none, live := true }
/-- REC.LOST_FULL (R511). -/
def REC_LOST_FULL : Obj := { idx := 0x8800, sub := 0x30, ty := .u64, acc := .rc, kept := .n }
/-- REC.QUEUE_LOST (R511). -/
def REC_QUEUE_LOST : Obj := { idx := 0x8800, sub := 0x31, ty := .u64, acc := .rc, kept := .n }
/-- REC.TORN (R511). -/
def REC_TORN : Obj := { idx := 0x8800, sub := 0x32, ty := .u32, acc := .rc, kept := .n }
/-- REC.CODE.ENABLE (R511). -/
def REC_CODE_ENABLE : Obj := { idx := 0x8810, sub := 0x01, ty := .bool, acc := .rw, kept := .w, dflt := [1], insts := 65535 }
/-- REC.CODE.HOLD (R511). -/
def REC_CODE_HOLD : Obj := { idx := 0x8810, sub := 0x02, ty := .u32, acc := .rw, kept := .w, dflt := [2000000], insts := 65535 }
/-- REC.CODE.LIMIT (R511). -/
def REC_CODE_LIMIT : Obj := { idx := 0x8810, sub := 0x03, ty := .u16, acc := .rw, kept := .w, spec := 13, insts := 65535, lim := [(1, 65535)] }
/-- REC.CODE.OCCURRENCES (R511). -/
def REC_CODE_OCCURRENCES : Obj := { idx := 0x8810, sub := 0x04, ty := .u64, acc := .rc, kept := .c, insts := 65535 }
/-- REC.CODE.SUPPRESSED (R511). -/
def REC_CODE_SUPPRESSED : Obj := { idx := 0x8810, sub := 0x05, ty := .u64, acc := .rc, kept := .c, insts := 65535 }
/-- JOURNAL.LENGTH (R534). -/
def JOURNAL_LENGTH : Obj := { idx := 0x9000, sub := 0x01, ty := .u64, acc := .rw, kept := .w, dflt := [8589934592] }
/-- JOURNAL.BASE (R534). -/
def JOURNAL_BASE : Obj := { idx := 0x9000, sub := 0x02, ty := .u64, acc := .rw, kept := .w, dflt := [51539607552] }
/-- JOURNAL.CHECKPOINT_BASE (R534). -/
def JOURNAL_CHECKPOINT_BASE : Obj := { idx := 0x9000, sub := 0x03, ty := .u64, acc := .rw, kept := .w, dflt := [47244640256] }
/-- JOURNAL.PORTS (R534). -/
def JOURNAL_PORTS : Obj := { idx := 0x9000, sub := 0x04, ty := .u64, count := 16, arr := true, acc := .rw, kept := .w }
/-- JOURNAL.INJECTED (R534). -/
def JOURNAL_INJECTED : Obj := { idx := 0x9000, sub := 0x05, ty := .bool, acc := .rw, kept := .w }
/-- JOURNAL.START (R534). -/
def JOURNAL_START : Obj := { idx := 0x9000, sub := 0x06, ty := .u8, acc := .wo, kept := .none, lim := [(1, 2)], live := true }
/-- JOURNAL.STOP (R534). -/
def JOURNAL_STOP : Obj := { idx := 0x9000, sub := 0x07, ty := .bool, acc := .wo, kept := .none, live := true }
/-- JOURNAL.STATE (R534). -/
def JOURNAL_STATE : Obj := { idx := 0x9000, sub := 0x08, ty := .enum8, acc := .ro, kept := .c }
/-- JOURNAL.START_TICK (R534). -/
def JOURNAL_START_TICK : Obj := { idx := 0x9000, sub := 0x09, ty := .u64, acc := .ro, kept := .c }
/-- JOURNAL.STOP_TICK (R534). -/
def JOURNAL_STOP_TICK : Obj := { idx := 0x9000, sub := 0x0A, ty := .u64, acc := .ro, kept := .c }
/-- JOURNAL.STOP_REASON (R534). -/
def JOURNAL_STOP_REASON : Obj := { idx := 0x9000, sub := 0x0B, ty := .enum8, acc := .ro, kept := .c }
/-- JOURNAL.CHECKPOINT_DONE (R534). -/
def JOURNAL_CHECKPOINT_DONE : Obj := { idx := 0x9000, sub := 0x0C, ty := .bool, acc := .ro, kept := .c }
/-- JOURNAL.CLEAN_START (R534). -/
def JOURNAL_CLEAN_START : Obj := { idx := 0x9000, sub := 0x0D, ty := .bool, acc := .ro, kept := .c }
/-- JOURNAL.RECORDS (R534). -/
def JOURNAL_RECORDS : Obj := { idx := 0x9000, sub := 0x0E, ty := .u64, acc := .ro, kept := .c }
/-- JOURNAL.LOST (R534). -/
def JOURNAL_LOST : Obj := { idx := 0x9000, sub := 0x0F, ty := .u64, acc := .ro, kept := .c }
/-- JOURNAL.FIRST_LOSS_TICK (R534). -/
def JOURNAL_FIRST_LOSS_TICK : Obj := { idx := 0x9000, sub := 0x10, ty := .u64, acc := .ro, kept := .c, dflt := [18446744073709551615] }
/-- JOURNAL.TRIGGER.CODE (R534). -/
def JOURNAL_TRIGGER_CODE : Obj := { idx := 0x9000, sub := 0x11, ty := .u16, acc := .rw, kept := .w }
/-- JOURNAL.TRIGGER.AFTER (R534). -/
def JOURNAL_TRIGGER_AFTER : Obj := { idx := 0x9000, sub := 0x12, ty := .u32, acc := .rw, kept := .w, dflt := [2000] }
/-- JOURNAL.MIXED (R534). -/
def JOURNAL_MIXED : Obj := { idx := 0x9000, sub := 0x13, ty := .u32, count := 2, arr := true, acc := .ro, kept := .c, dflt := [0, 0] }
/-- JOURNAL.HBM.ADDR (R534). -/
def JOURNAL_HBM_ADDR : Obj := { idx := 0x9000, sub := 0x14, ty := .u64, acc := .rw, kept := .w }
/-- JOURNAL.HBM.DATA (R534). -/
def JOURNAL_HBM_DATA : Obj := { idx := 0x9000, sub := 0x15, ty := .blob, acc := .rw, kept := .none, live := true }
/-- REPLAY.START (R535). -/
def REPLAY_START : Obj := { idx := 0x9100, sub := 0x01, ty := .bool, acc := .wo, kept := .none, role := 2, live := true }
/-- REPLAY.STOP_TICK (R535). -/
def REPLAY_STOP_TICK : Obj := { idx := 0x9100, sub := 0x02, ty := .u64, acc := .rw, kept := .w, dflt := [18446744073709551615] }
/-- REPLAY.STATE (R535). -/
def REPLAY_STATE : Obj := { idx := 0x9100, sub := 0x03, ty := .enum8, acc := .ro, kept := .w }
/-- REPLAY.TICK (R535). -/
def REPLAY_TICK : Obj := { idx := 0x9100, sub := 0x04, ty := .u64, acc := .ro, kept := .w }
/-- REPLAY.RESULT_BASE (R535). -/
def REPLAY_RESULT_BASE : Obj := { idx := 0x9100, sub := 0x05, ty := .u64, acc := .rw, kept := .w, dflt := [60129542144] }
/-- REPLAY.FRAMES (R535). -/
def REPLAY_FRAMES : Obj := { idx := 0x9100, sub := 0x06, ty := .u64, acc := .ro, kept := .w }
/-- REPLAY.DEEP (R535). -/
def REPLAY_DEEP : Obj := { idx := 0x9100, sub := 0x07, ty := .u64, acc := .ro, kept := .w }
/-- REPLAY.RX_DISCARDED (R535). -/
def REPLAY_RX_DISCARDED : Obj := { idx := 0x9100, sub := 0x08, ty := .u64, acc := .rc, kept := .w }
/-- PERTURB.ENABLE (R548). -/
def PERTURB_ENABLE : Obj := { idx := 0x9800, sub := 0x01, ty := .bool, acc := .rw, kept := .w, role := 2 }
/-- PERTURB.LOCK (R548). -/
def PERTURB_LOCK : Obj := { idx := 0x9800, sub := 0x02, ty := .bool, acc := .rw, kept := .c, role := 2, lim := [(1, 1)] }
/-- PERTURB.ACTIVE (R548). -/
def PERTURB_ACTIVE : Obj := { idx := 0x9800, sub := 0x03, ty := .bool, acc := .ro, kept := .none, role := 2 }
/-- PERTURB.CLEAR (R548). -/
def PERTURB_CLEAR : Obj := { idx := 0x9800, sub := 0x04, ty := .bool, acc := .wo, kept := .none, role := 2, live := true }
/-- PERTURB.PORT.START_TICK (R549). -/
def PERTURB_PORT_START_TICK : Obj := { idx := 0x9810, sub := 0x01, ty := .u64, acc := .rw, kept := .w, insts := 1023, role := 2 }
/-- PERTURB.PORT.TICKS (R549). -/
def PERTURB_PORT_TICKS : Obj := { idx := 0x9810, sub := 0x02, ty := .u32, acc := .rw, kept := .w, insts := 1023, role := 2 }
/-- PERTURB.PORT.DELAY (R549). -/
def PERTURB_PORT_DELAY : Obj := { idx := 0x9810, sub := 0x03, ty := .u16, acc := .rw, kept := .w, insts := 1023, role := 2 }
/-- PERTURB.PORT.RX_STAMP_OFFSET (R549). -/
def PERTURB_PORT_RX_STAMP_OFFSET : Obj := { idx := 0x9810, sub := 0x04, ty := .s32, acc := .rw, kept := .w, insts := 1023, role := 2 }
/-- PERTURB.PORT.TX_STAMP_OFFSET (R549). -/
def PERTURB_PORT_TX_STAMP_OFFSET : Obj := { idx := 0x9810, sub := 0x05, ty := .s32, acc := .rw, kept := .w, insts := 1023, role := 2 }
/-- PERTURB.PORT.FORCE_MISS (R549). -/
def PERTURB_PORT_FORCE_MISS : Obj := { idx := 0x9810, sub := 0x06, ty := .u8, acc := .rw, kept := .w, insts := 1023, role := 2, lim := [(0, 3)] }
/-- PERTURB.PORT.FORCED_MISSES (R549). -/
def PERTURB_PORT_FORCED_MISSES : Obj := { idx := 0x9810, sub := 0x07, ty := .u64, acc := .rc, kept := .c, insts := 1023, role := 2 }
/-- PERTURB.PULSE.TARGET (R550). -/
def PERTURB_PULSE_TARGET : Obj := { idx := 0x9820, sub := 0x01, ty := .enum8, acc := .rw, kept := .w, insts := 63, role := 2, lim := [(0, 1)] }
/-- PERTURB.PULSE.UNIT (R550). -/
def PERTURB_PULSE_UNIT : Obj := { idx := 0x9820, sub := 0x02, ty := .u16, acc := .rw, kept := .w, insts := 63, role := 2 }
/-- PERTURB.PULSE.OFFSET (R550). -/
def PERTURB_PULSE_OFFSET : Obj := { idx := 0x9820, sub := 0x03, ty := .u16, acc := .rw, kept := .w, insts := 63, role := 2, lim := [(0, 798)] }
/-- PERTURB.PULSE.LENGTH (R550). -/
def PERTURB_PULSE_LENGTH : Obj := { idx := 0x9820, sub := 0x04, ty := .u16, acc := .rw, kept := .w, dflt := [1], insts := 63, role := 2 }
/-- PERTURB.PULSE.PERIOD (R550). -/
def PERTURB_PULSE_PERIOD : Obj := { idx := 0x9820, sub := 0x05, ty := .u32, acc := .rw, kept := .w, insts := 63, role := 2 }
/-- PERTURB.STALL.PIPELINES (R550). -/
def PERTURB_STALL_PIPELINES : Obj := { idx := 0x9830, sub := 0x01, ty := .u64, acc := .rw, kept := .w, insts := 7, role := 2 }
/-- PERTURB.STALL.LENGTH (R550). -/
def PERTURB_STALL_LENGTH : Obj := { idx := 0x9830, sub := 0x02, ty := .u8, acc := .rw, kept := .w, dflt := [1], insts := 7, role := 2, lim := [(1, 64)] }
/-- PERTURB.STALL.TRIGGER (R550). -/
def PERTURB_STALL_TRIGGER : Obj := { idx := 0x9830, sub := 0x03, ty := .enum8, acc := .rw, kept := .w, insts := 7, role := 2, lim := [(0, 1)] }
/-- PERTURB.FAULT.PORT (R551). -/
def PERTURB_FAULT_PORT : Obj := { idx := 0x9840, sub := 0x01, ty := .u16, acc := .rw, kept := .w, insts := 65535, role := 2, lim := [(0, 1023)] }
/-- PERTURB.FAULT.DIR (R551). -/
def PERTURB_FAULT_DIR : Obj := { idx := 0x9840, sub := 0x02, ty := .enum8, acc := .rw, kept := .w, insts := 65535, role := 2, lim := [(0, 1)] }
/-- PERTURB.FAULT.ACTION (R551). -/
def PERTURB_FAULT_ACTION : Obj := { idx := 0x9840, sub := 0x03, ty := .enum8, acc := .rw, kept := .w, dflt := [1], insts := 65535, role := 2, lim := [(1, 3)] }
/-- PERTURB.FAULT.RATE (R551). -/
def PERTURB_FAULT_RATE : Obj := { idx := 0x9840, sub := 0x04, ty := .u32, acc := .rw, kept := .w, insts := 65535, role := 2 }
/-- PERTURB.FAULT.OFFSET (R551). -/
def PERTURB_FAULT_OFFSET : Obj := { idx := 0x9840, sub := 0x05, ty := .u16, acc := .rw, kept := .w, insts := 65535, role := 2, lim := [(0, 12305)] }
/-- PERTURB.FAULT.MASK (R551). -/
def PERTURB_FAULT_MASK : Obj := { idx := 0x9840, sub := 0x06, ty := .u8, acc := .rw, kept := .w, dflt := [1], insts := 65535, role := 2 }
/-- PERTURB.FAULT.START_TICK (R551). -/
def PERTURB_FAULT_START_TICK : Obj := { idx := 0x9840, sub := 0x07, ty := .u64, acc := .rw, kept := .w, insts := 65535, role := 2 }
/-- PERTURB.FAULT.TICKS (R551). -/
def PERTURB_FAULT_TICKS : Obj := { idx := 0x9840, sub := 0x08, ty := .u32, acc := .rw, kept := .w, insts := 65535, role := 2 }
/-- PERTURB.FAULT.HITS (R551). -/
def PERTURB_FAULT_HITS : Obj := { idx := 0x9840, sub := 0x09, ty := .u64, acc := .rc, kept := .c, insts := 65535, role := 2 }
/-- DICT.VENDOR_FUSED (R577). -/
def DICT_VENDOR_FUSED : Obj := { idx := 0x1200, sub := 0x01, ty := .bool, acc := .ro, kept := .n, dflt := [1], role := 2 }
/-- DICT.PCIE.AUTH (R577). -/
def DICT_PCIE_AUTH : Obj := { idx := 0x1200, sub := 0x02, ty := .enum8, acc := .rw, kept := .n, role := 2, lim := [(0, 1)] }
/-- DICT.SESSION_IDLE (R577). -/
def DICT_SESSION_IDLE : Obj := { idx := 0x1200, sub := 0x03, ty := .u16, acc := .rw, kept := .w, dflt := [60], role := 2, lim := [(1, 3600)] }
/-- DICT.KEY_SET (R577). -/
def DICT_KEY_SET : Obj := { idx := 0x1200, sub := 0x04, ty := .u8, acc := .ro, kept := .n, role := 2 }
/-- DICT.SESSIONS (R577). -/
def DICT_SESSIONS : Obj := { idx := 0x1200, sub := 0x05, ty := .u32, count := 16, arr := true, acc := .ro, kept := .none, role := 2 }
/-- DICT.INBAND.CLASS (R577). -/
def DICT_INBAND_CLASS : Obj := { idx := 0x1200, sub := 0x06, ty := .u8, acc := .rw, kept := .w, dflt := [7], role := 2, lim := [(0, 7)] }
/-- DICT.KEY (R577). -/
def DICT_KEY : Obj := { idx := 0x1210, sub := 0x01, ty := .blob, acc := .wo, kept := .n, insts := 2, role := 2 }
/-- DICT.MGMT.ENABLE (R577). -/
def DICT_MGMT_ENABLE : Obj := { idx := 0x1220, sub := 0x01, ty := .bool, acc := .rw, kept := .w, dflt := [1], insts := 1, role := 2 }
/-- DICT.MGMT.MAC (R577). -/
def DICT_MGMT_MAC : Obj := { idx := 0x1220, sub := 0x02, ty := .u64, acc := .rw, kept := .n, insts := 1, role := 2 }
/-- DICT.MGMT.IPV4 (R577). -/
def DICT_MGMT_IPV4 : Obj := { idx := 0x1220, sub := 0x03, ty := .u8, count := 5, arr := true, acc := .rw, kept := .n, insts := 1, role := 2 }
/-- DICT.MGMT.IPV6 (R577). -/
def DICT_MGMT_IPV6 : Obj := { idx := 0x1220, sub := 0x04, ty := .u8, count := 17, arr := true, acc := .rw, kept := .n, insts := 1, role := 2 }
/-- DICT.MGMT.GATEWAY (R577). -/
def DICT_MGMT_GATEWAY : Obj := { idx := 0x1220, sub := 0x05, ty := .u8, count := 16, arr := true, acc := .rw, kept := .n, insts := 1, role := 2 }
/-- DICT.PORT.INBAND (R577). -/
def DICT_PORT_INBAND : Obj := { idx := 0x1280, sub := 0x01, ty := .bool, acc := .rw, kept := .w, insts := 1023 }
/-- DICT.REQUESTS (R578). -/
def DICT_REQUESTS : Obj := { idx := 0x1200, sub := 0x30, ty := .u64, acc := .rc, kept := .c, role := 2 }
/-- DICT.AUTH_FAILURES (R578). -/
def DICT_AUTH_FAILURES : Obj := { idx := 0x1200, sub := 0x31, ty := .u64, acc := .rc, kept := .c, role := 2 }
/-- DICT.RETRANSMITTED (R578). -/
def DICT_RETRANSMITTED : Obj := { idx := 0x1200, sub := 0x32, ty := .u64, acc := .rc, kept := .c, role := 2 }
/-- DICT.BAD_SEQ (R578). -/
def DICT_BAD_SEQ : Obj := { idx := 0x1200, sub := 0x33, ty := .u64, acc := .rc, kept := .c, role := 2 }
/-- DICT.REFUSED (R578). -/
def DICT_REFUSED : Obj := { idx := 0x1200, sub := 0x34, ty := .u64, acc := .rc, kept := .c, role := 2 }
/-- DICT.GROUPS_APPLIED (R578). -/
def DICT_GROUPS_APPLIED : Obj := { idx := 0x1200, sub := 0x35, ty := .u64, acc := .rc, kept := .c, role := 2 }
/-- HOST.LINK.STATE (R599). -/
def HOST_LINK_STATE : Obj := { idx := 0xB000, sub := 0x01, ty := .enum8, acc := .ro, kept := .none, live := true }
/-- HOST.LINK.SPEED (R599). -/
def HOST_LINK_SPEED : Obj := { idx := 0xB000, sub := 0x02, ty := .u8, acc := .ro, kept := .none, live := true }
/-- HOST.LINK.WIDTH (R599). -/
def HOST_LINK_WIDTH : Obj := { idx := 0xB000, sub := 0x03, ty := .u8, acc := .ro, kept := .none, live := true }
/-- HOST.PCIE.IDS (R599). -/
def HOST_PCIE_IDS : Obj := { idx := 0xB000, sub := 0x04, ty := .u32, acc := .ro, kept := .n, live := true }
/-- HOST.RING.ENABLE (R599). -/
def HOST_RING_ENABLE : Obj := { idx := 0xB010, sub := 0x01, ty := .bool, acc := .rw, kept := .w, insts := 15 }
/-- HOST.RING.SQ_BASE (R599). -/
def HOST_RING_SQ_BASE : Obj := { idx := 0xB010, sub := 0x02, ty := .u64, acc := .rw, kept := .w, insts := 15 }
/-- HOST.RING.SQ_ENTRIES (R599). -/
def HOST_RING_SQ_ENTRIES : Obj := { idx := 0xB010, sub := 0x03, ty := .u32, acc := .rw, kept := .w, dflt := [256], insts := 15 }
/-- HOST.RING.CQ_BASE (R599). -/
def HOST_RING_CQ_BASE : Obj := { idx := 0xB010, sub := 0x04, ty := .u64, acc := .rw, kept := .w, insts := 15 }
/-- HOST.RING.CQ_ENTRIES (R599). -/
def HOST_RING_CQ_ENTRIES : Obj := { idx := 0xB010, sub := 0x05, ty := .u32, acc := .rw, kept := .w, dflt := [256], insts := 15 }
/-- HOST.RING.COALESCE_COUNT (R599). -/
def HOST_RING_COALESCE_COUNT : Obj := { idx := 0xB010, sub := 0x06, ty := .u16, acc := .rw, kept := .w, dflt := [1], insts := 15, lim := [(1, 4096)] }
/-- HOST.RING.COALESCE_TICKS (R599). -/
def HOST_RING_COALESCE_TICKS : Obj := { idx := 0xB010, sub := 0x07, ty := .u32, acc := .rw, kept := .w, insts := 15, lim := [(0, 2000000)] }
/-- HOST.RING.BACKLOG (R599). -/
def HOST_RING_BACKLOG : Obj := { idx := 0xB010, sub := 0x08, ty := .u16, acc := .ro, kept := .none, insts := 15, live := true }
/-- HOST.RING.HELD (R599). -/
def HOST_RING_HELD : Obj := { idx := 0xB010, sub := 0x09, ty := .u32, acc := .ro, kept := .none, insts := 15, live := true }
/-- HOST.RING.DELIVERED (R600). -/
def HOST_RING_DELIVERED : Obj := { idx := 0xB010, sub := 0x30, ty := .u64, acc := .rc, kept := .c, insts := 15 }
/-- HOST.RING.CQ_DROPS (R600). -/
def HOST_RING_CQ_DROPS : Obj := { idx := 0xB010, sub := 0x31, ty := .u64, acc := .rc, kept := .c, insts := 15 }
/-- HOST.RING.LINK_DROPS (R600). -/
def HOST_RING_LINK_DROPS : Obj := { idx := 0xB010, sub := 0x32, ty := .u64, acc := .rc, kept := .c, insts := 15 }
/-- HOST.RING.FETCHED (R600). -/
def HOST_RING_FETCHED : Obj := { idx := 0xB010, sub := 0x33, ty := .u64, acc := .rc, kept := .c, insts := 15 }
/-- HOST.RING.INJECTED (R600). -/
def HOST_RING_INJECTED : Obj := { idx := 0xB010, sub := 0x34, ty := .u64, acc := .rc, kept := .c, insts := 15 }
/-- HOST.RING.INJECT_REFUSED (R600). -/
def HOST_RING_INJECT_REFUSED : Obj := { idx := 0xB010, sub := 0x35, ty := .u64, acc := .rc, kept := .c, insts := 15 }
/-- HOST.RING.BAD_DOORBELL (R600). -/
def HOST_RING_BAD_DOORBELL : Obj := { idx := 0xB010, sub := 0x36, ty := .u64, acc := .rc, kept := .c, insts := 15 }
/-- RESET.WARM (R622). -/
def RESET_WARM : Obj := { idx := 0xC000, sub := 0x01, ty := .bool, acc := .wo, kept := .none, role := 2, live := true }
/-- RESET.PCIE_WARM (R622). -/
def RESET_PCIE_WARM : Obj := { idx := 0xC000, sub := 0x02, ty := .bool, acc := .rw, kept := .n, dflt := [1], role := 2 }
/-- RESET.LAST_KIND (R622). -/
def RESET_LAST_KIND : Obj := { idx := 0xC000, sub := 0x03, ty := .enum8, acc := .ro, kept := .n, dflt := [1], role := 2 }
/-- RESET.LAST_CAUSE (R622). -/
def RESET_LAST_CAUSE : Obj := { idx := 0xC000, sub := 0x04, ty := .enum8, acc := .ro, kept := .n, dflt := [1], role := 2 }
/-- RESET.COUNTS (R622). -/
def RESET_COUNTS : Obj := { idx := 0xC000, sub := 0x05, ty := .u32, count := 5, arr := true, acc := .ro, kept := .n, role := 2 }
/-- RESET.LEVEL_NEXT (R622). -/
def RESET_LEVEL_NEXT : Obj := { idx := 0xC000, sub := 0x06, ty := .u8, acc := .rw, kept := .n, dflt := [1], role := 2 }
/-- RESET.STATE (R622). -/
def RESET_STATE : Obj := { idx := 0xC000, sub := 0x07, ty := .enum8, acc := .ro, kept := .none, role := 2, live := true }
/-- POWER.STATE (R622). -/
def POWER_STATE : Obj := { idx := 0xC000, sub := 0x08, ty := .enum8, acc := .ro, kept := .none, role := 2, live := true }
/-- POWER.IDLE_ENABLE (R622). -/
def POWER_IDLE_ENABLE : Obj := { idx := 0xC000, sub := 0x09, ty := .bool, acc := .rw, kept := .w, dflt := [1], role := 2 }
/-- RESET.SORUS (R622). -/
def RESET_SORUS : Obj := { idx := 0xC010, sub := 0x01, ty := .u8, acc := .wo, kept := .none, insts := 7, role := 2, lim := [(1, 2)], live := true }
/-- POWER.SORUS.PARK (R622). -/
def POWER_SORUS_PARK : Obj := { idx := 0xC010, sub := 0x02, ty := .bool, acc := .rw, kept := .w, insts := 7, role := 2 }
/-- POWER.SORUS.STATE (R622). -/
def POWER_SORUS_STATE : Obj := { idx := 0xC010, sub := 0x03, ty := .enum8, acc := .ro, kept := .none, insts := 7, role := 2, live := true }
/-- RESET.FLUSH (R622). -/
def RESET_FLUSH : Obj := { idx := 0xC020, sub := 0x01, ty := .bool, acc := .wo, kept := .none, insts := 63, role := 2, live := true }
/-- SEED.STATUS (R623). -/
def SEED_STATUS : Obj := { idx := 0xC100, sub := 0x01, ty := .enum8, acc := .ro, kept := .w, role := 2, live := true }
/-- SEED.COPY (R623). -/
def SEED_COPY : Obj := { idx := 0xC100, sub := 0x02, ty := .enum8, acc := .ro, kept := .w, role := 2, live := true }
/-- SEED.SEQUENCE (R623). -/
def SEED_SEQUENCE : Obj := { idx := 0xC100, sub := 0x03, ty := .u64, acc := .ro, kept := .w, role := 2 }
/-- SEED.FAILED_COPIES (R623). -/
def SEED_FAILED_COPIES : Obj := { idx := 0xC100, sub := 0x04, ty := .u8, acc := .ro, kept := .w, role := 2 }
/-- SEED.REFUSED (R623). -/
def SEED_REFUSED : Obj := { idx := 0xC100, sub := 0x05, ty := .u32, acc := .ro, kept := .w, role := 2 }
/-- SEED.FIRST_REFUSED (R623). -/
def SEED_FIRST_REFUSED : Obj := { idx := 0xC100, sub := 0x06, ty := .u32, acc := .ro, kept := .w, dflt := [4294967295], role := 2 }
/-- SEED.FIRST_STATUS (R623). -/
def SEED_FIRST_STATUS : Obj := { idx := 0xC100, sub := 0x07, ty := .u16, acc := .ro, kept := .w, role := 2 }
/-- SEED.PUBLIC_KEY (R623). -/
def SEED_PUBLIC_KEY : Obj := { idx := 0xC100, sub := 0x08, ty := .blob, acc := .rw, kept := .n, role := 2 }
/-- SEED.REQUIRE_SIGNATURE (R623). -/
def SEED_REQUIRE_SIGNATURE : Obj := { idx := 0xC100, sub := 0x09, ty := .bool, acc := .rw, kept := .n, role := 2 }
/-- FAULT.WINDOW (R636). -/
def FAULT_WINDOW : Obj := { idx := 0xC200, sub := 0x01, ty := .u32, count := 25, arr := true, acc := .rw, kept := .w, dflt := [20000], lim := [(2000, 200000000)] }
/-- FAULT.ISOLATED (R636). -/
def FAULT_ISOLATED : Obj := { idx := 0xC200, sub := 0x02, ty := .bool, acc := .ro, kept := .w }
/-- FAULT.CAUSE (R636). -/
def FAULT_CAUSE : Obj := { idx := 0xC200, sub := 0x03, ty := .enum8, acc := .ro, kept := .w }
/-- FAULT.PENDING (R636). -/
def FAULT_PENDING : Obj := { idx := 0xC200, sub := 0x04, ty := .u8, count := 25, arr := true, acc := .ro, kept := .w }
/-- FAULT.LOG (R636). -/
def FAULT_LOG : Obj := { idx := 0xC200, sub := 0x05, ty := .u64, count := 64, arr := true, acc := .ro, kept := .c }
/-- FAULT.LOG_NEXT (R636). -/
def FAULT_LOG_NEXT : Obj := { idx := 0xC200, sub := 0x06, ty := .u8, acc := .ro, kept := .c }
/-- FAULT.FAULTS (R637). -/
def FAULT_FAULTS : Obj := { idx := 0xC200, sub := 0x30, ty := .u64, acc := .rc, kept := .c }
/-- FAULT.ESCALATIONS (R637). -/
def FAULT_ESCALATIONS : Obj := { idx := 0xC200, sub := 0x31, ty := .u64, acc := .rc, kept := .c }
/-- FAULT.QUEUED (R637). -/
def FAULT_QUEUED : Obj := { idx := 0xC200, sub := 0x32, ty := .u64, acc := .rc, kept := .c }
/-- FAULT.ISOLATIONS (R637). -/
def FAULT_ISOLATIONS : Obj := { idx := 0xC200, sub := 0x33, ty := .u64, acc := .rc, kept := .c }
/-- POWER.AVS.SETPOINT (R658). -/
def POWER_AVS_SETPOINT : Obj := { idx := 0xC300, sub := 0x01, ty := .u16, acc := .ro, kept := .none, live := true }
/-- POWER.AVS.BOOT (R658). -/
def POWER_AVS_BOOT : Obj := { idx := 0xC300, sub := 0x02, ty := .u16, acc := .ro, kept := .n, dflt := [720] }
/-- POWER.AVS.TARGET (R658). -/
def POWER_AVS_TARGET : Obj := { idx := 0xC300, sub := 0x03, ty := .u16, acc := .ro, kept := .w, dflt := [720] }
/-- POWER.AVS.ADDRESS (R658). -/
def POWER_AVS_ADDRESS : Obj := { idx := 0xC300, sub := 0x04, ty := .u8, acc := .rw, kept := .n, dflt := [64], role := 2, lim := [(0, 127)] }
/-- POWER.AVS.ENABLE (R658). -/
def POWER_AVS_ENABLE : Obj := { idx := 0xC300, sub := 0x05, ty := .bool, acc := .rw, kept := .n, dflt := [1], role := 2 }
/-- POWER.AVS.READ_VOUT (R658). -/
def POWER_AVS_READ_VOUT : Obj := { idx := 0xC300, sub := 0x06, ty := .u16, acc := .ro, kept := .none, live := true }
/-- POWER.AVS.READ_IOUT (R658). -/
def POWER_AVS_READ_IOUT : Obj := { idx := 0xC300, sub := 0x07, ty := .u16, acc := .ro, kept := .none, live := true }
/-- POWER.AVS.STATUS (R658). -/
def POWER_AVS_STATUS : Obj := { idx := 0xC300, sub := 0x08, ty := .u16, acc := .ro, kept := .w }
/-- POWER.TEMP (R658). -/
def POWER_TEMP : Obj := { idx := 0xC300, sub := 0x09, ty := .s32, count := 13, arr := true, acc := .ro, kept := .none, live := true }
/-- POWER.TEMP.ALERT (R658). -/
def POWER_TEMP_ALERT : Obj := { idx := 0xC300, sub := 0x0A, ty := .u8, acc := .rw, kept := .w, dflt := [100], lim := [(60, 110)] }
/-- POWER.TEMP.PEAK (R658). -/
def POWER_TEMP_PEAK : Obj := { idx := 0xC300, sub := 0x0B, ty := .s32, count := 13, arr := true, acc := .ro, kept := .c }
/-- POWER.AVS.FAILURES (R659). -/
def POWER_AVS_FAILURES : Obj := { idx := 0xC300, sub := 0x30, ty := .u64, acc := .rc, kept := .c }
/-- POWER.AVS.ALERTS (R659). -/
def POWER_AVS_ALERTS : Obj := { idx := 0xC300, sub := 0x31, ty := .u64, acc := .rc, kept := .c }
/-- POWER.TEMP.ALERTS (R659). -/
def POWER_TEMP_ALERTS : Obj := { idx := 0xC300, sub := 0x32, ty := .u64, acc := .rc, kept := .c }
/-- DEVICE.UNIT_ID (R671). -/
def DEVICE_UNIT_ID : Obj := { idx := 0x1000, sub := 0x20, ty := .u64, acc := .ro, kept := .n }
/-- DEVICE.SERIAL (R671). -/
def DEVICE_SERIAL : Obj := { idx := 0x1000, sub := 0x21, ty := .str, acc := .ro, kept := .n }
/-- DEVICE.LOT (R671). -/
def DEVICE_LOT : Obj := { idx := 0x1000, sub := 0x22, ty := .str, acc := .ro, kept := .n }
/-- DEVICE.MANUFACTURED (R671). -/
def DEVICE_MANUFACTURED : Obj := { idx := 0x1000, sub := 0x23, ty := .u32, acc := .ro, kept := .n }
/-- DEVICE.OP_HOURS (R671). -/
def DEVICE_OP_HOURS : Obj := { idx := 0x1000, sub := 0x24, ty := .u32, acc := .ro, kept := .n }
/-- DEVICE.OP_SECONDS (R671). -/
def DEVICE_OP_SECONDS : Obj := { idx := 0x1000, sub := 0x25, ty := .u16, acc := .ro, kept := .n }
/-- DEVICE.POWER_CYCLES (R671). -/
def DEVICE_POWER_CYCLES : Obj := { idx := 0x1000, sub := 0x26, ty := .u32, acc := .ro, kept := .n }
/-- DEVICE.REPLACES (R671). -/
def DEVICE_REPLACES : Obj := { idx := 0x1000, sub := 0x27, ty := .u64, acc := .rw, kept := .n }
/-- DEVICE.BOARD_TAG (R671). -/
def DEVICE_BOARD_TAG : Obj := { idx := 0x1000, sub := 0x28, ty := .str, acc := .rw, kept := .n }
/-- AGE.SAMPLE_PERIOD (R676). -/
def AGE_SAMPLE_PERIOD : Obj := { idx := 0xA000, sub := 0x01, ty := .u32, acc := .rw, kept := .w, dflt := [60], lim := [(1, 86400)] }
/-- AGE.VMIN_PERIOD (R676). -/
def AGE_VMIN_PERIOD : Obj := { idx := 0xA000, sub := 0x02, ty := .u16, acc := .rw, kept := .w, dflt := [24], lim := [(1, 8760)] }
/-- AGE.MARGIN.TIMING (R676). -/
def AGE_MARGIN_TIMING : Obj := { idx := 0xA000, sub := 0x03, ty := .s32, acc := .ro, kept := .none, live := true }
/-- AGE.MARGIN.VMIN (R676). -/
def AGE_MARGIN_VMIN : Obj := { idx := 0xA000, sub := 0x04, ty := .s32, acc := .ro, kept := .none, live := true }
/-- AGE.BUDGET (R676). -/
def AGE_BUDGET : Obj := { idx := 0xA000, sub := 0x05, ty := .s32, acc := .ro, kept := .none, live := true }
/-- AGE.PROJECTED_YEARS (R676). -/
def AGE_PROJECTED_YEARS : Obj := { idx := 0xA000, sub := 0x06, ty := .u16, acc := .ro, kept := .none, dflt := [65535] }
/-- AGE.RATING_CONSUMED (R676). -/
def AGE_RATING_CONSUMED : Obj := { idx := 0xA000, sub := 0x07, ty := .u16, acc := .ro, kept := .n }
/-- AGE.TJ_SECONDS (R676). -/
def AGE_TJ_SECONDS : Obj := { idx := 0xA000, sub := 0x08, ty := .u64, count := 7, arr := true, acc := .ro, kept := .n }
/-- AGE.FUSE (R676). -/
def AGE_FUSE : Obj := { idx := 0xA000, sub := 0x09, ty := .u32, count := 2, arr := true, acc := .ro, kept := .n }
/-- AGE.PLAN.ENABLE (R676). -/
def AGE_PLAN_ENABLE : Obj := { idx := 0xA000, sub := 0x10, ty := .bool, acc := .rw, kept := .w, dflt := [1], role := 2 }
/-- AGE.PLAN.TIMING_FLOOR (R676). -/
def AGE_PLAN_TIMING_FLOOR : Obj := { idx := 0xA000, sub := 0x11, ty := .u16, acc := .rw, kept := .w, dflt := [25], lim := [(10, 100)] }
/-- AGE.PLAN.VMIN_FLOOR (R676). -/
def AGE_PLAN_VMIN_FLOOR : Obj := { idx := 0xA000, sub := 0x12, ty := .u16, acc := .rw, kept := .w, dflt := [30], lim := [(10, 100)] }
/-- AGE.PLAN.RAISE_INTERVAL (R676). -/
def AGE_PLAN_RAISE_INTERVAL : Obj := { idx := 0xA000, sub := 0x13, ty := .u32, acc := .rw, kept := .w, dflt := [3600], lim := [(60, 604800)] }
/-- AGE.PLAN.LEARNED_TARGET (R676). -/
def AGE_PLAN_LEARNED_TARGET : Obj := { idx := 0xA000, sub := 0x14, ty := .u16, acc := .ro, kept := .n, dflt := [720] }
/-- AGE.PLAN.RELEARN (R676). -/
def AGE_PLAN_RELEARN : Obj := { idx := 0xA000, sub := 0x15, ty := .bool, acc := .wo, kept := .none, role := 2, live := true }
/-- AGE.PLAN.LANES (R676). -/
def AGE_PLAN_LANES : Obj := { idx := 0xA000, sub := 0x16, ty := .bool, acc := .rw, kept := .w, dflt := [1] }
/-- AGE.PLAN.LANE_DROP (R676). -/
def AGE_PLAN_LANE_DROP : Obj := { idx := 0xA000, sub := 0x17, ty := .u16, acc := .rw, kept := .w, dflt := [15], lim := [(1, 200)] }
/-- AGE.PLAN.SCRUB_RAISE (R676). -/
def AGE_PLAN_SCRUB_RAISE : Obj := { idx := 0xA000, sub := 0x18, ty := .u32, acc := .rw, kept := .w, dflt := [100] }
/-- AGE.PLAN.AUTO_PLAN (R676). -/
def AGE_PLAN_AUTO_PLAN : Obj := { idx := 0xA000, sub := 0x19, ty := .bool, acc := .rw, kept := .w }
/-- AGE.PLAN.PROPOSED (R676). -/
def AGE_PLAN_PROPOSED : Obj := { idx := 0xA000, sub := 0x1A, ty := .u16, count := 9, arr := true, acc := .ro, kept := .w }
/-- AGE.RO.SHIFT (R676). -/
def AGE_RO_SHIFT : Obj := { idx := 0xA010, sub := 0x01, ty := .s32, count := 64, arr := true, acc := .ro, kept := .none, insts := 8, live := true }
/-- AGE.RO.BASE (R676). -/
def AGE_RO_BASE : Obj := { idx := 0xA010, sub := 0x02, ty := .u32, count := 64, arr := true, acc := .ro, kept := .n, insts := 8 }
/-- AGE.PATH.SLACK (R676). -/
def AGE_PATH_SLACK : Obj := { idx := 0xA010, sub := 0x03, ty := .s32, count := 16, arr := true, acc := .ro, kept := .none, insts := 8, live := true }
/-- AGE.VMIN (R676). -/
def AGE_VMIN : Obj := { idx := 0xA010, sub := 0x04, ty := .u16, acc := .ro, kept := .none, insts := 8, live := true }
/-- AGE.REPLACE.MAINTAIN (R676). -/
def AGE_REPLACE_MAINTAIN : Obj := { idx := 0xA100, sub := 0x01, ty := .bool, acc := .wo, kept := .none, role := 2, live := true }
/-- AGE.REPLACE.ADOPT (R676). -/
def AGE_REPLACE_ADOPT : Obj := { idx := 0xA100, sub := 0x02, ty := .bool, acc := .wo, kept := .none, role := 2, live := true }
/-- AGE.REPLACE.STATUS (R676). -/
def AGE_REPLACE_STATUS : Obj := { idx := 0xA100, sub := 0x03, ty := .enum8, acc := .ro, kept := .w, role := 2 }
/-- AGE.PLAN.RAISES (R677). -/
def AGE_PLAN_RAISES : Obj := { idx := 0xA000, sub := 0x30, ty := .u64, acc := .rc, kept := .c }
/-- AGE.PLAN.AT_CEILING (R677). -/
def AGE_PLAN_AT_CEILING : Obj := { idx := 0xA000, sub := 0x31, ty := .u64, acc := .rc, kept := .c }
/-- AGE.PLAN.GUARD_WRITES (R677). -/
def AGE_PLAN_GUARD_WRITES : Obj := { idx := 0xA000, sub := 0x32, ty := .u64, acc := .rc, kept := .c }
/-- AGE.PLAN.REFUSED (R677). -/
def AGE_PLAN_REFUSED : Obj := { idx := 0xA000, sub := 0x33, ty := .u64, acc := .rc, kept := .c }
/-- PERTURB.PULSE.START.TICK (R550). -/
def PERTURB_PULSE_START_TICK : Obj := { idx := 0x9820, sub := 0x0A, ty := .u64, acc := .rw, kept := .w, insts := 63, role := 2 }
/-- PERTURB.PULSE.TICKS (R550). -/
def PERTURB_PULSE_TICKS : Obj := { idx := 0x9820, sub := 0x0B, ty := .u32, acc := .rw, kept := .w, insts := 63, role := 2 }
/-- PERTURB.STALL.START.TICK (R550). -/
def PERTURB_STALL_START_TICK : Obj := { idx := 0x9830, sub := 0x0A, ty := .u64, acc := .rw, kept := .w, insts := 7, role := 2 }
/-- PERTURB.STALL.TICKS (R550). -/
def PERTURB_STALL_TICKS : Obj := { idx := 0x9830, sub := 0x0B, ty := .u32, acc := .rw, kept := .w, insts := 7, role := 2 }
/-- CLASS rule hit counters of table 0 (R173). -/
def CLASS_RULE_HITS0 : Obj := { idx := 0x34A0, sub := 0x01, ty := .u64, count := 2, arr := true, ctr := true, acc := .rw, kept := .c, insts := 65535 }
/-- CLASS rule hit counters of table 1 (R173). -/
def CLASS_RULE_HITS1 : Obj := { idx := 0x34A1, sub := 0x01, ty := .u64, count := 2, arr := true, ctr := true, acc := .rw, kept := .c, insts := 32767 }
/-- CLASS rule hit counters of table 2 (R173). -/
def CLASS_RULE_HITS2 : Obj := { idx := 0x34A2, sub := 0x01, ty := .u64, count := 2, arr := true, ctr := true, acc := .rw, kept := .c, insts := 65535 }
/-- CLASS rule hit counters of table 3 (R173). -/
def CLASS_RULE_HITS3 : Obj := { idx := 0x34A3, sub := 0x01, ty := .u64, count := 2, arr := true, ctr := true, acc := .rw, kept := .c, insts := 32767 }

/-- Part 0 of the catalogue (R11). -/
def part0 : List Obj :=
  [DEVICE_VENDOR, DEVICE_PART, DEVICE_REVISION, DEVICE_BEHAVIOUR_LEVEL, DEVICE_LEVELS_SUPPORTED,
   DEVICE_SORI_PRESENT, DEVICE_HBM_PRESENT, DEVICE_HBM_BYTES, DEVICE_SUBSYSTEMS, DEVICE_SORUS_LINK_STATE,
   DEVICE_SORUS_LINK_CRC_ERRORS, DEVICE_SORUS_LINK_FAULTS, TIME_REPLICA_SLIPS, TICK_NUMBER, TICK_ALIGN_ENABLE,
   TICK_ALIGN_VIEW, TICK_PHASE_ERROR, TICK_LOCKED, TICK_LONG_COUNT, TICK_SHORT_COUNT,
   TICK_DEFERRED, TICK_PLAN_BUF, TICK_PLAN_EM, TICK_PLAN_HBM, TICK_PLAN_STATUS,
   TICK_PLAN_APPLIED, DET_SEED, LANE_TX_POLARITY, LANE_RX_POLARITY, LANE_TX_TAPS,
   LANE_EQ_REACH, LANE_EQ_GUARD, LANE_EYE_HEIGHT, LANE_EYE_WIDTH, LANE_STATE,
   LANE_SYMBOL_ERRORS, OCTET_MODE, OCTET_RATE, OCTET_TX_LANE_MAP, OCTET_RX_LANE_MAP,
   OCTET_CHANNEL, PORT_ENABLE, PORT_LINK_STATE, PORT_AN_ENABLE, PORT_TRAINING_ENABLE,
   PORT_FEC_MODE, PORT_FEC_CORRECTED, PORT_FEC_UNCORRECTED, PORT_LINK_DOWN_COUNT, PORT_ACTIVE_LANES,
   PORT_PARK, PORT_WAKES, PORT_PARKED_DROPS, PORT_FEC_ACTIVE, PORT_SHED_ENABLE,
   PORT_SHED_MIN_LANES, PORT_SHED_WINDOW, PORT_SHED_BELOW, PORT_SHED_RESTORE_WINDOW, PORT_SHED_ABOVE]
/-- Part 1 of the catalogue (R11). -/
def part1 : List Obj :=
  [PORT_SHED_QUEUE_RESTORE, PORT_SHED_PEER_CAPABLE, PORT_SHED_SHEDS, PORT_SHED_RESTORES, PORT_SHED_REFUSED,
   PORT_SHED_BLOCKED, PORT_SHED_GATE_OVERLAPS, PORT_SHED_LOAD, PORT_SHED_SOURCE_ADDRESS, PORT_SHED_BAD_FRAMES,
   PORT_MAC_ADDRESS, PORT_KEEP_BAD, PORT_KEEP_BAD_RING, PORT_MTU, PORT_RX_TPID_S,
   PORT_RX_STRIP, PORT_PVID, PORT_DEFAULT_PCP, PORT_TX_TAG_MODE, PORT_TX_TPID_S,
   PORT_TX_S_VID, PORT_TX_UNTAGGED_VID, PORT_FLOW_MODE, PORT_FLOW_RX_ENABLE, PORT_PFC_CLASS_MAP,
   PORT_PFC_PAUSE_IMMUNE, PORT_FLOW_TX_ENABLE, PORT_FLOW_XOFF, PORT_FLOW_XON, PORT_FLOW_TX_QUANTA,
   PORT_FLOW_TX_REFRESH, PORT_FLOW_HELD, PORT_PREEMPT_ENABLE, PORT_PREEMPT_VERIFY_DISABLE, PORT_PREEMPT_ADD_FRAG_SIZE,
   PORT_PREEMPT_VERIFY_TIME, PORT_PREEMPT_STATUS, PORT_WAKE_ENABLE, PORT_WAKE_MASK, PORT_WAKE_CHECK,
   PORT_WAKE_MATCHES, PORT_RX_GOOD, PORT_RX_RUNTS, PORT_RX_GIANTS, PORT_RX_FCS_ERRORS,
   PORT_RX_FEC_ERRORS, PORT_RX_CODE_ERRORS, PORT_RX_STOMPED, PORT_RX_ASSEMBLY_ERRORS, PORT_RX_MAC_CONTROL_OTHER,
   PORT_RX_NO_TRANSIT, PORT_RX_KEEP_BAD_DELIVERED, PORT_RX_KEEP_BAD_REFUSED, PORT_RX_PAUSE, PORT_RX_PFC,
   PORT_RX_PFC_PRIORITY, PORT_RX_FLOW_IGNORED, PORT_TX_GOOD, PORT_TX_GIANTS, PORT_TX_STOMPED]
/-- Part 2 of the catalogue (R11). -/
def part2 : List Obj :=
  [PORT_TX_PAUSE, PORT_TX_PFC, PORT_TX_PADDED, PORT_PREEMPT_RX_FRAGMENTS, PORT_PREEMPT_TX_FRAGMENTS,
   PARSE_GROUP_LIMIT, PARSE_MALFORMED_REASONS, PARSE_LAYER_DESC, PARSE_LAYER_NEXT, PARSE_LAYER_EXTRACT,
   PARSE_LUT, PARSE_START_LAYER, PARSE_DEPTH, PARSE_MALFORMED_ACTION, PARSE_HOST_RING,
   PARSE_SLOW_PATH_RING, PARSE_MALFORMED, PARSE_MALFORMED_LATE, PARSE_DEPTH_EXCEEDED, PARSE_FRAGMENTS,
   PARSE_SLOW_PATH, PARSE_SLOW_PATH_REFUSED, PARSE_HOST_REFUSED, CLASS_EPOCH, CLASS_SWAP,
   CLASS_DRAIN_COUNT, CLASS_MANAGEMENT_SET, CLASS_PRIVILEGED_SET, CLASS_SWAP_TICK, CLASS_SWAPS,
   CLASS_POISON_HITS, CLASS_REPAIRS, CLASS_SLOT_STATE, CLASS_SLOT_OFFSET, CLASS_SLOT_DATA,
   CLASS_SLOT_SEAL, CLASS_SLOT_LAST_REFUSAL, CLASS_SLOT_COMPUTED_CRC, CLASS_DEFAULT_ACTION, CLASS_POISON_ACTION,
   CLASS_IN_NO_MATCH, CLASS_IN_FAULTS, CLASS_IN_DROPS, CLASS_IN_HOST_REFUSED, CLASS_IN_MGMT_REFUSED,
   CLASS_RECIRCULATED, CLASS_RECIRC_REFUSED, CLASS_OUT_NO_MATCH, CLASS_OUT_FAULTS, CLASS_OUT_DROPS,
   EM_HASH_SEED, EM_OCCUPANCY, EM_AGE_INTERVAL, EM_SHADOW_ENABLE, EM_SHADOW_SCOPE,
   EM_SHADOW_OFFSET, EM_SHADOW_DATA, EM_SHADOW_MISMATCH, EM_SHADOW_BASE, EM_FID_MAP]
/-- Part 3 of the catalogue (R11). -/
def part3 : List Obj :=
  [EM_FID_FLOOD_GROUP, EM_CMD_BATCH, EM_CMD_START, EM_CMD_STATUS, EM_CMD_DONE_TICK,
   EM_PORT_SRC_KEY, EM_PORT_DST_KEY, EM_PORT_LEARN_ENABLE, EM_PORT_LEARN_DEST, EM_PORT_MISS_ACTION,
   EM_PORT_MPLS_DOMAIN, EM_PORT_HANDLE_SLOT, EM_PORT_HAIRPIN, EM_LEARN_INSERTS, EM_LEARN_MOVES,
   EM_LEARN_MOVE_REFUSED, EM_LEARN_FULL, EM_LEARN_OVERFLOW, EM_AGE_PASSES, EM_AGE_LATE,
   EM_AGE_REMOVED, EM_AGE_WITHDRAWN, EM_POISON_HITS, EM_BANK_WAITS, EM_SHADOW_PASSES,
   EM_SHADOW_SKIPPED, EM_SRC_MISS, EM_DST_MISS, EM_FLOODED, PEM_LEARN_FULL,
   EM_MISS_DROPS, EM_SAME_PORT_DROPS, METER_MODE, METER_CIR, METER_EIR,
   METER_CBS, METER_EBS, METER_OVERHEAD, METER_COUPLING, METER_YELLOW_ACTION,
   METER_RED_ACTION, METER_MARK_DEI, METER_MARK_ALL_RED_ENABLE, METER_MARK_ALL_RED, METER_TOKENS,
   METER_DROPPED, FILTER_ENABLE, FILTER_MAX_SDU, FILTER_BLOCK_OVERSIZE, FILTER_BLOCKED,
   FILTER_GATE, FILTER_FLOW_METER, GATE_LIST, GATE_ENTRIES, GATE_BASE_TIME,
   GATE_CYCLE, GATE_VIEW, GATE_CLOSE_ON_INVALID, GATE_CLOSED_INVALID, FRER_GEN_ENABLE]
/-- Part 4 of the catalogue (R11). -/
def part4 : List Obj :=
  [FRER_GEN_NEXT, FRER_REC_ENABLE, FRER_REC_HISTORY, FRER_REC_RESET_TICKS, FRER_REC_TAKE_NO_SEQ,
   FRER_REC_KEEP_SEQ, FRER_REC_STATE, FRER_REC_OUT_OF_ORDER, FRER_REC_ROGUE, FRER_REC_LOST,
   FRER_REC_TAGLESS, FRER_REC_RESETS, FRER_PORT_RTAG_MODE, METER_GREEN, METER_YELLOW,
   METER_RED, FILTER_PASSED, FILTER_SDU_DROPPED, FILTER_GATE_DROPPED, FRER_REC_PASSED,
   FRER_REC_DISCARDED, FAB_CELLS_FREE, FAB_CELLS_HELD, FAB_DESCRIPTORS_FREE, FAB_LAG_HASH_SLOTS,
   FAB_LAG_HASH_SEED, FAB_SPORE_PENDING, FAB_QUEUE_LIMIT, FAB_QUEUE_DEPTH_CELLS, FAB_QUEUE_DEPTH_FRAMES,
   FAB_PORT_CUT_THROUGH, FAB_INGRESS_CELLS, FAB_GROUP_PORTS, FAB_GROUP_LAGS, FAB_GROUP_MAT_MEMBERS,
   FAB_LAG_MEMBERS, FAB_LAG_ACTIVE, FAB_DROP_NO_CELLS, FAB_DROP_NO_DESCRIPTOR, FAB_NO_PORT,
   FAB_LAG_NO_MEMBER, FAB_PRUNED, FAB_GROUP_EMPTY, FAB_POISON_DROPS, FAB_POISON_STOMPED,
   FAB_REF_FAULTS, FAB_SPORE_SKIPPED, FAB_RECIRC_NO_BUFFER, FAB_RECIRC_BAD_DROPPED, FAB_QUEUE_ADMITTED,
   FAB_QUEUE_DROPPED, FAB_PORT_TAIL_MARKED, FAB_PORT_BAD_AT_ADMISSION, FAB_PORT_CT_STARTED, FAB_PORT_SF_STARTED,
   FAB_SPILL_CELLS_OUT, FAB_SPILL_PAGES_USED, FAB_SPILL_REFILL_FLOOR, FAB_SPILL_REFILL_AHEAD, FAB_CREDIT_INTERVAL]
/-- Part 5 of the catalogue (R11). -/
def part5 : List Obj :=
  [FAB_CREDIT_STALL_TICKS, FAB_CREDIT_FLOOR, FAB_QUEUE_RED_PROFILE, FAB_QUEUE_RED_AVG, FAB_QUEUE_SPILL_ENABLE,
   FAB_QUEUE_SPILL_PAGES_LIMIT, FAB_QUEUE_SPILL_PAGES, PORT_HOLD_TIME, PORT_MAX_AGE, PORT_HOLD_STATE,
   FAB_SPILL_ON, FAB_SPILL_OFF, FAB_SPILL_STATE, FAB_CREDIT_ENABLE, FAB_CREDIT_CELLS,
   FAB_CREDIT_BALANCE, FAB_CREDIT_GRANTED, FAB_RED_MIN, FAB_RED_MAX, FAB_RED_MAX_P,
   FAB_RED_WEIGHT, FAB_SPILL_BUDGET_SHORT, FAB_SPILL_QUEUE_FULL, FAB_SPILL_AREA_FULL, FAB_CREDIT_FRAMES,
   FAB_CREDIT_OVERRUNS, FAB_CREDIT_STALLS, FAB_QUEUE_RED_DROPPED, FAB_QUEUE_FLOOR_DROPPED, FAB_QUEUE_AGED,
   FAB_QUEUE_FLUSHED, FAB_QUEUE_SPILLED, POOL_TRANSFER_LIMIT, POOL_TRANSFER_BACKLOG, POOL_STASH_AFTER,
   POOL_CELLS_HELD, POOL_QUARANTINE, POOL_UNQUARANTINE, POOL_QUARANTINE_LIST, POOL_QUARANTINE_COUNT,
   POOL_SIZE_BYTES, POOL_BUFFERS, POOL_ADMIT_FLOOR, POOL_IN_USE, POOL_STASH_SLOTS,
   POOL_STASHED, POOL_NO_POOL, POOL_BAD_HANDLE, POOL_ALLOCS, POOL_REFUSED_LIMIT,
   POOL_REFUSED_CELLS, POOL_REFUSED_FLOOR, POOL_REFUSED_TRANSFER, POOL_DOUBLE_FREES, POOL_FOREIGN_FREES,
   POOL_NO_STASH, POOL_STASHES, SCHED_LEVEL, SCHED_QUANTUM, SCHED_WEIGHT]
/-- Part 6 of the catalogue (R11). -/
def part6 : List Obj :=
  [SCHED_DEFICIT, SCHED_TAG, SHAPER_CIR, SHAPER_PIR, SHAPER_CBS,
   SHAPER_PBS, SHAPER_RESET_TO_FULL, SHAPER_TOKENS, SCHED_LEVEL_MODE, SCHED_OVERHEAD,
   SCHED_VTIME, SCHED_TURN, SCHED_PORT_QUEUED_BYTES, SCHED_PATHS, PSHAPER_CIR,
   PSHAPER_PIR, PSHAPER_CBS, PSHAPER_PBS, PSHAPER_RESET_TO_FULL, PSHAPER_TOKENS,
   SCHED_QUEUE_SENT, SCHED_QUEUE_SENT_COMMITTED, GATE_ADMIN_LIST, GATE_ADMIN_ENTRIES, GATE_ADMIN_BASE_TIME,
   GATE_ADMIN_CYCLE, GATE_ADMIN_CYCLE_EXTENSION, GATE_ADMIN_VIEW, GATE_CONFIG_CHANGE, GATE_CONFIG_PENDING,
   GATE_CONFIG_CHANGE_TIME, GATE_OPER_LIST, GATE_OPER_ENTRIES, GATE_OPER_BASE_TIME, GATE_OPER_CYCLE,
   GATE_OPER_CYCLE_EXTENSION, GATE_OPER_VIEW, GATE_STATE, GATE_MAX_OPEN, GATE_CONFIG_CHANGES,
   GATE_CLOSE_PREEMPTS, GATE_OVERRUNS, GATE_QUEUE_TOO_LONG, TIME_VIEW_NOW, TIME_VIEW_NOW_SUB,
   TIME_VIEW_INCREMENT, TIME_VIEW_SET, TIME_VIEW_SET_SUB, TIME_VIEW_STEP, TIME_VIEW_STATE,
   TIME_VIEW_HOLDOVER_AFTER, TIME_VIEW_HOLDOVER_INCREMENT, TIME_VIEW_LAST_WRITE_TICK, TIME_VIEW_PARAMS, TIME_VIEW_STEPS,
   TIME_VIEW_STALE_CONVERSIONS, TIME_RAW, TIME_REF_A_OFFSET, TIME_REF_A_ENABLE, TIME_REF_B_ENABLE]
/-- Part 7 of the catalogue (R11). -/
def part7 : List Obj :=
  [TIME_REF_B_SOURCE, TIME_REF_B_EDGE, TIME_REF_B_DELAY, TIME_REF_C_ENABLE, TIME_REF_MAX_AGE,
   TIME_REF_LAST, TIME_REF_LAST_TICK, TIME_VOTE_VIEW, TIME_VOTE_WINDOW, TIME_VOTE_FREEZE_ON,
   TIME_VOTE_OUTCOME, TIME_VOTE_FROZEN, TIME_VOTE_RELEASE, TIME_VOTE_COUNTS, TIO_MODE,
   TIO_VIEW, TIO_OUT_DELAY, TIO_PULSE_WIDTH, TIO_MUTE, TIO_EDGE,
   TIO_EVENT_COUNT, TIO_EVENT_NEXT, TIO_EVENT_LOST, TIO_EVENT_TOO_CLOSE, TIO_TOD_BAD,
   STAMP_TC_VIEW, STAMP_PTP_LAYER, STAMP_TC_DOMAINS, STAMP_LONG_RESIDENCE, STAMP_CAPTURE_COUNT,
   STAMP_CAPTURE_NEXT, STAMP_IOAM_LAYER, STAMP_IOAM_NODE_ID, STAMP_IOAM_NAMESPACES, STAMP_IOAM_VIEW,
   STAMP_CORRECTED, STAMP_SATURATED, STAMP_LONG_RESIDENCE_COUNT, STAMP_CHECKSUM_UNSUPPORTED, STAMP_CAPTURE_LOST,
   STAMP_IOAM_WRITTEN, STAMP_IOAM_OVERFLOW, STAMP_IOAM_BAD_LENGTH, STAMP_NO_INGRESS_EVENTS, STAMP_PORT_TC_MODE,
   STAMP_PORT_LINK_DELAY, STAMP_PORT_RX_ADJUST, STAMP_PORT_TX_ADJUST, STAMP_PORT_TWO_STEP_CAPTURE, STAMP_PORT_IOAM_ENABLE,
   STAMP_EVENT_COPIES, WATCH_ENABLE, WATCH_MODE, WATCH_PERIOD, WATCH_GRID_BASE,
   WATCH_VIEW, WATCH_BIN_LOW, WATCH_BIN_WIDTH, WATCH_LATE, WATCH_SEQ_SOURCE]
/-- Part 8 of the catalogue (R11). -/
def part8 : List Obj :=
  [WATCH_SEQ_SLOT, WATCH_SEQ_WIDTH, WATCH_REPORT_PERIOD, WATCH_RECORD_ABOVE, WATCH_CLEAR,
   WATCH_HIST, WATCH_EXTREMES, WATCH_FRAMES, WATCH_LATE_COUNT, WATCH_GAPS,
   WATCH_REORDERS, WATCH_NO_STAMP, MAT_ENABLE, MAT_DEVICE, MAT_MEMBERS,
   MAT_CANDIDATES, MAT_VIEW, MAT_STATE, MAT_MASTER, MAT_STANDBY,
   MAT_TERM, MAT_LAST_HOLDER, MAT_LEASE_DURATION, MAT_LEASE_RENEW, MAT_LEASE_GUARD,
   MAT_LEASE_COLLECT, MAT_LEASE_END_TICK, MAT_HEARTBEAT_INTERVAL, MAT_HEARTBEAT_TIMEOUT, MAT_REACH,
   MAT_SPLIT, MAT_REJOIN, MAT_AUTO_REJOIN, MAT_KEY, MAT_MGMT_PEERS,
   MAT_SYNC_CONFLICT_TICKS, MAT_CHECK_SAMPLE, MAT_CHECK_STATE, MAT_TIME_INTERVAL, MAT_TRUNK_PORTS,
   MAT_TRUNK_ACTIVE, MAT_TRUNK_ASYMMETRY, MAT_BAD_HEADER, MAT_UNREACHABLE, MAT_RELAYED,
   MAT_STAMP_LOST, MAT_EPOCH_SKEW, MAT_AUTH_FAILURES, MAT_LEASE_LOST, MAT_SYNC_UPDATES_SENT,
   MAT_SYNC_UPDATES_APPLIED, MAT_SYNC_CONFLICTS, MAT_SYNC_REFUSED_STATIC, MAT_CHECK_MISMATCHES, MAT_TIME_LOST,
   INTEG_LOG, INTEG_LOG_CLEAR, INTEG_UE_LOG, INTEG_UE_LOG_CLEAR, INTEG_FLIP_MASK]
/-- Part 9 of the catalogue (R11). -/
def part9 : List Obj :=
  [INTEG_FLIP_TARGET, INTEG_FLIP_ARM, INTEG_FLIP_DONE_TICK, INTEG_EM_RETIRE, INTEG_EM_UNRETIRE,
   INTEG_EM_RETIRED_LIST, INTEG_EM_RETIRED_COUNT, INTEG_LOG_OVERFLOW, INTEG_UE_LOG_OVERFLOW, INTEG_SCRUB_RACES,
   INTEG_CONFIG_POISON_DROPS, INTEG_STATE_RESETS, INTEG_COUNTER_RESTARTS, INTEG_CELLS_LOST, INTEG_MEM_CORRECTED,
   INTEG_MEM_UNCORRECTABLE, INTEG_MEM_SCRUB_PASSES, INTEG_MEM_LAST_PASS_TICKS, INTEG_HBM_CORRECTED, INTEG_HBM_UNCORRECTABLE,
   INTEG_HBM_LINK_CRC_ERRORS, INTEG_HBM_LINK_FAULTS, CTR_DUMP_PERIOD, CTR_DUMP_TARGET, CTR_DUMP_RING_BASE,
   CTR_DUMP_SLOTS, CTR_DUMP_HOST_ADDR, CTR_DUMP_VIEW, CTR_DUMP_SEQ, CTR_DUMP_LAST_COMPLETE,
   CTR_DUMP_STATE, CTR_MAP, CTR_HBM_READ_ADDR, CTR_HBM_READ_DATA, CTR_PORT_WINDOW,
   SPORE_RING_BASE, SPORE_RING_RECORDS, SPORE_RING_MODE, SPORE_RING_WRITE, SPORE_RING_READ,
   SPORE_RECORD_NUMBER, SLOT_COUNTS, CTR_PORT_WINDOW_RESULT, SPORE_SAMPLER_RATE, SPORE_SAMPLER_OFFERED,
   SPORE_SAMPLER_SELECTED, CTR_DUMP_SKIPPED, CTR_HBM_READ_POISONED, SPORE_WRITTEN, SPORE_FULL_DROPS,
   REC_WRITE_INDEX, REC_FULL, REC_STATE, REC_CURSOR, REC_WINDOW_RECORDS,
   REC_WINDOW, REC_CLEAR, REC_QUEUED, REC_LOST_FULL, REC_QUEUE_LOST]
/-- Part 10 of the catalogue (R11). -/
def part10 : List Obj :=
  [REC_TORN, REC_CODE_ENABLE, REC_CODE_HOLD, REC_CODE_LIMIT, REC_CODE_OCCURRENCES,
   REC_CODE_SUPPRESSED, JOURNAL_LENGTH, JOURNAL_BASE, JOURNAL_CHECKPOINT_BASE, JOURNAL_PORTS,
   JOURNAL_INJECTED, JOURNAL_START, JOURNAL_STOP, JOURNAL_STATE, JOURNAL_START_TICK,
   JOURNAL_STOP_TICK, JOURNAL_STOP_REASON, JOURNAL_CHECKPOINT_DONE, JOURNAL_CLEAN_START, JOURNAL_RECORDS,
   JOURNAL_LOST, JOURNAL_FIRST_LOSS_TICK, JOURNAL_TRIGGER_CODE, JOURNAL_TRIGGER_AFTER, JOURNAL_MIXED,
   JOURNAL_HBM_ADDR, JOURNAL_HBM_DATA, REPLAY_START, REPLAY_STOP_TICK, REPLAY_STATE,
   REPLAY_TICK, REPLAY_RESULT_BASE, REPLAY_FRAMES, REPLAY_DEEP, REPLAY_RX_DISCARDED,
   PERTURB_ENABLE, PERTURB_LOCK, PERTURB_ACTIVE, PERTURB_CLEAR, PERTURB_PORT_START_TICK,
   PERTURB_PORT_TICKS, PERTURB_PORT_DELAY, PERTURB_PORT_RX_STAMP_OFFSET, PERTURB_PORT_TX_STAMP_OFFSET, PERTURB_PORT_FORCE_MISS,
   PERTURB_PORT_FORCED_MISSES, PERTURB_PULSE_TARGET, PERTURB_PULSE_UNIT, PERTURB_PULSE_OFFSET, PERTURB_PULSE_LENGTH,
   PERTURB_PULSE_PERIOD, PERTURB_STALL_PIPELINES, PERTURB_STALL_LENGTH, PERTURB_STALL_TRIGGER, PERTURB_FAULT_PORT,
   PERTURB_FAULT_DIR, PERTURB_FAULT_ACTION, PERTURB_FAULT_RATE, PERTURB_FAULT_OFFSET, PERTURB_FAULT_MASK]
/-- Part 11 of the catalogue (R11). -/
def part11 : List Obj :=
  [PERTURB_FAULT_START_TICK, PERTURB_FAULT_TICKS, PERTURB_FAULT_HITS, DICT_VENDOR_FUSED, DICT_PCIE_AUTH,
   DICT_SESSION_IDLE, DICT_KEY_SET, DICT_SESSIONS, DICT_INBAND_CLASS, DICT_KEY,
   DICT_MGMT_ENABLE, DICT_MGMT_MAC, DICT_MGMT_IPV4, DICT_MGMT_IPV6, DICT_MGMT_GATEWAY,
   DICT_PORT_INBAND, DICT_REQUESTS, DICT_AUTH_FAILURES, DICT_RETRANSMITTED, DICT_BAD_SEQ,
   DICT_REFUSED, DICT_GROUPS_APPLIED, HOST_LINK_STATE, HOST_LINK_SPEED, HOST_LINK_WIDTH,
   HOST_PCIE_IDS, HOST_RING_ENABLE, HOST_RING_SQ_BASE, HOST_RING_SQ_ENTRIES, HOST_RING_CQ_BASE,
   HOST_RING_CQ_ENTRIES, HOST_RING_COALESCE_COUNT, HOST_RING_COALESCE_TICKS, HOST_RING_BACKLOG, HOST_RING_HELD,
   HOST_RING_DELIVERED, HOST_RING_CQ_DROPS, HOST_RING_LINK_DROPS, HOST_RING_FETCHED, HOST_RING_INJECTED,
   HOST_RING_INJECT_REFUSED, HOST_RING_BAD_DOORBELL, RESET_WARM, RESET_PCIE_WARM, RESET_LAST_KIND,
   RESET_LAST_CAUSE, RESET_COUNTS, RESET_LEVEL_NEXT, RESET_STATE, POWER_STATE,
   POWER_IDLE_ENABLE, RESET_SORUS, POWER_SORUS_PARK, POWER_SORUS_STATE, RESET_FLUSH,
   SEED_STATUS, SEED_COPY, SEED_SEQUENCE, SEED_FAILED_COPIES, SEED_REFUSED]
/-- Part 12 of the catalogue (R11). -/
def part12 : List Obj :=
  [SEED_FIRST_REFUSED, SEED_FIRST_STATUS, SEED_PUBLIC_KEY, SEED_REQUIRE_SIGNATURE, FAULT_WINDOW,
   FAULT_ISOLATED, FAULT_CAUSE, FAULT_PENDING, FAULT_LOG, FAULT_LOG_NEXT,
   FAULT_FAULTS, FAULT_ESCALATIONS, FAULT_QUEUED, FAULT_ISOLATIONS, POWER_AVS_SETPOINT,
   POWER_AVS_BOOT, POWER_AVS_TARGET, POWER_AVS_ADDRESS, POWER_AVS_ENABLE, POWER_AVS_READ_VOUT,
   POWER_AVS_READ_IOUT, POWER_AVS_STATUS, POWER_TEMP, POWER_TEMP_ALERT, POWER_TEMP_PEAK,
   POWER_AVS_FAILURES, POWER_AVS_ALERTS, POWER_TEMP_ALERTS, DEVICE_UNIT_ID, DEVICE_SERIAL,
   DEVICE_LOT, DEVICE_MANUFACTURED, DEVICE_OP_HOURS, DEVICE_OP_SECONDS, DEVICE_POWER_CYCLES,
   DEVICE_REPLACES, DEVICE_BOARD_TAG, AGE_SAMPLE_PERIOD, AGE_VMIN_PERIOD, AGE_MARGIN_TIMING,
   AGE_MARGIN_VMIN, AGE_BUDGET, AGE_PROJECTED_YEARS, AGE_RATING_CONSUMED, AGE_TJ_SECONDS,
   AGE_FUSE, AGE_PLAN_ENABLE, AGE_PLAN_TIMING_FLOOR, AGE_PLAN_VMIN_FLOOR, AGE_PLAN_RAISE_INTERVAL,
   AGE_PLAN_LEARNED_TARGET, AGE_PLAN_RELEARN, AGE_PLAN_LANES, AGE_PLAN_LANE_DROP, AGE_PLAN_SCRUB_RAISE,
   AGE_PLAN_AUTO_PLAN, AGE_PLAN_PROPOSED, AGE_RO_SHIFT, AGE_RO_BASE, AGE_PATH_SLACK]
/-- Part 13 of the catalogue (R11). -/
def part13 : List Obj :=
  [AGE_VMIN, AGE_REPLACE_MAINTAIN, AGE_REPLACE_ADOPT, AGE_REPLACE_STATUS, AGE_PLAN_RAISES,
   AGE_PLAN_AT_CEILING, AGE_PLAN_GUARD_WRITES, AGE_PLAN_REFUSED, PERTURB_PULSE_START_TICK, PERTURB_PULSE_TICKS,
   PERTURB_STALL_START_TICK, PERTURB_STALL_TICKS, CLASS_RULE_HITS0, CLASS_RULE_HITS1, CLASS_RULE_HITS2,
   CLASS_RULE_HITS3]
/-- Every object of the dictionary, in the order of the object tables. -/
def all : List Obj := part0 ++ part1 ++ part2 ++ part3 ++ part4 ++ part5 ++ part6 ++ part7 ++ part8 ++ part9 ++ part10 ++ part11 ++ part12 ++ part13

end Sys2Proof.Machine.Od
end

