-- ==== Sys2Proof/Machine/Dev.lean ====
section
/-! DEFINITION. The device's state apart from its clock, its HBM and its queue of commands: the objects, and the lists of frames, copies,
buffers, records and sessions that are no objects of the dictionary. Plain data. -/
namespace Sys2Proof.Machine

/-- The timebase: tick number, length of the tick in clocks, the clock within it, and the raw counter at the boundary that opened
the tick (R38, R39, R361). -/
structure Clk where
  tick : Nat := 0
  len : Nat := 800
  c : Nat := 0
  raw : Nat := 0
  deriving DecidableEq, Repr

/-- The descriptor of a packet: what the MAC (R90), the parser (R132), the classifier (R159), the exact-match stage (R187), the stream
stage (R218), stream watch (R391) and the transit header (R422) put in it; in a replay, the state its sampler's LFSR is loaded with (R527). -/
structure Desc where
  srcPort : Nat := 0
  rxLength : Nat := 0
  rxError : Nat := 0
  rxPreemptible : Bool := false
  fromMat : Bool := false
  tagCount : Nat := 0
  outerIsS : Bool := false
  outerPcp : Nat := 0
  outerDei : Nat := 0
  outerVid : Nat := 0
  innerPcp : Nat := 0
  innerDei : Nat := 0
  innerVid : Nat := 0
  pvidApplied : Bool := false
  tagsStripped : Nat := 0
  stamp : Nat := 0
  injected : Bool := false
  endReason : Nat := 0
  depthExceeded : Bool := false
  malformed : Bool := false
  malformedLate : Bool := false
  fragment : Bool := false
  malformedReason : Nat := 0
  layers : List (Nat × Nat) := []
  unknownValue : Nat := 0
  fields : List Nat := List.replicate 32 0
  fieldsWritten : Nat := 0
  epoch : Nat := 0
  pass : Nat := 0
  cls : Nat := 0
  preemptible : Bool := false
  inOutcome : Nat := 5
  outOutcome : Nat := 5
  inRule : Nat := 0
  outRule : Nat := 0
  inAction : Nat := 0
  outAction : Nat := 0
  meterEn : Bool := false
  meter : Nat := 0
  inColour : Nat := 0
  sporeEn : Bool := false
  spore : Nat := 0
  streamSet : Bool := false
  stream : Nat := 0
  dest : Nat := 0
  learnDisable : Bool := false
  ring : Nat := 0
  strip : Nat := 0
  srcOutcome : Nat := 0
  srcIndex : Nat := 0
  dstOutcome : Nat := 0
  dstIndex : Nat := 0
  fid : Nat := 0
  learnField : Nat := 0
  flooded : Bool := false
  noIngress : Bool := false
  ptpEvent : Bool := false
  corrected : Bool := false
  ioamWritten : Bool := false
  residence : Int := 0
  matDevice : Nat := 0
  matPort : Nat := 0
  finalDest : Nat := 0
  finalDestSet : Bool := false
  finalStreamSet : Bool := false
  finalStream : Nat := 0
  classOvr : Bool := false
  colour : Nat := 0
  filterOutcome : Nat := 0
  recoveryOutcome : Nat := 0
  seqValid : Bool := false
  seq : Nat := 0
  ipvSet : Bool := false
  ipv : Nat := 0
  markDei : Bool := false
  multicast : Bool := false
  transit : List Byte := []
  relay : Bool := false
  replay : Bool := false
  direct : Bool := false
  tag : Option Nat := none
  lfsr : Option Nat := none
  removed : Nat := 0
  deriving DecidableEq, Repr

/-- What a walk of the parser has gathered: the result of R132 so far, the spans kept for the tail (R129), the end of the last recorded
header, how many leading bytes of the frame it has read; `poison` says that it met a poisoned word it needs (R457). -/
structure Walk where
  layers : List (Nat × Nat) := []
  fields : List Nat := List.replicate 32 0
  written : Nat := 0
  spans : List (Nat × Nat) := []
  lastEnd : Nat := 0
  reason : Nat := 0
  mal : Nat := 0
  unknown : Nat := 0
  frag : Bool := false
  read : Nat := 0
  poison : Bool := false
  deriving DecidableEq, Repr

/-- A frame at a port's MAC or in its pipeline (R88): the bytes received, without the transit header and with the FCS; the ingress stamp; the flags
of R96 found so far; its `kind` 0 data, 1 MAC control, 2 shedding, 3 consumed by the mat engine; the settings captured at its start (R88); once the MAC has handed it over, the
settings of that clock and the walk of the parser under them (R121). `phase` 0 being received, 1 handed over and not ended, 2
ended and waiting for hand-off, 3 ended and waiting for its tail check. `host` lists the deliveries due at its end as (ring, reason of R586); `mgmt`:
it goes to the dictionary engine at its end; `fr` its record; `jid` its journal number plus one; `entry` the clock of
hand-off; `tail` the clocks from there to the end that a replay gives it. -/
structure RxFrame where
  port : Nat
  pre : Bool := false
  kind : Nat := 0
  bytes : List Byte
  errs : Nat := 0
  transit : List Byte := []
  keepBad : Bool := false
  mtu : Nat := 9216
  phase : Nat := 0
  malAction : Nat := 0
  hostRing : Nat := 0
  slowRing : Nat := 0
  walk : Option Walk := none
  desc : Desc := {}
  spans : List (Nat × Nat) := []
  lastEnd : Nat := 0
  fr : Option Nat := none
  host : List (Nat × Nat) := []
  mgmt : Bool := false
  credit : Bool := false
  creditCls : Nat := 8
  jid : Nat := 0
  entry : Nat := 0
  tail : Nat := 0
  deriving DecidableEq, Repr

/-- A frame record of the fabric (R241) with the stored bytes. `id` is the model's own number of the record; `shown` is FRAME_ID.
`relClock` is the clock of the latest release, plus one (R262). `spilled`: the cells go to HBM as they arrive and come back by refill (R279 to R283):
`home` the places of those that lie there (page × 8 + place in the page, R277), in order; the refill of `issued` has been issued, `placed` are back. -/
structure FrameRec where
  id : Nat
  shown : Nat := 0
  refs : Nat := 0
  lastOwner : Nat := 0xFFFF
  relClock : Nat := 0
  complete : Bool := false
  tailMark : Bool := false
  stored : List Byte := []
  reserved : Nat := 0
  srcPort : Nat := 0
  acct : Nat := 0
  rxLength : Nat := 0
  mtu : Nat := 9216
  rIn : Nat := 0
  handClock : Nat := 0
  head : Nat := 0
  poisoned : List Nat := []
  spilled : Bool := false
  home : List Nat := []
  issued : Nat := 0
  placed : Nat := 0
  credit : Bool := false
  creditCls : Nat := 0
  deriving DecidableEq, Repr

/-- A copy of a frame in a queue (R243), queues numbered as R247: its place in the issue order, its outcome and start mode; the clock at which its descriptor
reaches the queue and its rank among those of that clock (R29, R30), its release clock (R538), and the depth of its queue with it (R402). START_MODE 3 is
of a copy that is gone at once: no copy bears it. -/
structure Copy where
  queue : Nat
  fr : Nat
  index : Nat := 0
  copies : Nat := 1
  outcome : Nat := 0
  startMode : Nat := 2
  arrive : Nat := 0
  rank : Nat := 0
  admitTick : Nat := 0
  desc : Desc := {}
  release : Nat := 0
  depth : Nat := 0
  deriving DecidableEq, Repr

/-- A copy chosen and not yet done with: its port and path (0 express or only path, 1 preemptible; 2 waits for its tail to go to a host ring in place
of transmission, 3 for a host copy), the descriptor after the egress lookup, whether its queue was committed, the frame as it leaves without FCS and
transit header, that header, whether it is stomped, cut at the MTU, the bytes XORed on the wire (R544), its length and credit debit, and the clock of
its choice; `cut` the stored bytes ahead of the first cell it reads as poison (R260). `sent` bytes had passed by clock `mark`, `frag` of them before the fragment under way; `run` 0 in transmission, 1 waiting for an express
copy, 2 preempted at its gate's close; `closes` says that it started without fitting whole (R356). `ring` and `reason` name a delivery. -/
structure TxCopy where
  port : Nat
  path : Nat
  copy : Copy
  desc : Desc := {}
  committed : Bool := false
  frame : List Byte := []
  header : List Byte := []
  stomp : Bool := false
  giant : Bool := false
  cut : Option Nat := none
  xors : List (Nat × Nat) := []
  ltx : Nat := 0
  debit : Nat := 0
  start : Nat := 0
  mark : Nat := 0
  sent : Nat := 0
  frag : Nat := 0
  run : Nat := 0
  closes : Bool := false
  ring : Nat := 0
  reason : Nat := 0
  deriving DecidableEq, Repr

/-- A buffer of the pool manager (R306, R307) with its bytes; `slot` its stash slot (R314); `since` the tick it entered a receive ring;
`xfer` cells whose transfer is outstanding. -/
structure Buf where
  pool : Nat
  idx : Nat
  gen : Nat
  owner : Nat
  bytes : List Byte := []
  slot : Option Nat := none
  stashing : Bool := false
  ring : Option Nat := none
  since : Nat := 0
  xfer : Nat := 0
  poisoned : List Nat := []
  deriving DecidableEq, Repr

/-- A capture job (R266): ingress (port of `desc`) or egress copy's queue, the record it holds, the sampler. -/
structure CapJob where
  fr : Nat
  egress : Option Nat := none
  sampler : Nat := 0
  desc : Desc := {}
  tick : Nat := 0
  clock : Nat := 0
  copyIndex : Nat := 0
  copies : Nat := 0
  extra : List Nat := []
  deriving DecidableEq, Repr

/-- What has come due for the next boundary (R42): effects that commands defer to it. -/
inductive Due where
  | portUp (p : Nat)
  | portDown (p : Nat)
  | peerCapable (p v : Nat)
  | shedAnswer (p type target seq : Nat)
  | shedAgree (p target : Nat)
  | restoreNow (p : Nat)
  | wake (p : Nat)
  | noRefclk (s : Nat)
  | repair (sorus slot line : Nat)
  | leaseHeld
  | resynced
  deriving DecidableEq, Repr

/-- One write of an accepted request: object address, byte offset within an array, payload. -/
structure WriteOp where
  idx : Nat
  inst : Nat
  sub : Nat
  off : Nat := 0
  data : List Byte := []
  deriving DecidableEq, Repr

/-- An accepted write or commit group waiting for its boundary (R43): the tick its boundary opens, its members, who gets the answer. -/
structure Staged where
  tick : Nat
  ops : List WriteOp
  group : Bool := false
  entry : Nat := 0
  session : Nat := 0
  seq : Nat := 0
  op : Nat := 0
  role : Nat := 3
  deriving DecidableEq, Repr

/-- What leaves the device by a step: where to, which unit, numbers and bytes. -/
inductive OutKind where
  | frame | control | shed | response | host | msix | pin | pmbus | mat | flash
  deriving DecidableEq, Repr

/-- One thing that left the device in the last step. -/
structure Out where
  kind : OutKind
  unit : Nat := 0
  vals : List Nat := []
  bytes : List Byte := []
  deriving DecidableEq, Repr

/-- An open accumulator of the event recorder (R498): the clock it opened in, and the rank of its subsystem there (R51). -/
structure Acc where
  code : Nat
  clock : Nat := 0
  rank : Nat := 0
  inst : Nat
  first : Nat
  span : Nat := 0
  count : Nat := 1
  extreme : Int := 0
  spread : List Nat := [1, 0, 0, 0]
  detail : List Byte := []
  power : Nat := 0
  hours : Nat := 0
  secs : Nat := 0
  deriving DecidableEq, Repr

/-- A recovery (R625, R627): the fault's kind, the die and unit of its resource, its rung, whether an escalation or a queue starts it, and,
once started, the tick of its start, of its action's end and of its window's end. -/
structure Recov where
  kind : Nat
  die : Nat
  unit : Nat
  rung : Nat
  via : Nat := 0
  start : Nat := 0
  actEnd : Nat := 0
  winEnd : Nat := 0
  deriving DecidableEq, Repr

/-- A parameter set of a time view (R363, R368): offset in 2⁻⁴⁸ ns, anchor, increment, and the raw value from which it held. -/
structure ViewSet where
  view : Nat
  from_ : Nat := 0
  offset : Int := 0
  anchor : Nat := 0
  inc : Nat := 2748779069440
  deriving DecidableEq, Repr

/-- A gate control list as installed (R343, R228): entries in use, base time and cycle in ns, extension, view. -/
structure GList where
  entries : List Nat := []
  base : Nat := 0
  cycle : Nat := 1000000
  ext : Nat := 0
  view : Nat := 0
  deriving DecidableEq, Repr

/-- A list copied and waiting for its change time CT in ns (R346, R349): of a port, or of a stream gate. -/
structure GPend where
  stream : Bool
  unit : Nat
  ct : Nat
  list : GList
  deriving DecidableEq, Repr

/-- A journal record in staging (R520): a frame record or a control record, its frame number, whether it may be written yet. -/
structure JRec where
  frame : Bool
  id : Nat := 0
  ord : Nat := 0
  fin : Bool := true
  bytes : List Byte
  deriving DecidableEq, Repr

/-- A change of an exact-match entry made in the tick now open, visible from the next (R188): its words, its hit and clear-seen bits after it
(2: as they stand), and the mask bits its writes took (R469): word 0 or 1, bits. -/
structure EmChange where
  pos : Nat
  key : Nat
  result : Nat
  hit : Nat := 0
  seen : Nat := 0
  flips : List (Nat × Nat) := []
  deriving DecidableEq, Repr

/-- A learning request (R190, R191): the tick and clock of its lookup, the rank of its pipeline there, whether it asks for a move, its key, its receiving
port, the frame's RX_LENGTH. -/
structure LearnReq where
  tick : Nat
  clock : Nat := 0
  rank : Nat := 0
  move : Bool := false
  key : Nat
  port : Nat
  len : Nat
  deriving DecidableEq, Repr

/-- A table update of a mat (R428): op 1 SET, 2 DELETE, its origin and number, its key and result words. -/
structure MatUpd where
  op : Nat
  origin : Nat
  num : Nat
  key : Nat
  result : Nat
  deriving DecidableEq, Repr

/-- A lease request collected by a voter (R433): its sender and term. -/
structure MatReq where
  dev : Nat
  term : Nat
  deriving DecidableEq, Repr

/-- The latest broadcast SET of a key (R441): its record and the tick. -/
structure MatSet where
  upd : MatUpd
  tick : Nat
  deriving DecidableEq, Repr

/-- A write of a view's time that the boundary applies at step 4 (R367): 1 SET, 2 STEP, 3 INCREMENT. -/
structure ViewWrite where
  view : Nat
  kind : Nat
  value : Int
  deriving DecidableEq, Repr

/-- A delivery to the host (R586): its buffer, ring, reason; for an egress delivery the copy's queue, port, FRAME_ID, place and admission tick;
whether its last byte has arrived, and its length. -/
structure Deliv where
  handle : Nat
  ring : Nat
  reason : Nat
  egress : Bool := false
  queue : Nat := 0
  port : Nat := 0
  fid : Nat := 0
  copyIndex : Nat := 0
  copies : Nat := 0
  outcome : Nat := 0
  admitTick : Nat := 0
  whole : Bool := false
  len : Nat := 0
  desc : Desc := {}
  deriving DecidableEq, Repr

/-- A host command read and not yet completed (R583, R589): the ring, its entry of 64 bytes, its SQ index, the bytes read for it; `phase` 0 waits for a
stash, 1 under way, 2 done, 3 queued for a pipeline; its status, FREE_STATUS, length and STASHED flag once done. -/
structure HostCmd where
  ring : Nat
  entry : List Byte
  sq : Nat
  data : List Byte := []
  phase : Nat := 0
  status : Nat := 0
  freeStatus : Nat := 0
  len : Nat := 0
  stashed : Bool := false
  handle : Nat := 0
  tick : Nat := 0
  /-- The ring has been disabled: the copy ends, its completion is not written (R595, R598). -/
  mute : Bool := false
  deriving DecidableEq, Repr

/-- A frame waiting for injection (R590, R591): its port, class, bytes without FCS, buffer, ring and SQ index, destination and capture tag. -/
structure Inject where
  port : Nat
  cls : Nat
  pre : Bool
  bytes : List Byte
  handle : Nat
  ring : Nat
  sq : Nat
  dest : Option Nat := none
  tag : Option Nat := none
  deriving DecidableEq, Repr

/-- A finding of the stored-data checker that awaits its entry in the logs (R459, R463, R464): memory, die, address, bits in error (3 uncorrectable),
whether the scrubber found it, the pipeline of a word that holds an F item, for R624, and whether its finder rewrote it in the same access. -/
structure Found where
  mem : Nat
  die : Nat
  addr : Nat
  bits : Nat
  unreq : Bool := false
  pipe : Option Nat := none
  healed : Bool := false
  deriving DecidableEq, Repr

/-- A pending write-back (R460): where, the tick of its finding, and whether a flip of R469 was found there. -/
structure WBack where
  mem : Nat
  die : Nat
  addr : Nat
  tick : Nat
  own : Bool := false
  deriving DecidableEq, Repr

/-- A word whose stored code has one or two bits flipped (R469). -/
structure Flipped where
  mem : Nat
  die : Nat
  addr : Nat
  bits : Nat
  deriving DecidableEq, Repr

/-- A counter dump under way (R480 to R483): its number, the tick its boundary opened, its target, slot and base, the view time of that boundary
in 2⁻¹⁶ ns, the snapshot's words that are not zero (word, value), and the words written as all ones. -/
structure Dump where
  seq : Nat
  tick : Nat
  host : Bool
  slot : Nat
  base : Nat
  time : Nat
  words : Store := []
  poisoned : Nat := 0
  deriving DecidableEq, Repr

/-- The record of an answer (R563): the operation, its flags, status, object and numbers, its value; `wait` is the number of the write or group it waits for
plus one (R572). -/
structure OpRec where
  op : Nat
  flags : Nat := 0
  status : Nat := 0
  idx : Nat := 0
  inst : Nat := 0
  sub : Nat := 0
  handle : Nat := 0
  off : Nat := 0
  total : Nat := 0
  tick : Nat := 0
  value : List Byte := []
  wait : Nat := 0
  deriving DecidableEq, Repr

/-- A request accepted and not yet answered (R561, R572). -/
structure Pend where
  seq : Nat
  recs : List OpRec
  deriving DecidableEq, Repr

/-- A segmented write under way (R570). -/
structure Seg where
  idx : Nat
  inst : Nat
  sub : Nat
  total : Nat
  data : List Byte := []
  deriving DecidableEq, Repr

/-- A snapshot (R569): its handle, bytes, and the tick of its latest reading. -/
structure Snap where
  handle : Nat
  bytes : List Byte
  tick : Nat
  deriving DecidableEq, Repr

/-- A session slot in use (R558, R561, R562): the SESSION number, role and key, its entry (0 window, 1 and 2 the management ports, 3 + p in-band on port p) and source, whether
OPENED, the tick of its latest accepted message, the size of its responses; the last SEQ, requests outstanding, the last responses sent; its open group with its
failed mark, a partial segmented write, its snapshots; `via` the headers an in-band answer goes back by (R574). -/
structure Sess where
  num : Nat
  role : Nat
  key : List Byte
  entry : Nat
  source : Nat
  opened : Bool := false
  since : Nat := 0
  most : Nat := 8960
  seq : Nat := 0
  pends : List Pend := []
  sent : List (Nat × List Byte) := []
  group : Option (List WriteOp × Bool) := none
  seg : Option Seg := none
  snaps : List Snap := []
  via : List Byte × List (Nat × Nat) := ([], [])
  deriving DecidableEq, Repr

/-- A checkpoint (R521, R522): the state the first clock of the start tick met. `free` is the free value that stands for its internal regions. -/
structure Ckpt where
  tick : Nat
  raw : Nat
  len : Nat
  clean : Bool
  level : Nat := 1
  free : Nat := 0
  objs : Store := []
  poison : List Nat := []
  em : Store := []
  tree : Store := []
  views : List ViewSet := []
  gpend : List GPend := []
  sgate : List (Nat × GList) := []
  sgateOld : List (Nat × Nat × GList) := []
  emPoison : List Nat := []
  deriving DecidableEq, Repr

/-- What the clock now open has seen. `turn` is the rank from which an ingress pipeline may still take a packet (R25, R50, R51); `pool` the pool and contender of
each allocation; `entry` the highest place of an entry whose request was accepted (R33); `sent` the egress pipelines that took a packet, each with
its port (R25); `ended` the port and path of each copy whose last byte the MAC took (R322); `freed` cells not free before the next clock (R250, R280); `gone` the pool and index of each buffer freed
or adopted (R309); `bufOps` the handle and requester of each operation on a buffer (R310); `pages` the queue and number of each page a spilled cell left (R283); `asks` the exact-match lookups made: rank, pipeline, bucket (R51, R184); `hits` the positions hit whose hit
bit was 0 (R198); `was` and what follows the objects and the lists that reads report, as the clock found them (R16). -/
structure Instant where
  turn : Nat := 0
  pool : List (Nat × Nat) := []
  entry : Nat := 0
  resets : List Nat := []
  faults : List (Nat × Nat × Nat) := []
  sent : List (Nat × Nat) := []
  ended : List (Nat × Nat) := []
  freed : Nat := 0
  gone : List (Nat × Nat) := []
  bufOps : List (Nat × Nat) := []
  caps : List (List Byte) := []
  upds : List (Nat × MatUpd) := []
  names : List CapJob := []
  jrecs : List JRec := []
  pages : List (Nat × Nat) := []
  asks : List (Nat × Nat × Nat) := []
  hits : List Nat := []
  was : Store := []
  frames : List FrameRec := []
  copies : List Copy := []
  tx : List TxCopy := []
  bufs : List Buf := []
  jobs : List CapJob := []
  em : Store := []
  views : List ViewSet := []
  recQ : List (List Byte) := []
  backlog : List Deliv := []
  sess : List Sess := []
  deriving DecidableEq, Repr

/-- The device. `sgate` holds the list in force of each stream gate, `sgateOld` its latest change time and the list before (R228, R349); `plan` names the record of each refill read planned and not issued, in order; `flight` the record of each read issued and the clock at
which its cell is placed (R281); `ctl` the frames of the MACs that wait to leave. -/
structure Dev where
  objs : Store := []
  now : Instant := {}
  freeCtr : Nat := 0
  rx : List RxFrame := []
  frames : List FrameRec := []
  nextRec : Nat := 0
  copies : List Copy := []
  tx : List TxCopy := []
  ctl : List Out := []
  bufs : List Buf := []
  jobs : List CapJob := []
  plan : List Nat := []
  flight : List (Nat × Nat) := []
  dues : List Due := []
  staged : List Staged := []
  lfsr : List (Nat × Nat) := []
  tree : Store := []
  treePoison : List (Nat × Nat × Nat) := []
  poison : List Nat := []
  emPoison : List Nat := []
  emPend : List EmChange := []
  emStaged : List Nat := []
  emReads : List (Nat × Nat) := []
  learn : List LearnReq := []
  views : List ViewSet := []
  gpend : List GPend := []
  sgate : List (Nat × GList) := []
  sgateOld : List (Nat × Nat × GList) := []
  accs : List Acc := []
  recQ : List (List Byte) := []
  mram : List (List Byte) := []
  flt : List Recov := []
  fltDue : List Recov := []
  fltQ : List Recov := []
  isoDue : Option (Nat × Nat) := none
  jstage : List JRec := []
  jtab : List (Nat × List Byte) := []
  capFifo : List (List Byte) := []
  em : Store := []
  hbmPoison : List Nat := []
  matReqs : List MatReq := []
  matApply : List MatUpd := []
  matOwn : List MatUpd := []
  matShadow : List MatUpd := []
  matSets : List MatSet := []
  viewWrites : List ViewWrite := []
  deliv : List Deliv := []
  backlog : List Deliv := []
  hcmds : List HostCmd := []
  inject : List Inject := []
  tio : List (Nat × List Nat) := []
  mgmtIn : List (Nat × List Byte × List (Nat × Nat)) := []
  out : List Out := []
  found : List Found := []
  wb : List WBack := []
  flipped : List Flipped := []
  flipUsed : Bool := false
  dictPoison : List Nat := []
  dump : Option Dump := none
  sess : List Sess := []
  fails : List (Nat × Nat × Nat) := []
  windowQ : List (List Byte) := []
  windowResp : List Byte := []
  ckpt : Option Ckpt := none
  mgmtVia : Option (List Byte × List (Nat × Nat)) := none
  deriving DecidableEq, Repr

end Sys2Proof.Machine
end

