-- ==== Sys2Proof/Machine/Ops.lean ====
section
/-! DEFINITION. The shared operations over the device: reading and writing objects, counters, waiting effects, free values, and how many
bytes of a frame have arrived. -/
namespace Sys2Proof.Machine

/-- Element e of instance i of an object. -/
def Dev.get (d : Dev) (o : Obj) (i : Nat) (e : Nat := 0) : Int := d.objs.rd o i e

/-- The same as a number. -/
def Dev.n (d : Dev) (o : Obj) (i : Nat) (e : Nat := 0) : Nat := (d.get o i e).toNat

/-- The same as a flag. -/
def Dev.on (d : Dev) (o : Obj) (i : Nat) (e : Nat := 0) : Bool := d.n o i e != 0

/-- Element e of instance i becomes v. -/
def Dev.set (d : Dev) (o : Obj) (i : Nat) (v : Int) (e : Nat := 0) : Dev := { d with objs := d.objs.wr o i e v }

/-- Element e of instance i becomes the number v. -/
def Dev.put (d : Dev) (o : Obj) (i v : Nat) (e : Nat := 0) : Dev := d.set o i (v : Int) e

/-- The largest value a counter of a type holds before it saturates. -/
def ObjTy.top (t : ObjTy) : Nat :=
  match t with
  | .bool => 1 | .u8 => 2 ^ 8 - 1 | .u16 => 2 ^ 16 - 1 | .u32 => 2 ^ 32 - 1 | .u64 => 2 ^ 64 - 1 | .s32 => 2 ^ 31 - 1
  | .s64 => 2 ^ 63 - 1 | .enum8 => 2 ^ 8 - 1 | .time80 => 2 ^ 80 - 1 | .blob => 255 | .str => 255 | .wide => 2 ^ 64 - 1

/-- What an instant keeps of the device as it stands. -/
def Dev.noted (d : Dev) (i : Instant) : Instant :=
  { i with was := d.objs, frames := d.frames, copies := d.copies, tx := d.tx, bufs := d.bufs, jobs := d.jobs, em := d.em, views := d.views
           recQ := d.recQ, backlog := d.backlog, sess := d.sess }

/-- A clock opens. -/
def Dev.renew (d : Dev) : Dev := { d with now := d.noted {} }

/-- What a boundary's write leaves is what reads of its first clock find (R16, R42). -/
def Dev.atOpen (d : Dev) : Dev := { d with now := d.noted d.now }

/-- A tick opens; the resets of its boundary stand noted, for those that would cover them (R602). -/
def Dev.tickOpen (d : Dev) : Dev := { d with now := d.noted { resets := d.now.resets } }

/-- The device as the clock now open found it (R16). -/
def Dev.past (d : Dev) : Dev :=
  let i := d.now
  { d with now := {}, objs := i.was, frames := i.frames, copies := i.copies, tx := i.tx, bufs := i.bufs, jobs := i.jobs, em := i.em
           views := i.views, recQ := i.recQ, backlog := i.backlog, sess := i.sess }

/-- Count by n, saturating at the type's largest value. -/
def Dev.bump (d : Dev) (o : Obj) (i : Nat) (n : Nat := 1) (e : Nat := 0) : Dev :=
  d.put o i (satAdd o.ty.top (d.n o i e) n) e

/-- Add to a 48-bit count whose wrap sets bit 63 and stays set (R118, R478). -/
def wrap48 (v n : Nat) : Nat :=
  let c := v % 2 ^ 48 + n
  (if bit v 63 || decide (2 ^ 48 ≤ c) then 2 ^ 63 else 0) + c % 2 ^ 48

/-- The number of the next free value; the counter advances. -/
def Dev.fresh (d : Dev) : Nat × Dev := (Config.freeNat d.freeCtr, { d with freeCtr := d.freeCtr + 1 })

/-- Set an object to a value the spec leaves open (masked to its type by the store). -/
def Dev.setFree (d : Dev) (o : Obj) (i : Nat) (e : Nat := 0) : Dev :=
  { d with objs := d.objs.wr o i e (Config.freeNat d.freeCtr), freeCtr := d.freeCtr + 1 }

/-- The objects held in the counter store, by index and sub (R477): every object of 48-bit counts but PARSE.MALFORMED_REASONS. -/
def heldCounters : List Obj :=
  let ins := fun (l : List Obj) (o : Obj) => (l.filter fun x => decide (x.key 0 0 < o.key 0 0)) ++ [o] ++ l.filter fun x => decide (o.key 0 0 < x.key 0 0)
  (Od.all.filter fun o => o.ctr && o.idx != 0x3000).foldl ins []

/-- Pairs an instance of a held object takes (R477). -/
def Obj.pairs (o : Obj) : Nat := (o.count + 1) / 2

/-- The regions of the counter store: each object with its first pair (R477). -/
def ctrRegions : List (Obj × Nat) :=
  (heldCounters.foldl (fun (r : List (Obj × Nat) × Nat) o => (r.1 ++ [(o, r.2)], (r.2 + (o.insts + 1) * o.pairs + 63) / 64 * 64)) ([], 0)).1

/-- The word of the counter store that holds element e of instance i of an object (R454, R477). -/
def ctrWord (o : Obj) (i e : Nat) : Option Nat :=
  (ctrRegions.find? fun r => r.1.idx == o.idx && r.1.sub == o.sub).map fun r => 2 * (r.2 + i * o.pairs + e / 2) + e % 2

/-- Bits set in a number of at most 64 bits. -/
def popcount (v : Nat) : Nat := ((List.range 64).filter fun i => bit v i).length

/-- A consumer writes a word (R469): an armed flip of that word is spent. The answer is how many bits of its code the word then has in error: 0 none, 3
for a mask that surely leaves it uncorrectable; a double-bit mask that lands beside the poison codeword counts as that (R453). -/
def Dev.flip (mem die addr data : Nat) (d : Dev) : Nat × Dev :=
  let t := d.n Od.INTEG_FLIP_TARGET 0
  if d.on Od.INTEG_FLIP_ARM 0 && bits t 55 48 == mem && bits t 47 44 == die && (bits t 35 0 == addr || bits t 35 0 == 2 ^ 36 - 1) then
    let lo := d.n Od.INTEG_FLIP_MASK 0 0
    let hi := d.n Od.INTEG_FLIP_MASK 0 1
    let n := popcount lo + popcount hi
    (if n = 2 ∧ data = 0 ∧ lo = 0 ∧ hi < 8 then 3 else n, { d.put Od.INTEG_FLIP_ARM 0 0 with flipUsed := true })
  else (0, d)

/-- The flipped words of a memory from an address on are read (R459): each is a finding. -/
def Dev.readFlips (mem die lo n : Nat) (d : Dev) : Dev :=
  if d.flipped.isEmpty then d
  else
    let l := d.flipped.filter fun f => f.mem == mem && f.die == die && decide (lo ≤ f.addr ∧ f.addr < lo + n)
    { d with found := d.found ++ l.map fun f => ({ mem := mem, die := die, addr := f.addr, bits := f.bits } : Found) }

/-- A word is whole again: written over or written back. -/
def Dev.unflip (mem die addr : Nat) (d : Dev) : Dev :=
  { d with flipped := d.flipped.filter fun f => !(f.mem == mem && f.die == die && f.addr == addr) }

/-- The word that holds an element takes the mask bits of R469: 1 or 2 leave it correctable, 3 poison it, more leave the outcome open. -/
def Dev.flipElem (mem die addr bits : Nat) (o : Obj) (i e : Nat) (d : Dev) : Dev :=
  let bad := fun (d : Dev) => ({ d with poison := d.poison ++ [o.key i e] } : Dev)
  if bits = 0 then d
  else if bits ≤ 2 then { d with flipped := d.flipped ++ [{ mem := mem, die := die, addr := addr, bits := bits }] }
  else if bits = 3 then bad d
  else let r := d.fresh; if r.1 % 2 = 1 then bad r.2 else r.2.setFree o i e

/-- A write by a consumer of a word whose address the spec does not give: only a flip of any word of its memory meets it (R469). -/
def Dev.flipAny (mem die : Nat) (o : Obj) (i e : Nat) (d : Dev) : Dev :=
  let r := d.flip mem die (2 ^ 36 - 1) (d.n o i e)
  if r.1 < 3 then r.2 else r.2.flipElem mem die 0 r.1 o i e

/-- A write of a counter word by a consumer meets an armed flip (R469). -/
def Dev.flipCounter (o : Obj) (i e : Nat) (d : Dev) : Dev :=
  if d.on Od.INTEG_FLIP_ARM 0 then
    match ctrWord o i e with
    | some a => let r := d.flip 4 8 a (d.n o i e); r.2.flipElem 4 8 a r.1 o i e
    | none => d
  else d

/-- Count in element e of an array of 48-bit counts; a poisoned count restarts with its wrap bit set (R456), a flipped one is corrected (R476). -/
def Dev.bump48 (d : Dev) (o : Obj) (i e : Nat) (n : Nat := 1) : Dev :=
  match ctrWord o i e with
  | none => d.put o i (wrap48 (d.n o i e) n) e
  | some a =>
  let d : Dev :=
    if d.poison.contains (o.key i e) then
      let f : Found := { mem := 4, die := 8, addr := a, bits := 3 }
      let d : Dev := { d with poison := d.poison.filter (· != o.key i e), found := d.found ++ [f] }
      (d.put o i (2 ^ 63 + n % 2 ^ 48) e).bump Od.INTEG_COUNTER_RESTARTS 0
    else
      let own := d.flipped.filter fun f => f.mem == 4 && f.die == 8 && f.addr == a
      let d : Dev := if own.isEmpty then d
        else ({ d with found := d.found ++ own.map fun f => ({ mem := 4, die := 8, addr := a, bits := f.bits, healed := true } : Found) } : Dev).unflip 4 8 a
      d.put o i (wrap48 (d.n o i e) n) e
  d.flipCounter o i e

/-- Count a frame of n bytes in a counter pair (R118). -/
def Dev.pair (d : Dev) (o : Obj) (i n : Nat) : Dev := (d.bump48 o i 0).bump48 o i 1 n

/-- The device is idle (R620). -/
def Dev.idle (d : Dev) : Bool := d.n Od.POWER_STATE 0 == 1

/-- A sorus runs: it is not in reset, parked or waking (R605, R618, R619). -/
def Dev.sorusRuns (d : Dev) (s : Nat) : Bool := d.n Od.POWER_SORUS_STATE s == 0

/-- Do f when c holds. -/
def Dev.when (d : Dev) (c : Bool) (f : Dev → Dev) : Dev := if c then f d else d

/-- Let f act in turn for each element of a list. -/
def Dev.each {α : Type} (d : Dev) (l : List α) (f : Dev → α → Dev) : Dev := l.foldl f d

/-- Something left the device. -/
def Dev.emit (d : Dev) (x : Out) : Dev := { d with out := d.out ++ [x] }

/-- An accepted write or group takes its place among those staged: boundary by boundary, and for one boundary in the order of acceptance (R33, R43). -/
def Dev.stage (s : Staged) (d : Dev) : Dev :=
  { d with staged := (d.staged.filter fun x => decide (x.tick ≤ s.tick)) ++ [s] ++ d.staged.filter fun x => decide (s.tick < x.tick) }

/-- An effect waits for the next boundary; one already waiting is not listed twice. -/
def Dev.later (d : Dev) (x : Due) : Dev := if d.dues.contains x then d else { d with dues := d.dues ++ [x] }

/-- The instances of an object that have an element away from its default, rising. -/
def Store.instsOf (st : Store) (o : Obj) : List Nat :=
  ((st.filter fun x => keyObj x.1 == o.idx * 256 + o.sub).map fun x => x.1 / 65536 % 65536).dedup

/-- The same of the device. -/
def Dev.insts (d : Dev) (o : Obj) : List Nat := d.objs.instsOf o

/-- Return every element of one instance of an object to its default. -/
def Dev.clearInst (d : Dev) (o : Obj) (i : Nat) : Dev :=
  { d with objs := d.objs.filter fun x => !(x.1 / 65536 == (o.idx * 256 + o.sub) * 65536 + i) }

/-- Return every instance of an object to its default. -/
def Dev.clearObj (d : Dev) (o : Obj) : Dev :=
  { d with objs := d.objs.filter fun x => !(keyObj x.1 == o.idx * 256 + o.sub) }

/-- All elements of instance i of an object of n elements. -/
def Dev.elems (d : Dev) (o : Obj) (i n : Nat) : List Nat := (List.range n).map fun e => d.n o i e

/-- The bytes of a BLOB or STR. -/
def Dev.blob (d : Dev) (o : Obj) (i : Nat) : List Byte := (List.range (d.n o i lenElem)).map fun e => BitVec.ofNat 8 (d.n o i e)

/-- A BLOB or STR becomes a byte string. -/
def Dev.setBlob (d : Dev) (o : Obj) (i : Nat) (bs : List Byte) : Dev :=
  (bs.zipIdx.foldl (fun d x => d.set o i x.1.toNat x.2) (d.clearInst o i)).set o i bs.length lenElem

/-- Some word that holds an object of an instance carries poison (R456, R457): words are listed under their keys. -/
def Dev.poisoned (d : Dev) (o : Obj) (i : Nat) : Bool := d.poison.any fun k => k / 65536 == (o.idx * 256 + o.sub) * 65536 + i

/-- The words of an object of an instance are whole again. -/
def Dev.heal (d : Dev) (o : Obj) (i : Nat) : Dev := { d with poison := d.poison.filter fun k => !(k / 65536 == (o.idx * 256 + o.sub) * 65536 + i) }

/-- Clocks since the raw counter's start, at the current clock (R361: 64 units a clock). -/
def Clk.clock (k : Clk) : Nat := k.raw / 64 + k.c

/-- The raw counter now (72 bits, R361). -/
def Clk.now (k : Clk) : Nat := (k.raw + 64 * k.c) % 2 ^ 72

/-- An element takes its place in a list in order. -/
def insertBy {α : Type} (le : α → α → Bool) (a : α) : List α → List α
  | [] => [a]
  | b :: t => if le a b then a :: b :: t else b :: insertBy le a t

/-- A list in order; of elements that compare alike the earlier stays ahead. -/
def sortBy {α : Type} (le : α → α → Bool) (l : List α) : List α := l.foldr (insertBy le) []

/-- The rank of contender c of n in this tick (R50). -/
def rotation (k : Clk) (c n : Nat) : Nat := (c + (n - k.tick % n)) % n

/-- A hidden register: state of the device that is no object. The kept-across code stands in its index. -/
def rg (code n : Nat) (insts : Nat := 0) (dflt : Int := 0) : Obj :=
  { idx := 0x10000 + code * 0x1000 + n, sub := 0, ty := .wide, acc := .ro,
    kept := (match code with | 1 => .n | 2 => .p | 3 => .c | 4 => .w | 5 => .s | 6 => .f | _ => .none), dflt := [dflt], insts := insts }

end Sys2Proof.Machine
end

