-- ==== Sys2Proof/Machine/Check.lean ====
section
/-! DEFINITION. Check values: the CRC-32 of IEEE 802.3 (R94, R164), the CRC-16 of R114, and SHA-256 with HMAC for the session tags. -/
namespace Sys2Proof.Machine

/-- One bit step of the reflected CRC-32. -/
def crc32Bit (c : Nat) : Nat := if c % 2 = 1 then c / 2 ^^^ 0xEDB88320 else c / 2

/-- One byte of the CRC-32. -/
def crc32Byte (c : Nat) (b : Byte) : Nat :=
  crc32Bit (crc32Bit (crc32Bit (crc32Bit (crc32Bit (crc32Bit (crc32Bit (crc32Bit (c ^^^ b.toNat))))))))

/-- CRC-32 of IEEE 802.3 over a byte string (R164). -/
def crc32 (bs : List Byte) : Nat := bs.foldl crc32Byte 0xFFFFFFFF ^^^ 0xFFFFFFFF

/-- One bit step of the CRC-16 of R114. -/
def crc16Bit (c : Nat) : Nat := if 0x8000 ≤ c then (c * 2 ^^^ 0x1021) % 0x10000 else c * 2

/-- One byte of the CRC-16. -/
def crc16Byte (c : Nat) (b : Byte) : Nat :=
  crc16Bit (crc16Bit (crc16Bit (crc16Bit (crc16Bit (crc16Bit (crc16Bit (crc16Bit (c ^^^ (b.toNat * 256)))))))))

/-- CRC-16, polynomial 0x1021, initial 0xFFFF, most significant bit first (R114). -/
def crc16 (bs : List Byte) : Nat := bs.foldl crc16Byte 0xFFFF

/-- The four FCS bytes of a frame, as sent: least significant byte first. -/
def fcsBytes (bs : List Byte) : List Byte := bytesLE 4 (crc32 bs)

/-- The stomped FCS of R94. -/
def stompBytes (bs : List Byte) : List Byte := bytesLE 4 (crc32 bs ^^^ 0xFFFFFFFF)

/-- The exclusive or of a word turned right by three distances; the third turn is a shift where `out` holds. -/
def turns (out : Bool) (i j l x : Nat) : Nat :=
  let turn := fun n => x / 2 ^ n + x % 2 ^ n * 2 ^ (32 - n)
  turn i ^^^ turn j ^^^ (if out then x / 2 ^ l else turn l)

/-- The 64 round constants of SHA-256 (FIPS 180-4), the first in the highest place: rows of eight. -/
def roundConstants : Nat :=
  [0x428A2F9871374491B5C0FBCFE9B5DBA53956C25B59F111F1923F82A4AB1C5ED5,
   0xD807AA9812835B01243185BE550C7DC372BE5D7480DEB1FE9BDC06A7C19BF174,
   0xE49B69C1EFBE47860FC19DC6240CA1CC2DE92C6F4A7484AA5CB0A9DC76F988DA,
   0x983E5152A831C66DB00327C8BF597FC7C6E00BF3D5A7914706CA635114292967,
   0x27B70A852E1B21384D2C6DFC53380D13650A7354766A0ABB81C2C92E92722C85,
   0xA2BFE8A1A81A664BC24B8B70C76C51A3D192E819D6990624F40E3585106AA070,
   0x19A4C1161E376C082748774C34B0BCB5391C0CB34ED8AA4A5B9CCA4F682E6FF3,
   0x748F82EE78A5636F84C878148CC7020890BEFFFAA4506CEBBEF9A3F7C67178F2].foldl (fun n row => n * 2 ^ 256 + row) 0

/-- The working words before the first block, the first in the highest place. -/
def startWords : Nat := 0x6A09E667BB67AE853C6EF372A54FF53A510E527F9B05688C1F83D9AB5BE0CD19

/-- Words of 32 bits of a number, n of them, the highest first. -/
def unpack32 : Nat → Nat → List Nat
  | 0, _ => []
  | n + 1, x => unpack32 n (x / 2 ^ 32) ++ [x % 2 ^ 32]

/-- A round: the eight working words take one word of the message and one constant; the window of sixteen message words moves on by one. -/
def digestRound : List Nat × List Nat → Nat → List Nat × List Nat
  | ([p, q, r, s, t, u, v, w], m :: ms), constant =>
    let choose := (t &&& u) + ((2 ^ 32 - 1 - t) &&& v)
    let most := (p &&& (q ||| r)) ||| (q &&& r)
    let sum := w + turns false 6 11 25 t + choose + constant + m
    let next := m + turns true 7 18 3 (ms.headD 0) + ms.getD 8 0 + turns true 17 19 10 (ms.getD 13 0)
    ([(sum + turns false 2 13 22 p + most) % 2 ^ 32, p, q, r, (s + sum) % 2 ^ 32, t, u, v], ms ++ [next % 2 ^ 32])
  | st, _ => st

/-- One block of 64 bytes taken into the digest. -/
def digestBlock (h : List Nat) (block : List Byte) : List Nat :=
  let st := (unpack32 64 roundConstants).foldl digestRound (h, unpack32 16 (ofBytesBE block))
  (h.zip st.1).map fun x => (x.1 + x.2) % 2 ^ 32

/-- Blocks one after another. -/
def digestBlocks : Nat → List Byte → List Nat → List Nat
  | 0, _, h => h
  | n + 1, bs, h => digestBlocks n (bs.drop 64) (digestBlock h (bs.take 64))

/-- SHA-256: the message, a bit 1, zeros and its length in bits, to whole blocks. -/
def sha256 (m : List Byte) : List Byte :=
  let zeros := (119 - m.length % 64) % 64
  let p := m ++ 0x80#8 :: (List.replicate zeros 0 ++ bytesBE 8 (8 * m.length))
  (digestBlocks (p.length / 64) p (unpack32 8 startWords)).flatMap (bytesBE 4)

/-- HMAC-SHA-256 (RFC 2104). -/
def hmac (key m : List Byte) : List Byte :=
  let short := if key.length ≤ 64 then key else sha256 key
  let pad := fun (x : Byte) => (List.range 64).map fun i => short.getD i 0 ^^^ x
  sha256 (pad 0x5C ++ sha256 (pad 0x36 ++ m))

end Sys2Proof.Machine
end

