-- ==== Sys2Proof/Machine/Rg.lean ====
section
/-! DEFINITION. Hidden registers: scalar state the spec gives the device that is no object of its dictionary. The first argument of `rg` is the
kept-across code of R17 (1 N, 2 P, 3 C, 4 W, 5 S, 6 F). A tick register holds the tick plus one, 0 for none. -/
namespace Sys2Proof.Machine.Rg

/-- Tick of the last record written to MRAM, plus one (R502). -/
def REC_LAST : Obj := rg 2 0
/-- Tick at which a clear of the event store began, plus one (R504). -/
def REC_CLEARING : Obj := rg 2 1
/-- Start tick of the STREAM_EXTREME window, plus one, and the records admitted in it (R500). -/
def SX_START : Obj := rg 3 2
def SX_COUNT : Obj := rg 3 3
/-- Origin tick of a port's bring-up, plus one (R69). -/
def UP_ORIGIN : Obj := rg 4 4 1023
/-- Steps of bring-up a port has made: 1 signal, 2 auto-negotiation, 4 training, 8 PCS lock (R678). -/
def UP_STEPS : Obj := rg 4 5 1023
/-- Tick a port fell to DOWN under R70, plus one: it restarts after 1 ms. -/
def DOWN_TICK : Obj := rg 4 6 1023
/-- BASE-R resolved by auto-negotiation (R63). -/
def AN_FEC : Obj := rg 4 7 1023
/-- Consecutive uncorrectable codewords of a port (R70). -/
def BAD_CODEWORDS : Obj := rg 4 8 1023
/-- Consecutive comparisons within tolerance of a sorus's reference (R60), and whether it is in fault. -/
def REF_GOOD : Obj := rg 4 9 7
def REF_FAULT : Obj := rg 4 10 7
/-- Tick of the last HELLO sent, of the last HELLO accepted, plus one (R76). -/
def HELLO_SENT : Obj := rg 4 11 1023
def HELLO_SEEN : Obj := rg 4 12 1023
/-- Start tick of the shed and restore windows (R77); bits received and sent in each. -/
def SHED_START : Obj := rg 4 13 1023
def RESTORE_START : Obj := rg 4 14 1023
def SHED_RX : Obj := rg 4 15 1023
def SHED_TX : Obj := rg 4 16 1023
def RESTORE_RX : Obj := rg 4 17 1023
def RESTORE_TX : Obj := rg 4 18 1023
/-- Bits sent in the latest complete restore window (R80). -/
def LAST_TX : Obj := rg 4 19 1023
/-- The request outstanding: type of R74 (0 none), target, sequence, tick sent, times sent (R80). -/
def REQ_TYPE : Obj := rg 4 20 1023
def REQ_TARGET : Obj := rg 4 21 1023
def REQ_SEQ : Obj := rg 4 22 1023
def REQ_TICK : Obj := rg 4 23 1023
def REQ_TRIES : Obj := rg 4 24 1023
/-- Tick before which no shed is asked for (R80, R85). -/
def SHED_AFTER : Obj := rg 4 25 1023
/-- Changeover: 0 none, 1 agreed, 2 waking, 3 holding; its target and the tick the phase began (R81, R82). -/
def CHG_PHASE : Obj := rg 4 26 1023
def CHG_TARGET : Obj := rg 4 27 1023
def CHG_TICK : Obj := rg 4 28 1023
/-- Lanes the receiver of a port runs on (R81), 0 as the transmitter. -/
def RX_LANES : Obj := rg 4 29 1023
/-- Tick a port's hold began (R293). -/
def HOLD_START : Obj := rg 4 30 1023
/-- Flow control: classes asserted (bits), tick of the last request, expiry clock of each class's hold timer (R105, R109). -/
def ASSERTED : Obj := rg 4 31 1023
def FLOW_LAST : Obj := rg 4 32 1023
def PAUSE_UNTIL : Obj := rg 4 33 1023
/-- Verification: attempts made, tick of the last (R110). -/
def VERIFY_TRIES : Obj := rg 4 34 1023
def VERIFY_TICK : Obj := rg 4 35 1023
/-- Credit: latest grant G and cells debited U of each class (R285), tick of the last credit frame sent (R288). -/
def CREDIT_G : Obj := rg 4 36 1023
def CREDIT_U : Obj := rg 4 37 1023
def CREDIT_SENT : Obj := rg 4 38 1023
/-- Waiting for credit: tick since which the head copy of a queue waits, plus one (R290). -/
def CREDIT_WAIT : Obj := rg 4 39 16383
/-- Generation of a pool's buffer index: instance is the pool × 8 + index div 32768, element index mod 32768 (R306). -/
def POOL_GEN : Obj := rg 4 40 31
/-- Spill-out budget drawn this tick and the tick of the last SPILL_AREA_FULL (R279). -/
def SPILL_DRAWN : Obj := rg 4 41
def SPILL_FULL_TICK : Obj := rg 4 42
/-- The place after the latest spilled cell of a queue, page × 8 + place in the page (0 none), and the pages opened so far (R277). -/
def SPILL_OPEN : Obj := rg 4 184 16383
def SPILL_PAGE : Obj := rg 4 185
/-- A recovery function's reset timer plus one, 1 once it has fallen to 0 and is still to act; 0 none (R234). -/
def FRER_TIMER : Obj := rg 4 43 65535
/-- Consecutive transfers that passed their CRC on a sorus link since its last failure (R27). -/
def LINK_PASSES : Obj := rg 4 44 7
/-- Successive failures of the transfer under way on a sorus link (R27). -/
def LINK_FAILS : Obj := rg 4 45 7
/-- Deviation of a sorus reference at its latest fault, ppm (R60). -/
def REF_PPM : Obj := rg 4 50 7
/-- A port was woken by a pattern and waits for its restore to end (R86). -/
def WAKING : Obj := rg 4 46 1023
/-- Lane whose stored adaptation is being restarted after a guard crossing (R72): below the guard. -/
def BELOW_GUARD : Obj := rg 4 47 1023
/-- Pool-manager cell accesses and HBM bytes used in the tick now open (R313). -/
def XFER_USED : Obj := rg 4 48
def XFER_HBM : Obj := rg 4 49
/-- Cells that host DMA read or wrote in the tick now open (R46, R313). -/
def DMA_USED : Obj := rg 4 187

/-- The clock from which a sorus's recirculation port is free again (R265). -/
def RECIRC_FREE : Obj := rg 4 186 7
/-- Maintenance mode: 1 by a replay, 2 by AGE.REPLACE.MAINTAIN (R525, R674). -/
def MAINT : Obj := rg 4 51
/-- The replay's tick length and the raw value its tick opened at (R526). -/
def REPLAY_LEN : Obj := rg 4 52 0 800
def REPLAY_RAW : Obj := rg 4 53
/-- Clocks of a pipeline's ingress half already accounted in the tick now open (R485). -/
def SLOT_USED : Obj := rg 4 54 63
/-- Pipeline holds: clocks left by a flush, by an epoch stall and by a pulse, as the clock each ends (R485, R539, R542, R606). -/
def HOLD_FLUSH : Obj := rg 4 55 63
def HOLD_STALL : Obj := rg 4 56 63
def HOLD_PULSE : Obj := rg 4 57 63
/-- The clock up to which a pipeline stands waiting for an exact-match bank (R184, R485). -/
def HOLD_BANK : Obj := rg 4 169 63
/-- The clock at which a pulse on a port ends (R539). -/
def PORT_PULSE : Obj := rg 4 58 1023
/-- Bits of a port's window of CTR.PORT.WINDOW: frames and bytes received and sent, capacity in bits (R487). -/
def WIN : Obj := rg 4 59 1023
/-- Journal: next frame number, bytes of budget carried, first occurrence of each event code since its start plus one, bytes of the checkpoint copied (R515,
R520, R521, R524). -/
def J_FRAME : Obj := rg 3 60
def J_CARRY : Obj := rg 3 61
def J_TRIGGER : Obj := rg 3 62 65535
def J_COPIED : Obj := rg 3 63
/-- What the journal last recorded of a port's link: state × 16 + lanes + 1 (R517). -/
def J_LINK : Obj := rg 3 64 1023
/-- Usage bits of meters and stream indexes: bit 0 J, bit 1 O (R523). -/
def USE_METER : Obj := rg 3 65 65535
def USE_STREAM : Obj := rg 3 66 65535
/-- Frame records ended with a loss, for END (R518). -/
def J_LOST : Obj := rg 3 67
/-- Stream watch: previous arrival and previous sequence number, plus one each (R406, R407); results of the report period now open (R409). -/
def W_PREV : Obj := rg 3 68 65535
def W_SEQ : Obj := rg 3 69 65535
def W_PERIOD : Obj := rg 3 70 65535
/-- References (R372 to R375): tick after the latest measurement, tick after the latest vote, a reference-B edge waiting for its label: its
raw value plus one and its view time. -/
def VOTE_NEW : Obj := rg 4 71
def VOTE_TICK : Obj := rg 4 72
def EDGE_RAW : Obj := rg 4 73
def EDGE_VIEW : Obj := rg 4 74
/-- Raw value plus one of the latest stamped edge of a pin (R382). -/
def TIO_LAST : Obj := rg 4 75 7
/-- The sub-nanosecond part captured by the latest read of TIME.VIEW.NOW, plus one (R385). -/
def NOW_SUB : Obj := rg 4 76 3
/-- Mats: the device's message SEQ and the latest SEQ accepted from each sender (R427). -/
def MAT_SEQ : Obj := rg 1 77
def MAT_SEQ_IN : Obj := rg 1 78 8
/-- Tick plus one of the latest heartbeat of a device by trunk, management network and relay (R430); what the latest one said: state, holder,
ticks left, trunk mask, term (R428); whether the split from it was reported (R426). -/
def MAT_HEARD : Obj := rg 4 79 7
def MAT_SAID : Obj := rg 4 80 7
def MAT_SPLIT_SEEN : Obj := rg 4 81 7
/-- Tick plus one of the last heartbeat, renewal, time request and signature sent (R429, R434, R444, R445). -/
def HB_SENT : Obj := rg 4 82
def RENEW_SENT : Obj := rg 4 83
def TIME_SENT : Obj := rg 4 84
def SIG_SENT : Obj := rg 4 85
/-- A voter's record (R432): term last granted, grantee plus one, end; whether the grantee was heard as master of it (R633). -/
def V_TERM : Obj := rg 4 86
def V_GRANTEE : Obj := rg 4 87
def V_END : Obj := rg 4 88
def V_MASTER : Obj := rg 4 89
/-- First tick plus one of the collection under way (R433). -/
def V_COLLECT : Obj := rg 4 90
/-- The device's own request (R434): its term (0 none), tick sent, grants (bit per voter, bit 8 the witness), refusals, whether a claim. -/
def O_TERM : Obj := rg 4 91
def O_TICK : Obj := rg 4 92
def O_GRANTS : Obj := rg 4 93
def O_REFUSED : Obj := rg 4 94
def O_CLAIM : Obj := rg 4 95
/-- The lease held: its term (0 none) and its end; the last term held or granted (R434, R439). -/
def H_TERM : Obj := rg 4 96
def H_END : Obj := rg 4 97
def H_LAST : Obj := rg 4 98
/-- Tick plus one at which a master holding a lease, and the standby, were last heard (R435). -/
def MASTER_SEEN : Obj := rg 4 99
def STANDBY_SEEN : Obj := rg 4 100
/-- A resynchronisation has been asked for (R439). -/
def RESYNC : Obj := rg 4 101
/-- The number of the device's latest own update; the highest update number applied from each origin (R440, R441). -/
def UPD_NUM : Obj := rg 4 102
def UPD_DONE : Obj := rg 4 103 7
/-- Self-checking (R444): first tick, updates and running CRC of the master's period and of the standby's; mismatches in succession. -/
def SIG_FIRST : Obj := rg 4 104
def SIG_COUNT : Obj := rg 4 105
def SIG_CRC : Obj := rg 4 106 0 0xFFFFFFFF
def SIG_RUN : Obj := rg 4 107
/-- The time request outstanding (R445): its SEQ plus one, its egress stamp. -/
def TQ_SEQ : Obj := rg 4 108
def TQ_T1 : Obj := rg 4 109
/-- Batches (R203, R204): records to run, next record, tick plus one of the latest change. -/
def EM_RUN : Obj := rg 4 110
def EM_NEXT : Obj := rg 4 111
def EM_CHANGED : Obj := rg 4 112
/-- Slots of its grant that each bank gave the table commands in the tick now open (R201), and the scan of a SEARCH or FLUSH: buckets visited in each
bank, the lowest position found plus one, its words and bits as its visit found them, entries removed. -/
def EM_SPENT : Obj := rg 4 170 255
def EM_SCAN : Obj := rg 4 171 255
def EM_BEST : Obj := rg 4 172
def EM_BEST_KEY : Obj := rg 4 173
def EM_BEST_RESULT : Obj := rg 4 174
def EM_BEST_BITS : Obj := rg 4 175
def EM_REMOVED : Obj := rg 4 176
/-- Slots of its grant that each bank gave the sweeper in the tick now open (R197). -/
def SWEEP_SPENT : Obj := rg 4 177 255
/-- Slots of its grant that each bank gave learning (R191) and the shadow compare (R207) in the tick now open; the last consumer of the order of R46 that changed
an entry of the bank in it: 1 broadcast records (R442), 2 learning, 3 the sweeper (R189). -/
def LEARN_SPENT : Obj := rg 4 180 255
def SHADOW_SPENT : Obj := rg 4 181 255
def EM_SERVED : Obj := rg 4 182 255
/-- The scrubber: slots of its grant taken in the tick now open, of all banks (BUFFER, EM_TABLE); the clock from which the next access of another
memory can be made (R460, R466). -/
def SCRUB_SPENT : Obj := rg 4 178 255
def SCRUB_FROM : Obj := rg 4 179 255
/-- The sweeper (R197): next bucket plus one of each bank (0 no pass), and a pass waiting to begin late. -/
def SWEEP : Obj := rg 4 113 255
def SWEEP_LATE : Obj := rg 4 114
/-- Shadow compare (R207 to R209): next range of each bank, entries of it compared, tick plus one of the first of them; the tick that opens with the latest change or
shadow write of each range; bits set in this pass and the lowest of them plus one. -/
def SHADOW_NEXT : Obj := rg 4 115 255
def SHADOW_POS : Obj := rg 4 183 255
def SHADOW_BEGAN : Obj := rg 4 116 255
def SHADOW_CHANGED : Obj := rg 4 117 255
def SHADOW_SET : Obj := rg 4 118
def SHADOW_LOW : Obj := rg 4 119
/-- Host rings (R581 to R584, R597): the four indexes, completion passes made, completions not signalled and the tick plus one of the oldest. -/
def SQ_HEAD : Obj := rg 4 120 15
def SQ_TAIL : Obj := rg 4 121 15
def CQ_HEAD : Obj := rg 4 122 15
def CQ_TAIL : Obj := rg 4 123 15
def CQ_PASS : Obj := rg 4 124 15
def CQ_UNSIGNALLED : Obj := rg 4 125 15
def CQ_OLDEST : Obj := rg 4 126 15
/-- Bus Master Enable, PCIE_PERST_N low, MSI-X mask and pending bits, causes of vectors 32 to 39 waiting for the boundary (R594, R596, R656). -/
def BME : Obj := rg 4 127
def PERST : Obj := rg 4 128
def MSIX_MASK : Obj := rg 4 129 0 0xFFFFFFFFFFFFFFFF
def MSIX_PENDING : Obj := rg 4 130
def MSIX_CAUSE : Obj := rg 4 131

/-- The scrubber (R465): next access unit of a memory and die (instance MEM × 16 + DIE), and the tick plus one at which its pass began. -/
def SCRUB_NEXT : Obj := rg 4 132 255
def SCRUB_BEGAN : Obj := rg 4 133 255
/-- Correction-log entries whose word was written since they last counted (R462). -/
def LOG_FRESH : Obj := rg 3 71
/-- Cells lost to doubly poisoned control words since the last warm reset (R458). -/
def LOST_CELLS : Obj := rg 4 134
/-- Clock plus one at which a slot's seal check began (R164). -/
def SEAL_CLOCK : Obj := rg 4 135 1
/-- Bytes the dump under way has been granted (R481). -/
def DUMP_SENT : Obj := rg 4 136
/-- Rate of the ports' window now open in its past ticks: capacity in bits, by port (R487). -/
def WIN_CAP : Obj := rg 4 137 1023
/-- Spore records written in the tick now open, and HBM bytes drawn for them (R491). -/
def SPORE_USED : Obj := rg 4 138
/-- The unit a running pulse of an entry holds: kind × 65536 + unit + 1, and the clock it ends (R539). -/
def PULSE_UNIT : Obj := rg 4 139 63
def PULSE_UNTIL : Obj := rg 4 140 63
/-- The clock up to which a pipeline's holds have been counted (R485). -/
def HOLD_FROM : Obj := rg 4 141 63
/-- A sorus reset: the tick plus one at which it ends; ports that held lock at its start; the port plus one that woke the sorus (R605, R619). -/
def SORUS_UNTIL : Obj := rg 4 142 7
def LOCK_HELD : Obj := rg 4 143 1023
def WAKE_PORT : Obj := rg 4 144 7
/-- The tick plus one at which the hub leaves idle (R620). -/
def IDLE_UNTIL : Obj := rg 4 145
/-- A window that has ended and is to be closed (R487): 0 to 3 as WIN, 4 its capacity; the boundary's tick plus one, of every port. -/
def WIN_END : Obj := rg 4 191 1023
def WIN_LAST : Obj := rg 4 192
/-- Slots of the scrubber's grant that write-backs took in a bank this tick (R460): element 0 BUFFER, 1 EM_TABLE. -/
def WB_SPENT : Obj := rg 4 190 255
/-- Tick plus one in which a trunk port last sent a CONTROL frame (R420). -/
def CONTROL_SENT : Obj := rg 4 189 1023
/-- Lines of the slots whose poison in every copy has been reported (R168): instance slot × 2 + line / 65,536. -/
def TREE_TOLD : Obj := rg 4 188 3
/-- A parked sorus's retained tree copies differ from the slots now (R618). -/
def TREE_STALE : Obj := rg 4 146 7
/-- Why every die but the crust stands still: 1 TB_OSC lost (R640), 2 THERMTRIP_N low (R652). -/
def HALT : Obj := rg 2 147
/-- TEMP_ALERT_N is low; tick plus one of the latest reading of the sensors (R652). -/
def TEMP_LOW : Obj := rg 4 148
def TEMP_LAST : Obj := rg 4 149
/-- AVS (R643, R644): the exponent read from VOUT_MODE plus 100 (0: no linear mode), tick plus one of the latest step and of the latest read back, the step
under way in mV, its retries begun, tick of the latest try. -/
def AVS_EXP : Obj := rg 4 150
def AVS_LAST : Obj := rg 4 151
def AVS_READ : Obj := rg 4 152
def AVS_STEP : Obj := rg 4 153
def AVS_TRIES : Obj := rg 4 154
def AVS_TRY_TICK : Obj := rg 4 155
/-- DEVICE.OP_SECONDS as captured by the latest read of OP_HOURS, plus one (R671). -/
def OP_CAP : Obj := rg 4 157
/-- Session slots (R558): the generation last used; what the window holds (R573): READY, DISCARDED. -/
def DICT_GEN : Obj := rg 3 72 15
def WINDOW : Obj := rg 4 158
/-- Ageing (R661 to R667): tick plus one at which the sample under way began, of the sample the planner has yet to use, operating second of the last
raise plus one; the hour plus one of the latest minimum-voltage test; per lane since its bring-up the height of its first eye scan plus one, whether the
user wrote its guard, whether the planner did; corrections at the last sample and their hourly rate. -/
def AGE_START : Obj := rg 4 159
def AGE_READY : Obj := rg 4 160
def AGE_RAISED : Obj := rg 4 161
def AGE_LANE : Obj := rg 4 162 1023
def AGE_VMIN_LAST : Obj := rg 4 167
def AGE_CORRECTED : Obj := rg 4 163 255
/-- Frame number and index of replay: next record index, frames lost to the checks of R528 (R527). -/
def R_NEXT : Obj := rg 4 164
def R_LOADED : Obj := rg 4 165
/-- The replayed frame now in its pipeline reached a meter or stream index that is mixed (R529). -/
def R_MIXED : Obj := rg 4 166

end Sys2Proof.Machine.Rg

namespace Sys2Proof.Machine

/-- A cause of vectors 32 to 39: raised at the boundary after it (R596). -/
def Dev.cause (v : Nat) (d : Dev) : Dev := d.put Rg.MSIX_CAUSE 0 (setBit (d.n Rg.MSIX_CAUSE 0) v)

/-- A state whose change is the cause of a vector (R596). -/
def Dev.note (o : Obj) (x v : Nat) (d : Dev) : Dev := if d.n o 0 = x then d else (d.put o 0 x).cause v

/-- Slots per bank of a grant in the tick (R46, R47): element e of a plan of n consumers; in a tick of 799 clocks the last consumer with a grant that is
not zero has one slot fewer. -/
def Dev.grantOf (k : Clk) (o : Obj) (n e : Nat) (d : Dev) : Nat :=
  let g := d.n o 0 e
  if k.len = 799 ∧ ((d.elems o 0 n).drop (e + 1)).all (· == 0) then g - 1 else g

/-- Grants of a buffer bank: 0 host DMA, 1 pool-manager transfers, 2 spore capture, 3 scrubber (R46). -/
def Dev.bufGrant (k : Clk) (e : Nat) (d : Dev) : Nat := d.grantOf k Od.TICK_PLAN_BUF 4 e

/-- Grants of an exact-match bank: 0 table commands, 1 learning, 2 sweeper, 3 shadow compare, 4 scrubber (R46). -/
def Dev.emGrant (k : Clk) (e : Nat) (d : Dev) : Nat := d.grantOf k Od.TICK_PLAN_EM 5 e

end Sys2Proof.Machine
end

