-- ==== Sys2Proof/Machine/Events.lean ====
section
/-! DEFINITION. Raising an event (R497 to R502) and declaring a fault (R624 to R634): the operations every chapter uses. -/
namespace Sys2Proof.Machine

/-- The 64-byte record of R507. -/
def recordBytes (code kind power hours secs inst first span count : Nat) (extreme : Int) (spread detail : List Byte) : List Byte :=
  bytesLE 2 code ++ [BitVec.ofNat 8 (code / 256), BitVec.ofNat 8 kind] ++ bytesLE 4 power ++ bytesLE 4 hours ++ bytesLE 2 secs ++
  bytesLE 2 inst ++ bytesLE 8 first ++ bytesLE 4 span ++ bytesLE 4 count ++ bytesLE 8 (ofSigned 64 extreme) ++ sliceZ spread 0 8 ++
  sliceZ detail 0 14 ++ [0, 0x5A]

/-- The record of a closed accumulator. -/
def Acc.bytes (a : Acc) : List Byte :=
  recordBytes a.code 1 a.power a.hours a.secs a.inst a.first a.span a.count a.extreme (a.spread.flatMap (bytesLE 2)) a.detail

/-- A record joins the write queue, or is lost to a full one (R502). -/
def Dev.queueRecord (d : Dev) (r : List Byte) : Dev :=
  if d.recQ.length < 64 then { d with recQ := d.recQ ++ [r] } else d.bump Od.REC_QUEUE_LOST 0

/-- An occurrence on an open accumulator in tick t with hold h (R498); `least` for a code whose extreme is the least value. -/
def Acc.again (a : Acc) (t h : Nat) (x : Int) (least : Bool) : Acc :=
  let bin := if h = 0 then 0 else min 3 ((t - a.first) * 4 / h)
  { a with
    count := satAdd 0xFFFFFFFF a.count 1
    span := min (t - a.first) 0xFFFFFFFF
    extreme := if least then min a.extreme x else max a.extreme x
    spread := a.spread.set bin (satAdd 65535 (a.spread.getD bin 0) 1) }

/-- An occurrence is counted (R497); the first of its code since the journal's start is kept for its trigger (R524). -/
def Dev.occurs (k : Clk) (code : Nat) (d : Dev) : Dev :=
  let d := d.bump Od.REC_CODE_OCCURRENCES code
  if d.n Od.JOURNAL_STATE 0 = 2 ∧ !d.on Rg.J_TRIGGER code then d.put Rg.J_TRIGGER code (k.tick + 1) else d

/-- Close the accumulator of a code: its record joins the write queue (R499). -/
def Dev.closeAcc (d : Dev) (code : Nat) : Dev :=
  match d.accs.find? (·.code == code) with
  | some a => { d with accs := d.accs.filter (·.code != code) }.queueRecord a.bytes
  | none => d

/-- An accumulator is due to close: its hold has passed (R499, R501). -/
def Dev.due (k : Clk) (d : Dev) (a : Acc) : Bool := decide (a.first + max 1 (d.n Od.REC_CODE_HOLD a.code) ≤ k.tick)

/-- The accumulator of a code closes once it is due, after those due that opened before it (R499, R502). -/
def Dev.closeDue (k : Clk) (code : Nat) (d : Dev) : Dev :=
  match d.accs.find? (·.code == code) with
  | some a =>
    if d.due k a then d.each (((d.accs.takeWhile (·.code != code)).filter (d.due k)).map (·.code) ++ [code]) Dev.closeAcc else d
  | none => d

/-- An accumulator opens: those of one clock stand in the rotation of their subsystems (R51). -/
def enterAcc (a : Acc) (l : List Acc) : List Acc :=
  let after := fun (b : Acc) => b.clock == a.clock && decide (a.rank < b.rank)
  (l.filter fun b => !after b) ++ [a] ++ l.filter after

/-- An occurrence of an event code (R497, R498): `inst` its unit, x its value, `detail` the bytes of R508. An accumulator already due takes no more (R499). -/
def Dev.event (k : Clk) (code inst : Nat) (x : Int) (detail : List Byte) (d : Dev) : Dev :=
  let d := d.occurs k code
  if d.on Od.REC_CODE_ENABLE code then
    let d := d.closeDue k code
    match d.accs.find? (·.code == code) with
    | some _ =>
      { d with accs := d.accs.map fun a =>
          if a.code == code then a.again k.tick (d.n Od.REC_CODE_HOLD code) x (code == 0x0102) else a }
    | none =>
      let a : Acc := { code := code, clock := k.clock, rank := rotation k (code / 256 - 1) 25, inst := inst, first := k.tick, extreme := x, detail := detail }
      { d with accs := enterAcc { a with power := d.n Od.DEVICE_POWER_CYCLES 0, hours := d.n Od.DEVICE_OP_HOURS 0, secs := d.n Od.DEVICE_OP_SECONDS 0 } d.accs }
  else d.bump Od.REC_CODE_SUPPRESSED code

/-- Close every open accumulator, in the order they opened (R502, R506). -/
def Dev.closeAllAccs (d : Dev) : Dev := d.each (d.accs.map (·.code)) Dev.closeAcc

/-- The START record (R507, R508). -/
def Dev.startRecord (k : Clk) (kind : Nat) (d : Dev) : Dev :=
  d.queueRecord (recordBytes 0x1901 3 (d.n Od.DEVICE_POWER_CYCLES 0) (d.n Od.DEVICE_OP_HOURS 0) (d.n Od.DEVICE_OP_SECONDS 0) 0 k.tick 0 1 0
    [] [BitVec.ofNat 8 kind])

/-- The ladder of a fault kind: rungs in order (R624, R625). -/
def ladder (kind : Nat) : List Nat :=
  if kind = 1 then [0, 1, 2, 5]
  else if kind = 2 ∨ kind = 3 ∨ kind = 4 ∨ kind = 5 ∨ kind = 11 then [0, 2, 5]
  else if kind = 6 ∨ kind = 7 ∨ kind = 8 ∨ kind = 9 then [0, 3, 5]
  else if kind = 10 then [0, 4]
  else if kind = 12 then [0]
  else [5]

/-- The entry rung of a fault kind (R624). -/
def entryRung (kind : Nat) : Nat :=
  if kind = 3 ∨ kind = 4 then 2 else if kind = 8 then 3 else if kind = 13 then 5 else 0

/-- The subsystem of a fault kind (R624). -/
def faultSub (kind : Nat) : Nat :=
  match kind with
  | 3 => 25 | 4 => 14 | 5 => 1 | 8 => 10 | 9 => 10 | 10 => 11 | 11 => 11 | 13 => 15 | _ => 16

/-- The resource class of a fault kind: kinds that name the sorus share one (R624). -/
def resClass (kind : Nat) : Nat := if kind = 3 ∨ kind = 4 ∨ kind = 5 ∨ kind = 11 then 2 else kind

/-- The next rung of a ladder after rung r, r itself where there is none (R628). -/
def nextRung (l : List Nat) (r : Nat) : Nat := ((l.filter fun x => decide (r < x)).head?).getD r

/-- Two recoveries name one resource. -/
def Recov.same (a b : Recov) : Bool := resClass a.kind == resClass b.kind && a.die == b.die && a.unit == b.unit

/-- One entry of the fault log (R634): outcome, then the recovery's rung, subsystem, kind, die and unit. -/
def Dev.faultLog (k : Clk) (outcome : Nat) (r : Recov) (d : Dev) : Dev :=
  let n := d.n Od.FAULT_LOG_NEXT 0
  let w := 2 ^ 63 + outcome * 2 ^ 60 + r.rung * 2 ^ 57 + faultSub r.kind * 2 ^ 52 + r.kind * 2 ^ 48 + r.die * 2 ^ 44 + r.unit % 2 ^ 44
  ((d.put Od.FAULT_LOG 0 w (2 * n)).put Od.FAULT_LOG 0 k.tick (2 * n + 1)).put Od.FAULT_LOG_NEXT 0 ((n + 1) % 32)

/-- The device is to enter isolated state at the next boundary; the first cause stands (R632). -/
def Dev.isolateDue (k : Clk) (cause : Nat) (d : Dev) : Dev :=
  if d.isoDue.isSome || d.on Od.FAULT_ISOLATED 0 then d else { d with isoDue := some (cause, k.tick + 1) }

/-- Recoveries queued for a subsystem, into FAULT.PENDING (R629). -/
def Dev.pending (sub : Nat) (d : Dev) : Dev :=
  d.put Od.FAULT_PENDING 0 (d.fltQ.filter fun q => faultSub q.kind == sub).length (sub - 1)

/-- A recovery's window has ended; of rung ISOLATE it lasts until isolation ends (R625, R627). -/
def Recov.over (k : Clk) (r : Recov) : Bool := r.rung != 5 && decide (r.winEnd ≤ k.tick)

/-- A subsystem is busy: a window of rung 1 to 4 is open or about to open (R627, R629). -/
def Dev.subBusy (k : Clk) (d : Dev) (sub : Nat) : Bool :=
  (d.flt.filter (fun w => !w.over k) ++ d.fltDue).any fun w => faultSub w.kind == sub && decide (1 ≤ w.rung ∧ w.rung ≤ 4)

/-- A recovery of a subsystem waits in its queue, ahead of any that comes now (R629). -/
def Dev.subQueued (d : Dev) (sub : Nat) : Bool := d.fltQ.any fun q => faultSub q.kind == sub

/-- A recovery starts at the next boundary, or joins its subsystem's queue, or isolates the device (R627, R629); one entry of the log stands for its fault
(R634), which an escalated one has already. -/
def Dev.startOrQueue (k : Clk) (r : Recov) (d : Dev) : Dev :=
  let log := fun (outcome : Nat) (d : Dev) => if r.via = 0 then d.faultLog k outcome r else d
  if r.rung = 5 then (log 4 { d with fltDue := d.fltDue ++ [r] }).isolateDue k (if r.kind = 13 then 1 else 2)
  else if r.rung = 0 ∨ !(d.subBusy k (faultSub r.kind) || d.subQueued (faultSub r.kind)) then log 0 { d with fltDue := d.fltDue ++ [r] }
  else if (d.fltQ.filter fun q => faultSub q.kind == faultSub r.kind).length < 8 then
    let d := ({ d with fltQ := d.fltQ ++ [{ r with via := 2 }] }.bump Od.FAULT_QUEUED 0).pending (faultSub r.kind)
    log 1 d
  else (log 4 d).isolateDue k 4

/-- A fault of kind 3 or 4 strikes a FLUSH or SORUS recovery of its sorus whose action is under way (R631). -/
def Dev.strikes (d : Dev) (k : Clk) (kind die : Nat) : Bool :=
  (kind == 3 || kind == 4) && d.flt.any fun w =>
    decide (w.start ≤ k.tick ∧ k.tick < w.actEnd) && (w.rung == 1 || w.rung == 2) && w.die == die

/-- A fault of R624 on a resource, taken: it strikes a recovery (R631), escalates its resource's recovery (R628) or takes its entry rung. -/
def Dev.faultNow (k : Clk) (kind die unit : Nat) (d : Dev) : Dev :=
  let d := d.bump Od.FAULT_FAULTS 0
  let r : Recov := { kind := kind, die := die, unit := unit, rung := entryRung kind, start := k.tick + 1 }
  if d.strikes k kind die then (d.faultLog k 4 r).isolateDue k 3
  else
    match (d.fltQ.find? r.same), ((d.fltDue ++ d.flt.filter fun w => !w.over k).find? r.same) with
    | some q, _ =>
      let r := { r with rung := nextRung (ladder kind) q.rung, via := q.via }
      let d := (d.bump Od.FAULT_ESCALATIONS 0).faultLog k 2 r
      if r.rung = 5 then { d with fltQ := d.fltQ.filter fun x => !r.same x }.startOrQueue k r
      else { d with fltQ := d.fltQ.map fun x => if r.same x then r else x }
    | none, some w =>
      let n := nextRung (ladder kind) w.rung
      if n = w.rung then d.faultLog k 0 r
      else
        let r := { r with rung := n, via := if w.rung = 0 then 1 else 3 }
        let d := (d.bump Od.FAULT_ESCALATIONS 0).faultLog k 2 r
        let d := { d with fltDue := d.fltDue.filter fun x => !r.same x }
        if w.rung ≠ 0 ∧ n ≠ 5 then { d with fltDue := d.fltDue ++ [r] } else d.startOrQueue k r
    | none, none => d.startOrQueue k r

/-- A fault is found in this clock (R624). -/
def Dev.fault (kind die unit : Nat) (d : Dev) : Dev := { d with now := { d.now with faults := d.now.faults ++ [(kind, die, unit)] } }

/-- The place of a fault among those of its clock (R630). -/
def faultRank (k : Clk) (f : Nat × Nat × Nat) : Nat :=
  ((rotation k (faultSub f.1 - 1) 25 * 2 ^ 4 + f.1) * 2 ^ 4 + f.2.1) * 2 ^ 44 + f.2.2 % 2 ^ 44

/-- The faults of a clock are taken in order (R630). -/
def Dev.faultsJoin (k : Clk) (d : Dev) : Dev :=
  { d with now := { d.now with faults := [] } }.each (sortBy (fun (a b : Nat × Nat × Nat) => decide (faultRank k a ≤ faultRank k b)) d.now.faults) fun d f =>
    d.faultNow k f.1 f.2.1 f.2.2

end Sys2Proof.Machine
end

