-- ==== Sys2Proof/Machine/Integ.lean ====
section
/-! DEFINITION. Stored-data protection (R451 to R473): findings and their logs, write-backs, HBM units, faults of the words. -/
namespace Sys2Proof.Machine

/-- Word 0 of a log entry (R461). -/
def logWord (persistent unreq : Bool) (bits mem die repeats addr : Nat) : Nat :=
  2 ^ 63 + (if persistent then 2 ^ 62 else 0) + (if unreq then 2 ^ 61 else 0) + bits * 2 ^ 59 + mem * 2 ^ 48 + die * 2 ^ 44 + repeats * 2 ^ 36 + addr % 2 ^ 36

/-- The entry of a log for a word. -/
def Dev.logEntry (d : Dev) (o : Obj) (n : Nat) (f : Found) : Option Nat :=
  (List.range n).find? fun e =>
    let w := d.n o 0 (2 * e)
    bit w 63 && bits w 55 44 == f.mem * 16 + f.die && bits w 35 0 == f.addr

/-- Fill an entry of a log. -/
def Dev.putLog (k : Clk) (o : Obj) (e w : Nat) (d : Dev) : Dev := (d.put o 0 w (2 * e)).put o 0 k.tick (2 * e + 1)

/-- A corrected finding enters the correction log (R462). -/
def Dev.logCorrected (k : Clk) (f : Found) (d : Dev) : Dev :=
  match d.logEntry Od.INTEG_LOG 32 f with
  | some e =>
    let w := d.n Od.INTEG_LOG 0 (2 * e)
    let r := if d.on Rg.LOG_FRESH 0 e then min 255 (bits w 43 36 + 1) else bits w 43 36
    let was := bit w 62
    let w' := logWord (was || decide (16 ≤ r)) (bit w 61) f.bits f.mem f.die r f.addr
    let d := if d.on Rg.LOG_FRESH 0 e then (d.putLog k Od.INTEG_LOG e w').put Rg.LOG_FRESH 0 0 e else d.put Od.INTEG_LOG 0 w' (2 * e)
    d.when (!was && decide (16 ≤ r)) fun d => d.event k 0x1001 (f.mem * 16 + f.die) 0 (bytesLE 8 w')
  | none =>
    let all := List.range 32
    let w := fun e => d.n Od.INTEG_LOG 0 (2 * e)
    let victim := (all.filter fun e => !bit (w e) 62).foldl (fun (b : Option Nat) e => match b with
      | none => some e
      | some x =>
        let r := fun e => bits (w e) 43 36
        let t := fun e => d.n Od.INTEG_LOG 0 (2 * e + 1)
        if r e < r x ∨ (r e = r x ∧ t e < t x) then some e else some x) none
    match (all.find? fun e => !bit (w e) 63).or victim with
    | some e => (d.putLog k Od.INTEG_LOG e (logWord false f.unreq f.bits f.mem f.die 1 f.addr)).put Rg.LOG_FRESH 0 0 e
    | none => d.bump Od.INTEG_LOG_OVERFLOW 0

/-- An uncorrectable finding enters its log (R463). -/
def Dev.logUncorrectable (k : Clk) (f : Found) (d : Dev) : Dev :=
  match d.logEntry Od.INTEG_UE_LOG 16 f with
  | some e =>
    let w := d.n Od.INTEG_UE_LOG 0 (2 * e)
    d.putLog k Od.INTEG_UE_LOG e (logWord false (bit w 61) 3 f.mem f.die (min 255 (bits w 43 36 + 1)) f.addr)
  | none =>
    match (List.range 16).find? fun e => !bit (d.n Od.INTEG_UE_LOG 0 (2 * e)) 63 with
    | some e =>
      let w := logWord false f.unreq 3 f.mem f.die 1 f.addr
      (d.putLog k Od.INTEG_UE_LOG e w).event k 0x1002 (f.mem * 16 + f.die) 0 (bytesLE 8 w)
    | none => d.bump Od.INTEG_UE_LOG_OVERFLOW 0

/-- The fault an uncorrectable finding is (R463, R624): kind, die, unit. A FABRIC_CONTROL word is a fault only when both copies are bad (R458). -/
def Found.fault (f : Found) : Option (Nat × Nat × Nat) :=
  match f.mem with
  | 1 => some (6, 8, f.addr / 32)
  | 2 => some (7, 8, f.addr / 2)
  | 6 => none
  | 8 => some (2, f.die, f.die)
  | 9 => match f.pipe with | some p => some (1, f.die, p) | none => some (2, f.die, f.die)
  | _ => some (12, 8, f.addr)

/-- The word of a pending write-back is whole again: its correction-log entry may count anew (R462). -/
def Dev.wordWritten (mem die addr : Nat) (d : Dev) : Dev :=
  match d.logEntry Od.INTEG_LOG 32 { mem := mem, die := die, addr := addr, bits := 1 } with
  | some e => d.put Rg.LOG_FRESH 0 1 e
  | none => d

/-- One finding (R459, R463). A finder that rewrites the word in the same access stands for its write-back. -/
def Dev.finding (k : Clk) (d : Dev) (f : Found) : Dev :=
  if f.bits ≤ 2 then
    let d := (d.bump Od.INTEG_MEM_CORRECTED (f.mem * 16 + f.die)).logCorrected k f
    if f.healed then d.wordWritten f.mem f.die f.addr
    else if d.wb.any fun w => w.mem == f.mem && w.die == f.die && w.addr == f.addr then d
    else { d with wb := d.wb ++ [{ mem := f.mem, die := f.die, addr := f.addr, tick := k.tick, own := d.flipped.any fun w => w.mem == f.mem && w.die == f.die && w.addr == f.addr }] }
  else
    let d := if f.mem < 16 then d.bump Od.INTEG_MEM_UNCORRECTABLE (f.mem * 16 + f.die) else d.bump Od.INTEG_HBM_UNCORRECTABLE (f.mem - 16)
    let d := d.logUncorrectable k f
    match f.fault with
    | some x => d.fault x.1 x.2.1 x.2.2
    | none => d

/-- A finding comes before another in the order of R464. -/
def Found.before (a b : Found) : Bool := decide ((a.mem * 16 + a.die) * 2 ^ 36 + a.addr < (b.mem * 16 + b.die) * 2 ^ 36 + b.addr)

/-- Findings of one clock in the order of R464, one for each word. -/
def orderFound : List Found → List Found
  | [] => []
  | f :: t =>
    let r := orderFound t
    if r.any fun g => g.mem == f.mem && g.die == f.die && g.addr == f.addr then r
    else (r.filter fun g => g.before f) ++ [f] ++ r.filter fun g => f.before g

/-- What a command leaves to the end of its clock: findings enter the logs (R464); a spent flip records its tick (R469). -/
def Dev.settle (k : Clk) (d : Dev) : Dev :=
  let d := if d.flipUsed then { d.put Od.INTEG_FLIP_DONE_TICK 0 k.tick with flipUsed := false } else d
  match d.found with
  | [] => d
  | l => { d with found := [] }.each (orderFound l) (Dev.finding k)

/-- Clocks between scrub accesses of a memory that no consumer shares (R466). -/
def scrubPace (mem : Nat) : Nat := match mem with | 3 => 8 | 6 => 8 | 7 => 4 | _ => 16

/-- The scrubber takes its next access of a memory (R460, R466): a slot of the tick's grants in BUFFER and EM_TABLE, else an access at its pace; none
where there is none yet. -/
def Dev.scrubSlot (k : Clk) (mem die : Nat) (d : Dev) : Option Dev :=
  let i := mem * 16 + die
  if mem ≤ 2 then
    let g := 256 * (if mem = 1 then d.bufGrant k 3 else d.emGrant k 4)
    if d.n Rg.SCRUB_SPENT i < g then some (d.put Rg.SCRUB_SPENT i (d.n Rg.SCRUB_SPENT i + 1)) else none
  else if d.n Rg.SCRUB_FROM i ≤ k.clock then some (d.put Rg.SCRUB_FROM i (k.clock + scrubPace mem))
  else none

/-- The bank of a word of BUFFER or EM_TABLE. -/
def bankOf (mem addr : Nat) : Nat := if mem = 1 then addr / 32 / 4096 else addr / 2 / 16384

/-- The tick's grant still has a slot in the bank of a write-back's word (R460). -/
def Dev.wbMay (k : Clk) (d : Dev) (w : WBack) : Bool :=
  decide (2 < w.mem) || decide (d.n Rg.WB_SPENT (bankOf w.mem w.addr) (w.mem - 1) < if w.mem = 1 then d.bufGrant k 3 else d.emGrant k 4)

/-- The oldest write-back of a memory that may be made is made in a tick after its finding (R460), or abandoned when another write reached the word. -/
def Dev.writeBack (k : Clk) (mem die : Nat) (raced : Bool) (d : Dev) : Dev :=
  match d.wb.find? fun w => w.mem == mem && w.die == die && (raced || d.wbMay k w) with
  | none => d
  | some w =>
    let gone := w.own && !d.flipped.any fun f => f.mem == mem && f.die == die && f.addr == w.addr
    if raced || gone then ({ d with wb := d.wb.erase w }.bump Od.INTEG_SCRUB_RACES 0).wordWritten mem die w.addr
    else if k.tick ≤ w.tick then d
    else match d.scrubSlot k mem die with
      | some e =>
        let e := if mem ≤ 2 then e.put Rg.WB_SPENT (bankOf mem w.addr) (e.n Rg.WB_SPENT (bankOf mem w.addr) (mem - 1) + 1) (mem - 1) else e
        ({ e with wb := e.wb.erase w }.unflip mem die w.addr).wordWritten mem die w.addr
      | none => d

/-- Words of a memory that one scrub access reads, and access units of a pass (R454, R466). -/
def scrubUnit (mem : Nat) : Nat × Nat :=
  match mem with
  | 1 => (32, 1048576) | 2 => (16, 524288) | 3 => (1, 131072) | 4 => (4, 524288) | 5 => (4, 262144) | 6 => (4, 1572864) | 7 => (1, 524288)
  | 8 => (4, 196608) | _ => (4, 65536)

/-- The stack that holds an HBM address: 16 GiB each, in order (log entry 15). -/
def hbmStack (a : Nat) : Nat := a / 0x400000000

/-- A unit under a range of HBM is bad. -/
def Dev.hbmBad (d : Dev) (a n : Nat) : Bool := d.hbmPoison.any fun u => decide (a ≤ u + 31 ∧ u < a + n)

/-- A range of HBM is read: its bad units are findings (R467). -/
def Dev.hbmRead (a n : Nat) (d : Dev) : Dev :=
  { d with found := d.found ++ (d.hbmPoison.filter fun u => decide (a ≤ u + 31 ∧ u < a + n)).map fun u =>
      ({ mem := 16 + hbmStack u, die := 8, addr := u, bits := 3 } : Found) }

/-- A transfer of an HBM unit fails its link CRC n times (R467): whether its data is lost. -/
def Dev.hbmLink (k : Clk) (u fails : Nat) (d : Dev) : Bool × Dev :=
  let s := hbmStack u
  let d := d.bump Od.INTEG_HBM_LINK_CRC_ERRORS s (min fails 3)
  if fails < 3 then (false, d)
  else
    let d := (d.bump Od.INTEG_HBM_LINK_FAULTS s).event k 0x1003 s 0 (bytesLE 8 u)
    (true, { d with found := d.found ++ [{ mem := 16 + s, die := 8, addr := u, bits := 3 }] })

/-- A write of HBM makes its units whole where it covers them. -/
def Dev.hbmWrite (a n : Nat) (d : Dev) : Dev := { d with hbmPoison := d.hbmPoison.filter fun u => !decide (a ≤ u ∧ u + 32 ≤ a + n) }

end Sys2Proof.Machine
end

