-- ==== Sys2Proof/Machine/View.lean ====
section
/-! DEFINITION. View arithmetic (R363 to R368) and times of the dictionary (R12, R364). View times are numbers of 2⁻¹⁶ ns. -/
namespace Sys2Proof.Machine

/-- The circle of view time: 2⁴⁸ seconds in 2⁻¹⁶ ns (R363). -/
def viewCircle : Nat := 2 ^ 48 * 1000000000 * 2 ^ 16

/-- View time of a raw value under a parameter set (R363). -/
def ViewSet.at (p : ViewSet) (r : Nat) : Nat :=
  let dist : Nat := ((r : Int) - p.anchor) % 2 ^ 72 |>.toNat
  (roundHalfEven (p.offset + (dist * p.inc : Nat)) (2 ^ 32) % viewCircle).toNat

/-- The parameter sets a view keeps, newest first: at most eight (R368). -/
def Dev.viewSets (d : Dev) (v : Nat) : List ViewSet := ((d.views.filter fun x => x.view == v) ++ [({ view := v } : ViewSet)]).take 8

/-- The parameters in force (R363). -/
def Dev.viewSet (d : Dev) (v : Nat) : ViewSet := (d.viewSets v).headD { view := v }

/-- The set in force at a raw value, and whether every kept set is later (R368). -/
def Dev.viewSetAt (d : Dev) (v r : Nat) : ViewSet × Bool :=
  match (d.viewSets v).find? fun p => decide (((r : Int) - p.from_) % 2 ^ 72 < 2 ^ 71) with
  | some p => (p, false)
  | none => ((d.viewSets v).getLastD { view := v }, true)

/-- Convert a raw value to a view's time (R368), counting a stale conversion. -/
def Dev.convert (d : Dev) (v r : Nat) : Nat × Dev :=
  let q := d.viewSetAt v r
  (q.1.at r, if q.2 then d.bump Od.TIME_VIEW_STALE_CONVERSIONS v else d)

/-- View time now. -/
def Dev.viewNow (k : Clk) (d : Dev) (v : Nat) : Nat := (d.viewSet v).at k.now

/-- The parameters of a view become p: kept as its newest set (R368). -/
def Dev.pushView (p : ViewSet) (d : Dev) : Dev :=
  { d with views := (p :: d.viewSets p.view).take 8 ++ d.views.filter (·.view != p.view) }

/-- A TIME80 object's value in nanoseconds (R12). -/
def time80Ns (v : Nat) : Nat := v % 2 ^ 48 * 1000000000 + v / 2 ^ 48

/-- Nanoseconds as a TIME80 object's value. -/
def nsTime80 (n : Nat) : Nat := n / 1000000000 % 2 ^ 48 + n % 1000000000 * 2 ^ 48

/-- A view time as a TIME80 value and its sub-nanosecond part (R364). -/
def viewTime80 (u : Nat) : Nat := nsTime80 (u / 65536)

end Sys2Proof.Machine
end

