-- ==== Sys2Proof/Machine/Gates.lean ====
section
/-! DEFINITION. Gate control lists (R341 to R355): the state at a view time, when it closes, whether a queue is gated, where gaps lie, and the
longest open run. Times are in 2⁻¹⁶ ns of the list's view. -/
namespace Sys2Proof.Machine

/-- Duration of an entry, in 2⁻¹⁶ ns. -/
def gDur (e : Nat) : Nat := bits e 31 0 * 65536

/-- The entries in use that take time. -/
def GList.live (g : GList) : List Nat := g.entries.filter fun e => gDur e != 0

/-- Cycle in 2⁻¹⁶ ns. -/
def GList.cyc (g : GList) : Nat := g.cycle * 65536

/-- The entry in force at an offset into a cycle, and the offset at which it ends (R343): after the last entry, that entry to the cycle's end. -/
def entryAt (cyc : Nat) : List Nat → Nat → Nat → Option (Nat × Nat)
  | [], _, _ => none
  | [e], _, _ => some (e, cyc)
  | e :: t, start, off =>
    let fin := min cyc (start + gDur e)
    if off < fin then some (e, fin) else entryAt cyc t (start + gDur e) off

/-- The start of the cycle that holds time t. -/
def GList.cycleStart (g : GList) (t : Int) : Int := g.base * 65536 + Int.fdiv (t - g.base * 65536) g.cyc * g.cyc

/-- The entry in force at time t and the time it ends; none keeps every gate open. With a change pending at ct, a cycle that would start after
ct minus the extension does not start and the entry at the end of the cycle before runs on to ct (R348). -/
def GList.entry (g : GList) (ct : Option Int) (t : Int) : Option (Nat × Int) :=
  match g.live with
  | [] => none
  | l =>
    let s := g.cycleStart t
    let run := match ct with
      | some c => decide (c - g.ext * 65536 < s ∧ s < c)
      | none => false
    if run then (entryAt g.cyc l 0 (g.cyc - 1)).map fun x => (x.1, ct.getD 0)
    else (entryAt g.cyc l 0 (t - s).toNat).map fun x => (x.1, match ct with | some c => min c (s + x.2) | none => s + x.2)

/-- The list of a port's operational objects (R343). -/
def Dev.operList (d : Dev) (p : Nat) : GList :=
  { entries := d.elems Od.GATE_OPER_LIST p (d.n Od.GATE_OPER_ENTRIES p), base := time80Ns (d.n Od.GATE_OPER_BASE_TIME p),
    cycle := d.n Od.GATE_OPER_CYCLE p, ext := d.n Od.GATE_OPER_CYCLE_EXTENSION p, view := d.n Od.GATE_OPER_VIEW p }

/-- The list of a port's administrative objects. -/
def Dev.adminList (d : Dev) (p : Nat) : GList :=
  { entries := d.elems Od.GATE_ADMIN_LIST p (d.n Od.GATE_ADMIN_ENTRIES p), base := time80Ns (d.n Od.GATE_ADMIN_BASE_TIME p),
    cycle := d.n Od.GATE_ADMIN_CYCLE p, ext := d.n Od.GATE_ADMIN_CYCLE_EXTENSION p, view := d.n Od.GATE_ADMIN_VIEW p }

/-- The list of a stream gate's objects (R228). -/
def Dev.streamList (d : Dev) (g : Nat) : GList :=
  { entries := d.elems Od.GATE_LIST g (d.n Od.GATE_ENTRIES g), base := time80Ns (d.n Od.GATE_BASE_TIME g), cycle := d.n Od.GATE_CYCLE g,
    view := d.n Od.GATE_VIEW g }

/-- The list in force of a stream gate: empty until one has taken over (R349). -/
def Dev.streamOper (d : Dev) (g : Nat) : GList := ((d.sgate.find? (·.1 == g)).map (·.2)).getD {}

/-- The change pending for a port or stream gate. -/
def Dev.gatePend (d : Dev) (stream : Bool) (u : Nat) : Option GPend := d.gpend.find? fun x => x.stream == stream && x.unit == u

/-- The first time base + k × cycle, k ≥ 0, no earlier than t + 20,000 ns, in ns; t in 2⁻¹⁶ ns (R346). -/
def changeTime (g : GList) (t : Nat) : Nat :=
  let lo := ceilDiv (t + 20000 * 65536) 65536
  if lo ≤ g.base then g.base else g.base + ceilDiv (lo - g.base) g.cycle * g.cycle

/-- Gate bit of an offset in an entry. -/
def gateBit (e o : Nat) : Bool := bit e (32 + o)

/-- Is the gate of an offset open at time t of the list's view? -/
def GList.openAt (g : GList) (ct : Option Int) (o : Nat) (t : Int) : Bool :=
  match g.entry ct t with
  | some x => gateBit x.1 o
  | none => true

/-- A queue offset is gated when its gate is closed in at least one entry of the list (R83). -/
def GList.gated (g : GList) (o : Nat) : Bool := g.entries.any fun e => !gateBit e o

/-- A front-port queue is gated under the operational list (R83, R350). -/
def Dev.queueGated (d : Dev) (q : Nat) : Bool := decide (q < 16384) && (d.operList (q / 16)).gated (q % 16)

/-- The earliest time from t on at which the gate is closed, searched through at most `fuel` entries and no further than `lim`: the list until
ct, then the copied one, whose view runs `skew` ahead (R351). -/
def closeFrom (g : GList) (ct : Option Int) (next : GList) (skew : Int) (o : Nat) (lim : Int) : Nat → Int → Int
  | 0, t => t
  | n + 1, t =>
    if lim ≤ t then t
    else
      let use := match ct with | some c => decide (c ≤ t) | none => false
      match (if use then (next.entry none (t + skew)).map fun x => (x.1, x.2 - skew) else g.entry ct t) with
      | none => if use then lim else match ct with | some c => closeFrom g ct next skew o lim n c | none => lim
      | some x => if gateBit x.1 o then closeFrom g ct next skew o lim n x.2 else t

/-- Runs of entries of one cycle, twice over, merged where f agrees: the lengths of runs where f holds. -/
def runsOf (f : Nat → Bool) : List (Nat × Nat) → Nat → List Nat
  | [], acc => if acc = 0 then [] else [acc]
  | (e, n) :: t, acc => if f e then runsOf f t (acc + n) else if acc = 0 then runsOf f t 0 else acc :: runsOf f t 0

/-- The entries of a cycle with the time each is in force, in 2⁻¹⁶ ns. -/
def GList.spread (g : GList) : List (Nat × Nat) :=
  let rec go : List Nat → Nat → List (Nat × Nat)
    | [], _ => []
    | [e], start => if start < g.cyc then [(e, g.cyc - start)] else []
    | e :: t, start => if start < g.cyc then (e, min (gDur e) (g.cyc - start)) :: go t (start + gDur e) else []
  go g.live 0

/-- The longest run in which f holds, joined across the cycle's end; none when it always holds. -/
def GList.longest (g : GList) (f : Nat → Bool) : Option Nat :=
  let l := g.spread
  if l.all (fun x => f x.1) then none else some ((runsOf f (l ++ l) 0).foldl max 0)

/-- GATE.MAX_OPEN of an offset, ns (R353). -/
def GList.maxOpen (g : GList) (o : Nat) : Nat :=
  match g.longest fun e => gateBit e o with
  | some n => n / 65536
  | none => 0xFFFFFFFF

/-- In this entry no gated queue's gate is open (R83). -/
def GList.isGap (g : GList) (e : Nat) : Bool := (List.range 16).all fun o => !(g.gated o && gateBit e o)

/-- A gap of at least n ns occurs in the list's cycle (R83): an empty list has no gated queue. -/
def GList.hasGap (g : GList) (n : Nat) : Bool :=
  match g.longest g.isGap with
  | some m => decide (n * 65536 ≤ m)
  | none => true

/-- From time t to lim no gated queue's gate is open (R83): under the list until ct, then under the copied one, whose view runs `skew` ahead. -/
def gapFrom (g : GList) (ct : Option Int) (next : GList) (skew : Int) (lim : Int) : Nat → Int → Bool
  | 0, _ => false
  | n + 1, t =>
    if lim ≤ t then true
    else
      let use := match ct with | some c => decide (c ≤ t) | none => false
      match (if use then (next.entry none (t + skew)).map fun x => (x.1, x.2 - skew) else g.entry ct t) with
      | none => if use then true else match ct with | some c => gapFrom g ct next skew lim n c | none => true
      | some x => (if use then next else g).isGap x.1 && gapFrom g ct next skew lim n x.2

/-- Before ct a further gap of at least 4 µs comes, after the one that holds now (R83): `left` once that is over, s the start of the run of gaps at t. -/
def gapLater (g : GList) (ct : Int) : Nat → Bool → Int → Int → Bool
  | 0, _, _, _ => false
  | n + 1, left, s, t =>
    if ct ≤ t then false
    else match g.entry (some ct) t with
      | none => false
      | some x =>
        if !g.isGap x.1 then gapLater g ct n true x.2 x.2
        else if left && decide (4000 * 65536 ≤ x.2 - s) then true else gapLater g ct n left s x.2

/-- How far the view of a pending list runs ahead of the operational list's view. -/
def Dev.viewSkew (k : Clk) (d : Dev) (p : Nat) (g : GList) : Int :=
  ((d.viewNow k g.view : Nat) : Int) - d.viewNow k (d.n Od.GATE_OPER_VIEW p)

/-- The change time pending on a port, in the operational list's view (R348, R351). -/
def Dev.changeAt (k : Clk) (d : Dev) (p : Nat) : Option Int :=
  (d.gatePend false p).map fun g => ((g.ct * 65536 : Nat) : Int) - d.viewSkew k p g.list

/-- A list becomes a port's operational list (R348, R353). -/
def Dev.gateChange (p : Nat) (g : GPend) (d : Dev) : Dev :=
  let d : Dev := { d with gpend := d.gpend.filter fun x => !(!x.stream && x.unit == p) }
  let d := d.clearInst Od.GATE_OPER_LIST p
  let d := d.each g.list.entries.zipIdx fun d x => d.put Od.GATE_OPER_LIST p x.1 x.2
  let d := (d.put Od.GATE_OPER_ENTRIES p g.list.entries.length).put Od.GATE_OPER_BASE_TIME p (nsTime80 g.list.base)
  let d := ((d.put Od.GATE_OPER_CYCLE p g.list.cycle).put Od.GATE_OPER_CYCLE_EXTENSION p g.list.ext).put Od.GATE_OPER_VIEW p g.list.view
  let d := (d.put Od.GATE_CONFIG_PENDING p 0).bump Od.GATE_CONFIG_CHANGES p
  let l := d.operList p
  d.each (List.range 16) fun d o => d.put Od.GATE_MAX_OPEN p (l.maxOpen o) o

/-- A change whose clock has come is made (R348, R358): w is the view time 70 ns on. -/
def Dev.gateDue (k : Clk) (p : Nat) (d : Dev) : Dev :=
  match d.gatePend false p with
  | some g => if g.ct ≠ 0 ∧ g.ct * 65536 ≤ d.viewNow k g.list.view + 70 * 65536 then d.gateChange p g else d
  | none => d

/-- A hold of n ns beginning now falls in a gap of the port's list, or of the one that takes over in it. -/
def Dev.inGap (k : Clk) (d : Dev) (p n : Nat) : Bool :=
  let g := d.operList p
  let t : Int := d.viewNow k g.view
  let next := ((d.gatePend false p).map (·.list)).getD {}
  gapFrom g (d.changeAt k p) next (d.viewSkew k p next) (t + n * 65536) 4096 t

/-- A list without a gap is to take over, and the gap that holds now is not the last one before it (R83). -/
def Dev.laterGap (k : Clk) (d : Dev) (p : Nat) : Bool :=
  let g := d.operList p
  let t : Int := d.viewNow k g.view
  match d.gatePend false p, d.changeAt k p with
  | some x, some c => !x.list.hasGap 4000 && gapLater g c 20000 false t t
  | _, _ => false

/-- Wire time of n bytes at a rate of `bitsTick` bits a tick, in 2⁻¹⁶ ns rounded up (R351). -/
def wireTime (bitsTick n : Nat) : Nat := ceilDiv (8 * n * 500 * 65536) bitsTick

end Sys2Proof.Machine
end

