-- ==== Sys2Proof/Machine/Fabric.lean ====
section
/-! DEFINITION. Ports and octets (R59, R65), the fabric's records and counts (R239 to R252), flow control by count (R109), release of references
(R261 to R264), spill counts (R277 to R283), credit (R284 to R289) and the holding and flushing of queues (R291 to R296). -/
namespace Sys2Proof.Machine

/-- The device is in maintenance mode (R525, R674). -/
def Dev.maint (d : Dev) : Bool := d.on Rg.MAINT 0

/-- A replay is running (R526). -/
def Dev.replaying (d : Dev) : Bool := d.n Od.REPLAY_STATE 0 == 2

/-- A replay is done: no queue is served and no frame enters (R530). -/
def Dev.replayed (d : Dev) : Bool := d.n Od.REPLAY_STATE 0 == 3

/-- The clock rules go by: the replay's while one runs (R526). -/
def Dev.rk (d : Dev) (k : Clk) : Clk :=
  if d.replaying then { tick := d.n Od.REPLAY_TICK 0, len := d.n Rg.REPLAY_LEN 0, c := k.c, raw := d.n Rg.REPLAY_RAW 0 } else k

/-- Width of the ports of an octet mode (R65); 0 for OFF. -/
def modeWidth (m : Nat) : Nat := match m with | 0 => 8 | 1 => 4 | 2 => 2 | 3 => 1 | _ => 0

/-- Width of port p, 0 where the octet's mode gives no such port (R65). -/
def Dev.portWidth (d : Dev) (p : Nat) : Nat :=
  let w := modeWidth (d.n Od.OCTET_MODE (p / 8))
  if decide (p < 1024) && w != 0 && p % w == 0 then w else 0

/-- The port exists (R65). -/
def Dev.portExists (d : Dev) (p : Nat) : Bool := d.portWidth p != 0

/-- Every existing port, rising. -/
def Dev.ports (d : Dev) : List Nat := (List.range 1024).filter d.portExists

/-- Data bits per lane per tick of an octet rate (R59). -/
def laneBits (r : Nat) : Nat := match r with | 0 => 100000 | 1 => 50000 | 2 => 25000 | 3 => 12500 | _ => 5000

/-- Data bits per lane per tick of a port. -/
def Dev.portLane (d : Dev) (p : Nat) : Nat := laneBits (d.n Od.OCTET_RATE (p / 8))

/-- The port runs a PAM4 rate (R59). -/
def Dev.pam4 (d : Dev) (p : Nat) : Bool := decide (d.n Od.OCTET_RATE (p / 8) ≤ 2)

/-- A port's data rate in force, bits per tick (R84). -/
def Dev.portRate (d : Dev) (p : Nat) : Nat := d.n Od.PORT_ACTIVE_LANES p * d.portLane p

/-- States of PORT.LINK.STATE (R87). -/
def lkDISABLED : Nat := 0
def lkTRAINING : Nat := 1
def lkUP : Nat := 2
def lkCHANGEOVER : Nat := 3
def lkPARKED : Nat := 4
def lkDOWN : Nat := 5
def lkNO_REFCLK : Nat := 6

/-- A port's link state. -/
def Dev.link (d : Dev) (p : Nat) : Nat := d.n Od.PORT_LINK_STATE p

/-- The port is in service (R292). -/
def Dev.inService (d : Dev) (p : Nat) : Bool := d.link p == lkUP || d.link p == lkCHANGEOVER

/-- The port receives frames (R97). -/
def Dev.receives (d : Dev) (p : Nat) : Bool := d.link p == lkUP || d.link p == lkCHANGEOVER || d.link p == lkPARKED

/-- Cells n bytes take (R239). -/
def cellsOf (n : Nat) : Nat := ceilDiv n 256

/-- The trunk a port is listed in, by neighbour (R416). -/
def Dev.trunkOf (d : Dev) (p : Nat) : Option Nat :=
  (List.range 8).find? fun n => (d.elems Od.MAT_TRUNK_PORTS n 16).contains (2 ^ 15 + p)

/-- The port is in mat mode (R416). -/
def Dev.matMode (d : Dev) (p : Nat) : Bool := d.on Od.MAT_ENABLE 0 && (d.trunkOf p).isSome

/-- Class c of port p is credit-controlled (R284). -/
def Dev.creditClass (d : Dev) (p c : Nat) : Bool := d.matMode p && bit (d.n Od.FAB_CREDIT_ENABLE p) c

/-- The port's sorus and pipeline (R24). -/
def sorusOf (p : Nat) : Nat := p / 128
def pipeOf (p : Nat) : Nat := p / 16

/-- Buffer size and cells of each pool (R303). -/
def poolSize (k : Nat) : Nat := [256, 2048, 9216, 16384].getD k 0
def poolCells (k : Nat) : Nat := [1, 8, 36, 64].getD k 0

/-- A record by its number. -/
def Dev.frame (d : Dev) (id : Nat) : Option FrameRec := d.frames.find? (·.id == id)

/-- Change a record. -/
def Dev.updFrame (d : Dev) (id : Nat) (f : FrameRec → FrameRec) : Dev :=
  { d with frames := d.frames.map fun x => if x.id == id then f x else x }

/-- Stored bytes of a record that have arrived by the clock: all once COMPLETE, before that those handed over and what the port's rate has
brought since (log entry 11). -/
def FrameRec.arrived (k : Clk) (f : FrameRec) : Nat :=
  if f.complete then f.stored.length else min f.stored.length (f.head + (k.clock - f.handClock) * f.rIn / 6400)

/-- Cells written so far (R241): the whole ones of a frame whose tail is not in. -/
def FrameRec.cells (k : Clk) (f : FrameRec) : Nat := if f.complete then cellsOf f.stored.length else f.arrived k / 256

/-- Cells counted in the sum of RESERVED that R250 subtracts: a spilled frame counts the cells whose refill was issued (R280). -/
def FrameRec.held (f : FrameRec) : Nat := if f.spilled then f.issued else f.reserved

/-- Sum of RESERVED over records in use, as R250 subtracts it. -/
def Dev.cellsHeld (d : Dev) : Nat := (d.frames.map FrameRec.held).sum

/-- Cells of every buffer on chip (R303). -/
def Dev.poolHeld (d : Dev) : Nat := ((d.bufs.filter fun b => b.slot.isNone || b.stashing).map fun b => poolCells b.pool).sum

/-- Cells the quarantine list holds out of use: those not pending (R316). -/
def Dev.quarantined (d : Dev) : Nat :=
  ((List.range (d.n Od.POOL_QUARANTINE_COUNT 0)).filter fun e => !bit (d.n Od.POOL_QUARANTINE_LIST 0 e) 31).length

/-- Cells now in HBM (R297). -/
def Dev.cellsOut (d : Dev) : Nat := (d.frames.map (·.home.length)).sum

/-- Free cells (R250): one released in this clock is free from the next. -/
def Dev.freeAll (d : Dev) : Nat := 1048576 - d.quarantined - d.poolHeld - d.cellsHeld - d.n Rg.LOST_CELLS 0 - d.now.freed

/-- Free cells for every purpose but refill: less REFILL_FLOOR while cells are spilled (R280). -/
def Dev.freeCells (d : Dev) : Nat := d.freeAll - (if d.cellsOut = 0 then 0 else d.n Od.FAB_SPILL_REFILL_FLOOR 0)

/-- Free descriptors (R248). -/
def Dev.freeDescs (d : Dev) : Nat := 2097152 - d.copies.length - (d.tx.filter fun t => decide (t.path < 3)).length

/-- Copies waiting in a queue, head first. -/
def Dev.queue (d : Dev) (q : Nat) : List Copy := d.copies.filter (·.queue == q)

/-- Depth of a queue in cells (R251). -/
def Dev.depth (d : Dev) (q : Nat) : Nat :=
  ((d.frames.filter fun f => d.copies.any fun c => c.queue == q && c.fr == f.id).map (·.reserved)).sum

/-- The ingress count of R252 for a port and class. -/
def Dev.ingress (d : Dev) (p c : Nat) : Nat :=
  ((d.frames.filter fun f => f.srcPort == p && f.acct == c).map (·.reserved)).sum

/-- Cells of a record held in banks (R278). -/
def FrameRec.onChip (f : FrameRec) : Nat := if f.spilled then f.placed else f.reserved

/-- On-chip depth of a port: over its sixteen queues (R278). -/
def Dev.onChip (d : Dev) (p : Nat) : Nat :=
  ((List.range 16).map fun o =>
    ((d.frames.filter fun f => d.copies.any fun c => c.queue == 16 * p + o && c.fr == f.id).map FrameRec.onChip).sum).sum

/-- Queued bytes of a port (R335): once per copy. -/
def Dev.queuedBytes (k : Clk) (d : Dev) (p : Nat) : Nat :=
  ((d.copies.filter fun c => c.queue / 16 == p).map fun c => match d.frame c.fr with | some f => f.arrived k | none => 0).sum

/-- Pages of a queue in use (R277, R283): each holds a cell, or held one in this clock. -/
def Dev.queuePages (d : Dev) (q : Nat) : Nat :=
  let own := d.frames.filter fun f => d.copies.any fun c => c.queue == q && c.fr == f.id
  let here : List Nat := own.flatMap fun f => f.home.map (· / 8)
  let left : List Nat := (d.now.pages.filter fun x => x.1 == q).map fun x => x.2
  (here ++ left).dedup.length

/-- Pages in use over all queues. -/
def Dev.pagesUsed (d : Dev) : Nat :=
  let here : List Nat := d.frames.flatMap fun f => f.home.map (· / 8)
  let left : List Nat := d.now.pages.map fun x => x.2
  (here ++ left).dedup.length

/-- The credit floor (R289). -/
def Dev.creditFloor (d : Dev) : Nat :=
  if d.on Od.MAT_ENABLE 0 then
    ((d.ports.filter fun p => d.matMode p && d.link p == lkUP).map fun p =>
      (((List.range 8).filter fun c => d.creditClass p c).map fun c =>
        d.n Od.FAB_CREDIT_CELLS p c + cellsOf (d.n Od.PORT_MTU p - 4) - d.ingress p c).sum).sum
  else 0

/-- DRAIN_COUNT of an epoch falls by n (R167). -/
def Dev.drain (d : Dev) (epoch n : Nat) : Dev := d.put Od.CLASS_DRAIN_COUNT 0 (d.n Od.CLASS_DRAIN_COUNT 0 epoch - n) epoch

/-- DRAIN_COUNT of an epoch rises by n. -/
def Dev.fill (d : Dev) (epoch n : Nat) : Dev := d.put Od.CLASS_DRAIN_COUNT 0 (d.n Od.CLASS_DRAIN_COUNT 0 epoch + n) epoch

/-- A frame of the MAC's own, padded to 64 bytes with its FCS (R109, R74). -/
def controlFrame (body : List Byte) : List Byte := let b := sliceZ body 0 60; b ++ fcsBytes b

/-- Bits of a frame of n bytes in the load of R77, received or sent. -/
def Dev.loadRx (d : Dev) (p n : Nat) : Dev :=
  (d.put Rg.SHED_RX p (d.n Rg.SHED_RX p + (n + 20) * 8)).put Rg.RESTORE_RX p (d.n Rg.RESTORE_RX p + (n + 20) * 8)
def Dev.loadTx (d : Dev) (p n : Nat) : Dev :=
  (d.put Rg.SHED_TX p (d.n Rg.SHED_TX p + (n + 20) * 8)).put Rg.RESTORE_TX p (d.n Rg.RESTORE_TX p + (n + 20) * 8)

/-- A frame of n bytes counts in the port's window (R487), received or sent. -/
def Dev.winRx (p n : Nat) (d : Dev) : Dev := (d.put Rg.WIN p (d.n Rg.WIN p 0 + 1) 0).put Rg.WIN p (d.n Rg.WIN p 1 + n) 1
def Dev.winTx (p n : Nat) (d : Dev) : Dev := (d.put Rg.WIN p (d.n Rg.WIN p 2 + 1) 2).put Rg.WIN p (d.n Rg.WIN p 3 + n) 3

/-- A received frame's last byte counts in the port's window (R487) and its load (R77); the same for a sent one. -/
def Dev.rxLoad (p n : Nat) (d : Dev) : Dev := (d.loadRx p n).winRx p n
def Dev.txLoad (p n : Nat) (d : Dev) : Dev := (d.loadTx p n).winTx p n

/-- A frame that the MAC consumes has been received whole (R88, R85, R86): f takes it. -/
def Dev.control (port len : Nat) (f : Dev → Dev) (d : Dev) : Dev :=
  if d.link port = lkPARKED then (if d.n Od.PORT_ACTIVE_LANES port = 0 then d else (d.rxLoad port len).bump Od.PORT_PARKED_DROPS port)
  else if d.receives port then f (d.rxLoad port len)
  else d

/-- A right frame of a trunk that carries no data, of 82 bytes (R287, R420, R445): f takes it; in maintenance it is discarded (R525). -/
def Dev.trunkFrame (port : Nat) (f : Dev → Dev) (d : Dev) : Dev :=
  if d.matMode port then
    d.control port 82 fun d => if d.maint then d.bump Od.REPLAY_RX_DISCARDED 0 else f (d.pair Od.PORT_RX_GOOD port 82)
  else d

/-- The copy in transmission on a path of a port. -/
def Dev.txOn (d : Dev) (p path : Nat) : Option TxCopy := d.tx.find? fun t => t.port == p && t.path == path

/-- A frame of the MAC's own may leave now (log entry 13): none during a changeover hold (R81); a shedding frame other than SWITCHED and RESTORE_NOW where
the whole of it lies in a gap (R83); any other after the express frame in transmission (R109, R288, R420), but for the time frames of R445, which leave in the
clock of their command. A trunk port sends at most one CONTROL frame (type 0x13) in a tick, in their order (R420). -/
def Dev.mayLeave (k : Clk) (d : Dev) (o : Out) : Bool :=
  let p := o.unit
  let type := o.vals.headD 0
  let control := fun (x : Out) => x.unit == p && x.kind == .control && x.vals.headD 0 == 0x13
  d.n Rg.CHG_PHASE p != 3 && !(control o && (d.n Rg.CONTROL_SENT p == k.tick + 1 || d.ctl.any control)) &&
    (match o.kind with
    | .shed => type == 5 || type == 6 || d.inGap k p (ceilDiv (wireTime (max 1 (d.portRate p)) 84) 65536)
    | _ => decide (type = 0x14 ∨ type = 0x15) || ((d.txOn p 0).isNone && (d.n Od.PORT_PREEMPT_STATUS p == 2 || (d.txOn p 1).isNone)))

/-- A frame of the MAC's own leaves and is counted (R75, R77, R109, R420, R487): an mPacket of verification (type 16) is no frame. PAUSE
and PFC frames count in their own pairs and not in PORT.TX.GOOD (DESIGN CHOICE, log entry 40). -/
def Dev.macEmit (k : Clk) (o : Out) (d : Dev) : Dev :=
  let p := o.unit
  let n := o.bytes.length
  let type := o.vals.headD 0
  let d := d.when (o.kind == .control && type == 0x13) fun d => d.put Rg.CONTROL_SENT p (k.tick + 1)
  let d := match o.kind with
    | .shed => d.winTx p n
    | _ => if type = 16 then d else (d.txLoad p n).pair (if type = 1 then Od.PORT_TX_PAUSE else if type = 2 then Od.PORT_TX_PFC else Od.PORT_TX_GOOD) p n
  d.emit o

/-- A frame of the MAC's own is sent, or waits until it may leave. -/
def Dev.macSend (k : Clk) (o : Out) (d : Dev) : Dev := if d.mayLeave k o then d.macEmit k o else { d with ctl := d.ctl ++ [o] }

/-- The waiting frames of the MACs that may leave now. -/
def Dev.macFlush (k : Clk) (d : Dev) : Dev := ({ d with ctl := [] } : Dev).each d.ctl fun d o => d.macSend k o

/-- One frame asks for holds of classes, each with its quanta (R109). -/
def Dev.flowRequest (k : Clk) (p : Nat) (cs : List (Nat × Nat)) (d : Dev) : Dev :=
  let src := bytesBE 6 (d.n Od.PORT_MAC_ADDRESS p)
  let head := [0x01, 0x80, 0xC2, 0x00, 0x00, 0x01] ++ src ++ [0x88, 0x08]
  if cs.isEmpty || !d.inService p || d.maint then d
  else if d.n Od.PORT_FLOW_MODE p = 1 then
    let q := (cs.headD (0, 0)).2
    d.macSend k { kind := .control, unit := p, vals := [1, q], bytes := controlFrame (head ++ [0x00, 0x01] ++ bytesBE 2 q) }
  else
    let of := fun i => cs.find? fun x => x.1 == d.n Od.PORT_PFC_CLASS_MAP p i
    let named := (List.range 8).filter fun i => (of i).isSome
    let body := bytesBE 2 ((named.map fun i => 2 ^ i).sum) ++ (List.range 8).flatMap fun i => bytesBE 2 (((of i).map (·.2)).getD 0)
    d.macSend k { kind := .control, unit := p, vals := [2], bytes := controlFrame (head ++ [0x01, 0x01] ++ body) }

/-- The classes for which a port sends flow control (R104, R109). -/
def Dev.flowClasses (d : Dev) (p : Nat) : List Nat :=
  if d.n Od.PORT_FLOW_MODE p = 0 then []
  else (List.range 8).filter fun c => bit (d.n Od.PORT_FLOW_TX_ENABLE p) c && d.n Od.PORT_FLOW_XOFF p c != 0

/-- The test of R109 for one port in one clock: classes are asserted and deasserted, and the requests of the clock go out. -/
def Dev.flowTest (k : Clk) (p : Nat) (d : Dev) : Dev :=
  let count := fun c => 256 * d.ingress p c
  let was := d.n Rg.ASSERTED p
  let cs := d.flowClasses p
  let up := cs.filter fun c => !bit was c && decide (d.n Od.PORT_FLOW_XOFF p c < count c)
  let down := cs.filter fun c => bit was c && decide (count c < d.n Od.PORT_FLOW_XON p c)
  if up.isEmpty && down.isEmpty then d
  else
    let now := down.foldl clearBit (up.foldl setBit was)
    let q := d.n Od.PORT_FLOW_TX_QUANTA p
    let d := (d.put Rg.ASSERTED p now).each up fun d c => d.put Rg.FLOW_LAST p (k.tick + 1) c
    let ask := up.map fun c => (c, q)
    let free := down.map fun c => (c, 0)
    if d.n Od.PORT_FLOW_MODE p = 1 then d.flowRequest k p (if !up.isEmpty then ask else if cs.any (bit now) then [] else free)
    else d.flowRequest k p (ask ++ free)

/-- The test of R109 for every port, made at every clock. -/
def Dev.flowTests (k : Clk) (d : Dev) : Dev :=
  d.each ((d.insts Od.PORT_FLOW_TX_ENABLE ++ d.insts Rg.ASSERTED).dedup) fun d p => d.flowTest k p

/-- The receiver's grant of a trunk class rises by the cells of a frame that ceases to hold anything (R286). -/
def Dev.grant (d : Dev) (p c len : Nat) : Dev :=
  if d.creditClass p c then d.put Od.FAB_CREDIT_GRANTED p ((d.n Od.FAB_CREDIT_GRANTED p c + cellsOf (len - 4)) % 2 ^ 32) c else d

/-- Pending quarantined cells leave use when nothing holds them: surely once no cell is held, else as the free value says (R316, log entry 8). -/
def Dev.settleQuarantine (d : Dev) : Dev :=
  let used := d.cellsHeld + d.poolHeld
  d.each (List.range (d.n Od.POOL_QUARANTINE_COUNT 0)) fun d e =>
    let v := d.n Od.POOL_QUARANTINE_LIST 0 e
    if bit v 31 && (used == 0 || !Config.cellHeld d.freeCtr (bits v 19 0)) then
      { d.put Od.POOL_QUARANTINE_LIST 0 (bits v 19 0) e with freeCtr := d.freeCtr + 1 }
    else d

/-- Nothing of a record is planned or read for refill any more. -/
def Dev.unplan (d : Dev) (id : Nat) : Dev := { d with plan := d.plan.filter (· != id), flight := d.flight.filter (·.1 != id) }

/-- A record and its cells become free (R263), and credit of its port follows (R286). -/
def Dev.freeRecord (f : FrameRec) (d : Dev) : Dev :=
  let d := ({ d with frames := d.frames.filter (·.id != f.id) } : Dev).unplan f.id
  (if f.creditCls < 8 then d.grant f.srcPort f.creditCls f.rxLength else d).settleQuarantine

/-- As a clock ends, the records without a reference whose tails are in become free; without the tail, their cells in HBM are discarded (R263). -/
def Dev.freeRecords (d : Dev) : Dev :=
  let d := d.each (d.frames.filter fun f => f.refs == 0 && f.complete) fun d f => d.freeRecord f
  d.each (d.frames.filter fun f => f.refs == 0 && !f.home.isEmpty) fun d f => (d.updFrame f.id fun f => { f with home := [] }).unplan f.id

/-- A release of no reference is refused (R264): counted, with its event and fault. -/
def Dev.refFault (k : Clk) (owner shown : Nat) (d : Dev) : Dev :=
  ((d.bump Od.FAB_REF_FAULTS 0).event k 0x0A01 0 0 (bytesLE 4 shown ++ bytesLE 2 owner)).fault 9 8 shown

/-- A holder releases its reference (R262): of one clock's releases the highest owner code stands in LAST_OWNER. What FRAME_ID a release of a free record
names is a free value. -/
def Dev.release (k : Clk) (owner id : Nat) (d : Dev) : Dev :=
  match d.frame id with
  | some f =>
    if f.refs = 0 then d.refFault k owner f.shown
    else d.updFrame id fun f =>
      { f with refs := f.refs - 1, relClock := k.clock + 1, lastOwner := if f.relClock = k.clock + 1 then max owner f.lastOwner else owner }
  | none => ({ d with freeCtr := d.freeCtr + 1 } : Dev).refFault k owner (Config.frameId d.freeCtr).toNat

/-- The owner code of a copy in a queue (R242). -/
def ownerOf (q : Nat) : Nat := if q < 16384 then q else 0x4000 + (q - 16384)

/-- Take a copy out of its queue. -/
def Dev.unqueue (d : Dev) (c : Copy) : Dev := { d with copies := d.copies.erase c }

/-- A queued copy is flushed (R296). -/
def Dev.flushCopy (k : Clk) (d : Dev) (c : Copy) : Dev :=
  (((d.unqueue c).pair Od.FAB_QUEUE_FLUSHED c.queue c.desc.rxLength).drain c.desc.epoch 1).release k (ownerOf c.queue) c.fr

/-- Every copy in a port's queues is flushed; the number flushed. -/
def Dev.flushPort (k : Clk) (p : Nat) (d : Dev) : Nat × Dev :=
  let l := d.copies.filter fun c => decide (c.queue < 16384) && c.queue / 16 == p
  (l.length, d.each l (Dev.flushCopy k))

/-- A hold runs out: the queues are flushed and refuse new copies (R293). -/
def Dev.holdOut (k : Clk) (p : Nat) (d : Dev) : Dev :=
  let r := d.flushPort k p
  (r.2.put Od.PORT_HOLD_STATE p 2).event k 0x0A05 p r.1 []

/-- A port leaves service (R292): its hold begins in the tick now open, its waits for credit end (R290). -/
def Dev.leaveService (k : Clk) (p : Nat) (d : Dev) : Dev :=
  let d := (d.put Od.PORT_HOLD_STATE p 1).put Rg.HOLD_START p (d.rk k).tick
  let d := d.each (List.range 16) fun d o => d.clearInst Rg.CREDIT_WAIT (16 * p + o)
  if d.n Od.PORT_HOLD_TIME p = 0 then d.holdOut k p else d

/-- A port leaves UP (R291): its credit is void, and so is what its copies in transmission have debited. -/
def Dev.leaveUp (p : Nat) (d : Dev) : Dev :=
  let d := d.each (List.range 8) fun d c => ((d.put Rg.CREDIT_G p 0 c).put Rg.CREDIT_U p 0 c).put Od.FAB_CREDIT_GRANTED p 0 c
  { d with tx := d.tx.map fun (t : TxCopy) => if t.port == p then { t with debit := 0 } else t }

/-- A port becomes UP (R286): the receiver of a trunk starts its grants. -/
def Dev.enterUp (p : Nat) (d : Dev) : Dev :=
  d.each (List.range 8) fun d c => d.when (d.creditClass p c) fun d => d.put Od.FAB_CREDIT_GRANTED p (d.n Od.FAB_CREDIT_CELLS p c) c

/-- The frames of a port's MAC that wait to leave and cannot in its state: none leaves a port that is down, no request of R109 a parked one. -/
def Dev.dropCtl (p : Nat) (d : Dev) : Dev :=
  { d with ctl := d.ctl.filter fun o => o.unit != p || d.inService p || (d.link p == lkPARKED && o.kind == .shed) }

/-- PORT.LINK.STATE becomes st, with what leaving or entering service and UP brings (R286, R291, R292, R294). -/
def Dev.setLink (k : Clk) (p st : Nat) (d : Dev) : Dev :=
  let was := d.link p
  let e := d.put Od.PORT_LINK_STATE p st
  let e := if d.inService p && !e.inService p then e.leaveService k p else if e.inService p then e.put Od.PORT_HOLD_STATE p 0 else e
  let e := if was = lkUP ∧ st ≠ lkUP then e.leaveUp p else if was ≠ lkUP ∧ st = lkUP then e.enterUp p else e
  (if st = lkUP ∨ st = lkCHANGEOVER ∨ st = lkPARKED then e else e.put Od.PORT_SHED_PEER_CAPABLE p 0).dropCtl p

end Sys2Proof.Machine
end

