-- ==== Sys2Proof/Machine/Pools.lean ====
section
/-! DEFINITION. The buffer pool manager (R303 to R317): choosing a pool, allocating, freeing, handing over, adopting, quarantine, stash slots. -/
namespace Sys2Proof.Machine

/-- The smallest enabled pool whose buffers hold n bytes (R304). -/
def Dev.poolFor (d : Dev) (n : Nat) : Option Nat :=
  (List.range 4).find? fun k => decide (max n 1 ≤ poolSize k) && d.on Od.POOL_BUFFERS k

/-- The buffers in use of a pool. -/
def Dev.poolBufs (d : Dev) (k : Nat) : List Buf := d.bufs.filter (·.pool == k)

/-- The indexes of a pool that an allocation of this clock cannot take: in use, or given back in it (R309). -/
def Dev.poolTaken (d : Dev) (k : Nat) : List Nat := (d.poolBufs k).map (·.idx) ++ (d.now.gone.filter fun x => x.1 == k).map (·.2)

/-- The lowest free index of a pool (R306). -/
def Dev.poolIndex (d : Dev) (k : Nat) : Nat :=
  ((List.range ((d.poolTaken k).length + 1)).find? fun i => !(d.poolTaken k).contains i).getD 0

/-- Generation of a buffer index (R306). -/
def Dev.poolGen (d : Dev) (k i : Nat) : Nat := d.n Rg.POOL_GEN (k * 8 + i / 32768) (i % 32768)

/-- The generation advances modulo 64 (R306). -/
def Dev.bumpGen (d : Dev) (k i : Nat) : Dev := d.put Rg.POOL_GEN (k * 8 + i / 32768) ((d.poolGen k i + 1) % 64) (i % 32768)

/-- A buffer's handle (R306). -/
def Buf.handle (b : Buf) : Nat := b.pool * 2 ^ 30 + b.gen * 2 ^ 24 + b.idx

/-- Cells of outstanding transfers (R313). -/
def Dev.xferBacklog (d : Dev) : Nat := (d.bufs.map (·.xfer)).sum

/-- Allocate a buffer of n bytes for an owner (R308): the status of R312, and the handle when it is 0. -/
def Dev.alloc (owner n : Nat) (transfer : Bool) (d : Dev) : Nat × Nat × Dev :=
  match d.poolFor n with
  | none => (1, 0, d.bump Od.POOL_NO_POOL 0)
  | some p =>
    let c := poolCells p
    if d.n Od.POOL_BUFFERS p ≤ (d.poolTaken p).length then (2, 0, d.bump Od.POOL_REFUSED_LIMIT p)
    else if d.freeCells < c then (3, 0, d.bump Od.POOL_REFUSED_CELLS p)
    else if d.freeCells - c < d.n Od.POOL_ADMIT_FLOOR p then (4, 0, d.bump Od.POOL_REFUSED_FLOOR p)
    else if transfer ∧ d.n Od.POOL_TRANSFER_LIMIT 0 < d.xferBacklog + c then (5, 0, d.bump Od.POOL_REFUSED_TRANSFER p)
    else
      let i := d.poolIndex p
      let b : Buf := { pool := p, idx := i, gen := d.poolGen p i, owner := owner, xfer := if transfer then c else 0 }
      let d := ({ d with bufs := d.bufs ++ [b] } : Dev).bump Od.POOL_ALLOCS p
      (0, b.handle, { d with now := { d.now with pool := d.now.pool ++ [(p, owner)] } })

/-- Would an owner's allocation of n bytes now come before one its pool has served in this clock (R50, R51)? -/
def Dev.poolLate (k : Clk) (owner n : Nat) (d : Dev) : Bool :=
  match d.poolFor n with
  | none => false
  | some p => d.now.pool.any fun x => x.1 == p && decide (rotation k owner 26 < rotation k x.2 26)

/-- The buffer a handle names. -/
def Dev.buf (d : Dev) (h : Nat) : Option Buf := d.bufs.find? (·.handle == h)

/-- Change a buffer. -/
def Dev.updBuf (d : Dev) (h : Nat) (f : Buf → Buf) : Dev := { d with bufs := d.bufs.map fun b => if b.handle == h then f b else b }

/-- The check every operation on a buffer meets (R310): status and the owner code that stands for the buffer. -/
def Dev.bufCheck (d : Dev) (h owner : Nat) : Nat × Nat :=
  if bits h 23 18 ≠ 0 ∨ 262144 ≤ bits h 17 0 then (8, 0xFF)
  else match d.buf h with
    | none => (6, ((d.bufs.find? fun b => b.pool == bits h 31 30 && b.idx == bits h 17 0).map (·.owner)).getD 0xFF)
    | some b => if b.owner = owner then (0, owner) else (7, b.owner)

/-- A refused operation is counted, raises POOL_FREE_FAULT and is a fault of the pool manager (R311). -/
def Dev.bufRefuse (k : Clk) (h owner status holder : Nat) (d : Dev) : Dev :=
  let p := bits h 31 30
  let d := if status = 8 then d.bump Od.POOL_BAD_HANDLE 0 else if status = 6 then d.bump Od.POOL_DOUBLE_FREES p else d.bump Od.POOL_FOREIGN_FREES p
  let d := d.event k 0x0B01 p 0 (bytesLE 4 h ++ [BitVec.ofNat 8 owner, BitVec.ofNat 8 holder, BitVec.ofNat 8 status])
  if owner < 8 then d.fault 11 owner owner else if owner < 24 then d.fault 10 8 (owner - 8) else d

/-- A buffer's cells leave it: they join the free cells from the next clock (R250). -/
def Dev.bufCellsGone (d : Dev) (b : Buf) : Dev :=
  if b.slot.isNone || b.stashing then { d with now := { d.now with freed := d.now.freed + poolCells b.pool } } else d

/-- Take a buffer out of its pool; its generation advances (R306, R310), and its index is free from the next clock (R309). -/
def Dev.dropBuf (d : Dev) (b : Buf) : Dev :=
  let d : Dev := { d with now := { d.now with gone := d.now.gone ++ [(b.pool, b.idx)] } }
  (({ d.bufCellsGone b with bufs := d.bufs.filter (·.handle != b.handle) } : Dev).bumpGen b.pool b.idx).settleQuarantine

/-- An operation on a buffer is made in this clock. -/
def Dev.bufOp (h owner : Nat) (d : Dev) : Dev := { d with now := { d.now with bufOps := d.now.bufOps ++ [(h, owner)] } }

/-- An operation on the buffer of a handle comes behind one that a higher requester code made in this clock (R310). -/
def Dev.bufLate (h owner : Nat) (d : Dev) : Bool :=
  d.now.bufOps.any fun x => bits x.1 31 30 == bits h 31 30 && bits x.1 17 0 == bits h 17 0 && decide (owner < x.2)

/-- FREE (R310): the status. -/
def Dev.freeBuf (k : Clk) (h owner : Nat) (d : Dev) : Nat × Dev :=
  let c := d.bufCheck h owner
  let d := d.bufOp h owner
  if c.1 ≠ 0 then (c.1, d.bufRefuse k h owner c.1 c.2)
  else match d.buf h with
    | some b => (0, d.dropBuf b)
    | none => (6, d)

/-- HAND (R310): the status. -/
def Dev.handBuf (k : Clk) (h owner heir : Nat) (d : Dev) : Nat × Dev :=
  let c := d.bufCheck h owner
  let d := d.bufOp h owner
  if c.1 ≠ 0 then (c.1, d.bufRefuse k h owner c.1 c.2) else (0, d.updBuf h fun b => { b with owner := heir })

/-- A stash slot of a pool that no buffer occupies (R314, R315). -/
def Dev.stashSlot (d : Dev) (p : Nat) : Option Nat :=
  let used := (d.poolBufs p).filterMap (·.slot)
  ((List.range (used.length + 1)).find? fun j => !used.contains j).filter fun j => decide (j < d.n Od.POOL_STASH_SLOTS p)

/-- HBM address of stash slot j of pool p (R315). -/
def Dev.stashAddr (d : Dev) (p j : Nat) : Nat :=
  0x800000000 + ((List.range p).map fun i => d.n Od.POOL_STASH_SLOTS i * poolSize i).sum + j * poolSize p

/-- Use n cell accesses and b HBM bytes of the pool manager's grants in this tick; none when the grants do not hold them (R313). -/
def Dev.xfer (k : Clk) (n b : Nat) (d : Dev) : Option Dev :=
  if d.n Rg.XFER_USED 0 + n ≤ 256 * d.bufGrant k 1 ∧ d.n Rg.XFER_HBM 0 + b ≤ d.n Od.TICK_PLAN_HBM 0 3 then
    some ((d.put Rg.XFER_USED 0 (d.n Rg.XFER_USED 0 + n)).put Rg.XFER_HBM 0 (d.n Rg.XFER_HBM 0 + b))
  else none

/-- Use n cell accesses of host DMA and b HBM bytes of the pool manager in this tick; none when their grants do not hold them (R313). -/
def Dev.dma (k : Clk) (n b : Nat) (d : Dev) : Option Dev :=
  if d.n Rg.DMA_USED 0 + n ≤ 256 * d.bufGrant k 0 ∧ d.n Rg.XFER_HBM 0 + b ≤ d.n Od.TICK_PLAN_HBM 0 3 then
    some ((d.put Rg.DMA_USED 0 (d.n Rg.DMA_USED 0 + n)).put Rg.XFER_HBM 0 (d.n Rg.XFER_HBM 0 + b))
  else none

/-- Is a cell held by a record or buffer? With nothing held it is not; else the placement of cells is open (R240, log entry 8). -/
def Dev.cellInUse (d : Dev) (c : Nat) : Bool := d.cellsHeld + d.poolHeld != 0 && Config.cellHeld d.freeCtr c

/-- A cell joins the quarantine list (R316). -/
def Dev.quarantine (c : Nat) (d : Dev) : Dev :=
  let n := d.n Od.POOL_QUARANTINE_COUNT 0
  if (List.range n).any (fun e => bits (d.n Od.POOL_QUARANTINE_LIST 0 e) 19 0 == c) ∨ 4096 ≤ n then d
  else
    let v := if d.cellInUse c then 2 ^ 31 + c else c
    { (d.put Od.POOL_QUARANTINE_LIST 0 v n).put Od.POOL_QUARANTINE_COUNT 0 (n + 1) with freeCtr := d.freeCtr + 1 }

/-- A cell leaves the quarantine list (R316); the entries above it close up. -/
def Dev.unquarantine (c : Nat) (d : Dev) : Dev :=
  let n := d.n Od.POOL_QUARANTINE_COUNT 0
  let l := (d.elems Od.POOL_QUARANTINE_LIST 0 n).filter fun v => bits v 19 0 != c
  let d := (d.clearObj Od.POOL_QUARANTINE_LIST).put Od.POOL_QUARANTINE_COUNT 0 l.length
  d.each l.zipIdx fun d x => d.put Od.POOL_QUARANTINE_LIST 0 x.1 x.2

end Sys2Proof.Machine
end

