-- ==== Sys2Proof/Machine/Links.lean ====
section
/-! DEFINITION. Link bring-up and loss (R61 to R70, R678), lane shedding (R73 to R84) and parking (R85, R86): the operations that commands and
boundaries share. -/
namespace Sys2Proof.Machine

/-- A port of the device (R5). -/
def okPort (p : Nat) : Bool := decide (p < 1024)

/-- The physical lane of a logical lane (R68). Where the two maps of an octet differ, LANE.STATE follows the RX map: the spec does not say which (DESIGN
CHOICE, log entry 21). -/
def Dev.lanePhys (d : Dev) (l : Nat) : Nat := l / 8 * 8 + d.n Od.OCTET_RX_LANE_MAP (l / 8) (l % 8) % 8

/-- LANE.STATE of n logical lanes from l on becomes st. -/
def Dev.setLanes (d : Dev) (l n st : Nat) : Dev := d.each (List.range n) fun d i => d.put Od.LANE_STATE (d.lanePhys (l + i)) st

/-- An octet's RX lane map is written: the state of each logical lane goes with it to its new physical lane (R68). -/
def Dev.rxMap (o : Nat) (std d : Dev) : Dev :=
  std.each (List.range 8) fun s i => s.put Od.LANE_STATE (s.lanePhys (8 * o + i)) (d.n Od.LANE_STATE (d.lanePhys (8 * o + i)))

/-- The FEC a port runs (R62, R63): 0 none, 1 BASE-R, 2 RS(544,514). -/
def Dev.fecOf (d : Dev) (p : Nat) : Nat :=
  if d.pam4 p then 2
  else match d.n Od.PORT_FEC_MODE p with
    | 1 => 0
    | 2 => 1
    | _ => if d.on Od.OCTET_CHANNEL (p / 8) && d.on Od.PORT_AN_ENABLE p then d.n Rg.AN_FEC p
           else if d.n Od.OCTET_RATE (p / 8) = 3 then 1 else 0

/-- A changeover and an own request are abandoned (R70). -/
def Dev.dropChange (d : Dev) (p : Nat) : Dev := ((d.put Rg.CHG_PHASE p 0).put Rg.REQ_TYPE p 0).put Rg.WAKING p 0

/-- The lanes of a port stop carrying data. -/
def Dev.lanesOff (d : Dev) (p st : Nat) : Dev := (((d.setLanes p (d.portWidth p) st).put Od.PORT_ACTIVE_LANES p 0).put Rg.RX_LANES p 0).dropChange p

/-- An enabled port starts bring-up from step 1 (R67), or has no reference to start on (R60). In a sorus that is reset or parked it starts when the sorus is
restored (R605, R607). -/
def Dev.bringUp (k : Clk) (p : Nat) (d : Dev) : Dev :=
  if !d.portExists p || !d.on Od.PORT_ENABLE p || d.replaying then d
  else if !d.sorusRuns (sorusOf p) then d.put Rg.LOCK_HELD p 0
  else if d.on Rg.REF_FAULT (sorusOf p) then ((d.lanesOff p 0).setLink k p lkNO_REFCLK).put Rg.UP_ORIGIN p 0
  else
    let d := d.each (List.range (d.portWidth p)) fun d i => d.clearInst Rg.AGE_LANE (d.lanePhys (p + i))
    ((((d.lanesOff p 1).setLink k p lkTRAINING).put Rg.UP_ORIGIN p (k.tick + 1)).put Rg.UP_STEPS p 0).put Rg.BAD_CODEWORDS p 0

/-- A port's enable changes (R67). -/
def Dev.portEnable (k : Clk) (p : Nat) (on : Bool) (d : Dev) : Dev :=
  let was := d.on Od.PORT_ENABLE p && d.link p != lkDISABLED
  let d := d.put Od.PORT_ENABLE p (if on then 1 else 0)
  if on then (if was then d else d.bringUp k p)
  else ((d.lanesOff p 0).setLink k p lkDISABLED).put Rg.UP_ORIGIN p 0

/-- A port goes to DOWN (in a replay port states come from its records, R528); under R70 the fall is counted and the port restarts after 1 ms. -/
def Dev.portDown (k : Clk) (p : Nat) (counted : Bool) (d : Dev) : Dev :=
  if d.replaying then d
  else
  let d := (((d.lanesOff p 0).setLink k p lkDOWN).put Rg.UP_ORIGIN p 0).put Rg.BAD_CODEWORDS p 0
  let d := d.when (d.on Od.PORT_PREEMPT_ENABLE p && !d.on Od.PORT_PREEMPT_VERIFY_DISABLE p) fun d => d.put Od.PORT_PREEMPT_STATUS p 1
  if counted then (d.bump Od.PORT_LINK_DOWN_COUNT p).put Rg.DOWN_TICK p (k.tick + 1) else d.put Rg.DOWN_TICK p 0

/-- A verify mPacket, `[16]`, leaves a port in service (R110); the respond mPacket below is `[16, 1]`. -/
def Dev.verifySend (k : Clk) (p : Nat) (d : Dev) : Dev :=
  if d.inService p && !d.maint then (d.put Rg.VERIFY_TICK p (k.tick + 1)).macSend k { kind := .control, unit := p, vals := [16] } else d

/-- The peer's verify mPacket is answered by a respond mPacket while the merge sublayer runs, whatever the status of the device's own verification
(R110). -/
def Dev.verifyAnswer (k : Clk) (p : Nat) (d : Dev) : Dev :=
  d.when (d.on Od.PORT_PREEMPT_ENABLE p && d.inService p && !d.maint) fun d => d.macSend k { kind := .control, unit := p, vals := [16, 1] }

/-- The device's own verification is under way on a port in service (R110). -/
def Dev.verifying (d : Dev) (p : Nat) : Bool := d.n Od.PORT_PREEMPT_STATUS p == 1 && d.inService p

/-- Verification starts, or is skipped (R110). -/
def Dev.verify (k : Clk) (p : Nat) (d : Dev) : Dev :=
  if !d.on Od.PORT_PREEMPT_ENABLE p then d.put Od.PORT_PREEMPT_STATUS p 0
  else if d.on Od.PORT_PREEMPT_VERIFY_DISABLE p then d.put Od.PORT_PREEMPT_STATUS p 2
  else (((d.put Od.PORT_PREEMPT_STATUS p 1).put Rg.VERIFY_TRIES p 0).put Rg.VERIFY_TICK p (k.tick + 1)).verifySend k p

/-- The shed and restore windows of a port start afresh at this boundary (R77). -/
def Dev.windows (k : Clk) (p : Nat) (d : Dev) : Dev :=
  let d := (((d.put Rg.SHED_START p k.tick).put Rg.SHED_RX p 0).put Rg.SHED_TX p 0).put Rg.RESTORE_START p k.tick
  (d.put Rg.RESTORE_RX p 0).put Rg.RESTORE_TX p 0

/-- Which bring-up steps a port must make before PCS lock (R678): 1 signal, 2 auto-negotiation, 4 training. -/
def Dev.stepsNeeded (d : Dev) (p : Nat) : Nat :=
  let kr := d.on Od.OCTET_CHANNEL (p / 8)
  1 + (if kr && d.on Od.PORT_AN_ENABLE p then 2 else 0) + (if kr && d.on Od.PORT_TRAINING_ENABLE p then 4 else 0)

/-- The shedding frame of R74. -/
def Dev.shedFrame (d : Dev) (p type seq target reason : Nat) : Out :=
  { kind := .shed, unit := p, vals := [type, seq, target, reason],
    bytes := controlFrame ([0x01, 0x80, 0xC2, 0x00, 0x00, 0x0E] ++ bytesBE 6 (d.n Od.PORT_SHED_SOURCE_ADDRESS p) ++ [0x88, 0xB5] ++
      [16 + type, seq, d.portWidth p, d.n Od.PORT_ACTIVE_LANES p, target, reason, d.n Od.PORT_SHED_MIN_LANES p].map fun v => BitVec.ofNat 8 v) }

/-- Send a REQUEST (2) or RESTORE_NOW (6) with a new sequence number (R80). -/
def Dev.request (k : Clk) (p type target : Nat) (d : Dev) : Dev :=
  let seq := (d.n Rg.REQ_SEQ p + 1) % 256
  let d := (((d.put Rg.REQ_TYPE p type).put Rg.REQ_TARGET p target).put Rg.REQ_SEQ p seq).put Rg.REQ_TICK p k.tick
  (d.put Rg.REQ_TRIES p 1).macSend k (d.shedFrame p type seq target 0)

/-- A port of fewer lanes than its width asks for its full width with RESTORE_NOW, unless a changeover or such a request is under way (R78). -/
def Dev.restoreNow (k : Clk) (p : Nat) (d : Dev) : Dev :=
  if d.n Od.PORT_ACTIVE_LANES p < d.portWidth p ∧ d.n Rg.REQ_TYPE p ≠ 6 ∧
      ¬ (d.n Rg.CHG_PHASE p ≠ 0 ∧ d.n Rg.CHG_TARGET p = d.portWidth p) then d.request k p 6 (d.portWidth p) else d

/-- The port can shed (R73). -/
def Dev.canShed (d : Dev) (p : Nat) : Bool :=
  decide (2 ≤ d.portWidth p) && d.pam4 p && d.on Od.PORT_SHED_ENABLE p && d.on Od.PORT_SHED_PEER_CAPABLE p

/-- A parked port that can shed asks for one lane, whatever MIN_LANES and its load say (R73, R83, R85). -/
def Dev.parkAsk (k : Clk) (p : Nat) (d : Dev) : Dev :=
  if d.link p == lkPARKED && d.canShed p && decide (1 < d.n Od.PORT_ACTIVE_LANES p) && d.n Rg.REQ_TYPE p == 0 && d.n Rg.CHG_PHASE p == 0 then
    if (d.operList p).hasGap 4000 then d.request k p 2 1 else d.bump Od.PORT_SHED_BLOCKED p
  else d

/-- A change of lane count is agreed (R81, R82): added lanes wake first. A port that has lost its link agrees nothing (R70). -/
def Dev.agree (k : Clk) (p target : Nat) (d : Dev) : Dev :=
  let up := decide (d.n Od.PORT_ACTIVE_LANES p < target)
  if !d.receives p then d
  else (((d.put Rg.CHG_PHASE p (if up then 2 else 1)).put Rg.CHG_TARGET p target).put Rg.CHG_TICK p k.tick).put Rg.REQ_TYPE p 0

/-- Why the port refuses a REQUEST for a target (R80), 0 when it accepts; of several reasons the first listed (DESIGN CHOICE, log entry 22). -/
def Dev.refusal (d : Dev) (p type target : Nat) : Nat :=
  if type = 6 ∨ d.n Od.PORT_ACTIVE_LANES p < target then 0
  else if !d.on Od.PORT_SHED_ENABLE p then 1
  else if target < d.n Od.PORT_SHED_MIN_LANES p then 2
  else if d.n Od.PORT_SHED_ABOVE p * (target * d.portLane p * d.n Od.PORT_SHED_RESTORE_WINDOW p) < d.n Rg.LAST_TX p * 1000 then 3
  else if !(d.operList p).hasGap 4000 then 4 else 0

/-- The answer to a REQUEST or RESTORE_NOW, at the first boundary after it (R80) at which no hold is under way (R81). A target that is the present count is
accepted and brings no changeover (DESIGN CHOICE, log entry 23). -/
def Dev.shedAnswer (k : Clk) (p type target seq : Nat) (d : Dev) : Dev :=
  if !d.receives p then d
  else if d.n Rg.CHG_PHASE p = 3 then d.later (.shedAnswer p type target seq)
  else
    let r := d.refusal p type target
    if r = 0 then
      let d := d.macSend k (d.shedFrame p 3 seq target 0)
      if target = d.n Od.PORT_ACTIVE_LANES p then d else d.agree k p target
    else d.macSend k (d.shedFrame p 4 seq target r)

/-- A port reaches UP at its full width, or PARKED while PORT.PARK is 1 (R69, R85): from bring-up, or from being parked with its lanes on (R86). -/
def Dev.portUp (k : Clk) (p : Nat) (d : Dev) : Dev :=
  if d.replaying then d
  else
    let w := d.portWidth p
    let d := (((d.setLanes p w 2).put Od.PORT_ACTIVE_LANES p w).put Od.PORT_FEC_ACTIVE p (d.fecOf p)).put Rg.UP_ORIGIN p 0
    let d := ((d.put Rg.WAKING p 0).put Rg.DOWN_TICK p 0).setLink k p (if d.on Od.PORT_PARK p then lkPARKED else lkUP)
    ((d.verify k p).windows k p).parkAsk k p

/-- A port parks (R85): from this boundary, or, with a changeover in progress, from the end of its hold. A capable one asks for one lane. -/
def Dev.park (k : Clk) (p : Nat) (d : Dev) : Dev :=
  let d := d.put Od.PORT_PARK p 1
  if d.n Rg.CHG_PHASE p = 0 ∧ d.inService p then (d.setLink k p lkPARKED).parkAsk k p else d

/-- A parked port wakes (R86), one of a parked sorus as that wakes (R607): a shed one restores full width first; `now` where it returns at this boundary, else at the next. -/
def Dev.unpark (k : Clk) (p : Nat) (now : Bool) (d : Dev) : Dev :=
  let d := d.put Od.PORT_PARK p 0
  if d.link p = lkPARKED ∧ d.sorusRuns (sorusOf p) then
    if d.n Od.PORT_ACTIVE_LANES p < d.portWidth p then (d.put Rg.WAKING p 1).restoreNow k p
    else if now then (d.setLink k p lkUP).windows k p else d.later (.portUp p)
  else d

/-- A reference fault takes every port of the sorus to NO_REFCLK and raises its event (R60). -/
def Dev.noRefclk (k : Clk) (s : Nat) (d : Dev) : Dev :=
  let d := d.each ((List.range 128).filter fun i => d.portExists (128 * s + i)) fun d i =>
    let p := 128 * s + i
    if d.replaying then d else (((d.lanesOff p 0).setLink k p lkNO_REFCLK).put Rg.UP_ORIGIN p 0).put Rg.LOCK_HELD p 0
  d.event k 0x0101 s (d.get Rg.REF_PPM s) []

/-- The octet takes a mode, rate and channel (R67): ports that stay keep their queues under their hold, the others are flushed. -/
def Dev.octetChange (k : Clk) (o mode rate chan : Nat) (d : Dev) : Dev :=
  let old := ((List.range 8).map fun i => 8 * o + i).filter d.portExists
  let w := d.portWidth (8 * o)
  let d := d.each old fun d p => d.portDown k p false
  let d := ((d.put Od.OCTET_MODE o mode).put Od.OCTET_RATE o rate).put Od.OCTET_CHANNEL o chan
  let d := d.each old fun d p => if d.portWidth p = w then d else (d.flushPort k p).2.put Od.PORT_LINK_STATE p lkDOWN
  d.each (((List.range 8).map fun i => 8 * o + i).filter d.portExists) fun d p => d.bringUp k p

/-- The three octet objects may stand together (R66). -/
def octetOk (mode rate chan : Nat) : Bool :=
  decide (mode ≤ 4 ∧ rate ≤ 4 ∧ chan ≤ 1) && (decide (rate < 3) || mode == 3) && !(mode == 0 && rate == 2 && chan == 1)

/-- Queued bytes above QUEUE_RESTORE on a shed port ask for full width at the next boundary (R78). -/
def Dev.queueRestore (k : Clk) (p : Nat) (d : Dev) : Dev :=
  if d.n Od.PORT_ACTIVE_LANES p < d.portWidth p ∧ d.inService p ∧ d.n Od.PORT_SHED_QUEUE_RESTORE p < d.queuedBytes k p then
    d.later (.restoreNow p) else d

end Sys2Proof.Machine
end

