-- ==== Sys2Proof/Machine/Draw.lean ====
section
/-! DEFINITION. Pseudo-random draws (R52 to R55, R488), the windows of the perturbation engine (R537), its frame faults (R543, R544), and the clock a
replay runs on (R526). -/
namespace Sys2Proof.Machine

/-- One step of an LFSR (R52). -/
def lfsrStep (s : Nat) : Nat := if s % 2 = 1 then (s / 2) ^^^ 0x80200003 else s / 2

/-- n steps. -/
def lfsrSteps : Nat → Nat → Nat
  | 0, s => s
  | n + 1, s => lfsrSteps n (lfsrStep s)

/-- The state an LFSR of identity i loads at the boundary that opens tick n (R54). -/
def lfsrLoad (seed n i : Nat) : Nat :=
  let x := seed ^^^ (n * 0x9E3779B97F4A7C15 % 2 ^ 64) ^^^ (i * 0xC2B2AE3D27D4EB4F % 2 ^ 64)
  let s := (x ^^^ (x / 2 ^ 32)) % 2 ^ 32
  if s = 0 then 1 else s

/-- The state of an LFSR: as its draws in this tick left it, else as it was loaded. -/
def Dev.lfsrState (k : Clk) (d : Dev) (i : Nat) : Nat :=
  match d.lfsr.find? (·.1 == i) with
  | some x => x.2
  | none => lfsrLoad (d.n Od.DET_SEED 0) k.tick i

/-- Put an LFSR into a state. -/
def Dev.setLfsr (d : Dev) (i s : Nat) : Dev := { d with lfsr := (i, s) :: d.lfsr.filter (·.1 != i) }

/-- A draw: the state, and the LFSR advanced by 32 steps (R55). -/
def Dev.draw (k : Clk) (d : Dev) (i : Nat) : Nat × Dev :=
  let s := d.lfsrState k i
  (s, d.setLfsr i (lfsrSteps 32 s))

/-- A selection of one in n by an LFSR (R488): 0 nothing, 1 everything, neither with a draw. -/
def Dev.select (k : Clk) (d : Dev) (i n : Nat) : Bool × Dev :=
  if n = 0 then (false, d)
  else if n = 1 then (true, d)
  else let r := d.draw k i; (decide (r.1 ≤ (2 ^ 32 - 1) / n), r.2)

/-- A sampler is named (R488): selected or not. -/
def Dev.sample (k : Clk) (m : Nat) (d : Dev) : Bool × Dev :=
  let r := d.select k (0x20000 + m) (d.n Od.SPORE_SAMPLER_RATE m)
  let d := r.2.bump Od.SPORE_SAMPLER_OFFERED m
  (r.1, d.when r.1 fun d => d.bump Od.SPORE_SAMPLER_SELECTED m)

/-- A window of the perturbation engine is active in the tick now open (R537). -/
def Dev.window (k : Clk) (d : Dev) (start ticks : Nat) : Bool :=
  d.on Od.PERTURB_ENABLE 0 && decide (start ≤ k.tick ∧ k.tick < start + ticks)

/-- The window of a port is active. -/
def Dev.portWindow (k : Clk) (d : Dev) (p : Nat) : Bool :=
  d.window k (d.n Od.PERTURB_PORT_START_TICK p) (d.n Od.PERTURB_PORT_TICKS p)

/-- The frame-fault entries that a port meets in a direction, ascending (R543): entries that have a window. -/
def Dev.faultEntries (k : Clk) (d : Dev) (p dir : Nat) : List Nat :=
  (d.insts Od.PERTURB_FAULT_TICKS).filter fun f =>
    d.n Od.PERTURB_FAULT_PORT f == p && d.n Od.PERTURB_FAULT_DIR f == dir &&
      d.window k (d.n Od.PERTURB_FAULT_START_TICK f) (d.n Od.PERTURB_FAULT_TICKS f)

/-- What frame faults do to a frame: dropped, stomped, bytes changed. -/
structure Faulted where
  drop : Bool := false
  stomp : Bool := false
  xors : List (Nat × Nat) := []
  deriving DecidableEq, Repr

/-- XOR the byte at an offset. -/
def xorByte (bs : List Byte) (o m : Nat) : List Byte :=
  match bs[o]? with
  | some b => bs.set o (b ^^^ BitVec.ofNat 8 m)
  | none => bs

/-- A frame of n bytes meets the entries of its port (R543, R544): draws in ascending entry, a DROP ends the sequence. -/
def Dev.meet (k : Clk) (n : Nat) : List Nat → Faulted → Dev → Faulted × Dev
  | [], r, d => (r, d)
  | f :: t, r, d =>
    let q := d.select k (0x30000 + f) (d.n Od.PERTURB_FAULT_RATE f)
    if !q.1 then Dev.meet k n t r q.2
    else match q.2.n Od.PERTURB_FAULT_ACTION f with
      | 1 => ({ r with drop := true }, q.2.bump Od.PERTURB_FAULT_HITS f)
      | 2 =>
        if q.2.n Od.PERTURB_FAULT_OFFSET f < n then
          Dev.meet k n t { r with xors := r.xors ++ [(q.2.n Od.PERTURB_FAULT_OFFSET f, q.2.n Od.PERTURB_FAULT_MASK f)] }
            (q.2.bump Od.PERTURB_FAULT_HITS f)
        else Dev.meet k n t r q.2
      | _ => Dev.meet k n t { r with stomp := true } (q.2.bump Od.PERTURB_FAULT_HITS f)

/-- The bytes after the XORs. -/
def Faulted.apply (r : Faulted) (bs : List Byte) : List Byte := r.xors.foldl (fun b x => xorByte b x.1 x.2) bs

end Sys2Proof.Machine
end

