-- ==== Sys2Proof/Machine/Jr.lean ====
section
/-! DEFINITION. Writing the journal's staging memory (R514 to R520) and the usage bits (R523). -/
namespace Sys2Proof.Machine

/-- The journal records (R513). -/
def Dev.recording (d : Dev) : Bool := d.n Od.JOURNAL_STATE 0 == 2

/-- A port is journalled (R514). -/
def Dev.journalled (d : Dev) (p : Nat) : Bool := bit (d.n Od.JOURNAL_PORTS 0 (p / 64)) (p % 64)

/-- A frame record is lost (R520). -/
def Dev.jlose (k : Clk) (d : Dev) : Dev :=
  let d := d.when (d.n Od.JOURNAL_LOST 0 == 0) fun d => d.put Od.JOURNAL_FIRST_LOSS_TICK 0 k.tick
  d.bump Od.JOURNAL_LOST 0

/-- Drop the newest frame record of a staging list. -/
def dropNewest (l : List JRec) : List JRec :=
  match l.reverse.find? (·.frame) with
  | some r => (l.reverse.erase r).reverse
  | none => l

/-- A record joins the staging memory (R520): where that is full a frame record is lost, its own or, for a control record, the newest. -/
def Dev.jput (k : Clk) (r : JRec) (d : Dev) : Dev :=
  if d.jstage.length < 8192 then { d with jstage := d.jstage ++ [r] }
  else if r.frame then d.jlose k
  else if d.jstage.any (·.frame) then { d.jlose k with jstage := dropNewest d.jstage ++ [r] }
  else { d with jstage := d.jstage ++ [r] }

/-- A control record (R518). -/
def controlRec (type tick clock part : Nat) (head body : List Byte) : JRec :=
  { frame := false
    bytes := bytesLE 8 tick ++ [BitVec.ofNat 8 type, 3] ++ bytesLE 2 clock ++ bytesLE 4 part ++ sliceZ head 0 16 ++ sliceZ body 0 128 }

/-- A control record of a boundary or a tick joins the staging memory. -/
def Dev.jcontrol (k : Clk) (type tick clock part : Nat) (head body : List Byte) (d : Dev) : Dev :=
  if d.recording then d.jput k (controlRec type tick clock part head body) else d

/-- What a frame record holds besides its bytes (R515). -/
structure JFrame where
  stamp : Nat := 0
  noIngress : Bool := false
  known : Bool := false
  deep : Bool := false
  injected : Bool := false
  draw : Option Nat := none
  port : Nat := 0
  tick : Nat := 0
  clock : Nat := 0
  rxLength : Nat := 0
  rxError : Nat := 0
  preClass : Nat := 0
  tail : Nat := 0
  deriving DecidableEq, Repr

/-- The 160 bytes of a frame record (R515); f is its number. -/
def JFrame.bytes (j : JFrame) (f : Nat) (bs : List Byte) : List Byte :=
  let flag := fun (b : Bool) (n : Nat) => if b then 2 ^ n else 0
  bytesLE 9 (if j.noIngress then 0 else j.stamp) ++
    [BitVec.ofNat 8 (1 + flag j.noIngress 2 + flag j.known 3 + flag j.deep 4 + flag j.injected 5 + flag j.draw.isSome 6)] ++
    bytesLE 2 (j.port % 1024) ++ bytesLE 4 j.tick ++ bytesLE 2 j.clock ++ bytesLE 2 (min j.rxLength 16383) ++
    [BitVec.ofNat 8 j.rxError, BitVec.ofNat 8 j.preClass] ++ bytesLE 2 (min j.tail 0xFFFF) ++ bytesLE 4 (j.draw.getD 0) ++ bytesLE 4 f ++ sliceZ bs 0 128

/-- A frame record of this clock, which joins the staging memory as the clock ends; answers its mark plus one, 0 where the frame is not journalled. -/
def Dev.jframe (j : JFrame) (fin : Bool) (bs : List Byte) (d : Dev) : Nat × Dev :=
  if d.recording && !d.maint then
    let f := d.n Rg.J_FRAME 0 + (d.now.jrecs.filter (·.frame)).length
    let r : JRec := { frame := true, id := f, ord := pipeOf j.port, fin := fin, bytes := j.bytes f bs }
    (f + 1, { d with now := { d.now with jrecs := d.now.jrecs ++ [r] } })
  else (0, d)

/-- The records of a clock join the staging memory: frames by pipeline, then requests by port (R519). A frame record takes its number, lost or not (R520). -/
def Dev.jjoin (k : Clk) (d : Dev) : Dev :=
  d.each (sortBy (fun (a b : JRec) => decide (a.ord ≤ b.ord)) d.now.jrecs) fun d r =>
    if r.frame then
      let f := d.n Rg.J_FRAME 0
      (d.put Rg.J_FRAME 0 (f + 1)).jput k { r with bytes := patch r.bytes 28 (bytesLE 4 f) }
    else d.jput k r

/-- The end of a journalled frame completes its record: its errors and the clocks from entry to end (R515). -/
def Dev.jend (f errs tail : Nat) (d : Dev) : Dev :=
  if f = 0 then d
  else
    let fix := fun (r : JRec) =>
      if r.frame && r.id == f - 1 then
        { r with fin := true, bytes := patch (patch r.bytes 20 [BitVec.ofNat 8 errs]) 22 (bytesLE 2 (min tail 0xFFFF)) }
      else r
    { d with jstage := d.jstage.map fix, now := { d.now with jrecs := d.now.jrecs.map fix } }

/-- A change of an exact-match entry is recorded (R517): position, origin, bits after it, key and result words. -/
def Dev.jtable (k : Clk) (pos origin bs key result : Nat) (d : Dev) : Dev :=
  if d.recording then
    let head := bytesLE 4 pos ++ [BitVec.ofNat 8 origin, BitVec.ofNat 8 bs]
    { d with jtab := d.jtab ++ [(pos, bytesLE 8 k.tick ++ [3, 3] ++ bytesLE 2 0 ++ bytesLE 4 0 ++ sliceZ head 0 16 ++
        sliceZ (bytesLE 8 key ++ bytesLE 8 result) 0 128)] }
  else d

/-- A PAUSE, PFC or credit frame taken on a journalled port (R517). -/
def Dev.jflow (k : Clk) (p kind mask quanta : Nat) (grants : List Nat) (d : Dev) : Dev :=
  if d.recording && d.journalled p then
    let r := controlRec 5 k.tick k.c 0 (bytesLE 2 p ++ [BitVec.ofNat 8 kind, BitVec.ofNat 8 mask] ++ bytesLE 2 quanta) (grants.flatMap (bytesLE 4))
    { d with now := { d.now with jrecs := d.now.jrecs ++ [{ r with ord := 64 + p }] } }
  else d

/-- A frame reaches a meter or takes a stream step (R523); in a replay it is noted that the unit is mixed (R529). -/
def Dev.usage (o : Obj) (u : Nat) (j : Bool) (d : Dev) : Dev :=
  if d.recording then d.put o u (d.n o u ||| (if j then 1 else 2))
  else d.when (d.n Od.REPLAY_STATE 0 == 2 && d.n o u == 3) fun d => d.put Rg.R_MIXED 0 1

end Sys2Proof.Machine
end

