-- ==== Sys2Proof/Machine/Mac.lean ====
section
/-! DEFINITION. The MAC: reassembly (R113), wake patterns (R114), tags (R99 to R102), PAUSE and PFC (R104 to R108), the transit header (R418 to
R422), stamps (R388, R540), and how an error is counted (R96, R97). -/
namespace Sys2Proof.Machine

/-- The 16-bit word at an offset of a frame, in network order. -/
def be16 (bs : List Byte) (o : Nat) : Nat := ofBytesBE (sliceZ bs o 2)

/-- Reassembly (R113): the continuations after a start, in order and whole. -/
def fragsOk (fc : Nat) : Nat → List Fragment → Bool
  | _, [] => false
  | n, [f] => !f.start && f.frameCount == fc && f.fragCount == n % 4 && f.last && f.crcOk
  | n, f :: t => !f.start && f.frameCount == fc && f.fragCount == n % 4 && !f.last && f.crcOk && fragsOk fc (n + 1) t

/-- The fragments make one frame without an assembly error. -/
def assembled : List Fragment → Bool
  | [] => true
  | [f] => f.start && f.last && f.crcOk
  | f :: t => f.start && !f.last && f.crcOk && fragsOk f.frameCount 0 t

/-- A frame's FCS check: 0 right, 1 wrong, 2 stomped (R94). -/
def fcsCheck (bs : List Byte) : Nat :=
  let n := bs.length - 4
  let got := ofBytesLE (bs.drop n)
  let want := crc32 (bs.take n)
  if got = want then 0 else if got = want ^^^ 0xFFFFFFFF then 2 else 1

/-- A wake pattern of a port matches (R114, R115): an enabled pattern whose mask is not zero. -/
def Dev.wakeHit (d : Dev) (p pat : Nat) (bs : List Byte) : Bool :=
  let i := p * 16 + pat
  let n := bs.length - 4
  let sel := (List.range 128).filter fun b => bit (d.n Od.PORT_WAKE_MASK i (b / 8)) (b % 8)
  bit (d.n Od.PORT_WAKE_ENABLE p) pat && !sel.isEmpty && sel.all (fun b => decide (b < n)) &&
    crc16 (sel.map fun b => bs.getD b 0) == d.n Od.PORT_WAKE_CHECK i

/-- Wake patterns tested on a frame as received (R114, R115): matches counted; a shed port restores, a parked one wakes. -/
def Dev.wakeTest (p : Nat) (bs : List Byte) (d : Dev) : Dev :=
  if fcsCheck bs = 0 ∧ d.n Od.PORT_WAKE_ENABLE p ≠ 0 then
    let hits := (List.range 16).filter fun w => d.wakeHit p w bs
    let d := d.each hits fun d w => d.bump Od.PORT_WAKE_MATCHES (p * 16 + w)
    if hits.isEmpty then d
    else if d.link p = lkPARKED then d.later (.wake p)
    else if d.n Od.PORT_ACTIVE_LANES p < d.portWidth p ∧ d.inService p then d.later (.restoreNow p)
    else d
  else d

/-- The tags the MAC recognises in a frame for a TPID_S (R99): how many, and whether the outer one is an S-tag. -/
def tagsOf (tpid : Nat) (bs : List Byte) : Nat × Bool :=
  let e := be16 bs 12
  if e = tpid then (if be16 bs 16 = 0x8100 then 2 else 1, true) else if e = 0x8100 then (1, false) else (0, false)

/-- The MAC's fields of the descriptor (R90, R99, R100). -/
def Dev.macDesc (d : Dev) (p : Nat) (bs : List Byte) (x : Desc) : Desc :=
  let t := tagsOf (d.n Od.PORT_RX_TPID_S p) bs
  let o := be16 bs 14
  let i := be16 bs 18
  let pvid := t.1 = 0 ∨ bits o 11 0 = 0
  { x with
    srcPort := p
    tagCount := t.1
    outerIsS := t.2
    outerPcp := if t.1 = 0 then d.n Od.PORT_DEFAULT_PCP p else bits o 15 13
    outerDei := if t.1 = 0 then 0 else bits o 12 12
    outerVid := if pvid then d.n Od.PORT_PVID p else bits o 11 0
    innerPcp := if t.1 = 2 then bits i 15 13 else 0
    innerDei := if t.1 = 2 then bits i 12 12 else 0
    innerVid := if t.1 = 2 then bits i 11 0 else 0
    pvidApplied := pvid
    tagsStripped := match d.n Od.PORT_RX_STRIP p with | 1 => min 1 t.1 | 2 => t.1 | _ => 0 }

/-- Remove n bytes at an offset. -/
def cut (bs : List Byte) (o n : Nat) : List Byte := bs.take o ++ bs.drop (o + n)

/-- Insert bytes at an offset. -/
def insertAt (bs : List Byte) (o : Nat) (new : List Byte) : List Byte := bs.take o ++ new ++ bs.drop o

/-- The tags of a frame for an egress port (R102). -/
def Dev.txTags (d : Dev) (p : Nat) (x : Desc) (bs : List Byte) : List Byte :=
  let mode := d.n Od.PORT_TX_TAG_MODE p
  if mode = 0 then bs
  else
    let bare := cut bs 12 (4 * (tagsOf (d.n Od.PORT_RX_TPID_S p) bs).1)
    let tci := fun (dei vid : Nat) => bytesBE 2 (x.outerPcp * 2 ^ 13 + dei * 2 ^ 12 + vid)
    let un := d.n Od.PORT_TX_UNTAGGED_VID p
    let c := if un ≠ 0 ∧ x.outerVid = un then [] else [0x81, 0x00] ++ tci x.outerDei x.outerVid
    if mode = 1 then bare
    else if mode = 2 then insertAt bare 12 c
    else insertAt bare 12 (bytesBE 2 (d.n Od.PORT_TX_TPID_S p) ++ tci 0 (d.n Od.PORT_TX_S_VID p) ++ c)

/-- A class is immune to requests (R108). -/
def Dev.immune (d : Dev) (p c : Nat) : Bool :=
  match d.n Od.PORT_PFC_PAUSE_IMMUNE p c with
  | 0 => d.queueGated (16 * p + 2 * c) || d.queueGated (16 * p + 2 * c + 1)
  | 1 => true
  | _ => false

/-- The clocks a request of q quanta holds a class (R105). -/
def Dev.holdClocks (d : Dev) (p q : Nat) : Nat := ceilDiv (q * 512 * 800) (d.portRate p)

/-- The timer of a class is loaded with q quanta (R105); a quanta of 0 releases it from the next clock (R107). -/
def Dev.loadHold (k : Clk) (p q : Nat) (d : Dev) (c : Nat) : Dev :=
  d.put Rg.PAUSE_UNTIL p (if q = 0 then min (d.n Rg.PAUSE_UNTIL p c) (k.clock + 1) else k.clock + d.holdClocks p q) c

/-- A request is taken (R105 to R108): each class with its quanta. A class that is immune, and every class where the request is not obeyed,
ignores it; the frame is then counted ignored. -/
def Dev.takeFlow (k : Clk) (p mode len : Nat) (loads : List (Nat × Nat)) (d : Dev) : Dev :=
  let d := d.gateDue (d.rk k) p
  let obeyed := d.n Od.PORT_FLOW_MODE p == mode && d.on Od.PORT_FLOW_RX_ENABLE p && !d.maint
  let take := loads.filter fun x => obeyed && !d.immune p x.1
  let d := d.when (decide (take.length < loads.length)) fun d => d.pair Od.PORT_RX_FLOW_IGNORED p len
  let d := d.each take fun d x => d.loadHold k p x.2 x.1
  d.each ((take.map (·.2)).dedup) fun d q => d.jflow k p 1 (((take.filter (·.2 == q)).map fun x => 2 ^ x.1).sum) q []

/-- A PAUSE frame (R104, R105): it names every class. -/
def Dev.pauseFrame (k : Clk) (p q len : Nat) (d : Dev) : Dev :=
  (d.pair Od.PORT_RX_PAUSE p len).takeFlow k p 1 len ((List.range 8).map fun c => (c, q))

/-- A PFC frame (R104, R105): a class named by several priorities takes the largest of their quanta. -/
def Dev.pfcFrame (k : Clk) (p enables : Nat) (qs : List Nat) (len : Nat) (d : Dev) : Dev :=
  let pr := (List.range 8).filter (bit enables)
  let d := d.each pr fun d i => d.bump48 Od.PORT_RX_PFC_PRIORITY p i
  let cls := fun c => pr.filter fun i => d.n Od.PORT_PFC_CLASS_MAP p i == c
  let loads := ((List.range 8).filter fun c => !(cls c).isEmpty).map fun c => (c, ((cls c).map fun i => qs.getD i 0).foldl max 0)
  (d.pair Od.PORT_RX_PFC p len).takeFlow k p 2 len loads

/-- A MAC control frame, whole and with a right FCS (R104). -/
def Dev.macControl (k : Clk) (p : Nat) (bs : List Byte) (d : Dev) : Dev :=
  let dst := ofBytesBE (bs.take 6)
  let mine := dst == 0x0180C2000001 || dst == d.n Od.PORT_MAC_ADDRESS p % 2 ^ 48
  if mine && be16 bs 14 == 1 then d.pauseFrame k p (be16 bs 16) bs.length
  else if mine && be16 bs 14 == 0x0101 then
    d.pfcFrame k p (be16 bs 16) ((List.range 8).map fun i => be16 bs (18 + 2 * i)) bs.length
  else d.pair Od.PORT_RX_MAC_CONTROL_OTHER p bs.length

/-- A class of a port is held (R106). -/
def Dev.classHeld (k : Clk) (d : Dev) (p c : Nat) : Bool := decide (k.clock < d.n Rg.PAUSE_UNTIL p c)

/-- An adjust in 2⁻¹⁶ ns as raw units (R388). -/
def adjustRaw (a : Int) : Int := roundHalfEven a 640

/-- The ingress stamp of a frame whose timestamp point crosses the balls `sub` raw units after this clock began (R388, R540). -/
def Dev.rxStamp (k : Clk) (d : Dev) (p sub : Nat) : Nat :=
  let off := if d.portWindow k p then adjustRaw (d.get Od.PERTURB_PORT_RX_STAMP_OFFSET p) else 0
  (((k.now + sub : Nat) : Int) - adjustRaw (d.get Od.STAMP_PORT_RX_ADJUST p) + off) % 2 ^ 72 |>.toNat

/-- The egress stamp of a copy (R388, R540). -/
def Dev.txStamp (k : Clk) (d : Dev) (p sub : Nat) : Nat :=
  let off := if d.portWindow k p then adjustRaw (d.get Od.PERTURB_PORT_TX_STAMP_OFFSET p) else 0
  (((k.now + sub : Nat) : Int) + adjustRaw (d.get Od.STAMP_PORT_TX_ADJUST p) + off) % 2 ^ 72 |>.toNat

/-- A field of the transit header (R418). -/
def trField (h : List Byte) (hi lo : Nat) : Nat := bits (ofBytesBE (sliceZ h 0 16)) hi lo

/-- A transit header passes its check (R420). -/
def trOk (h : List Byte) : Bool :=
  let t := trField h 123 120
  crc16 (h.take 14) == trField h 15 0 && trField h 127 124 == 1 && decide (1 ≤ t ∧ t ≤ 5) && trField h 82 81 != 3 &&
    !(t == 1 && (trField h 106 105 == 0 || trField h 106 105 == 1)) && trField h 75 64 == 0

/-- A transit header from its fields: bits 127..16, and the CRC (R418). -/
def trBytes (v : Nat) : List Byte := let h := bytesBE 14 v; h ++ bytesBE 2 (crc16 h)

/-- The transit header of a message of a type from a device (R419). -/
def trMessage (type dev : Nat) : List Byte := trBytes (2 ^ 108 + type * 2 ^ 104 + dev * 2 ^ 101)

/-- The ingress stamp a transit header reconstructs (R422). -/
def Dev.trStamp (k : Clk) (d : Dev) (arrival : Nat) : Nat :=
  let v := d.n Od.MAT_VIEW 0
  let s := d.viewSet v
  let n : Int := (s.at k.now : Nat)
  let a : Int := arrival * 2 ^ 12 + 2 ^ 11
  let top := n + 65536000
  let u := top - (top - a) % 2 ^ 44
  ((s.anchor : Int) + roundHalfEven (u * 2 ^ 32 - s.offset) s.inc) % 2 ^ 72 |>.toNat

/-- The flags of R96 in the order R97 counts them, each with its counter. -/
def errCounters : List (Nat × Obj) :=
  [(0, Od.PORT_RX_RUNTS), (1, Od.PORT_RX_GIANTS), (6, Od.PORT_RX_ASSEMBLY_ERRORS), (3, Od.PORT_RX_FEC_ERRORS), (4, Od.PORT_RX_CODE_ERRORS),
   (5, Od.PORT_RX_STOMPED), (2, Od.PORT_RX_FCS_ERRORS)]

/-- A frame with errors is counted in the counter of its first flag (R97). -/
def Dev.countError (p errs len : Nat) (d : Dev) : Dev :=
  match errCounters.find? fun x => bit errs x.1 with
  | some x => d.pair x.2 p len
  | none => d

end Sys2Proof.Machine
end

