-- ==== Sys2Proof/Machine/Em.lean ====
section
/-! DEFINITION. The exact-match table (R174 to R195): entries, positions, lookups in the pipeline, learning requests, changes. -/
namespace Sys2Proof.Machine

/-- Word w of an entry as lookups see it: 0 key, 1 result, 2 hit, 3 clear-seen. -/
def Dev.emWord (d : Dev) (pos w : Nat) : Nat := ((d.em.find (pos * 4 + w)).getD 0).toNat

/-- Set a word of an entry; zero is not listed. -/
def Dev.emPut (d : Dev) (pos w v : Nat) : Dev :=
  { d with em := if v = 0 then d.em.del (pos * 4 + w) else d.em.put (pos * 4 + w) (v : Int) }

/-- The latest change of an entry in this tick. -/
def Dev.emLast (d : Dev) (pos : Nat) : Option EmChange := d.emPend.reverse.find? (·.pos == pos)

/-- Key and result word of an entry as the changes of this tick leave it (R189). -/
def Dev.emKey (d : Dev) (pos : Nat) : Nat := match d.emLast pos with | some c => c.key | none => d.emWord pos 0
def Dev.emResult (d : Dev) (pos : Nat) : Nat := match d.emLast pos with | some c => c.result | none => d.emWord pos 1

/-- A way is poisoned when either of its words is (R181). -/
def Dev.emBad (d : Dev) (pos : Nat) : Bool := d.emPoison.contains (2 * pos) || d.emPoison.contains (2 * pos + 1)

/-- The same as the changes of this tick leave it: a change writes both words, and either may take a flip that makes it unreadable (R469). -/
def Dev.emBadNow (d : Dev) (pos : Nat) : Bool :=
  match d.emLast pos with
  | some c => c.flips.any (·.2 == 3)
  | none => d.emBad pos

/-- The first position of a key's bucket (R177). -/
def Dev.emBase (d : Dev) (key : Nat) : Nat :=
  let k := clearBit (clearBit key 63) 60
  let h := crc32 (bytesBE 8 k ++ bytesBE 8 (d.n Od.EM_HASH_SEED 0))
  h % 256 * 16384 + h / 256 % 2048 * 8

/-- The eight ways of a bucket. -/
def ways (base : Nat) : List Nat := (List.range 8).map (base + ·)

/-- Two key words name one key: type and KEY agree (R201). -/
def sameKey (a b : Nat) : Bool := bits a 62 61 == bits b 62 61 && bits a 59 0 == bits b 59 0

/-- A lookup (R181): outcome 1 hit, 2 miss, 3 poison, and the position hit. -/
def Dev.emFind (d : Dev) (key : Nat) : Nat × Nat :=
  let w := ways (d.emBase key)
  match w.find? fun p => !d.emBad p && bit (d.emWord p 0) 63 && sameKey (d.emWord p 0) key with
  | some p => (1, p)
  | none => (if w.any d.emBad then 3 else 2, 0)

/-- A hit sets the hit bit of a position (R185); the write meets an armed flip of its bitmap word (R469, log entry 17). -/
def Dev.setHit (d : Dev) (pos : Nat) : Dev :=
  let d := if d.emWord pos 2 = 1 then d else { d.emPut pos 2 1 with now := { d.now with hits := d.now.hits ++ [pos] } }
  let r := d.flip 3 8 (pos / 32) 1
  if r.1 = 0 then d
  else if r.1 ≤ 2 then { r.2 with flipped := r.2.flipped ++ [{ mem := 3, die := 8, addr := pos / 32, bits := r.1 }] }
  else r.2.each ((List.range 32).map (pos / 32 * 32 + ·)) fun d p => if bit (d.emWord p 0) 63 then (d.emPut p 2 1).emPut p 3 0 else d

/-- A forwarding lookup: a hit sets the hit bit (R185), a poisoned bucket is counted (R181), a forced miss takes the outcome (R541). -/
def Dev.emLookup (key : Nat) (forced : Bool) (p : Nat) (d : Dev) : Nat × Nat × Dev :=
  let base := d.emBase key
  let d := d.readFlips 2 8 (2 * base) 16
  let d := { d with found := d.found ++ (d.emPoison.filter fun w => w / 16 == base / 8).map fun w => ({ mem := 2, die := 8, addr := w, bits := 3 } : Found) }
  if forced then (2, 0, d.bump Od.PERTURB_PORT_FORCED_MISSES p)
  else
    let r := d.emFind key
    (r.1, r.2, if r.1 = 1 then d.setHit r.2 else if r.1 = 3 then d.bump Od.EM_POISON_HITS 0 else d)

/-- The MAC_FID key of an address (R176, R179). -/
def macKey (fid mac : Nat) : Nat := 2 ^ 63 + 2 ^ 61 + fid % 4096 * 2 ^ 48 + mac % 2 ^ 48

/-- The retired positions (R471). -/
def Dev.retired (d : Dev) (pos : Nat) : Bool := (List.range (d.n Od.INTEG_EM_RETIRED_COUNT 0)).any fun e => d.n Od.INTEG_EM_RETIRED_LIST 0 e == pos

/-- A way is free for an insert: not valid, not retired (R192, R471). -/
def Dev.emFree (d : Dev) (pos : Nat) : Bool := !bit (d.emKey pos) 63 && !d.retired pos

/-- The device is isolated (R438, R632). -/
def Dev.isolated (d : Dev) : Bool := d.on Od.FAULT_ISOLATED 0 || d.n Od.MAT_STATE 0 == 5

/-- The learning request of a source lookup on a MAC_FID key (R190, R194): the LEARN field. -/
def Dev.learnTest (k : Clk) (p : Nat) (x : Desc) (key outcome pos : Nat) (d : Dev) : Nat × Dev :=
  let mac := bits key 47 0
  if !d.on Od.EM_PORT_LEARN_ENABLE p || x.learnDisable || bit mac 40 || mac == 0 || d.isolated then (0, d)
  else
    let req : LearnReq := { tick := k.tick, clock := k.clock, rank := rotation k (pipeOf p) 64, key := key, port := p, len := x.rxLength }
    let ask := fun (move : Bool) (d : Dev) => ({ d with learn := d.learn ++ [{ req with move := move }] } : Dev)
    if outcome = 1 then
      let res := d.emWord pos 1
      if bit res 43 && bits res 63 44 == d.n Od.EM_PORT_LEARN_DEST p then (0, d)
      else if bit (d.emWord pos 0) 60 || bit res 17 then (0, d.bump Od.EM_LEARN_MOVE_REFUSED 0)
      else (2, ask true d)
    else if outcome = 2 then
      let w := ways (d.emBase key)
      if w.any fun q => !bit (d.emWord q 0) 63 && !d.retired q then (1, ask false d)
      else
        let d := (d.bump Od.EM_LEARN_FULL 0).pair Od.PEM_LEARN_FULL p x.rxLength
        let b := d.emBase key
        (3, d.event k 0x0701 p 0 ([BitVec.ofNat 8 (b / 16384)] ++ bytesLE 2 (b % 16384 / 8)))
    else (0, d)

/-- A slot of the field vector is written. -/
def Desc.has (x : Desc) (s : Nat) : Bool := bit x.fieldsWritten s

/-- The key of the source or destination lookup of R179; none when it is not made for want of a slot. -/
def Dev.emLookupKey (d : Dev) (p : Nat) (x : Desc) (type s : Nat) : Option Nat :=
  let f := fun i => x.fields.getD i 0
  match type with
  | 1 => if x.has s && x.has (s + 1) then some (macKey (d.n Od.EM_FID_MAP 0 x.outerVid) (f s % 2 ^ 16 * 2 ^ 32 + f (s + 1))) else none
  | 2 => if x.has 4 then some (2 ^ 63 + 2 * 2 ^ 61 + d.n Od.EM_PORT_MPLS_DOMAIN p * 2 ^ 20 + bits (f 4) 31 12) else none
  | 3 =>
    let h := d.n Od.EM_PORT_HANDLE_SLOT p
    if x.has h then some (2 ^ 63 + 3 * 2 ^ 61 + f h % 2 ^ 16) else none
  | _ => none

/-- CLASS_SET and STREAM_SET of a result word (R182). -/
def Desc.emOverride (x : Desc) (res : Nat) : Desc :=
  { x with
    cls := if bit res 42 then bits res 41 39 else x.cls
    classOvr := x.classOvr || bit res 42
    finalStreamSet := x.finalStreamSet || bit res 38
    finalStream := if bit res 38 then bits res 37 22 else x.finalStream }

/-- A bank serves one bucket a clock, and lookups that reach the same bucket share its access (R184): the clock at which a lookup made at c of the
bucket at a position is served. -/
def Dev.bankRead (c base : Nat) (d : Dev) : Nat × Dev :=
  match d.emReads.find? fun r => r.2 == base && decide (c ≤ r.1) with
  | some r => (r.1, d)
  | none =>
    let t := ((d.emReads.filter fun r => r.2 / 16384 == base / 16384).map (·.1 + 1)).foldl max c
    (t, { d with emReads := (d.emReads.filter fun r => decide (c ≤ r.1)) ++ [(t, base)] })

/-- The lookups of a packet reach their banks: the source lookup's contender index in a bank's rotation is the even one (R51). -/
def Dev.bankAsk (k : Clk) (pipe : Nat) (src dst : Option Nat) (d : Dev) : Dev :=
  if d.replaying then d
  else
    let ask := fun (n key : Nat) => (rotation k (2 * pipe + n) 128, pipe, d.emBase key)
    { d with now := { d.now with asks := d.now.asks ++ (src.map (ask 0)).toList ++ (dst.map (ask 1)).toList } }

/-- As a clock ends, each bank has ordered the lookups that reached it in it (R51, R184): the clocks a packet's later lookup waits are counted, and its pipeline
stands that long. -/
def Dev.bankWaits (k : Clk) (d : Dev) : Dev :=
  let l := sortBy (fun (a b : Nat × Nat × Nat) => decide (a.1 ≤ b.1)) d.now.asks
  let r := l.foldl (fun (r : List (Nat × Nat) × Dev) a =>
    let b := r.2.bankRead k.clock a.2.2
    (r.1 ++ [(a.2.1, b.1 - k.clock)], b.2)) ([], d)
  r.2.each ((l.map (·.2.1)).dedup) fun d pipe =>
    let n := ((r.1.filter (·.1 == pipe)).map (·.2)).foldl max 0
    if n = 0 then d else ((d.bump Od.EM_BANK_WAITS 0 n).put Rg.HOLD_BANK pipe (k.clock + 1 + n)).put Rg.HOLD_FROM pipe (k.clock + 1)

/-- Both lookups of a packet (R179 to R194). `src` and `dst` say which are made by its action, `inj` is the
destination that an injected frame brings (R591); the answer says whether it is dropped. -/
def Dev.emStage (k : Clk) (p : Nat) (src dst : Bool) (inj : Option Nat) (x : Desc) (d : Dev) : Bool × Desc × Dev :=
  let force := if d.portWindow k p then d.n Od.PERTURB_PORT_FORCE_MISS p else 0
  let st := d.n Od.EM_PORT_SRC_KEY p
  let dt := d.n Od.EM_PORT_DST_KEY p
  let fid := d.n Od.EM_FID_MAP 0 x.outerVid
  let x := { x with fid := if st = 1 ∨ dt = 1 then fid else 0 }
  let d := d.bankAsk k (pipeOf p) (if src then d.emLookupKey p x st 2 else none) (if dst then d.emLookupKey p x dt 0 else none)
  let flood := 2 * 2 ^ 18 + d.n Od.EM_FID_FLOOD_GROUP 0 fid
  -- source
  let s := match (if src then d.emLookupKey p x st 2 else none) with
    | some key =>
      let r := d.emLookup key (bit force 0) p
      let d := r.2.2.when (r.1 != 1) fun d => d.pair Od.EM_SRC_MISS p x.rxLength
      let l := if st = 1 then d.learnTest k p x key r.1 r.2.1 else (0, d)
      let x := { x with srcOutcome := r.1, srcIndex := r.2.1, learnField := l.1 }
      (if r.1 = 1 ∧ st = 3 then x.emOverride (d.emWord r.2.1 1) else x, l.2)
    | none => (x, d)
  let x := s.1
  let d := s.2
  if !dst then
    let x := if x.streamSet then { x with finalStreamSet := true, finalStream := x.stream } else x
    (false, { x with finalDest := x.dest }, d)
  else
    let q := match d.emLookupKey p x dt 0 with
      | some key =>
        let r := d.emLookup key (bit force 1) p
        let x := { x with dstOutcome := r.1, dstIndex := r.2.1 }
        if r.1 = 1 then
          let res := r.2.2.emWord r.2.1 1
          let x := x.emOverride res
          (x, if bit res 43 then some (bits res 63 44) else none, r.2.2)
        else (x, none, r.2.2)
      | none => (x, none, d)
    let x := q.1
    let d := q.2.2
    let full := x.learnField == 3
    let x := if x.streamSet then { x with finalStreamSet := true, finalStream := x.stream } else x
    let d := d.when q.2.1.isNone fun d => d.pair Od.EM_DST_MISS p x.rxLength
    if let some to_ := inj then (false, { x with finalDest := to_ }, d) else
    let drop := q.2.1.isNone && d.n Od.EM_PORT_MISS_ACTION p == 1 && !full
    if drop then (true, x, d.pair Od.EM_MISS_DROPS p x.rxLength)
    else if full || q.2.1.isNone then (false, { x with finalDest := flood, flooded := true }, d.pair Od.EM_FLOODED p x.rxLength)
    else
      let dest := q.2.1.getD 0
      if dt = 1 ∧ dest = d.n Od.EM_PORT_LEARN_DEST p ∧ !d.on Od.EM_PORT_HAIRPIN p then
        (true, { x with finalDest := dest }, d.pair Od.EM_SAME_PORT_DROPS p x.rxLength)
      else (false, { x with finalDest := dest }, d)

/-- A pending retirement takes effect as its way becomes invalid (R471). -/
def Dev.settleRetire (pos : Nat) (d : Dev) : Dev :=
  d.each (List.range (d.n Od.INTEG_EM_RETIRED_COUNT 0)) fun d e =>
    if d.n Od.INTEG_EM_RETIRED_LIST 0 e = 2 ^ 31 + pos then d.put Od.INTEG_EM_RETIRED_LIST 0 pos e else d

/-- A change of an entry, made in this tick (R188), recorded in the journal (R517); the reserved bits of its result word are ignored (R9, R175). A mask of four or more bits
leaves open whether the word is readable (R469). -/
def Dev.emChange (k : Clk) (origin : Nat) (c : EmChange) (d : Dev) : Dev :=
  let c := { c with result := c.result / 2 ^ 17 * 2 ^ 17 }
  let bs := (if (if c.hit = 2 then d.emWord c.pos 2 else c.hit) = 0 then 0 else 1) + (if (if c.seen = 2 then d.emWord c.pos 3 else c.seen) = 0 then 0 else 2)
  let a := d.flip 2 8 (2 * c.pos) c.key
  let b := a.2.flip 2 8 (2 * c.pos + 1) c.result
  let open_ := decide (4 ≤ a.1) || decide (4 ≤ b.1)
  let r := if open_ then b.2.fresh else (0, b.2)
  let n := fun (x : Nat) => if 4 ≤ x then 3 + r.1 % 2 else x
  let c := { c with flips := [(0, n a.1), (1, n b.1)].filter fun f => f.2 != 0 }
  let d := { r.2 with emPend := r.2.emPend ++ [c] }.jtable k c.pos origin bs c.key c.result
  if bit c.key 63 then d else d.settleRetire c.pos

/-- A word of an entry takes the mask bits of R469: 1 or 2 leave it correctable, 3 poison it, more leave it with a value the spec does not give. -/
def Dev.flipWay (pos : Nat) (d : Dev) (f : Nat × Nat) : Dev :=
  let a := 2 * pos + f.1
  if f.2 ≤ 2 then { d with flipped := d.flipped ++ [{ mem := 2, die := 8, addr := a, bits := f.2 }] }
  else if f.2 = 3 then { d with emPoison := d.emPoison ++ [a] }
  else let v := d.fresh; v.2.emPut pos f.1 (v.1 % 2 ^ 64)

/-- At the boundary that opens a tick the changes of the tick before become visible (R188). -/
def Dev.emCommit (tick : Nat) (d : Dev) : Dev :=
  let l := d.emPend
  { d with emPend := [], emPoison := d.emPoison.filter fun w => !l.any fun c => c.pos == w / 2 }.each l fun d c =>
    let d := (d.unflip 2 8 (2 * c.pos)).unflip 2 8 (2 * c.pos + 1)
    let d := ((d.emPut c.pos 0 c.key).emPut c.pos 1 c.result).put Rg.SHADOW_CHANGED (c.pos / 16384) tick (c.pos % 16384 / 512)
    let d := if c.hit = 2 then d else d.emPut c.pos 2 c.hit
    (if c.seen = 2 then d else d.emPut c.pos 3 c.seen).each c.flips (Dev.flipWay c.pos)

/-- An entry becomes invalid: its words stay zero, as a word never written reads. -/
def Dev.emRemove (k : Clk) (origin pos : Nat) (d : Dev) : Dev := d.emChange k origin { pos := pos, key := 0, result := 0 }

/-- Valid positions, rising. -/
def Dev.emValid (d : Dev) : List Nat := ((d.em.filter fun x => x.1 % 4 == 0 && bit x.2.toNat 63).map fun x => x.1 / 4)

end Sys2Proof.Machine
end

