-- ==== Sys2Proof/Machine/TimeOps.lean ====
section
/-! DEFINITION. Writing views (R366 to R371), reference measurements and the vote (R372 to R377), and isolation's effect (R371, R632). -/
namespace Sys2Proof.Machine

/-- The parameters of a view after re-basing at the boundary that opened the tick (R367, step 1). -/
def Dev.rebased (k : Clk) (d : Dev) (v : Nat) : ViewSet :=
  let p := d.viewSet v
  { p with from_ := k.raw, anchor := k.raw, offset := p.offset + ((((k.raw : Int) - p.anchor) % 2 ^ 72) * p.inc) }

/-- A parameter set replaces the one of its view that holds from the same raw value, else joins it (R368). -/
def Dev.setView (p : ViewSet) (d : Dev) : Dev :=
  ({ d with views := d.views.filter fun x => !(x.view == p.view && x.from_ == p.from_) }).pushView p

/-- A SET of a view (R367, step 2): the offset in 2⁻⁴⁸ ns; t a TIME80 value, sub its sub-nanosecond part. -/
def Dev.viewSetTo (k : Clk) (v t sub : Nat) (d : Dev) : Dev :=
  (d.setView { d.rebased k v with offset := (time80Ns t * 65536 + sub) * 2 ^ 32 }).bump Od.TIME_VIEW_STEPS v

/-- A STEP of a view (R366, R367); 0 has no effect. -/
def Dev.viewStep (k : Clk) (v : Nat) (n : Int) (d : Dev) : Dev :=
  if n = 0 then d
  else
    let p := d.rebased k v
    (d.setView { p with offset := p.offset + n * 2 ^ 32 }).bump Od.TIME_VIEW_STEPS v

/-- An increment becomes a view's (R367, step 3). -/
def Dev.viewInc (k : Clk) (v n : Nat) (d : Dev) : Dev := (d.setView { d.rebased k v with inc := n }).put Od.TIME_VIEW_INCREMENT v n

/-- The increments R366 admits. -/
def incOk (n : Nat) : Bool := decide (2746030290371 ≤ n ∧ n ≤ 2751527848509)

/-- An increment write applies (R367, R370). -/
def Dev.viewIncrement (k : Clk) (v n : Nat) (d : Dev) : Dev :=
  ((d.viewInc k v n).put Od.TIME_VIEW_STATE v 1).put Od.TIME_VIEW_LAST_WRITE_TICK v k.tick

/-- A view enters holdover (R369). -/
def Dev.holdover (k : Clk) (v : Nat) (d : Dev) : Dev :=
  let d := d.put Od.TIME_VIEW_STATE v 2
  let h := d.n Od.TIME_VIEW_HOLDOVER_INCREMENT v
  (if h = 0 then d else d.viewInc k v h).event k 0x0E01 v 0 []

/-- Holdover falls due for a view (R369). -/
def Dev.holdoverDue (k : Clk) (d : Dev) (v : Nat) : Bool :=
  let a := d.n Od.TIME_VIEW_HOLDOVER_AFTER v
  d.n Od.TIME_VIEW_STATE v == 1 && a != 0 && decide (d.n Od.TIME_VIEW_LAST_WRITE_TICK v + 2000000 * a ≤ k.tick)

/-- Step 4 of the boundary (R42, R367): the writes staged for each view, steps in order, then the increment. -/
def Dev.applyViewWrites (k : Clk) (d : Dev) : Dev :=
  let l := d.viewWrites
  let d := d.each (l.filter (·.kind != 3)) fun d w =>
    if w.kind = 1 then d.viewSetTo k w.view w.value.toNat (d.n Od.TIME_VIEW_SET_SUB w.view) else d.viewStep k w.view w.value
  { d.each (l.filter (·.kind == 3)) (fun d w => d.viewIncrement k w.view w.value.toNat) with viewWrites := [] }

/-- The device is isolated from this boundary (R632, R438, R371); the first cause stands. -/
def Dev.isolateNow (k : Clk) (cause : Nat) (d : Dev) : Dev :=
  let d := { d with isoDue := none }
  if d.on Od.FAULT_ISOLATED 0 then d
  else
    let d := ((d.put Od.FAULT_ISOLATED 0 1).put Od.FAULT_CAUSE 0 cause).bump Od.FAULT_ISOLATIONS 0
    let d := d.when (d.on Od.MAT_ENABLE 0) fun d =>
      ((d.note Od.MAT_STATE 5 38).put Rg.H_TERM 0 0).put Rg.O_TERM 0 0
    d.each (List.range 4) fun d v => d.when (d.n Od.TIME_VIEW_STATE v == 1) (Dev.holdover k v)

/-- Isolation ends (R632, R439), and with it every recovery of rung ISOLATE (R625). -/
def Dev.isolationEnds (d : Dev) : Dev :=
  let d : Dev := { d with flt := d.flt.filter (·.rung != 5), fltDue := d.fltDue.filter (·.rung != 5) }
  (d.put Od.FAULT_ISOLATED 0 0).put Od.FAULT_CAUSE 0 0

/-- Reference x gives an offset (R372). -/
def Dev.measure (k : Clk) (x : Nat) (off : Int) (d : Dev) : Dev :=
  let d := d.when (d.n Rg.VOTE_NEW 0 != k.tick + 1) fun d => d.put Rg.VOTE_NEW 0 (d.n Rg.VOTE_NEW 0) 1
  ((d.set Od.TIME_REF_LAST 0 off x).put Od.TIME_REF_LAST_TICK 0 k.tick x).put Rg.VOTE_NEW 0 (k.tick + 1)

/-- The tick before this one brought a measurement, and its vote has not been taken (R374). -/
def Dev.voteDue (k : Clk) (d : Dev) : Bool :=
  k.tick != 0 && (d.n Rg.VOTE_NEW 0 == k.tick || d.n Rg.VOTE_NEW 0 1 == k.tick) && d.n Rg.VOTE_TICK 0 != k.tick + 1

/-- The voted view changes (R372): no measurement against the old one counts, and an edge not yet labelled is one of the new view. -/
def Dev.voteViewSet (d : Dev) : Dev :=
  let d := d.each (List.range 3) fun d x => d.put Od.TIME_REF_LAST_TICK 0 0 x
  d.when (d.on Rg.EDGE_RAW 0) fun d =>
    let r := d.n Rg.EDGE_RAW 0 - 1
    d.put Rg.EDGE_VIEW 0 ((d.viewSetAt (d.n Od.TIME_VOTE_VIEW 0) r).1.at r)

/-- A write of TIME.REF_A.OFFSET (R372). -/
def Dev.refA (k : Clk) (off : Int) (d : Dev) : Dev := if d.on Od.TIME_REF_A_ENABLE 0 then d.measure k 0 off else d

/-- One second in 2⁻¹⁶ ns. -/
def secU : Nat := 1000000000 * 65536

/-- Reference B from an edge at view time v whose second is s, or the nearest to v + DELAY, a tie to the even one (R372, R373). -/
def Dev.refB (k : Clk) (v : Nat) (s : Option Nat) (d : Dev) : Dev :=
  if !d.on Od.TIME_REF_B_ENABLE 0 then d
  else
  let delay := d.get Od.TIME_REF_B_DELAY 0
  let sec : Int := match s with | some x => (x : Int) | none => roundHalfEven (v + delay) secU
  d.measure k 1 (sec * secU + delay - v)

/-- The references that count in a vote (R374). -/
def Dev.voters (k : Clk) (d : Dev) : List Nat :=
  let en := [d.on Od.TIME_REF_A_ENABLE 0, d.on Od.TIME_REF_B_ENABLE 0, d.on Od.TIME_REF_C_ENABLE 0]
  (List.range 3).filter fun x => en.getD x false && d.on Od.TIME_REF_LAST_TICK 0 x &&
    decide (k.tick - d.n Od.TIME_REF_LAST_TICK 0 x ≤ d.n Od.TIME_REF_MAX_AGE 0 x)

/-- The outcome of a vote (R374): codes of TIME.VOTE.OUTCOME. -/
def Dev.voteOutcome (d : Dev) (v : List Nat) : Nat :=
  let off := fun x => d.get Od.TIME_REF_LAST 0 x
  let agree := fun x y => decide (((off x - off y).natAbs) ≤ d.n Od.TIME_VOTE_WINDOW 0 * 65536)
  match v with
  | [x, y] => if agree x y then 1 else 7
  | [_, _, _] =>
    match agree 0 1, agree 0 2, agree 1 2 with
    | true, true, true => 1
    | true, false, false => 5
    | false, true, false => 4
    | false, false, true => 3
    | false, false, false => 6
    | _, _, _ => 2
  | _ => 0

/-- 2⁻¹⁶ ns as saturating signed 32-bit nanoseconds, rounded towards zero (R508). -/
def offNs (v : Int) : List Byte := bytesLE 4 (ofSigned 32 (clampI (-(2 ^ 31)) (2 ^ 31 - 1) (v.tdiv 65536)))

/-- The vote of R374, with its event (R377). -/
def Dev.vote (k : Clk) (d : Dev) : Dev :=
  let v := d.voters k
  let o := d.voteOutcome v
  let f := d.n Od.TIME_VOTE_FREEZE_ON 0
  let frozen := (o == 3 && bit f 0) || (o == 6 && bit f 1) || (o == 7 && bit f 2 && v.contains 0)
  let was := d.n Od.TIME_VOTE_OUTCOME 0
  let d := ((d.note Od.TIME_VOTE_OUTCOME o 37).put Od.TIME_VOTE_FROZEN 0 (if frozen then 1 else 0)).bump Od.TIME_VOTE_COUNTS 0 1 o
  let d := d.put Rg.VOTE_TICK 0 (k.tick + 1)
  if o ≠ was ∧ 2 ≤ o then
    let off := fun x => d.get Od.TIME_REF_LAST 0 x
    let pairs := v.flatMap fun x => v.map fun y => ((off x - off y).natAbs)
    d.event k 0x0E02 (d.n Od.TIME_VOTE_VIEW 0) (pairs.foldl max 0 : Nat)
      (offNs (off 0) ++ offNs (off 1) ++ offNs (off 2) ++ [BitVec.ofNat 8 o, if frozen then 1 else 0])
  else d

/-- A pin's time outputs are muted (R383). -/
def Dev.muted (d : Dev) (pin : Nat) : Bool :=
  d.on Od.FAULT_ISOLATED 0 || (d.on Od.TIO_MUTE pin && d.n Od.TIME_VIEW_STATE (d.n Od.TIO_VIEW pin) == 2)

/-- The lowest pin in mode TOD_IN (R375). -/
def Dev.todPin (d : Dev) : Option Nat := (List.range 8).find? fun p => d.n Od.TIO_MODE p == 4

/-- 990 ms in raw units (R375). -/
def labelWait : Nat := 990000000 * 512 / 5

/-- The whole second that a view's time, moved by an advance, reaches by running within this clock; none where it reaches none. -/
def Dev.secondReached (k : Clk) (d : Dev) (v : Nat) (adv : Int) : Option Nat :=
  let p := d.viewSet v
  let a : Int := (p.at k.now : Nat) + adv
  let b : Int := (p.at (k.now + 64) : Nat) + adv
  let s := b.fdiv secU
  if s * secU < b ∧ a ≤ s * secU then some s.toNat
  else if a = (a.fdiv secU) * secU then some (a.fdiv secU).toNat else none

/-- The message of R381. -/
def Dev.todMessage (d : Dev) (pin sec : Nat) : List Byte :=
  let v := d.n Od.TIO_VIEW pin
  let st := d.n Od.TIME_VOTE_FROZEN 0 * 128 + d.n Od.TIME_VOTE_OUTCOME 0 * 8 + d.n Od.TIME_VIEW_STATE v * 2
  let m : List Byte := [0xA7, 0x3C, 0x11, BitVec.ofNat 8 st] ++ bytesBE 6 sec ++ [BitVec.ofNat 8 v, 0, 0, 0]
  m ++ bytesBE 2 (crc16 m)

/-- A pin's FIFO of stamped edges, oldest first (R382). -/
def Dev.tioFifo (d : Dev) (pin : Nat) : List (Nat × List Nat) := d.tio.filter (·.1 == pin)

/-- A read of TIO.EVENT.NEXT: the oldest entry, removed (R382). -/
def Dev.tioNext (pin : Nat) (d : Dev) : List Nat × Dev :=
  match (d.tioFifo pin).head? with
  | some e => (e.2, { d with tio := d.tio.erase e }.put Od.TIO_EVENT_COUNT pin ((d.tioFifo pin).length - 1))
  | none => ([0, 0, 0, 0], d)

end Sys2Proof.Machine
end

