-- ==== Sys2Proof/Machine/MatOps.lean ====
section
/-! DEFINITION. Mats (R415 to R445): trunks and routes, messages, heartbeats, the lease, table synchronisation, self-checking, reference C. -/
namespace Sys2Proof.Machine

/-- The device's number in the mat. -/
def Dev.me (d : Dev) : Nat := d.n Od.MAT_DEVICE 0

/-- The other members, rising. -/
def Dev.others (d : Dev) : List Nat := (List.range 8).filter fun m => bit (d.n Od.MAT_MEMBERS 0) m && m != d.me

/-- How many members the mat has. -/
def Dev.memberCount (d : Dev) : Nat := ((List.range 8).filter (bit (d.n Od.MAT_MEMBERS 0))).length

/-- The active ports of a trunk, in entry order (R416). -/
def Dev.trunkActive (d : Dev) (n : Nat) : List Nat :=
  (((d.elems Od.MAT_TRUNK_PORTS n 16).filter fun e => bit e 15).map fun e => bits e 9 0).filter fun p => d.link p == lkUP

/-- The lowest active port of a trunk (R429, R445). -/
def Dev.trunkLow (d : Dev) (n : Nat) : Option Nat := (List.range 1024).find? fun p => (d.trunkActive n).contains p

/-- The hash of R245. -/
def Dev.lagHash (d : Dev) (x : Desc) : Nat :=
  let slots := (List.range 32).filter (bit (d.n Od.FAB_LAG_HASH_SLOTS 0))
  crc32 ((slots.flatMap fun s => bytesBE 4 (if x.has s then x.fields.getD s 0 else 0)) ++ bytesBE 2 x.outerVid ++ bytesBE 4 (d.n Od.FAB_LAG_HASH_SEED 0))

/-- A port chosen among active ones (R245). -/
def Dev.pickPort (d : Dev) (x : Desc) (l : List Nat) : Option Nat := l[d.lagHash x % l.length]?

/-- A member whose trunk is lost but whose heartbeats arrive by another path (R426). -/
def Dev.splitFrom (d : Dev) (m : Nat) : Bool := (d.trunkActive m).isEmpty && d.n Od.MAT_REACH 0 m / 2 != 0

/-- The relay for a member (R426): the lowest member whose heartbeats report active trunks to both. -/
def Dev.relayFor (d : Dev) (m : Nat) : Option Nat :=
  d.others.find? fun r => r != m && bit (d.n Rg.MAT_SAID r 3) d.me && bit (d.n Rg.MAT_SAID r 3) m && !(d.trunkActive r).isEmpty

/-- The trunk port a copy for a member takes, and whether it is relayed (R423, R426); none where there is no way. -/
def Dev.matRoute (d : Dev) (x : Desc) (m : Nat) : Option (Nat × Bool) :=
  match d.trunkActive m with
  | [] => if d.splitFrom m then ((d.relayFor m).bind fun r => d.pickPort x (d.trunkActive r)).map fun p => (p, true) else none
  | l => (d.pickPort x l).map fun p => (p, false)

/-- A mat frame of the MAC's own on a trunk port: its transit header and body, padded (R287, R419, R445). -/
def Dev.matFrame (d : Dev) (p type : Nat) (body : List Byte) : Out :=
  let b := body ++ List.replicate (48 - body.length) 0
  let f := [0x01, 0x80, 0xC2, 0x00, 0x00, 0x0E] ++ bytesBE 6 (d.n Od.PORT_MAC_ADDRESS p) ++ [0x88, 0xB6] ++ trMessage type d.me ++ b
  { kind := .control, unit := p, vals := [0x10 + type], bytes := f ++ fcsBytes f }

/-- Such a frame is sent as R109 places a request, and counted as a whole frame (R288, R420). -/
def Dev.sendMatFrame (k : Clk) (p type : Nat) (body : List Byte) (d : Dev) : Dev := d.macSend k (d.matFrame p type body)

/-- A message body (R427); each message takes a new SEQ. -/
def Dev.matBody (k : Clk) (code target : Nat) (payload : List Byte) (d : Dev) : List Byte × Dev :=
  let s := (d.n Rg.MAT_SEQ 0 + 1) % 2 ^ 32
  ([BitVec.ofNat 8 code, BitVec.ofNat 8 d.me, BitVec.ofNat 8 target, 0] ++ bytesBE 8 (d.n Od.MAT_TERM 0) ++ bytesBE 4 s ++ bytesBE 8 k.tick ++ payload,
    d.put Rg.MAT_SEQ 0 s)

/-- The tag of a datagram (R427). -/
def Dev.matTag (d : Dev) (body : List Byte) : List Byte := (hmac (d.blob Od.MAT_KEY 0) body).take 16

/-- A datagram to entry e of MAT.MGMT.PEERS (R427). -/
def Dev.sendDatagram (k : Clk) (e code : Nat) (payload : List Byte) (d : Dev) : Dev :=
  let m := d.matBody k code (if e = 8 then 8 else e) payload
  m.2.emit { kind := .mat, unit := e, vals := (List.range 16).map fun i => d.n Od.MAT_MGMT_PEERS 0 (16 * e + i), bytes := m.1 ++ d.matTag m.1 }

/-- A message on a trunk port (R427). -/
def Dev.sendTrunk (k : Clk) (p target code : Nat) (payload : List Byte) (d : Dev) : Dev :=
  let m := d.matBody k code target payload
  m.2.sendMatFrame k p 3 m.1

/-- A message to a member or the witness (8): by its trunk where one is active, else by the management network. -/
def Dev.sendMat (k : Clk) (to_ code : Nat) (payload : List Byte) (d : Dev) : Dev :=
  match (if to_ < 8 then d.trunkLow to_ else none) with
  | some p => d.sendTrunk k p to_ code payload
  | none => d.sendDatagram k to_ code payload

/-- A table update as 24 bytes (R428). -/
def MatUpd.bytes (u : MatUpd) : List Byte :=
  [BitVec.ofNat 8 u.op, BitVec.ofNat 8 u.origin, 0, 0] ++ bytesBE 4 u.num ++ bytesBE 8 u.key ++ bytesBE 8 u.result

/-- A TABLE_UPDATE of one record to a member. -/
def Dev.sendUpdate (k : Clk) (m : Nat) (d : Dev) (u : MatUpd) : Dev := d.sendMat k m 5 ([1, 0, 0, 0] ++ u.bytes)

/-- Ticks left of the lease held. -/
def Dev.leaseLeft (k : Clk) (d : Dev) : Nat := if d.n Rg.H_TERM 0 = 0 then 0 else d.n Rg.H_END 0 - k.tick

/-- The payload of a HEARTBEAT (R428). -/
def Dev.heartbeatBody (k : Clk) (d : Dev) : List Byte :=
  let mask := ((d.others.filter fun m => !(d.trunkActive m).isEmpty).map fun m => 2 ^ m).sum
  [BitVec.ofNat 8 (d.n Od.MAT_STATE 0), BitVec.ofNat 8 (if d.n Rg.H_TERM 0 = 0 then d.n Od.MAT_MASTER 0 else d.me)] ++ bytesBE 4 (d.leaseLeft k) ++
    [BitVec.ofNat 8 mask]

/-- Heartbeats on every trunk and to every other member and the witness (R429). -/
def Dev.sendHeartbeats (k : Clk) (d : Dev) : Dev :=
  let b := d.heartbeatBody k
  let d := d.each d.others fun d m => match d.trunkLow m with | some p => d.sendTrunk k p m 1 b | none => d
  (d.each (d.others ++ [8]) fun d m => d.sendDatagram k m 1 b).put Rg.HB_SENT 0 (k.tick + 1)

/-- The standby (R417): the lowest candidate other than the master, reachable and not known to be unfit. -/
def Dev.standbyNow (d : Dev) : Nat :=
  ((List.range 8).find? fun c => bit (d.n Od.MAT_CANDIDATES 0) c && c != d.n Od.MAT_MASTER 0 &&
    (if c = d.me then d.n Od.MAT_CHECK_STATE 0 != 2 else d.n Od.MAT_REACH 0 c != 0)).getD 0xFF

/-- MEMBER and STANDBY follow what the heartbeats show (R417). -/
def Dev.matRoles (d : Dev) : Dev :=
  let s := d.standbyNow
  let d := d.put Od.MAT_STANDBY 0 s
  if d.n Od.MAT_STATE 0 = 2 ∨ d.n Od.MAT_STATE 0 = 3 then d.note Od.MAT_STATE (if s = d.me then 3 else 2) 38 else d

/-- The device votes on leases: in a mat of three or more members (R432). -/
def Dev.votes (d : Dev) : Bool := d.memberCount != 2

/-- A voter's record of a grant (R433). -/
def Dev.recordGrant (k : Clk) (x t : Nat) (d : Dev) : Dev :=
  let e := k.tick + d.n Od.MAT_LEASE_DURATION 0
  let d := (((d.put Rg.V_TERM 0 t).put Rg.V_GRANTEE 0 (x + 1)).put Rg.V_END 0 e).put Rg.V_MASTER 0 0
  ((d.put Od.MAT_LAST_HOLDER 0 x).put Rg.H_LAST 0 (max t (d.n Rg.H_LAST 0))).put Od.MAT_LEASE_END_TICK 0 e

/-- A voter grants (R433). -/
def Dev.grantLease (k : Clk) (x t : Nat) (d : Dev) : Dev :=
  (d.recordGrant k x t).sendMat k x 3 (bytesBE 8 t ++ [BitVec.ofNat 8 x])

/-- A voter refuses (R433). -/
def Dev.refuseLease (k : Clk) (x t reason : Nat) (d : Dev) : Dev := d.sendMat k x 4 (bytesBE 8 t ++ [BitVec.ofNat 8 reason])

/-- A request reaches a voter (R431, R433): from x for term t; stale when its message bore a term below MAT.TERM. -/
def Dev.leaseRequest (k : Clk) (x t : Nat) (renew stale : Bool) (d : Dev) : Dev :=
  if !d.votes || !d.on Od.MAT_ENABLE 0 then d
  else
    let g := d.n Rg.V_GRANTEE 0
    if !bit (d.n Od.MAT_CANDIDATES 0) x then d.refuseLease k x t 3
    else if stale ∨ t < d.n Rg.V_TERM 0 ∨ (t = d.n Rg.V_TERM 0 ∧ g ≠ x + 1) then d.refuseLease k x t 2
    else if g ≠ x + 1 ∧ k.tick < d.n Rg.V_END 0 then d.refuseLease k x t 1
    else if renew ∧ g = x + 1 ∧ (d.matReqs.all fun r => decide (r.term ≤ t)) then d.grantLease k x t
    else
      let d := d.when d.matReqs.isEmpty fun d => d.put Rg.V_COLLECT 0 (k.tick + 1)
      { d with matReqs := d.matReqs.filter (·.dev != x) ++ [{ dev := x, term := t }] }

/-- The end of a collection (R433): the last holder, else the lowest device. -/
def Dev.collectEnd (k : Clk) (d : Dev) : Dev :=
  let l := d.matReqs
  let d := { d with matReqs := [] }.put Rg.V_COLLECT 0 0
  let low := (l.map (·.dev)).foldl min 0xFF
  match (l.find? fun r => r.dev == d.n Od.MAT_LAST_HOLDER 0), (l.find? fun r => r.dev == low) with
  | some w, _ => (d.grantLease k w.dev w.term).each (l.filter (·.dev != w.dev)) fun d r => d.refuseLease k r.dev r.term 1
  | none, some w => (d.grantLease k w.dev w.term).each (l.filter (·.dev != w.dev)) fun d r => d.refuseLease k r.dev r.term 1
  | none, none => d

/-- The grants of the device's own request suffice (R432). -/
def Dev.leaseWon (d : Dev) : Bool :=
  let g := d.n Rg.O_GRANTS 0
  d.on Rg.O_TERM 0 &&
    (if d.votes then decide (d.memberCount / 2 + 1 ≤ ((List.range 8).filter (bit g)).length) else bit g 8)

/-- The device asks for a lease: a claim or a renewal (R431, R432, R434). -/
def Dev.askLease (k : Clk) (t : Nat) (claim : Bool) (d : Dev) : Dev :=
  let d := ((d.put Rg.O_TERM 0 t).put Rg.O_TICK 0 k.tick).put Rg.O_REFUSED 0 0
  let d := (d.put Rg.O_CLAIM 0 (if claim then 1 else 0)).put Rg.O_GRANTS 0 (if d.votes then 2 ^ d.me else 0)
  let d := d.when d.votes (Dev.recordGrant k d.me t)
  let d := d.each (if d.votes then d.others else [8]) fun d v => d.sendMat k v 2 (bytesBE 8 t ++ [if claim then 0 else 1])
  d.when d.leaseWon fun d => d.later .leaseHeld

/-- A grant reaches the device (R434). -/
def Dev.leaseGrant (_k : Clk) (v t x : Nat) (d : Dev) : Dev :=
  if d.n Rg.O_TERM 0 = t ∧ t ≠ 0 ∧ x = d.me then
    let d := d.put Rg.O_GRANTS 0 (setBit (d.n Rg.O_GRANTS 0) v)
    d.when d.leaseWon fun d => d.later .leaseHeld
  else d

/-- A refusal reaches the device (R433). -/
def Dev.leaseRefuse (_k : Clk) (v t : Nat) (d : Dev) : Dev :=
  if d.n Rg.O_TERM 0 = t ∧ t ≠ 0 then d.put Rg.O_REFUSED 0 (setBit (d.n Rg.O_REFUSED 0) v) else d

/-- One byte string joins a running CRC (R444). -/
def crcOn (c : Nat) (bs : List Byte) : Nat := bs.foldl crc32Byte c

/-- An update is sampled (R444). -/
def Dev.sampled (d : Dev) (u : MatUpd) : Bool :=
  let s := d.n Od.MAT_CHECK_SAMPLE 0
  let h := crc32 (bytesBE 8 (clearBit (clearBit u.key 63) 60) ++ bytesBE 8 (d.n Od.EM_HASH_SEED 0))
  s != 0 && h % s == 0

/-- A sampled update joins the signature of the period (R444). -/
def Dev.signUpdate (u : MatUpd) (d : Dev) : Dev :=
  if d.sampled u then
    (d.put Rg.SIG_COUNT 0 (d.n Rg.SIG_COUNT 0 + 1)).put Rg.SIG_CRC 0 (crcOn (d.n Rg.SIG_CRC 0) (bytesBE 8 u.key ++ bytesBE 8 u.result))
  else d

/-- A SET that a later broadcast SET from another origin bars (R441): the winner. -/
def Dev.conflict (k : Clk) (d : Dev) (u : MatUpd) : Option MatUpd :=
  let w := d.n Od.MAT_SYNC_CONFLICT_TICKS 0
  if u.op ≠ 1 ∨ w = 0 then none
  else ((d.matSets.find? fun s => sameKey s.upd.key u.key && s.upd.origin != u.origin && bits s.upd.result 63 44 != bits u.result 63 44 &&
    decide (k.tick ≤ s.tick + w)).map (·.upd))

/-- The latest broadcast SET of a key is kept (R441). -/
def Dev.noteSet (k : Clk) (u : MatUpd) (d : Dev) : Dev :=
  if u.op = 1 then { d with matSets := { upd := u, tick := k.tick } :: d.matSets.filter fun s => !sameKey s.upd.key u.key } else d

/-- The master broadcasts an update in its order (R441); others' updates it applies itself too. -/
def Dev.broadcast (k : Clk) (d : Dev) (u : MatUpd) : Dev :=
  let d := ((d.noteSet k u).signUpdate u).each d.others fun d m => d.sendUpdate k m u
  if u.origin = d.me then d else { d with matApply := d.matApply ++ [u] }

/-- The master takes an update (R441). -/
def Dev.orderUpdate (k : Clk) (d : Dev) (u : MatUpd) : Dev :=
  match d.conflict k u with
  | some w => (d.bump Od.MAT_SYNC_CONFLICTS 0).sendUpdate k u.origin w
  | none => d.broadcast k u

/-- The standby arbitrates an update as if it were master (R444). -/
def Dev.shadowOrder (k : Clk) (d : Dev) (u : MatUpd) : Dev :=
  if (d.conflict k u).isSome then d else (d.noteSet k u).signUpdate u

/-- An update reaches the device (R441): ordered by the master, shadowed by the standby, or queued for application. -/
def Dev.takeUpdate (k : Clk) (from_ : Nat) (d : Dev) (u : MatUpd) : Dev :=
  if d.n Od.MAT_STATE 0 = 4 then d.orderUpdate k u
  else if d.n Od.MAT_STATE 0 = 5 ∨ d.n Od.MAT_STATE 0 = 0 then d
  else if from_ = d.n Od.MAT_MASTER 0 then
    let known := d.matShadow.any fun v => v.origin == u.origin && v.num == u.num
    let d := if d.n Od.MAT_STATE 0 = 3 && u.origin == from_ then d.shadowOrder k u else d
    let d := if known then { d with matShadow := d.matShadow.filter fun v => !(v.origin == u.origin && v.num == u.num) } else d
    { d with matApply := d.matApply ++ [u], matOwn := d.matOwn.filter fun v => !(u.origin == d.me && v.num == u.num) }
  else if d.n Od.MAT_STATE 0 = 3 then { (d.shadowOrder k u) with matShadow := d.matShadow ++ [u] }
  else d

/-- The updates that arrived in a clock, with their senders, are taken as it ends, by ascending origin (R441). -/
def Dev.updJoin (k : Clk) (d : Dev) : Dev :=
  d.each (sortBy (fun (a b : Nat × MatUpd) => decide (a.2.origin ≤ b.2.origin)) d.now.upds) fun d x => d.takeUpdate k x.1 x.2

/-- A change of the device's own learning or sweeper is sent (R440); the master's goes into its own stream. -/
def Dev.ownUpdate (k : Clk) (op key result : Nat) (d : Dev) : Dev :=
  if d.on Od.MAT_ENABLE 0 && !d.isolated then
    let n := (d.n Rg.UPD_NUM 0 + 1) % 2 ^ 32
    let u : MatUpd := { op := op, origin := d.me, num := n, key := key, result := result }
    let d := (d.put Rg.UPD_NUM 0 n).bump Od.MAT_SYNC_UPDATES_SENT 0
    if d.n Od.MAT_STATE 0 = 4 then d.broadcast k u
    else
      let d := { d with matOwn := d.matOwn ++ [u] }
      d.each ([d.n Od.MAT_MASTER 0, d.n Od.MAT_STANDBY 0].filter fun m => decide (m < 8) && m != d.me).dedup fun d m => d.sendUpdate k m u
  else d

/-- The highest update applied of each origin, to the master (R428, R441). -/
def Dev.sendAck (k : Clk) (d : Dev) : Dev :=
  let m := d.n Od.MAT_MASTER 0
  if m < 8 ∧ m ≠ d.me then d.sendMat k m 6 ((List.range 8).flatMap fun o => bytesBE 4 (d.n Rg.UPD_DONE o)) else d

/-- An acknowledgement: what a master has acknowledged needs no resending (R437, R441). -/
def Dev.takeAck (from_ : Nat) (nums : List Nat) (d : Dev) : Dev :=
  if from_ = d.n Od.MAT_MASTER 0 ∨ d.n Od.MAT_STATE 0 = 4 then { d with matOwn := d.matOwn.filter fun u => decide (nums.getD d.me 0 < u.num) } else d

/-- A broadcast record is applied (R442): its bucket as the tick's changes left it. -/
def Dev.applySync (k : Clk) (u : MatUpd) (d : Dev) : Dev :=
  let w := ways (d.emBase u.key)
  let at_ := w.find? fun p => !d.emBadNow p && bit (d.emKey p) 63 && sameKey (d.emKey p) u.key
  let d := d.put Rg.UPD_DONE u.origin (max u.num (d.n Rg.UPD_DONE u.origin))
  let d := match u.op, at_ with
    | 1, some p =>
      if bit (d.emKey p) 60 || bit (d.emResult p) 17 then d.bump Od.MAT_SYNC_REFUSED_STATIC 0
      else (d.emChange k 4 { pos := p, key := d.emKey p, result := u.result, hit := 1 }).bump Od.MAT_SYNC_UPDATES_APPLIED 0
    | 1, none =>
      if w.any d.emBadNow then d
      else match w.find? d.emFree with
        | some p => (d.emChange k 4 { pos := p, key := clearBit (setBit u.key 63) 60, result := u.result, hit := 1 }).bump Od.MAT_SYNC_UPDATES_APPLIED 0
        | none => d.bump Od.EM_LEARN_FULL 0
    | 2, some p =>
      if bits (d.emResult p) 20 18 = u.origin then (d.emRemove k 4 p).bump Od.MAT_SYNC_UPDATES_APPLIED 0 else d
    | _, _ => d
  d.sendAck k

/-- A device rejoins the mat (R439): JOINING, without the learned entries of other owners, and asks the master it knows for the table. -/
def Dev.rejoin (k : Clk) (d : Dev) : Dev :=
  let d := (d.isolationEnds.note Od.MAT_STATE 1 38).put Rg.RESYNC 0 0
  let d := { d with matApply := [], matShadow := [] }
  let d := d.each (d.emValid.filter fun p => bit (d.emWord p 1) 21 && bits (d.emWord p 1) 20 18 != d.me) fun d p => d.emRemove k 1 p
  let m := d.n Od.MAT_MASTER 0
  if m < 8 ∧ m ≠ d.me then (d.put Rg.RESYNC 0 1).sendMat k m 8 [] else d

/-- The lease is held from this boundary (R434, R437). -/
def Dev.leaseHeld (k : Clk) (d : Dev) : Dev :=
  if d.leaseWon && d.n Od.MAT_STATE 0 != 5 && d.n Od.MAT_STATE 0 != 0 then
    let t := d.n Rg.O_TERM 0
    let e := d.n Rg.O_TICK 0 + d.n Od.MAT_LEASE_DURATION 0
    let new := d.n Od.MAT_STATE 0 != 4
    let d := ((((d.put Rg.H_TERM 0 t).put Rg.H_END 0 e).put Rg.H_LAST 0 (max t (d.n Rg.H_LAST 0))).put Od.MAT_LEASE_END_TICK 0 e).put Rg.O_TERM 0 0
    let d := (((d.put Od.MAT_TERM 0 (max t (d.n Od.MAT_TERM 0))).put Od.MAT_MASTER 0 d.me).note Od.MAT_STATE 4 38).put Rg.MASTER_SEEN 0 (k.tick + 1)
    let d := d.matRoles
    if new then
      let sh := d.matShadow
      let own := d.matOwn
      let d := (((d.put Rg.SIG_FIRST 0 k.tick).put Rg.SIG_COUNT 0 0).put Rg.SIG_CRC 0 0xFFFFFFFF).put Rg.RENEW_SENT 0 (d.n Rg.O_TICK 0 + 1)
      let d := { d with matShadow := [], matOwn := [] }
      (d.each sh (Dev.orderUpdate k)).each own (Dev.broadcast k)
    else d
  else d

/-- The device has a claim under way. -/
def Dev.claiming (d : Dev) : Bool := d.on Rg.O_TERM 0 && d.on Rg.O_CLAIM 0

/-- Heartbeats show a master still renewing (R435): the lease that its latest one told of has ticks left. -/
def Dev.renewing (k : Clk) (d : Dev) : Bool :=
  let m := d.n Od.MAT_MASTER 0
  decide (m < 8 ∧ k.tick < d.n Rg.MASTER_SEEN 0 - 1 + d.n Rg.MAT_SAID m 2)

/-- A heartbeat arrives (R430): by path 0 trunk, 1 management network, 2 relay. -/
def Dev.heartbeat (k : Clk) (path m term : Nat) (said : List Nat) (d : Dev) : Dev :=
  let s := said.getD 0 0
  let d := (d.put Rg.MAT_HEARD m (k.tick + 1) path).put Od.MAT_REACH 0 (setBit (d.n Od.MAT_REACH 0 m) path) m
  let d := d.each ((said ++ [term]).take 5).zipIdx fun d x => d.put Rg.MAT_SAID m x.1 x.2
  let d :=
    if s = 4 then
      let was := d.n Od.MAT_MASTER 0
      let d := (d.put Od.MAT_MASTER 0 m).put Rg.MASTER_SEEN 0 (k.tick + 1)
      let d := d.when (d.n Rg.V_TERM 0 == term && d.n Rg.V_GRANTEE 0 == m + 1) fun d => d.put Rg.V_MASTER 0 1
      let d := d.when (d.claiming && decide (d.n Rg.O_TERM 0 ≤ term)) fun d => d.put Rg.O_TERM 0 0
      let d := d.when (!d.votes) fun d => d.put Rg.V_END 0 (k.tick + said.getD 2 0)
      let d := d.when (was != m && d.n Od.MAT_STATE 0 != 4) fun d => d.each d.matOwn fun d u => d.sendUpdate k m u
      if d.n Od.MAT_STATE 0 = 5 ∧ d.on Od.MAT_AUTO_REJOIN 0 ∧ d.n Rg.H_LAST 0 < term then d.rejoin k
      else if d.n Od.MAT_STATE 0 = 1 ∧ !d.on Rg.RESYNC 0 then (d.put Rg.RESYNC 0 1).sendMat k m 8 []
      else d
    else if d.n Od.MAT_MASTER 0 = m then d.put Od.MAT_MASTER 0 0xFF
    else d
  let d := d.when (s == 3) fun d => d.put Rg.STANDBY_SEEN 0 (k.tick + 1)
  d.matRoles

/-- A path's timeout (R430), with the loss of a claimant (R633). -/
def Dev.heartbeatLost (k : Clk) (m path : Nat) (d : Dev) : Dev :=
  let d := d.put Od.MAT_REACH 0 (clearBit (d.n Od.MAT_REACH 0 m) path) m
  let d := d.when (d.n Od.MAT_REACH 0 m == 0 && d.n Od.MAT_MASTER 0 == m) fun d => d.put Od.MAT_MASTER 0 0xFF
  let d := d.matRoles
  if d.n Od.MAT_REACH 0 m = 0 ∧ d.n Rg.V_GRANTEE 0 = m + 1 ∧ !d.on Rg.V_MASTER 0 then d.isolateNow k 3 else d

/-- The split test at a boundary (R426). -/
def Dev.splitTest (k : Clk) (d : Dev) : Dev :=
  if d.on Od.MAT_ENABLE 0 then
    let d := d.each d.others fun d m =>
      let s := d.splitFrom m
      let d := if s && !d.on Rg.MAT_SPLIT_SEEN m then d.event k 0x0F01 m 0 [] else d
      d.put Rg.MAT_SPLIT_SEEN m (if s then 1 else 0)
    d.put Od.MAT_SPLIT 0 (if d.others.any d.splitFrom then 1 else 0)
  else d

/-- The master answers a resynchronisation (R439): every learned entry, ascending, then RESYNC_DONE. -/
def Dev.resync (k : Clk) (m : Nat) (d : Dev) : Dev :=
  let l := d.emValid.filter fun p => bit (d.emWord p 1) 21
  let d := d.each l fun d p =>
    d.sendUpdate k m { op := 1, origin := bits (d.emWord p 1) 20 18, num := 0, key := d.emWord p 0, result := d.emWord p 1 }
  d.sendMat k m 9 (bytesBE 4 l.length)

/-- The standby compares a signature with its own (R444). -/
def Dev.takeSignature (k : Clk) (crc : Nat) (d : Dev) : Dev :=
  let own := d.n Rg.SIG_CRC 0 ^^^ 0xFFFFFFFF
  let d := ((d.put Rg.SIG_COUNT 0 0).put Rg.SIG_CRC 0 0xFFFFFFFF).put Rg.SIG_FIRST 0 k.tick
  if crc = own then (d.put Rg.SIG_RUN 0 0).when (d.n Od.MAT_CHECK_STATE 0 == 1) fun d => d.put Od.MAT_CHECK_STATE 0 0
  else
    let n := d.n Rg.SIG_RUN 0 + 1
    let d := ((d.bump Od.MAT_CHECK_MISMATCHES 0).event k 0x0F02 0 0 (bytesLE 4 own ++ bytesLE 4 crc)).put Rg.SIG_RUN 0 n
    (d.put Od.MAT_CHECK_STATE 0 (if 3 ≤ n ∨ d.n Od.MAT_CHECK_STATE 0 = 2 then 2 else 1)).matRoles

/-- A view time of 2⁻¹⁶ ns in the 12 bytes of R445. -/
def viewBytes (u : Nat) : List Byte := bytesBE 6 (u / secU) ++ bytesBE 4 (u % secU / 65536) ++ bytesBE 2 (u % 65536)

/-- The time those 12 bytes give, in 2⁻¹⁶ ns. -/
def viewOf (bs : List Byte) : Nat := (ofBytesBE (sliceZ bs 0 6) * 1000000000 + ofBytesBE (sliceZ bs 6 4)) * 65536 + be16 bs 10

/-- The master answers a time request (R445): stamped t2 at its arrival, t3 as the response leaves. -/
def Dev.timeReq (k : Clk) (p stamp seq : Nat) (d : Dev) : Dev :=
  if d.n Od.MAT_STATE 0 = 4 then
    let a := d.convert (d.n Od.MAT_VIEW 0) stamp
    let b := a.2.convert (d.n Od.MAT_VIEW 0) (d.txStamp k p 0)
    b.2.sendMatFrame k p 5 (viewBytes a.1 ++ viewBytes b.1 ++ bytesBE 4 seq)
  else d

/-- Reference C from the four stamps (R445). -/
def Dev.timeResp (k : Clk) (stamp seq : Nat) (t2 t3 : Nat) (d : Dev) : Dev :=
  if d.n Rg.TQ_SEQ 0 = seq + 1 then
    let d := d.put Rg.TQ_SEQ 0 0
    if d.isolated || d.n Od.MAT_STATE 0 == 4 || !d.on Od.TIME_REF_C_ENABLE 0 then d
    else
      let v := d.n Od.TIME_VOTE_VIEW 0
      let t1 := d.convert v (d.n Rg.TQ_T1 0)
      let t4 := t1.2.convert v stamp
      let c := roundHalfEven (((t2 : Int) - t1.1) + ((t3 : Int) - t4.1)) 2 + d.get Od.MAT_TRUNK_ASYMMETRY (d.n Od.MAT_MASTER 0)
      t4.2.measure k 2 c
  else d

/-- The highest term seen (R431). -/
def Dev.seeTerm (t : Nat) (d : Dev) : Dev := if d.n Od.MAT_TERM 0 < t then d.put Od.MAT_TERM 0 t else d

/-- The table updates of a message. -/
def updatesOf : Nat → List Byte → List MatUpd
  | 0, _ => []
  | n + 1, bs =>
    let b := fun i => (bs.getD i 0).toNat
    { op := b 0, origin := b 1, num := ofBytesBE (sliceZ bs 4 4), key := ofBytesBE (sliceZ bs 8 8), result := ofBytesBE (sliceZ bs 16 8) } ::
      updatesOf n (bs.drop 24)

/-- A message that passed its path's checks (R428, R431), by its code; its sender m, 8 for the witness host. -/
def Dev.matAct (k : Clk) (path m : Nat) (bs : List Byte) (d : Dev) : Dev :=
  let b := fun i => (bs.getD i 0).toNat
  let code := b 0
  let term := ofBytesBE (sliceZ bs 4 8)
  let stale := decide (term < d.n Od.MAT_TERM 0)
  let d := d.seeTerm term
  let p := bs.drop 24
  let t := ofBytesBE (sliceZ p 0 8)
  match code with
  | 1 => if stale then d else d.heartbeat k path m term [(p.getD 0 0).toNat, (p.getD 1 0).toNat, ofBytesBE (sliceZ p 2 4), (p.getD 6 0).toNat]
  | 2 => d.leaseRequest k m t ((p.getD 8 0).toNat == 1) stale
  | 3 => if stale then d else d.leaseGrant k m t (p.getD 8 0).toNat
  | 4 => if stale then d else d.leaseRefuse k m t
  | 5 =>
    let n := (p.getD 0 0).toNat
    if n = 0 ∨ 16 < n then d.bump Od.MAT_BAD_HEADER 0
    else if stale then d else { d with now := { d.now with upds := d.now.upds ++ (updatesOf n (p.drop 4)).map fun u => (m, u) } }
  | 6 => if stale then d else d.takeAck m ((List.range 8).map fun o => ofBytesBE (sliceZ p (4 * o) 4))
  | 7 => if d.n Od.MAT_STATE 0 = 3 ∧ !stale ∧ d.n Od.MAT_CHECK_SAMPLE 0 ≠ 0 then d.takeSignature k (ofBytesBE (sliceZ p 12 4)) else d
  | 8 => if d.n Od.MAT_STATE 0 = 4 ∧ !stale then d.resync k m else d
  | 9 => if d.n Od.MAT_STATE 0 = 1 ∧ !stale then d.later .resynced else d
  | _ => d.bump Od.MAT_BAD_HEADER 0

/-- A mat message arrives (R427): by path 0 trunk, 1 a datagram with its tag, 2 relay. -/
def Dev.matMessage (k : Clk) (path : Nat) (bs : List Byte) (d : Dev) : Dev :=
  if !d.on Od.MAT_ENABLE 0 then d
  else if path = 1 then
    let n := bs.length - 16
    let body := bs.take n
    let m := min 8 (body.getD 1 0).toNat
    let seq := ofBytesBE (sliceZ body 12 4)
    if bs.length < 40 ∨ bs.drop n ≠ d.matTag body ∨ seq + 1 ≤ d.n Rg.MAT_SEQ_IN m then d.bump Od.MAT_AUTH_FAILURES 0
    else (d.put Rg.MAT_SEQ_IN m (seq + 1)).matAct k 1 m body
  else
    let m := (bs.getD 1 0).toNat % 8
    (d.put Rg.MAT_SEQ_IN m (max (d.n Rg.MAT_SEQ_IN m) (ofBytesBE (sliceZ bs 12 4) + 1))).matAct k path m bs

/-- A rejoining device has applied everything (R439): MEMBER or STANDBY; while records wait it stays. -/
def Dev.resynced (d : Dev) : Dev :=
  if d.n Od.MAT_STATE 0 ≠ 1 then d
  else if d.matApply.isEmpty then ((d.note Od.MAT_STATE 2 38).put Rg.RESYNC 0 0).matRoles else d.later .resynced

/-- A write of MAT.REJOIN 1 (R439, R444, R632): it clears UNFIT and ends isolation. -/
def Dev.rejoinWrite (k : Clk) (d : Dev) : Dev :=
  let d := (d.put Od.MAT_CHECK_STATE 0 0).put Rg.SIG_RUN 0 0
  if !d.on Od.FAULT_ISOLATED 0 then d.matRoles
  else if d.on Od.MAT_ENABLE 0 then d.rejoin k
  else d.isolationEnds

/-- The device begins to take part in a mat (R415): JOINING, or isolated. -/
def Dev.matOn (k : Clk) (d : Dev) : Dev :=
  if d.on Od.MAT_ENABLE 0 then d
  else
    let d := ((d.put Od.MAT_ENABLE 0 1).note Od.MAT_STATE (if d.on Od.FAULT_ISOLATED 0 then 5 else 1) 38).put Rg.RESYNC 0 0
    (d.put Rg.MASTER_SEEN 0 (k.tick + 1)).put Rg.STANDBY_SEEN 0 (k.tick + 1)

/-- The device no longer takes part (R415): OFF, without a lease or a request. -/
def Dev.matOff (d : Dev) : Dev :=
  (((d.put Od.MAT_ENABLE 0 0).note Od.MAT_STATE 0 38).put Rg.H_TERM 0 0).put Rg.O_TERM 0 0

end Sys2Proof.Machine
end

