-- ==== Sys2Proof/Machine/Admit.lean ====
section
/-! DEFINITION. Resolving a destination into copies (R244 to R247, R423, R426) and admission to the fabric (R248 to R254, R266, R271 to R274, R278,
R279, R289). -/
namespace Sys2Proof.Machine

/-- A copy resolved: its port, and whether it goes to a relay of R426. -/
structure Way where
  port : Nat
  relay : Bool := false
  deriving DecidableEq, Repr

/-- A copy to a port (R244). -/
def Dev.portWay (p : Nat) (d : Dev) : List Way × Dev :=
  if d.portExists p then ([{ port := p }], d) else ([], d.bump Od.FAB_NO_PORT 0)

/-- Ports of the valid entries of a LAG, in entry order. -/
def Dev.lagMembers (d : Dev) (g : Nat) : List Nat := ((d.elems Od.FAB_LAG_MEMBERS g 16).filter fun e => bit e 15).map fun e => bits e 9 0

/-- The active ports of a LAG (R245). -/
def Dev.lagActive (d : Dev) (g : Nat) : List Nat := (d.lagMembers g).filter fun p => d.portExists p && d.link p == lkUP

/-- A copy to a LAG (R245). -/
def Dev.lagWay (x : Desc) (g : Nat) (d : Dev) : List Way × Dev :=
  match d.pickPort x (d.lagActive g) with
  | some p => ([{ port := p }], d)
  | none => ([], d.bump Od.FAB_LAG_NO_MEMBER 0)

/-- A copy to another member of the mat (R423, R426). -/
def Dev.matWay (x : Desc) (m : Nat) (d : Dev) : List Way × Dev :=
  match (if d.on Od.MAT_ENABLE 0 then d.matRoute x m else none) with
  | some r => ([{ port := r.1, relay := r.2 }], d)
  | none => ([], d.bump Od.MAT_UNREACHABLE 0)

/-- Ports a group's copies never take (R246): the receiving port and the LAG it learns to, unless it hairpins. -/
def Dev.pruned (d : Dev) (x : Desc) : List Nat :=
  let l := d.n Od.EM_PORT_LEARN_DEST x.srcPort
  if d.on Od.EM_PORT_HAIRPIN x.srcPort then []
  else x.srcPort :: (if bits l 19 18 = 1 then d.lagMembers (bits l 9 0) else [])

/-- One candidate of a group joins its copies or is pruned with a count; one of a LAG is passed over for a copy that its port already has. -/
def groupAdd (bad : List Nat) (lag : Bool) (w : Way) (r : List Way × Dev) : List Way × Dev :=
  if bad.contains w.port then (r.1, r.2.bump Od.FAB_PRUNED 0)
  else if lag && r.1.any fun v => v.port == w.port then r
  else (r.1 ++ [w], r.2)

/-- The ports a group's port map selects (R246, R424). -/
def Dev.groupPorts (d : Dev) (x : Desc) (g : Nat) : List Nat :=
  (List.range 1024).filter fun p => bit (d.n Od.FAB_GROUP_PORTS g (p / 64)) (p % 64) && d.portExists p && !(x.fromMat && d.matMode p)

/-- The copies of a group (R246). -/
def Dev.groupWays (x : Desc) (g : Nat) (d : Dev) : List Way × Dev :=
  let bad := d.pruned x
  let l := d.n Od.EM_PORT_LEARN_DEST x.srcPort
  let own := if bits l 19 18 = 1 ∧ !d.on Od.EM_PORT_HAIRPIN x.srcPort then some (bits l 9 0) else none
  let r := (d.groupPorts x g).foldl (fun r p => groupAdd bad false { port := p } r) ([], d)
  let lags := (((d.elems Od.FAB_GROUP_LAGS g 4).filter fun e => bit e 15).map fun e => bits e 9 0).filter fun g => own != some g
  let r := lags.foldl (fun r g =>
    let q := r.2.lagWay x g
    q.1.foldl (fun r w => if x.fromMat && r.2.matMode w.port then r else groupAdd bad true w r) (r.1, q.2)) r
  let mats := if x.fromMat ∨ !d.on Od.MAT_ENABLE 0 then [] else (List.range 8).filter fun m => bit (d.n Od.FAB_GROUP_MAT_MEMBERS g) m && m != d.me
  let r := mats.foldl (fun r m => let q := r.2.matWay x m; q.1.foldl (fun r w => groupAdd bad false w r) (r.1, q.2)) r
  (r.1, r.2.when r.1.isEmpty fun d => d.bump Od.FAB_GROUP_EMPTY 0)

/-- The copies of a destination code (R244 to R246, R423, R424): a frame from a mat for another device crosses no second trunk. -/
def Dev.resolve (x : Desc) (d : Dev) : List Way × Dev :=
  match bits x.finalDest 19 18 with
  | 0 => d.portWay (bits x.finalDest 9 0)
  | 1 => d.lagWay x (bits x.finalDest 9 0)
  | 2 => d.groupWays x (bits x.finalDest 15 0)
  | _ =>
    if bits x.finalDest 12 10 = d.me then d.portWay (bits x.finalDest 9 0)
    else if x.fromMat then ([], d.bump Od.MAT_UNREACHABLE 0)
    else d.matWay x (bits x.finalDest 12 10)

/-- The queue of a copy (R247). -/
def Desc.queueAt (x : Desc) (p : Nat) : Nat := 16 * p + 2 * x.cls + (if x.preemptible then 1 else 0)

/-- Random early drop for a copy (R272 to R274): whether it is dropped. -/
def Dev.red (k : Clk) (q colour : Nat) (d : Dev) : Bool × Dev :=
  let pr := d.n Od.FAB_QUEUE_RED_PROFILE q
  if 16384 ≤ q ∨ 64 ≤ pr ∨ d.creditClass (q / 16) (q % 16 / 2) then (false, d)
  else
    let a := d.n Od.FAB_QUEUE_RED_AVG q
    let lo := d.n Od.FAB_RED_MIN pr colour
    let hi := d.n Od.FAB_RED_MAX pr colour
    if a < 256 * lo then (false, d)
    else if 256 * hi ≤ a then (true, d)
    else
      let t := d.n Od.FAB_RED_MAX_P pr colour * (a - 256 * lo) * 65536 / (256 * (hi - lo))
      let r := d.draw k (0x10000 + q)
      (decide (r.1 < t), r.2)

/-- The limit of a queue in force (R248, R293). -/
def Dev.queueLimit (d : Dev) (q : Nat) : Nat :=
  if q < 16384 ∧ d.n Od.PORT_HOLD_STATE (q / 16) = 2 then 0 else d.n Od.FAB_QUEUE_LIMIT q

/-- What reaches admission besides the descriptor: the bytes as they will be stored, whether the tail is in, the bytes in so far, the MTU and rate of
the receiving port, whether it came under credit and in which class of a trunk, and whether it is already bad. -/
structure Arriving where
  stored : List Byte
  complete : Bool
  head : Nat := 256
  mtu : Nat := 9216
  rIn : Nat := 0
  credit : Bool := false
  creditCls : Nat := 8
  bad : Bool := false
  deriving DecidableEq, Repr

/-- The cells a frame reserves (R249). -/
def Arriving.cells (a : Arriving) : Nat := if a.complete then cellsOf a.stored.length else cellsOf (a.mtu - 4)

/-- The tests of one copy (R248, R271, R289), after n copies of the frame that passed: its FABRIC_OUTCOME so far (R243). -/
def Dev.admitCopy (k : Clk) (a : Arriving) (x : Desc) (n q : Nat) (d : Dev) : Nat × Dev :=
  let res := a.cells
  let lost := fun (d : Dev) => d.pair Od.FAB_QUEUE_DROPPED q x.rxLength
  if !a.credit && (d.queueLimit q == 0 || decide (d.queueLimit q < d.depth q + res)) then (1, lost d)
  else if !a.credit && decide ((d.freeCells : Int) - res < d.creditFloor) then (4, d.pair Od.FAB_QUEUE_FLOOR_DROPPED q x.rxLength)
  else
    let r := if a.credit then (false, d) else d.red k q x.colour
    if r.1 then (4, r.2.pair Od.FAB_QUEUE_RED_DROPPED q x.rxLength)
    else if r.2.freeDescs ≤ n then (3, lost (r.2.bump Od.FAB_DROP_NO_DESCRIPTOR 0))
    else (0, r.2)

/-- The spill state of a port as judged at an admission, and as a clock ends (R278). -/
def Dev.spillState (p : Nat) (d : Dev) : Dev :=
  let n := d.onChip p
  let on := d.n Od.FAB_SPILL_ON p
  if on ≠ 0 ∧ on < n then d.put Od.FAB_SPILL_STATE p 1
  else if on = 0 ∨ n < d.n Od.FAB_SPILL_OFF p then d.put Od.FAB_SPILL_STATE p 0
  else d

/-- Whether an admitted frame of one copy is spilled (R279), with the counts of a frame that stays for want of room. -/
def Dev.spillTest (k : Clk) (q res len : Nat) (captured : Bool) (d : Dev) : Bool × Dev :=
  let pages := ceilDiv res 8 + 1
  if 16384 ≤ q ∨ captured ∨ d.queueGated q ∨ !d.on Od.FAB_QUEUE_SPILL_ENABLE q ∨ !d.on Od.FAB_SPILL_STATE (q / 16) then (false, d)
  else if 3662 < d.n Rg.SPILL_DRAWN 0 + res then (false, d.bump Od.FAB_SPILL_BUDGET_SHORT 0)
  else if d.n Od.FAB_QUEUE_SPILL_PAGES_LIMIT q < d.queuePages q + pages then (false, d.bump Od.FAB_SPILL_QUEUE_FULL 0)
  else if 16777216 < d.pagesUsed + pages then
    let d := d.bump Od.FAB_SPILL_AREA_FULL 0
    (false, if d.n Rg.SPILL_FULL_TICK 0 = k.tick + 1 then d
      else (d.put Rg.SPILL_FULL_TICK 0 (k.tick + 1)).event k 0x0A02 0 0 (bytesLE 4 d.pagesUsed))
  else (true, (d.put Rg.SPILL_DRAWN 0 (d.n Rg.SPILL_DRAWN 0 + res)).pair Od.FAB_QUEUE_SPILLED q len)

/-- A copy admitted to an empty queue of an SFQ level starts at its virtual time (R327). -/
def Dev.sfqWake (q : Nat) (d : Dev) : Dev :=
  let p := q / 16
  let lv := d.n Od.SCHED_LEVEL q
  if q < 16384 ∧ d.n Od.SCHED_LEVEL_MODE p lv = 2 ∧ (d.queue q).isEmpty then d.put Od.SCHED_TAG q (d.n Od.SCHED_VTIME p lv) else d

/-- The clocks from a packet's entry into its pipeline to its admission: parser (R119), lookup, exact-match stage (R184), stream stage (R216). Its whole way stands at
the clock of its entry here, and these clocks count in what follows from its admission. -/
def stageClocks : Nat := 16 + Config.lookupClocks + 40 + 24

/-- The tick open some clocks from now, ticks being of the present length. -/
def Clk.tickIn (k : Clk) (n : Nat) : Nat := k.tick + (k.c + n) / k.len

/-- The release clock of a copy admitted now (R538): 0 for none. -/
def Dev.releaseClock (k : Clk) (d : Dev) (q : Nat) : Nat :=
  let n := d.n Od.PERTURB_PORT_DELAY (q / 16)
  if decide (q < 16384) && n != 0 && d.portWindow k (q / 16) then k.clock + stageClocks + ceilDiv (8 * n) 5 else 0

/-- Clocks from admission to the egress queue (R29): by the exchange where the copy leaves its ingress sorus. -/
def exchangeClocks (src q : Nat) : Nat := if q < 16384 ∧ sorusOf (q / 16) ≠ sorusOf src then 240 else 16

/-- A copy takes its place in its queue: by the clock of its arrival, and of one clock by the rotation of ingress pipelines (R29, R30). -/
def enterQueue (c : Copy) (l : List Copy) : List Copy :=
  let after := fun (b : Copy) => b.queue == c.queue && (decide (c.arrive < b.arrive) || (b.arrive == c.arrive && decide (c.rank < b.rank)))
  (l.filter fun b => !after b) ++ [c] ++ l.filter after

/-- A copy joins its queue (R243, R247). -/
def Dev.joinQueue (k : Clk) (c : Copy) (len : Nat) (d : Dev) : Dev :=
  let d := (d.sfqWake c.queue).pair Od.FAB_QUEUE_ADMITTED c.queue len
  let n := stageClocks + exchangeClocks c.desc.srcPort c.queue
  let c := { c with arrive := k.clock + n, rank := rotation { k with tick := k.tickIn n } (pipeOf c.desc.srcPort) 64, release := d.releaseClock k c.queue }
  let c := { c with depth := { d with copies := enterQueue c d.copies }.depth c.queue }
  let d := { d with copies := enterQueue c d.copies }
  if c.queue < 16384 then (d.queueRestore k (c.queue / 16)).spillState (c.queue / 16) else d

/-- The place of the next spilled cell of a queue (R277): the next of its open page, or the first of a new page. -/
def Dev.spillPlace (q : Nat) (d : Dev) : Nat × Dev :=
  let o := d.n Rg.SPILL_OPEN q
  let inUse := fun (pg : Nat) => (d.frames.any fun f => f.home.any fun h => h / 8 == pg) || d.now.pages.any fun x => x.2 == pg
  if o % 8 ≠ 0 ∧ inUse (o / 8) then (o, d.put Rg.SPILL_OPEN q (o + 1))
  else
    let n := d.n Rg.SPILL_PAGE 0
    (8 * n, (d.put Rg.SPILL_PAGE 0 (n + 1)).put Rg.SPILL_OPEN q (8 * n + 1))

/-- The cells of a spilled frame that have arrived lie in its queue's chain of pages (R277, R279). -/
def Dev.spillIn (k : Clk) (d : Dev) (id : Nat) : Dev :=
  match d.frame id, d.copies.find? (·.fr == id) with
  | some f, some c =>
    d.each (List.range (f.cells k - (f.placed + f.home.length))) fun d _ =>
      let r := d.spillPlace c.queue
      r.2.updFrame id fun f => { f with home := f.home ++ [r.1] }
  | _, _ => d

/-- The same of every spilled frame that is still to come. -/
def Dev.spillArrivals (k : Clk) (d : Dev) : Dev := d.each ((d.frames.filter fun f => f.spilled && !f.complete).map (·.id)) (Dev.spillIn k)

/-- The reads of the refill plan that n further clocks from this one issue (R281): five a clock, in order, each of a cell that has arrived and for which a cell is
free; each is placed 96 clocks after. -/
def Dev.refillIssue (k : Clk) : Nat → Nat → Dev → Dev
  | 0, _, d => d
  | n + 1, i, d =>
    match d.plan with
    | [] => d
    | id :: t =>
      match d.frame id with
      | none => Dev.refillIssue k n i { d with plan := t }
      | some f =>
        if d.freeAll = 0 ∨ f.placed + f.home.length ≤ f.issued then d
        else
          let d := d.updFrame id fun f => { f with issued := f.issued + 1 }
          Dev.refillIssue k n (i + 1) { d with plan := t, flight := d.flight ++ [(id, k.clock + i / 5 + 96)] }

/-- The FRAME_ID of a new record: none of those in use, the rest open (R241, log entry 7). -/
def Dev.newFrameId (d : Dev) : Nat :=
  let a := (Config.frameId d.freeCtr).toNat
  let at_ := fun (i : Nat) => (a + i) % 1048576
  at_ (((List.range (d.frames.length + 1)).find? fun i => d.frames.all fun f => f.shown != at_ i).getD 0)

/-- A capture joins the FIFO of R266, or is skipped; the answer says whether it was taken. -/
def Dev.capture (j : CapJob) (d : Dev) : Bool × Dev :=
  if d.jobs.length < 1024 then (true, { d with jobs := d.jobs ++ [j] }) else (false, d.bump Od.FAB_SPORE_SKIPPED 0)

/-- The egress namings of a clock draw as it ends, after those at admission and by the rotation of their pipelines (R488). -/
def Dev.namesJoin (k : Clk) (d : Dev) : Dev :=
  let rank := fun (j : CapJob) => rotation k (pipeOf (j.egress.getD 0 / 16)) 64
  d.each (sortBy (fun a b => decide (rank a ≤ rank b)) d.now.names) fun d j =>
    let s := d.sample k j.sampler
    let r := if s.1 then s.2.capture j else (false, s.2)
    if r.1 then r.2 else r.2.updFrame j.fr fun f => { f with refs := f.refs - 1 }

/-- A frame leaves without admission: its descriptor is gone (R167) and, on a trunk, its credit returns (R286). -/
def Dev.gone (a : Arriving) (x : Desc) (d : Dev) : Dev :=
  let d := d.drain x.epoch 1
  if a.creditCls < 8 then d.grant x.srcPort a.creditCls x.rxLength else d

/-- What admission answers: the record, the FABRIC_OUTCOME of the first copy, whether the ingress sampler selected the frame. -/
structure Admitted where
  fr : Option Nat := none
  first : Nat := 0
  sampled : Bool := false
  deriving DecidableEq, Repr

/-- The frame is admitted with its copies (R248), each with its place in the issue order. -/
def Dev.admitFrame (k : Clk) (a : Arriving) (x : Desc) (first : Nat) (ws : List (Nat × Nat × Way)) (d : Dev) : Admitted × Dev :=
  let id := d.nextRec
  let n := ws.length
  let s := if x.sporeEn then d.sample k x.spore else (false, d)
  let job : CapJob := { fr := id, sampler := x.spore, desc := x, tick := k.tick, clock := k.c, copies := n }
  let c := if s.1 then s.2.capture job else (false, s.2)
  let sp := match ws with
    | [w] => c.2.spillTest k w.2.1 a.cells x.rxLength c.1
    | _ => (false, c.2)
  let g := sp.2.flip 1 8 (2 ^ 36 - 1) 1
  let h := (g.2.flip 6 8 (2 ^ 36 - 1) 1).2.fresh
  let bad := g.1 = 3 ∨ (3 < g.1 ∧ h.1 % 2 = 1)
  let d := if 3 < g.1 then h.2 else sp.2.flip 1 8 (2 ^ 36 - 1) 1 |>.2.flip 6 8 (2 ^ 36 - 1) 1 |>.2
  let f : FrameRec :=
    { id := id, shown := d.newFrameId, refs := n + (if c.1 then 1 else 0), complete := a.complete, stored := a.stored
      reserved := a.cells, srcPort := x.srcPort, acct := x.cls, rxLength := x.rxLength, mtu := a.mtu, rIn := a.rIn, handClock := k.clock
      head := a.head, spilled := sp.1, credit := a.credit, creditCls := a.creditCls
      poisoned := if bad then [0] else [] }
  let freed := d.now.freed + (if sp.1 then a.cells else 0)
  let d := { d with frames := d.frames ++ [f], nextRec := id + 1, freeCtr := d.freeCtr + 1, now := { d.now with freed := freed } }
  let x := { x with multicast := bits x.finalDest 19 18 == 2 && x.inAction != 5 }
  let d := d.each ws fun d w =>
    d.joinQueue k { queue := w.2.1, fr := id, index := w.1, copies := n, admitTick := k.tickIn stageClocks % 2 ^ 32, desc := { x with relay := w.2.2.relay } } x.rxLength
  ({ fr := some id, first := first, sampled := s.1 }, (d.fill x.epoch (n - 1)).spillIn k id)

/-- Admission of a frame whose queues are chosen (R248). With no record left of the 1,048,576 (R241), as with no cells (log entry 25). -/
def Dev.admitTo (k : Clk) (a : Arriving) (x : Desc) (ws : List (Nat × Way)) (d : Dev) : Admitted × Dev :=
  let r := ws.foldl (fun (r : List (Nat × Nat × Nat × Way) × Dev) w =>
    let t := r.2.admitCopy k a x (r.1.filter (·.1 == 0)).length w.1
    (r.1 ++ [(t.1, r.1.length, w)], t.2)) ([], d)
  let ok := (r.1.filter (·.1 == 0)).map (·.2)
  let first := ((r.1.head?).map (·.1)).getD 0
  if ok.isEmpty then ({ first := first }, r.2.gone a x)
  else if r.2.freeCells < a.cells ∨ 1048576 ≤ r.2.frames.length then
    ({ first := if first = 0 then 2 else first },
      (r.2.each ok fun d w => (d.bump Od.FAB_DROP_NO_CELLS 0).pair Od.FAB_QUEUE_DROPPED w.2.1 x.rxLength).gone a x)
  else r.2.admitFrame k a x first ok

/-- A frame reaches admission with its final destination, or as a recirculated copy (R244 to R254). -/
def Dev.enterFabric (k : Clk) (a : Arriving) (x : Desc) (d : Dev) : Admitted × Dev :=
  if a.bad then ({ first := 7 }, (d.pair Od.FAB_PORT_BAD_AT_ADMISSION x.srcPort x.rxLength).gone a x)
  else if x.inAction = 5 then d.admitTo k a x [(16384 + sorusOf x.srcPort, { port := 0 })]
  else
    let r := d.resolve x
    if r.1.isEmpty then ({ first := match bits x.finalDest 19 18 with | 0 => 6 | 2 => 0 | _ => 5 }, r.2.gone a x)
    else r.2.admitTo k a x (r.1.map fun w => (x.queueAt w.port, w))

end Sys2Proof.Machine
end

