-- ==== Sys2Proof/Machine/Memory.lean ====
section
/-! DEFINITION. HBM as a list of (address, byte) cells in one canonical form: addresses rising, no byte equal to what an unlisted address
reads as, which is 0 (log entry 3). Addresses run over the 64 GiB of R5. -/
namespace Sys2Proof.Machine

/-- HBM contents. -/
abbrev Memory := List Host.Cell

/-- What an unlisted byte of HBM reads as (log entry 3). -/
def Memory.blank : Byte := 0

/-- Bytes of HBM (R5, R37). -/
def hbmBytes : Nat := 0x1000000000

/-- The byte at an address. -/
def Memory.rd : Memory → Nat → Byte
  | [], _ => Memory.blank
  | (a, v) :: t, x => if a = x then v else Memory.rd t x

/-- Put a cell in its place, or remove it when the value is what an unlisted byte reads as. -/
def Memory.wr : Memory → Nat → Byte → Memory
  | [], x, v => if v = Memory.blank then [] else [(x, v)]
  | (a, w) :: t, x, v =>
    if x < a then (if v = Memory.blank then (a, w) :: t else (x, v) :: (a, w) :: t)
    else if x = a then (if v = Memory.blank then t else (x, v) :: t)
    else (a, w) :: Memory.wr t x v

/-- Write a byte string from an address on. -/
def Memory.wrBytes (m : Memory) (a : Nat) : List Byte → Memory
  | [] => m
  | b :: bs => Memory.wrBytes (m.wr a b) (a + 1) bs

/-- Read n bytes from an address on. -/
def Memory.rdBytes (m : Memory) (a : Nat) : Nat → List Byte
  | 0 => []
  | n + 1 => m.rd a :: Memory.rdBytes m (a + 1) n

/-- Empty the bytes from an address up to but not including another. -/
def Memory.clear (m : Memory) (lo hi : Nat) : Memory := m.filter fun c => !(decide (lo ≤ c.1) && decide (c.1 < hi))

/-- The canonical form: addresses strictly rising, no blank byte listed. -/
def Memory.wf : Memory → Bool
  | [] => true
  | [(_, v)] => v != Memory.blank
  | (a, v) :: (b, w) :: t => v != Memory.blank && decide (a < b) && Memory.wf ((b, w) :: t)

end Sys2Proof.Machine
end

