-- ==== Sys2Proof/Machine/HostOps.lean ====
section
/-! DEFINITION. The host interface (R581 to R597): link, interrupts, completions, deliveries, commands, stash. -/
namespace Sys2Proof.Machine

/-- The link is UP and Bus Master Enable is 1 (R594). -/
def Dev.linkOk (d : Dev) : Bool := d.n Od.HOST_LINK_STATE 0 == 2 && d.on Rg.BME 0

/-- A vector is raised (R596): nothing without the link; a masked one waits as pending. -/
def Dev.vector (v : Nat) (d : Dev) : Dev :=
  if !d.linkOk then d
  else if bit (d.n Rg.MSIX_MASK 0) v then d.put Rg.MSIX_PENDING 0 (setBit (d.n Rg.MSIX_PENDING 0) v)
  else d.emit { kind := .msix, unit := v }

/-- The vectors whose causes wait, at the boundary. -/
def Dev.causes (d : Dev) : Dev :=
  (d.each ((List.range 64).filter (bit (d.n Rg.MSIX_CAUSE 0))) fun d v => d.vector v).put Rg.MSIX_CAUSE 0 0

/-- Completion entries free (R584); a ring that is not enabled has none. -/
def Dev.cqFree (d : Dev) (r : Nat) : Nat :=
  let n := d.n Od.HOST_RING_CQ_ENTRIES r
  if d.on Od.HOST_RING_ENABLE r then n - 1 - (d.n Rg.CQ_TAIL r + n - d.n Rg.CQ_HEAD r) % n else 0

/-- Ring r signals its completions (R597). -/
def Dev.signal (r : Nat) (d : Dev) : Dev := ((d.put Rg.CQ_UNSIGNALLED r 0).put Rg.CQ_OLDEST r 0).vector r

/-- A completion of 256 bytes is written (R582, R584) and counted towards the vector (R597). -/
def Dev.complete (k : Clk) (r : Nat) (bs : List Byte) (d : Dev) : Dev :=
  let t := d.n Rg.CQ_TAIL r
  let n := d.n Od.HOST_RING_CQ_ENTRIES r
  let phase := if d.n Rg.CQ_PASS r % 2 = 0 then 1 else 0
  let b := patch bs 1 [(bs.getD 1 0 &&& 0xFE) ||| BitVec.ofNat 8 phase]
  let a := d.n Od.HOST_RING_CQ_BASE r + 256 * t
  let d := (d.emit { kind := .host, unit := r, vals := [a + 4], bytes := b.drop 4 }).emit { kind := .host, unit := r, vals := [a], bytes := b.take 4 }
  let d := d.put Rg.CQ_TAIL r ((t + 1) % n)
  let d := d.when (t + 1 == n) fun d => d.put Rg.CQ_PASS r (d.n Rg.CQ_PASS r + 1)
  let u := d.n Rg.CQ_UNSIGNALLED r + 1
  let d := (d.put Rg.CQ_UNSIGNALLED r u).when (d.n Rg.CQ_OLDEST r == 0) fun d => d.put Rg.CQ_OLDEST r (k.tick + 1)
  if d.n Od.HOST_RING_COALESCE_TICKS r = 0 ∨ d.n Od.HOST_RING_COALESCE_COUNT r ≤ u then d.signal r else d

/-- A flag as a number at a bit. -/
def flagAt (b : Bool) (n : Nat) : Nat := if b then 2 ^ n else 0

/-- The RECEIVE completion of a delivery (R587). -/
def Deliv.bytes (k : Clk) (v : Deliv) : List Byte :=
  let x := v.desc
  let le := bytesLE
  let by8 := fun n => [BitVec.ofNat 8 n]
  by8 1 ++ by8 (flagAt v.egress 1 + flagAt x.noIngress 2 + flagAt x.fromMat 3 + flagAt (x.pass == 1) 4 + flagAt (x.epoch == 1) 5 + flagAt x.rxPreemptible 6) ++
  by8 0 ++ by8 v.reason ++ le 4 v.handle ++ le 2 v.len ++ le 2 x.srcPort ++ le 2 (min x.rxLength 16383) ++ by8 x.rxError ++
  by8 (x.tagCount + flagAt x.outerIsS 2 + flagAt x.pvidApplied 3 + x.tagsStripped * 16) ++
  le 2 (x.outerPcp * 2 ^ 13 + x.outerDei * 2 ^ 12 + x.outerVid) ++ le 2 (x.innerPcp * 2 ^ 13 + x.innerDei * 2 ^ 12 + x.innerVid) ++
  le 9 (if x.noIngress then 0 else x.stamp) ++ [0, 0, 0] ++
  by8 (x.cls + flagAt x.preemptible 3 + x.colour * 16) ++ by8 (x.inAction + x.outAction * 16) ++ by8 (x.inOutcome + x.outOutcome * 8) ++
  by8 (x.srcOutcome + x.dstOutcome * 4 + x.learnField * 16 + flagAt x.flooded 6) ++ le 3 x.inRule ++ le 3 x.outRule ++ le 3 x.finalDest ++
  le 3 x.srcIndex ++ le 3 x.dstIndex ++ by8 (x.filterOutcome + x.recoveryOutcome * 8 + flagAt x.finalStreamSet 6 + flagAt x.seqValid 7) ++
  le 2 (x.fid + flagAt x.ipvSet 12 + x.ipv * 2 ^ 13) ++ le 2 x.finalStream ++ le 2 x.seq ++ le 2 x.meter ++
  by8 (flagAt x.meterEn 0 + x.inColour * 2 + flagAt x.learnDisable 3 + flagAt x.sporeEn 4 + flagAt x.streamSet 5) ++ by8 x.matDevice ++ le 2 x.spore ++
  (if v.egress then le 2 v.queue ++ le 2 v.port ++ le 4 v.fid ++ le 2 v.copyIndex ++ le 2 v.copies ++ by8 v.outcome ++ [0] ++ le 2 x.matPort ++ le 4 v.admitTick
    else List.replicate 20 0) ++
  le 4 k.tick ++ List.replicate 8 0 ++
  by8 (x.endReason + flagAt x.depthExceeded 3 + flagAt x.malformed 4 + flagAt x.malformedLate 5 + flagAt x.fragment 6) ++
  by8 (x.malformedReason + x.layers.length * 16) ++ le 2 x.unknownValue ++ le 4 x.fieldsWritten ++
  le 21 ((x.layers.zipIdx.map fun l => (l.1.1 * 2 ^ 8 + l.1.2) * 2 ^ (14 * l.2)).sum) ++ [0, 0, 0] ++ x.fields.flatMap (le 4)

/-- The completion of a command (R589). -/
def HostCmd.bytes (c : HostCmd) : List Byte :=
  let b := fun i => c.entry.getD i 0
  let type := (b 0).toNat + 1
  sliceZ ([BitVec.ofNat 8 type, BitVec.ofNat 8 (flagAt c.stashed 7), BitVec.ofNat 8 c.status, BitVec.ofNat 8 c.freeStatus] ++ bytesLE 4 c.handle ++
    bytesLE 2 c.len ++ bytesLE 2 c.sq ++ sliceZ c.entry 32 4 ++ bytesLE 8 c.tick) 0 256

/-- What waits for completion entries is written: backlogged deliveries first, then commands in order (R583, R585). -/
def Dev.pump (k : Clk) (r : Nat) : Nat → Dev → Dev
  | 0, d => d
  | n + 1, d =>
    if !d.linkOk || d.cqFree r == 0 then d
    else match d.backlog.find? (·.ring == r) with
      | some v => Dev.pump k r n (({ d with backlog := d.backlog.erase v }.bump Od.HOST_RING_DELIVERED r).complete k r (v.bytes k))
      | none => match d.hcmds.find? fun c => c.ring == r && !c.mute with
        | some c => if c.phase = 2 then Dev.pump k r n ({ d with hcmds := d.hcmds.erase c }.complete k r c.bytes) else d
        | none => d

/-- Everything of a ring that can be written is. -/
def Dev.pumpAll (k : Clk) (r : Nat) (d : Dev) : Dev := d.pump k r (d.backlog.length + d.hcmds.length + 1)

/-- A delivery of n bytes starts (R586, R594, R308): its handle, or a refusal. -/
def Dev.deliver (v : Deliv) (n : Nat) (d : Dev) : Option Nat × Dev :=
  if !d.linkOk then (none, d.bump Od.HOST_RING_LINK_DROPS v.ring)
  else
    let a := d.alloc (8 + v.ring) n true
    if a.1 = 0 then (some a.2.1, { a.2.2 with deliv := a.2.2.deliv ++ [{ v with handle := a.2.1 }] }) else (none, a.2.2)

/-- The last byte of a delivery's frame has come: its bytes and descriptor; the transfer into the buffer completes later. -/
def Dev.delivered (h : Nat) (bs : List Byte) (x : Desc) (d : Dev) : Dev :=
  { d.updBuf h fun b => { b with bytes := bs } with
    deliv := d.deliv.map fun (v : Deliv) => if v.handle = h then { v with whole := true, len := bs.length, desc := x } else v }

/-- A delivery is abandoned: its buffer is freed by the ring. -/
def Dev.undeliver (h : Nat) (d : Dev) : Dev :=
  match d.buf h with
  | some b => { d.dropBuf b with deliv := d.deliv.filter (·.handle != h) }
  | none => d

/-- A delivery is complete (R585, R586, R592): reported, held back, or dropped. -/
def Dev.deliveryDone (k : Clk) (v : Deliv) (d : Dev) : Dev :=
  let d := { d with deliv := d.deliv.erase v }.updBuf v.handle fun b => { b with xfer := 0, ring := some v.ring, since := k.tick }
  if 1024 ≤ (d.backlog.filter (·.ring == v.ring)).length then
    match d.buf v.handle with
    | some b => (d.dropBuf b).bump Od.HOST_RING_CQ_DROPS v.ring
    | none => d
  else { d with backlog := d.backlog ++ [v] }.pumpAll k v.ring

/-- A command's bits that are reserved are zero, and its opcode is listed (R588, R589). -/
def cmdOk (e : List Byte) : Bool :=
  let b := fun i => (e.getD i 0).toNat
  decide (1 ≤ b 0 ∧ b 0 ≤ 4) && decide (b 1 < 32) && decide (b 2 < 16) &&
    (([3, 22, 23] ++ (List.range 28).map (36 + ·)).all fun i => b i == 0)

/-- The words of a buffer a reader finds poisoned: its own, and those of bad HBM units under its stash slot (R468). -/
def Dev.bufBad (d : Dev) (b : Buf) : List Nat :=
  match b.slot with
  | some j =>
    let a := d.stashAddr b.pool j
    b.poisoned ++ (d.hbmPoison.filter fun u => decide (a ≤ u + 31 ∧ u < a + poolSize b.pool)).flatMap fun u => (List.range 4).map fun i => (u + 8 * i - a) / 8
  | none => b.poisoned

/-- A buffer's bytes as a reader gets them: a poisoned word reads 0xFF (R468). -/
def Buf.view (b : Buf) (off n : Nat) : List Byte :=
  (List.range n).map fun i => if b.poisoned.contains ((off + i) / 8) then 0xFF else b.bytes.getD (off + i) 0

/-- A command's record is replaced. -/
def Dev.setCmd (c : HostCmd) (d : Dev) : Dev :=
  { d with hcmds := d.hcmds.map fun (x : HostCmd) => if x.ring = c.ring ∧ x.sq = c.sq ∧ x.mute = c.mute then c else x }

/-- A command ends with a status. -/
def Dev.endCmd (k : Clk) (c : HostCmd) (status : Nat) (d : Dev) : Dev :=
  if c.mute then { d with hcmds := d.hcmds.filter fun x => !(x.ring == c.ring && x.sq == c.sq && x.mute) } else
  let inj := (c.entry.getD 0 0).toNat == 4
  let done := { c with phase := 2, status := status, tick := k.tick }
  let d := d.setCmd done
  (d.when (inj && status != 0) fun d => d.bump Od.HOST_RING_INJECT_REFUSED c.ring).pumpAll k c.ring

/-- The command's fields. -/
def HostCmd.flag (c : HostCmd) (n : Nat) : Bool := bit (c.entry.getD 1 0).toNat n
def HostCmd.num (c : HostCmd) (o n : Nat) : Nat := ofBytesLE (sliceZ c.entry o n)

/-- The bytes host DMA moves for a command, against the grants of R313: cells of an on-chip buffer, or those of a stash slot. -/
def Dev.dmaOf (k : Clk) (o n : Nat) (stashed : Bool) (d : Dev) : Option Dev :=
  let cells := if n = 0 then 0 else (o + n - 1) / 256 - o / 256 + 1
  if stashed then d.dma k 0 (256 * cells) else d.dma k cells 0

/-- The transfer an INJECT waits for before it acts (R590): its bytes from host memory, or a stashed buffer read back. -/
def Dev.injectMove (k : Clk) (c : HostCmd) (d : Dev) : Option Dev :=
  let n := c.num 16 2
  let p := c.num 20 2 % 1024
  if !cmdOk c.entry || !d.portExists p || decide (n < 14 ∨ d.n Od.PORT_MTU p < n + 4) then some d
  else if !c.flag 1 then d.dmaOf k 0 n false
  else if (d.bufCheck (c.num 4 4) (8 + c.ring)).1 ≠ 0 then some d
  else match d.buf (c.num 4 4) with
    | some b => if b.slot.isSome then d.xfer k (cellsOf n) (256 * cellsOf n) else some d
    | none => some d

/-- An INJECT (R590). -/
def Dev.runInject (k : Clk) (c : HostCmd) (readOk : Bool) (d : Dev) : Dev :=
  let n := c.num 16 2
  let p := c.num 20 2 % 1024
  let owner := 8 + c.ring
  let queue := fun (h : Nat) (bs : List Byte) (d : Dev) =>
    let j : Inject := { port := p, cls := (c.entry.getD 2 0).toNat % 8, pre := c.flag 3, bytes := bs, handle := h, ring := c.ring, sq := c.sq
                        dest := if c.flag 4 then some (c.num 24 4 % 2 ^ 20) else none, tag := if c.flag 2 then some (c.num 28 4) else none }
    { d with inject := d.inject ++ [j] }.setCmd { c with phase := 3, handle := h, len := n }
  if !d.portExists p then d.endCmd k c 18
  else if n < 14 ∨ d.n Od.PORT_MTU p < n + 4 then d.endCmd k c 20
  else if c.flag 1 then
    let h := c.num 4 4
    let chk := d.bufCheck h owner
    if chk.1 ≠ 0 then (d.bufRefuse k h owner chk.1 chk.2).endCmd k c chk.1
    else match d.buf h with
      | some b =>
        if b.bytes.length < n then d.endCmd k c 20
        else if b.slot.isSome then
          let a := d.alloc owner n false
          if a.1 ≠ 0 then a.2.2.endCmd k c a.1
          else queue a.2.1 (b.bytes.take n) ((a.2.2.dropBuf b).updBuf a.2.1 fun y => { y with bytes := b.bytes.take n })
        else queue h (b.bytes.take n) d
      | none => d.endCmd k c 6
  else
    let a := d.alloc owner n false
    if a.1 ≠ 0 then a.2.2.endCmd k c a.1
    else if !readOk then a.2.2.endCmd k { c with handle := a.2.1 } 19
    else queue a.2.1 (sliceZ c.data 0 n) (a.2.2.updBuf a.2.1 fun y => { y with bytes := sliceZ c.data 0 n })

/-- A command acts (R589). -/
def Dev.runCmd (k : Clk) (c : HostCmd) (readOk : Bool) (d : Dev) : Dev :=
  let owner := 8 + c.ring
  let h := c.num 4 4
  let c := { c with handle := h }
  if !cmdOk c.entry then d.endCmd k c 17
  else match (c.entry.getD 0 0).toNat with
    | 1 =>
      let chk := d.bufCheck h owner
      if chk.1 ≠ 0 then d.endCmd k c chk.1
      else match d.buf h with
        | some b =>
          let o := c.num 18 2
          let n := if c.num 16 2 = 0 then b.bytes.length - o else c.num 16 2
          if b.bytes.length < o + n ∨ b.bytes.length < o then d.endCmd k c 17
          else
            let d := match b.slot with | some j => d.hbmRead (d.stashAddr b.pool j + o) n | none => d
            let b := { b with poisoned := d.bufBad b }
            let bad := (List.range n).any fun i => b.poisoned.contains ((o + i) / 8)
            let c := { c with phase := 1, data := b.view o n, len := n, stashed := b.slot.isSome, status := if bad then 16 else 0 }
            d.setCmd c
        | none => d.endCmd k c 6
    | 2 => let r := d.freeBuf k h owner; r.2.endCmd k c r.1
    | 3 =>
      let to_ := (c.entry.getD 2 0).toNat
      if !d.on Od.HOST_RING_ENABLE to_ then d.endCmd k c 17 else let r := d.handBuf k h owner (8 + to_); r.2.endCmd k c r.1
    | _ => d.runInject k c readOk

/-- A command is read (R583, R592, R594): the host takes the buffer it names; one whose stash is under way waits. `op` is the opcode the row stands
for; an unlisted opcode goes with FETCH. -/
def Dev.hostCmd (k : Clk) (op r : Nat) (entry data : List Byte) (readOk : Bool) (d : Dev) : Dev :=
  let code := (entry.getD 0 0).toNat
  let mine := code == op || (op == 1 && (code == 0 || decide (4 < code)))
  let held := (d.backlog.filter (·.ring == r)).length + (d.hcmds.filter fun c => c.ring == r && !c.mute).length
  let pipe := ofBytesLE (sliceZ entry 20 2) % 1024 / 16
  let full := code == 4 && decide (64 ≤ (d.inject.filter fun j => j.port / 16 == pipe).length)
  let now : HostCmd := { ring := r, entry := entry, sq := 0 }
  let waits := code == 4 && (d.injectMove k now).isNone
  if !mine || full || waits || entry.length != 64 || !d.on Od.HOST_RING_ENABLE r || !d.linkOk || d.n Rg.SQ_HEAD r == d.n Rg.SQ_TAIL r ||
      decide (d.cqFree r ≤ held) then d
  else
    let sq := d.n Rg.SQ_HEAD r
    let d := d.put Rg.SQ_HEAD r ((sq + 1) % d.n Od.HOST_RING_SQ_ENTRIES r)
    let c : HostCmd := { ring := r, entry := entry, sq := sq, data := data }
    let d := { if code = 4 then (d.injectMove k now).getD d else d with hcmds := d.hcmds ++ [c] }
    let named := code != 4 || bit (entry.getD 1 0).toNat 1
    let h := ofBytesLE (sliceZ entry 4 4)
    match (if named then d.buf h else none) with
    | some b =>
      if b.stashing then d
      else (if b.owner = 8 + r then d.updBuf h fun b => { b with ring := none } else d).runCmd k c readOk
    | none => d.runCmd k c readOk

/-- The free that ends a ring's FETCH comes behind another operation on its buffer (R310). -/
def Dev.fetchLate (r : Nat) (d : Dev) : Bool :=
  (d.hcmds.find? fun c => c.ring == r && c.phase == 1).any fun c => c.flag 0 && d.bufLate c.handle (8 + r)

/-- A FETCH copy ends (R589), within the grants of R313. -/
def Dev.fetchDone (k : Clk) (r : Nat) (ok : Bool) (d : Dev) : Dev :=
  match d.hcmds.find? fun c => c.ring == r && c.phase == 1 with
  | none => d
  | some c =>
    match d.dmaOf k (c.num 18 2) c.len c.stashed with
    | none => d
    | some d =>
    if !ok then d.endCmd k c 19
    else
      let d := d.emit { kind := .host, unit := r, vals := [c.num 8 8], bytes := c.data }
      let d := d.when (c.status == 0) fun d => d.bump Od.HOST_RING_FETCHED r
      if c.flag 0 then let q := d.freeBuf k c.handle (8 + r); q.2.endCmd k { c with freeStatus := q.1 } c.status else d.endCmd k c c.status

/-- The link is no longer usable (R594): fetches under way end. -/
def Dev.linkLost (k : Clk) (d : Dev) : Dev := d.each (d.hcmds.filter (·.phase == 1)) fun d c => d.endCmd k c 19

/-- Every ring writes what waits, once the link is usable again. -/
def Dev.linkBack (k : Clk) (d : Dev) : Dev := if d.linkOk then d.each (List.range 16) fun d r => d.pumpAll k r else d

/-- A ring is enabled (R582): refused while a base is 0. -/
def Dev.ringOn (k : Clk) (r : Nat) (d : Dev) : Dev :=
  if d.on Od.HOST_RING_ENABLE r || !d.on Od.HOST_RING_SQ_BASE r || !d.on Od.HOST_RING_CQ_BASE r then d
  else
    let d := [Rg.SQ_HEAD, Rg.SQ_TAIL, Rg.CQ_HEAD, Rg.CQ_TAIL, Rg.CQ_PASS, Rg.CQ_UNSIGNALLED, Rg.CQ_OLDEST].foldl (fun d o => d.put o r 0) d
    (d.put Od.HOST_RING_ENABLE r 1).pumpAll k r

/-- A ring is disabled (R595): a copy under way ends without its completion (R598). Buffers of frames waiting for injection stay until they enter. -/
def Dev.ringOff (r : Nat) (d : Dev) : Dev :=
  let n := (d.backlog.filter (·.ring == r)).length
  let d : Dev := { d with backlog := d.backlog.filter (·.ring != r), hcmds := (d.hcmds.filter fun (c : HostCmd) => c.ring != r || c.phase == 1).map fun (c : HostCmd) => { c with mute := c.mute || c.ring == r }, deliv := d.deliv.filter (·.ring != r) }
  let d := (d.bump Od.HOST_RING_CQ_DROPS r n).put Od.HOST_RING_ENABLE r 0
  d.each (d.bufs.filter fun b => b.owner == 8 + r && d.inject.all fun j => j.handle != b.handle) fun d b => d.dropBuf b

/-- A buffer's stash begins (R314): a free slot, and the grants of R313. Of buffers of one age the lowest handle goes first. -/
def Dev.stash (k : Clk) (b : Buf) (d : Dev) : Dev :=
  let due := decide (d.n Od.POOL_STASH_AFTER 0 ≠ 0 ∧ b.since + d.n Od.POOL_STASH_AFTER 0 ≤ k.tick)
  let first := d.bufs.all fun x => x.ring.isNone || x.slot.isSome || x.since != b.since || decide (b.handle ≤ x.handle)
  if b.ring.isNone || b.slot.isSome || !due || !first then d
  else match d.stashSlot b.pool with
    | none => (d.bump Od.POOL_NO_STASH b.pool).updBuf b.handle fun b => { b with ring := none }
    | some j => match d.xfer k (poolCells b.pool) (256 * poolCells b.pool) with
      | none => d
      | some d => (d.bump Od.POOL_STASHES b.pool).updBuf b.handle fun b => { b with slot := some j, stashing := true }

/-- The stash is done (R314, R592): the bytes lie in the slot, the cells are free, and waiting commands act. -/
def Dev.stashDone (k : Clk) (b : Buf) (m : Memory) (d : Dev) : Memory × Dev :=
  match b.slot with
  | some j =>
    if b.stashing then
      let d := ((d.bufCellsGone b).updBuf b.handle fun b => { b with stashing := false, ring := none }).settleQuarantine
      let l := d.hcmds.filter fun c => c.phase == 0 && c.num 4 4 == b.handle
      (m.wrBytes (d.stashAddr b.pool j) b.bytes, d.each l fun d c => d.runCmd k c true)
    else (m, d)
  | none => (m, d)

end Sys2Proof.Machine
end

