-- ==== Sys2Proof/Machine/Classify.lean ====
section
/-! DEFINITION. Decision-tree lookups (R146 to R151), action words (R153), destination codes (R156) and the fields an action sets. -/
namespace Sys2Proof.Machine

/-- Word w of slot s of tree memory. -/
def Dev.treeWord (d : Dev) (s w : Nat) : Nat := ((d.tree.find (s * 393216 + w)).getD 0).toNat

/-- A word of a slot is poisoned in a sorus's copy. -/
def Dev.treeBad (d : Dev) (sorus s w : Nat) : Bool := d.treePoison.contains (sorus, s, w)

/-- What a lookup answers (R151). -/
inductive LookOut where
  | hit (rule a0 a1 : Nat)
  | noMatch
  | fault
  | poison (line : Nat)
  deriving DecidableEq, Repr

/-- Key word w of a lookup (R146): `out` for the egress lookup, with the egress port and the final destination. -/
def Desc.key (x : Desc) (out : Bool) (egress : Nat) (w : Nat) : Nat :=
  let b := fun (v : Bool) (n : Nat) => if v then 2 ^ n else 0
  let ty := fun (i : Nat) => (x.layers.getD i (0, 0)).1
  let five := fun (i : Nat) => ty i + ty (i + 1) * 2 ^ 6 + ty (i + 2) * 2 ^ 12 + ty (i + 3) * 2 ^ 18 + ty (i + 4) * 2 ^ 24
  if w < 32 then (if bit x.fieldsWritten w then x.fields.getD w 0 else 0)
  else match w with
    | 32 => x.srcPort
    | 33 => x.tagCount * 2 ^ 18 + b x.pvidApplied 17 + b x.outerIsS 16 + x.outerPcp * 2 ^ 13 + x.outerDei * 2 ^ 12 + x.outerVid
    | 34 => x.innerPcp * 2 ^ 13 + x.innerDei * 2 ^ 12 + x.innerVid
    | 35 => x.endReason + b x.depthExceeded 3 + b x.malformed 4 + b x.fragment 5 + x.malformedReason * 2 ^ 6 + x.layers.length * 2 ^ 10 +
        b x.fromMat 14 + b x.rxPreemptible 15 + b (x.pass == 1) 16 + b x.injected 17 + b (out && x.multicast) 18
    | 36 => x.unknownValue
    | 37 => x.fieldsWritten
    | 38 => five 0
    | 39 => five 5
    | 40 => ty 10 + ty 11 * 2 ^ 6
    | 41 => x.cls + b x.preemptible 3 + (if out then x.colour * 2 ^ 4 else 0) + x.epoch * 2 ^ 6
    | 42 => x.rxLength
    | 43 => if out then egress else 0
    | 44 => if out then x.inRule + b (x.inOutcome == 0) 17 + x.inAction * 2 ^ 18 else 0
    | 45 => if out then x.finalDest else 0
    | _ => 0

/-- A destination code of R156 is well formed. -/
def destOk (c : Nat) : Bool :=
  match bits c 19 18 with
  | 0 => bits c 17 10 == 0
  | 1 => bits c 17 10 == 0
  | 2 => bits c 17 16 == 0
  | _ => bits c 17 13 == 0

/-- Action words a lookup may answer: an action code of its direction, no VID 0 or 4,095, a good destination code (R153 to R156). -/
def actionOk (out : Bool) (a0 a1 : Nat) : Bool :=
  let code := bits a0 63 60
  let vid := bits a0 46 35
  decide (code ≤ (if out then 3 else 6)) && !(bit a0 47 && (vid == 0 || vid == 4095)) && (out || code != 2 || destOk (bits a1 63 44))

/-- A word of slot s as a read of CLASS.SLOT.DATA shows it: the reserved bits of root entries and of CUT, RANGE and LEAF lines are zero (R9, R147 to R150, R153). -/
def Dev.treeSeen (d : Dev) (s w : Nat) : Nat :=
  let x := d.treeWord s w
  let type := bits (d.treeWord s (w / 4 * 4)) 63 60
  let z := fun (hi lo : Nat) => x - bits x hi lo * 2 ^ lo
  if w < 1024 then x - bits x 30 17 * 2 ^ 17 - bits x 62 49 * 2 ^ 49
  else match type, w % 4 with
    | 1, 0 => z 11 0
    | 1, _ => 0
    | 2, 0 => z 6 0
    | 3, 0 => z 17 0
    | 3, 2 => z 6 0
    | 3, 3 => z 9 0
    | _, _ => x

/-- Index of a RANGE node (R149): how many of its bounds in use are at most u. -/
def rangeIndex (u count : Nat) (w1 w2 w3 : Nat) : Nat :=
  let b := [bits w1 31 0, bits w1 63 32, bits w2 31 0, bits w2 63 32, bits w3 31 0, bits w3 63 32]
  ((b.take count).filter fun x => decide (x ≤ u)).length

/-- The walk from a line (R151); fuel is the visits left. -/
def Dev.treeWalk (d : Dev) (sorus s : Nat) (out : Bool) (x : Desc) (egress : Nat) : Nat → Nat → LookOut
  | 0, line => if d.n Od.CLASS_SLOT_SEAL s 1 ≤ line then .fault else .fault
  | fuel + 1, line =>
    let w := fun i => d.treeWord s (4 * line + i)
    let w0 := w 0
    let kw := bits w0 59 54
    if d.n Od.CLASS_SLOT_SEAL s 1 ≤ line then .fault
    else if (List.range 4).any fun i => d.treeBad sorus s (4 * line + i) then .poison line
    else if bits w0 63 60 = 1 then
      if decide (kw < 32) && !bit x.fieldsWritten kw then Dev.treeWalk d sorus s out x egress fuel (bits w0 28 12)
      else Dev.treeWalk d sorus s out x egress fuel (bits w0 45 29 + x.key out egress kw / 2 ^ bits w0 53 49 % 2 ^ (bits w0 48 46 + 1))
    else if bits w0 63 60 = 2 then
      if decide (kw < 32) && !bit x.fieldsWritten kw then Dev.treeWalk d sorus s out x egress fuel (bits w0 23 7)
      else
        let count := bits w0 43 41
        if count = 0 ∨ count = 7 then .fault
        else
          let u := x.key out egress kw / 2 ^ bits w0 53 49 % 2 ^ (bits w0 48 44 + 1)
          Dev.treeWalk d sorus s out x egress fuel (bits w0 40 24 + rangeIndex u count (w 1) (w 2) (w 3))
    else if bits w0 63 60 = 3 then
      let tk := bits w0 57 52
      let mask := bits (w 1) 31 0
      if bit w0 59 then .noMatch
      else if bit w0 58 && (x.key out egress tk &&& mask) != (bits (w 1) 63 32 &&& mask) then
        if bits w0 34 18 = 0x1FFFF then .noMatch else Dev.treeWalk d sorus s out x egress fuel (bits w0 34 18)
      else if d.n Od.CLASS_SLOT_SEAL s 0 ≤ bits w0 51 35 ∨ !actionOk out (w 2) (w 3) then .fault
      else .hit (bits w0 51 35) (w 2) (w 3)
    else .fault

/-- The lookup of R151 in the slot an epoch names, at the sorus of the port. -/
def Dev.lookup (d : Dev) (out : Bool) (port s : Nat) (x : Desc) : LookOut :=
  let e := if out then 1024 + port else port
  let sorus := sorusOf port
  let word := d.treeWord s (e / 2)
  let root := if e % 2 = 0 then word % 2 ^ 32 else word / 2 ^ 32
  if d.n Od.CLASS_SLOT_SEAL s 0 = 0 then .noMatch
  else if d.treeBad sorus s (e / 2) then .poison (e / 8)
  else if !bit root 31 then .noMatch
  else d.treeWalk sorus s out x port 12 (bits root 16 0)

/-- The index and instance that hold the counter pair of a rule of a slot (R173). -/
def ruleObj (s rule : Nat) : Obj × Nat :=
  let o := if s = 0 then (if rule < 65536 then Od.CLASS_RULE_HITS0 else Od.CLASS_RULE_HITS1)
    else (if rule < 65536 then Od.CLASS_RULE_HITS2 else Od.CLASS_RULE_HITS3)
  (o, rule % 65536)

/-- A lookup met a poisoned line (R151, R168, R463): counted, its words are findings, its repair is due. -/
def Dev.treeHit (sorus s line : Nat) (d : Dev) : Dev :=
  let l := d.treePoison.filter fun w => w.1 == sorus && w.2.1 == s && w.2.2 / 4 == line
  ({ d with found := d.found ++ l.map fun (w : Nat × Nat × Nat) => ({ mem := 8, die := sorus, addr := s * 393216 + w.2.2, bits := 3 } : Found) }.bump Od.CLASS_POISON_HITS 0).later
    (.repair sorus s line)

/-- Count a match of a rule (R173). -/
def Dev.ruleHit (s rule len : Nat) (d : Dev) : Dev := d.pair (ruleObj s rule).1 (ruleObj s rule).2 len

/-- The rewrites of A0 that both directions make: PCP, DEI, VID (R153, R155). -/
def Desc.rewrite (x : Desc) (a0 : Nat) : Desc :=
  { x with
    outerPcp := if bit a0 53 then bits a0 52 50 else x.outerPcp
    outerDei := if bit a0 49 then bits a0 48 48 else x.outerDei
    outerVid := if bit a0 47 then bits a0 46 35 else x.outerVid }

/-- The ingress action words take effect on the descriptor (R153, R159). -/
def Desc.action (x : Desc) (a0 a1 : Nat) : Desc :=
  let x := x.rewrite a0
  let code := bits a0 63 60
  { x with
    cls := if bit a0 59 then bits a0 58 56 else x.cls
    preemptible := if bit a0 55 then bit a0 54 else x.preemptible
    inAction := code, meterEn := bit a0 34, meter := bits a0 33 18
    inColour := bits a0 17 16
    colour := if bits a0 17 16 = 3 then x.outerDei else bits a0 17 16
    ring := bits a0 15 12, learnDisable := bit a0 11, strip := bits a0 10 7
    dest := if code = 2 then bits a1 63 44 else 0
    sporeEn := bit a1 43, spore := bits a1 42 27, streamSet := bit a1 26, stream := bits a1 25 10 }

end Sys2Proof.Machine
end

