-- ==== Sys2Proof/Machine/Parser.lean ====
section
/-! DEFINITION. The header parser (R119 to R136): fields, the walk, extractions, and the checks at the tail. -/
namespace Sys2Proof.Machine

/-- The field of w bits at bit offset o of the layer that starts at byte off (R123). -/
def fieldAt (bs : List Byte) (off o w : Nat) : Nat :=
  let nb := (o % 8 + w + 7) / 8
  ofBytesBE (sliceZ bs (off + o / 8) nb) / 2 ^ (8 * nb - o % 8 - w) % 2 ^ w

/-- The fields in use of a descriptor (R128), as (offset, width): length, next type, span, fragment. -/
def descFields (w0 w1 : Nat) : List (Nat × Nat) :=
  (if bits w0 62 61 = 0 then [] else [(bits w0 47 38, bits w0 51 48)]) ++
  (if bits w0 21 17 ≠ 0 ∧ !bit w0 59 then [(bits w0 16 7, bits w0 21 17)] else []) ++
  (if bit w1 63 then [(bits w1 61 52, 16)] else []) ++ (if bit w1 43 then [(bits w1 42 33, 16)] else [])

/-- A word of an object's instance is poisoned in the copy a sorus holds of the parser's objects (R122, R457). -/
def Dev.copyBad (d : Dev) (s : Nat) (o : Obj) (i : Nat) : Bool :=
  d.poison.any fun k => k / 65536 == ((s + 1) * 2 ^ 48) + (o.idx * 256 + o.sub) * 65536 + i

/-- Write a slot of the field vector. -/
def Walk.slot (w : Walk) (s v : Nat) : Walk := { w with fields := w.fields.set s v, written := setBit w.written s }

/-- One extraction entry (R127). -/
def Walk.extract (bs : List Byte) (lim off : Nat) (w : Walk) (e : Nat) : Walk :=
  let s := bits e 29 25
  let n := bits e 24 19 + 1
  let o := bits e 18 9
  if !bit e 31 ∨ lim * 8 < off * 8 + o + n then w
  else if bit e 30 && (bit w.written s || (decide (32 < n) && bit w.written (s + 1))) then w
  else
    let v := fieldAt bs off o n
    let w := { w with read := max w.read (ceilDiv (off * 8 + o + n) 8) }
    if n ≤ 32 then w.slot s v else (w.slot s (v / 2 ^ 32)).slot (s + 1) (v % 2 ^ 32)

/-- The first matching transition (R126). -/
def nextLayer (v : Nat) : List Nat → Option Nat
  | [] => none
  | e :: t => if bit e 63 && (v &&& bits e 31 16) == (bits e 47 32 &&& bits e 31 16) then some (bits e 61 56) else nextLayer v t

/-- A walk that stops for a contradiction (R133). -/
def Walk.malform (w : Walk) (r : Nat) : Walk := { w with reason := 3, mal := r }

/-- The walk of R129, on the copy of the descriptors that the port's sorus holds (R122). `known` says the frame was handed over at its end; n4 is L − 4. Fuel
bounds the layers: at most 12 are recorded. -/
def Dev.walk (d : Dev) (bs : List Byte) (port : Nat) (known : Bool) (n4 : Nat) :
    Nat → (layer off n prev run uval : Nat) → Walk → Walk
  | 0, _, _, _, _, _, _, w => { w with reason := 2 }
  | fuel + 1, layer, off, n, prev, run, uval, w =>
    let lim := if known then min 256 n4 else 256
    let w0 := d.n Od.PARSE_LAYER_DESC layer 0
    let w1 := d.n Od.PARSE_LAYER_DESC layer 1
    let g := bits w0 58 57
    let run := if g ≠ 0 ∧ g = prev then run + 1 else 1
    let beyond := if known ∧ n4 ≤ 256 then w.malform 5 else { w with reason := 2 }
    let lf := fieldAt bs off (bits w0 47 38) (bits w0 51 48)
    let hlen := match bits w0 62 61 with
      | 0 => bits w0 37 30
      | 1 => lf * 2 ^ bits w0 54 52 + bits w0 37 30
      | _ => d.n Od.PARSE_LUT (bits w0 56 55) lf
    let sf := fieldAt bs off (bits w1 61 52) 16
    let span := sf + bits w1 51 44
    let bad := fun (o : Obj) (i : Nat) => d.copyBad (sorusOf port) o i
    if layer = 0 then { w with reason := 0 }
    else if !bit w0 63 || bad Od.PARSE_LAYER_DESC layer then { w with reason := 1, unknown := uval }
    else if (g ≠ 0 && bad Od.PARSE_GROUP_LIMIT 0) || (bits w0 62 61 == 2 && bad Od.PARSE_LUT (bits w0 56 55)) then { w with poison := true }
    else if n = d.n Od.PARSE_DEPTH port ∨ (g ≠ 0 ∧ d.n Od.PARSE_GROUP_LIMIT 0 (g - 1) < run) then { w with reason := 2 }
    else if (descFields w0 w1).any fun x => decide (lim * 8 < off * 8 + x.1 + x.2) then beyond
    else
    let w := { w with read := (descFields w0 w1).foldl (fun (m : Nat) (x : Nat × Nat) => max m (ceilDiv (off * 8 + x.1 + x.2) 8)) w.read }
    let beyond := if known ∧ n4 ≤ 256 then w.malform 5 else { w with reason := 2 }
    if hlen = 0 ∨ (bit w0 60 ∧ bits w0 62 61 ≠ 0 ∧ lf = 0) then w.malform 1
    else if hlen < bits w0 29 22 then w.malform 2
    else if lim < off + hlen then beyond
    else if bit w1 63 ∧ bit w1 62 ∧ sf = 0 then w.malform 6
    else if bit w1 63 ∧ span < hlen then w.malform 3
    else if bit w1 63 ∧ known ∧ n4 - off < span then w.malform 4
    else if bad Od.PARSE_LAYER_EXTRACT layer then { w with poison := true }
    else
      let w := { w with
        spans := if bit w1 63 && !known then w.spans ++ [(off, span)] else w.spans
        layers := w.layers ++ [(layer, off)]
        lastEnd := off + hlen }
      let w := (d.elems Od.PARSE_LAYER_EXTRACT layer 8).foldl (Walk.extract bs lim off) w
      if bit w1 43 ∧ fieldAt bs off (bits w1 42 33) 16 &&& bits w1 32 17 ≠ 0 then { w with reason := 4, frag := true }
      else if bit w0 59 then { w with reason := 0 }
      else if bad Od.PARSE_LAYER_NEXT layer then { w with poison := true }
      else
        let v := fieldAt bs off (bits w0 16 7) (bits w0 21 17)
        match nextLayer v (d.elems Od.PARSE_LAYER_NEXT layer 8) with
        | none => { w with reason := 1, unknown := v }
        | some l => Dev.walk d bs port known n4 fuel l (off + hlen) (n + 1) g run v w

/-- Parse a frame from a start layer (R129). -/
def Dev.parse (d : Dev) (bs : List Byte) (port start : Nat) (known : Bool) (n4 : Nat) : Walk :=
  d.walk (bs.take 256) port known n4 14 start 0 0 0 0 0 {}

/-- The parse result in the descriptor (R132). -/
def Desc.parsed (x : Desc) (w : Walk) : Desc :=
  { x with
    endReason := w.reason, depthExceeded := w.reason == 2, malformed := w.mal != 0, malformedReason := w.mal, fragment := w.frag,
    layers := w.layers, unknownValue := w.unknown, fields := w.fields, fieldsWritten := w.written }

/-- The counts of a walk: DEPTH_EXCEEDED and FRAGMENTS (R131, R136). -/
def Dev.countWalk (p len : Nat) (w : Walk) (d : Dev) : Dev :=
  (d.when (w.reason == 2) fun d => d.pair Od.PARSE_DEPTH_EXCEEDED p len).when w.frag fun d => d.pair Od.PARSE_FRAGMENTS p len

/-- A frame found malformed with a reason is counted once in each place (R134). -/
def Dev.countMalformed (p len reason : Nat) (d : Dev) : Dev :=
  (d.pair Od.PARSE_MALFORMED p len).bump48 Od.PARSE_MALFORMED_REASONS 0 (reason - 1)

/-- The checks at the tail (R135), in layer order: 0, or the reason of the first failure. n4 is L − 4. -/
def tailReason (spans : List (Nat × Nat)) (lastEnd n4 : Nat) : Nat :=
  if spans.any fun x => decide (n4 - x.1 < x.2) then 4 else if n4 < lastEnd then 5 else 0

end Sys2Proof.Machine
end

