-- ==== Sys2Proof/Machine/Streams.lean ====
section
/-! DEFINITION. Meters (R219 to R225), stream filters and gates (R226 to R229), 802.1CB recovery and generation (R230 to R234), stream watch (R405 to
R409), and the stream stage that joins them (R215). -/
namespace Sys2Proof.Machine

/-- Both buckets of a meter full (R225). -/
def Dev.meterFull (m : Nat) (d : Dev) : Dev :=
  (d.put Od.METER_TOKENS m (d.n Od.METER_CBS m * 65536) 0).put Od.METER_TOKENS m (d.n Od.METER_EBS m * 65536) 1

/-- The refill of a meter at a boundary (R220). -/
def Dev.meterRefill (d : Dev) (m : Nat) : Dev :=
  let sc := d.n Od.METER_CBS m * 65536
  let se := d.n Od.METER_EBS m * 65536
  let tc := d.n Od.METER_TOKENS m 0 + d.n Od.METER_CIR m
  let te := d.n Od.METER_TOKENS m 1 + d.n Od.METER_EIR m
  let spare := if d.on Od.METER_COUPLING m ∧ 2 ≤ d.n Od.METER_MODE m then tc - sc else 0
  (d.put Od.METER_TOKENS m (min tc sc) 0).put Od.METER_TOKENS m (min (te + spare) se) 1

/-- The colour a meter gives, and what it takes from C and E (R221). -/
def colourOf (mode off b tc te : Nat) : Nat × Nat × Nat :=
  match mode with
  | 0 => if te < b then (2, 0, 0) else if tc < b then (1, 0, b) else (0, b, b)
  | 1 => if off = 2 ∨ te < b then (2, 0, 0) else if off = 1 ∨ tc < b then (1, 0, b) else (0, b, b)
  | 2 => if b ≤ tc then (0, b, 0) else if b ≤ te then (1, 0, b) else (2, 0, 0)
  | _ => if off = 0 ∧ b ≤ tc then (0, b, 0) else if off ≠ 2 ∧ b ≤ te then (1, 0, b) else (2, 0, 0)

/-- A packet meets a meter (R221 to R224): whether it is dropped. -/
def Dev.meter (m : Nat) (j : Bool) (x : Desc) (d : Dev) : Bool × Desc × Dev :=
  let d := d.usage Rg.USE_METER m j
  let d := if d.poisoned Od.METER_TOKENS m then (d.heal Od.METER_TOKENS m).meterFull m |>.bump Od.INTEG_STATE_RESETS 0 else d
  let allRed := d.on Od.METER_MARK_ALL_RED m
  let b := (x.rxLength + d.n Od.METER_OVERHEAD m) * 65536
  let r := if allRed then (2, 0, 0) else colourOf (d.n Od.METER_MODE m) x.colour b (d.n Od.METER_TOKENS m 0) (d.n Od.METER_TOKENS m 1)
  let d := (d.put Od.METER_TOKENS m (d.n Od.METER_TOKENS m 0 - r.2.1) 0).put Od.METER_TOKENS m (d.n Od.METER_TOKENS m 1 - r.2.2) 1 |>.flipAny 5 8 Od.METER_TOKENS m 0
  let c := max x.colour r.1
  let d := d.pair (match c with | 0 => Od.METER_GREEN | 1 => Od.METER_YELLOW | _ => Od.METER_RED) m x.rxLength
  let drop := (c == 1 && d.on Od.METER_YELLOW_ACTION m) || (c == 2 && d.on Od.METER_RED_ACTION m)
  let x := { x with colour := c, markDei := x.markDei || d.on Od.METER_MARK_DEI m }
  if drop then
    let d := d.bump Od.METER_DROPPED m
    (true, { x with filterOutcome := 5 }, d.when (c == 2 && d.on Od.METER_MARK_ALL_RED_ENABLE m) fun d => d.put Od.METER_MARK_ALL_RED m 1)
  else (false, x, d)

/-- Set bit n of a history. -/
def zeroBits (hist lo hi : Nat) : Nat := ((List.range (hi - lo)).filter fun i => !bit hist (lo + i)).length

/-- take_any of a recovery function is set, as a write of its settings asks (R234). -/
def Dev.recTakeAny (s : Nat) (d : Dev) : Dev := d.put Od.FRER_REC_STATE s 1 2

/-- A recovery function starts afresh: take_any, its history at its reset value, zero (R234, R237; log entry 35). -/
def Dev.recReset (s : Nat) (d : Dev) : Dev := (d.put Od.FRER_REC_STATE s 0 1).recTakeAny s

/-- The reset timer of an enabled recovery function falls by 1 at a boundary (R234). -/
def Dev.frerFall (d : Dev) (s : Nat) : Dev :=
  if d.on Od.FRER_REC_ENABLE s ∧ 1 < d.n Rg.FRER_TIMER s then d.put Rg.FRER_TIMER s (d.n Rg.FRER_TIMER s - 1) else d

/-- A recovery function's timer has reached 0 (R234). -/
def Dev.frerTimeout (s : Nat) (d : Dev) : Dev :=
  if d.n Rg.FRER_TIMER s = 1 ∧ d.on Od.FRER_REC_ENABLE s then ((d.put Rg.FRER_TIMER s 0).recReset s).bump Od.FRER_REC_RESETS s else d

/-- A pass of a recovery function: counted, its timer loaded (R233). -/
def Dev.recPass (s : Nat) (x : Desc) (d : Dev) : Bool × Desc × Dev :=
  let d := (d.pair Od.FRER_REC_PASSED s x.rxLength).put Rg.FRER_TIMER s (if d.n Od.FRER_REC_RESET_TICKS s = 0 then 0 else d.n Od.FRER_REC_RESET_TICKS s + 1)
  (false, { x with recoveryOutcome := 1, seqValid := x.seqValid && d.on Od.FRER_REC_KEEP_SEQ s }, d)

/-- Sequence recovery (R233): whether the packet is discarded. -/
def Dev.recover (s : Nat) (x : Desc) (d : Dev) : Bool × Desc × Dev :=
  let d := d.frerTimeout s
  let d := if d.poisoned Od.FRER_REC_STATE s then (d.heal Od.FRER_REC_STATE s).recReset s |>.bump Od.INTEG_STATE_RESETS 0 else d
  let gone := fun (o : Nat) (d : Dev) => (true, { x with recoveryOutcome := o }, d.pair Od.FRER_REC_DISCARDED s x.rxLength)
  let l := d.n Od.FRER_REC_HISTORY s
  let recd := d.n Od.FRER_REC_STATE s 0
  let hist := d.n Od.FRER_REC_STATE s 1
  if !x.seqValid then
    if d.on Od.FRER_REC_TAKE_NO_SEQ s then d.recPass s x else gone 4 (d.bump Od.FRER_REC_TAGLESS s)
  else if d.n Od.FRER_REC_STATE s 2 = 1 then
    (((d.put Od.FRER_REC_STATE s x.seq 0).put Od.FRER_REC_STATE s (2 ^ l - 1) 1).put Od.FRER_REC_STATE s 0 2).recPass s x
  else
    let e := (x.seq + 65536 + 32768 - recd) % 65536
    if 32768 < e ∨ e = 32768 then
      let dd := e - 32768
      if l ≤ dd then gone 3 (d.bump Od.FRER_REC_ROGUE s)
      else if dd = 0 then (if bit hist 0 then gone 2 d else (((d.put Od.FRER_REC_STATE s (setBit hist 0) 1).bump Od.FRER_REC_OUT_OF_ORDER s).recPass s x))
      else
        let d := d.when (decide (1 < dd)) fun d => d.bump Od.FRER_REC_OUT_OF_ORDER s
        let d := d.bump Od.FRER_REC_LOST s (zeroBits hist (l - dd) l)
        ((d.put Od.FRER_REC_STATE s x.seq 0).put Od.FRER_REC_STATE s ((hist * 2 ^ dd + 1) % 2 ^ l) 1).recPass s x
    else
      let back := 32768 - e
      if l ≤ back then gone 3 (d.bump Od.FRER_REC_ROGUE s)
      else if bit hist back then gone 2 d
      else ((d.put Od.FRER_REC_STATE s (setBit hist back) 1).bump Od.FRER_REC_OUT_OF_ORDER s).recPass s x

/-- The list of a stream gate that a packet of a stamp meets (R228, R349), with the change time that ends it, in its view: the pending one from its change time on,
the one before it at a stamp ahead of the latest change. -/
def Dev.streamListAt (g stamp : Nat) (d : Dev) : GList × Option Int :=
  let w := fun (l : GList) => (((d.convert l.view stamp).1 : Nat) : Int)
  let cutAt := fun (l : GList) (n : GList) (ct : Nat) => ((ct * 65536 : Nat) : Int) - (w n - w l)
  let l := d.streamOper g
  match (d.sgateOld.find? (·.1 == g)).filter fun o => decide (w l < ((o.2.1 * 65536 : Nat) : Int)) with
  | some o => (o.2.2, some (cutAt o.2.2 l o.2.1))
  | none =>
    match d.gatePend true g with
    | some p => if ((p.ct * 65536 : Nat) : Int) ≤ w p.list then (p.list, none) else (l, some (cutAt l p.list p.ct))
    | none => (l, none)

/-- Filter steps 2 and 3 (R227, R228): whether the packet is dropped. -/
def Dev.filterStage (s : Nat) (x : Desc) (d : Dev) : Bool × Desc × Dev :=
  let max := d.n Od.FILTER_MAX_SDU s
  if d.on Od.FILTER_BLOCKED s then (true, { x with filterOutcome := 4 }, d.pair Od.FILTER_SDU_DROPPED s x.rxLength)
  else if max ≠ 0 ∧ max < x.rxLength then
    let d := d.pair Od.FILTER_SDU_DROPPED s x.rxLength
    (true, { x with filterOutcome := 2 }, d.when (d.on Od.FILTER_BLOCK_OVERSIZE s) fun d => d.put Od.FILTER_BLOCKED s 1)
  else
    let g := d.n Od.FILTER_GATE s
    if 256 ≤ g then (false, x, d)
    else
      let l := d.streamListAt g x.stamp
      let c := d.convert l.1.view x.stamp
      let d := c.2
      let e := (l.1.entry l.2 c.1).map (·.1)
      let isOpen := (match e with | some e => bit e 63 | none => true) && !d.on Od.GATE_CLOSED_INVALID g
      if isOpen then
        match e with
        | some e => (false, if bit e 62 then { x with cls := bits e 61 59, ipvSet := true, ipv := bits e 61 59 } else x, d)
        | none => (false, x, d)
      else
        let d := d.pair Od.FILTER_GATE_DROPPED s x.rxLength
        (true, { x with filterOutcome := 3 }, d.when (d.on Od.GATE_CLOSE_ON_INVALID g) fun d => d.put Od.GATE_CLOSED_INVALID g 1)

/-- The results of a watched stream are cleared (R408). -/
def Dev.watchClear (s : Nat) (d : Dev) : Dev :=
  [Od.WATCH_HIST, Od.WATCH_EXTREMES, Od.WATCH_FRAMES, Od.WATCH_LATE_COUNT, Od.WATCH_GAPS, Od.WATCH_REORDERS, Od.WATCH_NO_STAMP, Rg.W_PREV, Rg.W_SEQ,
    Rg.W_PERIOD].foldl (fun d o => d.clearInst o s) d

/-- A stream's period closes at the boundary that opened tick `at_` (R409): its record, if it is due, passes the window of its code (R500). -/
def Dev.watchReport (k : Clk) (at_ s : Nat) (d : Dev) : Dev :=
  let w := fun e => d.get Rg.W_PERIOD s e
  let lim : Int := (d.n Od.WATCH_RECORD_ABOVE s * 65536 : Nat)
  let far := d.on Od.WATCH_RECORD_ABOVE s && d.on Rg.W_PERIOD s 4 && (decide (lim < w 6) || decide (w 5 < -lim))
  let due := w 1 ≠ 0 ∨ w 2 ≠ 0 ∨ far
  let rec_ := recordBytes 0x0901 2 (d.n Od.DEVICE_POWER_CYCLES 0) (d.n Od.DEVICE_OP_HOURS 0) (d.n Od.DEVICE_OP_SECONDS 0) s at_ 0 (w 0).toNat (w 6)
    (bytesLE 8 (ofSigned 64 (w 5))) (bytesLE 4 (w 1).toNat ++ bytesLE 4 (w 2).toNat ++ bytesLE 4 (w 3).toNat)
  let d := d.clearInst Rg.W_PERIOD s
  if !due then d
  else
    let d := d.occurs k 0x0901
    let h := d.n Od.REC_CODE_HOLD 0x0901
    let st := d.n Rg.SX_START 0
    let fresh := st = 0 ∨ st + max h 1 ≤ at_ + 1
    let n := if fresh then 0 else d.n Rg.SX_COUNT 0
    if !d.on Od.REC_CODE_ENABLE 0x0901 ∨ d.n Od.REC_CODE_LIMIT 0x0901 ≤ n then d.bump Od.REC_CODE_SUPPRESSED 0x0901
    else ((if fresh then d.put Rg.SX_START 0 (at_ + 1) else d).put Rg.SX_COUNT 0 (n + 1)).queueRecord rec_

/-- The report period of a watched stream's latest packets closes at the boundary that ended it (R409), by the row or ahead of the stream's next packet; a period without a
packet sends nothing. -/
def Dev.watchClose (k : Clk) (s : Nat) (d : Dev) : Dev :=
  let p := d.n Od.WATCH_REPORT_PERIOD s
  let last := d.n Rg.W_PERIOD s 7
  if p = 0 ∨ last = 0 ∨ (last - 1) / p = k.tick / p then d else d.watchReport k (((last - 1) / p + 1) * p) s

/-- The sequence test of stream watch (R407). The period's counts are kept beside: 0 frames, 1 late, 2 gaps, 3 reorders, 4 seen, 5 least, 6 greatest, 7 the tick of its latest
packet and one. -/
def Dev.watchSeq (s : Nat) (x : Desc) (d : Dev) : Dev :=
  let slot := d.n Od.WATCH_SEQ_SLOT s
  let m := if d.n Od.WATCH_SEQ_SOURCE s = 1 then 16 else d.n Od.WATCH_SEQ_WIDTH s
  let seq := match d.n Od.WATCH_SEQ_SOURCE s with
    | 1 => if x.seqValid then some x.seq else none
    | 2 => if x.has slot then some (x.fields.getD slot 0 % 2 ^ m) else none
    | _ => none
  match seq with
  | none => d
  | some q =>
    let last := d.n Rg.W_SEQ s
    if last = 0 then d.put Rg.W_SEQ s (q + 1)
    else
      let e := (q + 2 ^ m - (last - 1) % 2 ^ m) % 2 ^ m
      if e = 1 then d.put Rg.W_SEQ s (q + 1)
      else if 2 ≤ e ∧ e < 2 ^ (m - 1) then
        ((d.bump Od.WATCH_GAPS s (e - 1)).put Rg.W_PERIOD s (d.n Rg.W_PERIOD s 2 + (e - 1)) 2).put Rg.W_SEQ s (q + 1)
      else (d.bump Od.WATCH_REORDERS s).put Rg.W_PERIOD s (d.n Rg.W_PERIOD s 3 + 1) 3

/-- A watched stream's packet (R405 to R407). -/
def Dev.watch (k : Clk) (s : Nat) (x : Desc) (d : Dev) : Dev :=
  if !d.on Od.WATCH_ENABLE s then d
  else
    let d := d.watchClose k s
    let d := if d.poisoned Od.WATCH_HIST s then (d.heal Od.WATCH_HIST s).watchClear s |>.bump Od.INTEG_STATE_RESETS 0 else d
    if x.noIngress then d.bump Od.WATCH_NO_STAMP s
    else
      let c := d.convert (d.n Od.WATCH_VIEW s) x.stamp
      let t : Int := c.1
      let d := c.2
      let p : Int := d.n Od.WATCH_PERIOD s * 65536
      let prev := d.get Rg.W_PREV s
      let dev : Option Int :=
        if d.n Od.WATCH_MODE s = 0 then (if prev = 0 then none else some (t - (prev - 1) - p))
        else some ((t - time80Ns (d.n Od.WATCH_GRID_BASE s) * 65536) % p)
      let d := d.when (d.n Od.WATCH_MODE s == 0) fun d => d.set Rg.W_PREV s (t + 1)
      let d := ((d.bump Od.WATCH_FRAMES s).put Rg.W_PERIOD s (d.n Rg.W_PERIOD s 0 + 1) 0).put Rg.W_PERIOD s (k.tick + 1) 7
      match dev with
      | none => d.watchSeq s x
      | some v =>
        let bin := (clampI 0 15 ((v - d.get Od.WATCH_BIN_LOW s * 65536).fdiv (d.get Od.WATCH_BIN_WIDTH s * 65536))).toNat
        let d := d.bump Od.WATCH_HIST s 1 bin
        let first := decide (((List.range 16).map fun e => d.n Od.WATCH_HIST s e).sum = 1)
        let d := if first then (d.set Od.WATCH_EXTREMES s v 0).set Od.WATCH_EXTREMES s v 1
          else (d.set Od.WATCH_EXTREMES s (min v (d.get Od.WATCH_EXTREMES s 0)) 0).set Od.WATCH_EXTREMES s (max v (d.get Od.WATCH_EXTREMES s 1)) 1
        let seen := d.on Rg.W_PERIOD s 4
        let d := ((d.put Rg.W_PERIOD s 1 4).set Rg.W_PERIOD s (if seen then min v (d.get Rg.W_PERIOD s 5) else v) 5).set Rg.W_PERIOD s
          (if seen then max v (d.get Rg.W_PERIOD s 6) else v) 6
        let d := if d.get Od.WATCH_LATE s * 65536 < v then (d.bump Od.WATCH_LATE_COUNT s).put Rg.W_PERIOD s (d.n Rg.W_PERIOD s 1 + 1) 1 else d
        d.watchSeq s x

/-- Sequence generation (R232). -/
def Dev.generate (s : Nat) (x : Desc) (d : Dev) : Desc × Dev :=
  let d := if d.poisoned Od.FRER_GEN_NEXT s then (d.heal Od.FRER_GEN_NEXT s).put Od.FRER_GEN_NEXT s 0 |>.bump Od.INTEG_STATE_RESETS 0 else d
  let n := d.n Od.FRER_GEN_NEXT s
  ({ x with seqValid := true, seq := n }, d.put Od.FRER_GEN_NEXT s ((n + 1) % 65536))

/-- Then f, unless the packet is gone. -/
def thenStage (r : Bool × Desc × Dev) (f : Desc → Dev → Bool × Desc × Dev) : Bool × Desc × Dev := if r.1 then r else f r.2.1 r.2.2

/-- The stream stage (R215): j says the frame is journalled (R523). The answer says whether the packet is dropped. -/
def Dev.streamStage (k : Clk) (j : Bool) (x : Desc) (d : Dev) : Bool × Desc × Dev :=
  let s := x.finalStream
  let on := x.finalStreamSet
  let first := x.pass == 0 && x.inAction == 5
  let d := d.when on fun d => d.usage Rg.USE_STREAM s j
  let r := if on && d.on Od.FRER_REC_ENABLE s && !first then d.recover s x else (false, x, d)
  let r := thenStage r fun x d => (false, x, d.when on fun d => d.watch k s x)
  let filt := on && d.on Od.FILTER_ENABLE s
  let fm := d.n Od.FILTER_FLOW_METER s
  let r := thenStage r fun x d => if filt then d.filterStage s x else (false, x, d)
  let r := thenStage r fun x d => if filt && !bit fm 16 then d.meter (fm % 65536) j x else (false, x, d)
  let r := thenStage r fun x d => if filt then (false, { x with filterOutcome := 1 }, d.pair Od.FILTER_PASSED s x.rxLength) else (false, x, d)
  let r := thenStage r fun x d =>
    if x.meterEn && !(filt && !bit fm 16 && fm % 65536 == x.meter) then d.meter x.meter j x else (false, x, d)
  let r := thenStage r fun x d =>
    if on && d.on Od.FRER_GEN_ENABLE s && !first then let g := d.generate s x; (false, g.1, g.2) else (false, x, d)
  thenStage r fun x d => (false, if x.markDei && x.colour != 0 then { x with outerDei := 1 } else x, d)

end Sys2Proof.Machine
end

