-- ==== Sys2Proof/Machine/Pipe.lean ====
section
/-! DEFINITION. A packet's way through the ingress half of a pipeline (R119 to R137, R144 to R160, R179 to R194, R215 to R234, R424): parse, lookup,
exact match, stream stage, admission. -/
namespace Sys2Proof.Machine

/-- A packet as it enters: its descriptor so far (with its pre-class as class), the walk of the parser, its length, the reason of a finding of R135 made before
its lookup (0 none), the settings of R121, what admission needs, the destination an injected frame brings, and whether the journal covers it. -/
structure PipeIn where
  x : Desc
  w : Walk
  len : Nat
  late : Nat := 0
  malAction : Nat := 0
  hostRing : Nat := 0
  slowRing : Nat := 0
  arr : Arriving
  dest : Option Nat := none
  journalled : Bool := false
  deriving DecidableEq, Repr

/-- What became of it: its descriptor and walk, its record, the deliveries due at its end, whether the dictionary engine takes it, whether it
reached admission, the outcome of its first copy, whether the ingress sampler selected it, and the state of that sampler's LFSR before its draw. -/
structure PipeOut where
  x : Desc
  w : Walk := {}
  fr : Option Nat := none
  host : List (Nat × Nat) := []
  mgmt : Bool := false
  reached : Bool := false
  first : Nat := 0
  sampled : Bool := false
  draw : Option Nat := none
  deriving DecidableEq, Repr

/-- What is to happen to a packet after the ingress lookup: an action code of R154, or the host for a malformed frame, for poison, or by the slow path. -/
inductive Verdict where
  | action (code : Nat)
  | malDrop
  | malHost
  | poisonHost
  | slowPath
  deriving DecidableEq, Repr

/-- The packet takes its epoch (R166, R167); a second pass keeps it. -/
def Dev.takeEpoch (x : Desc) (d : Dev) : Desc × Dev :=
  if x.pass = 0 then ({ x with epoch := d.n Od.CLASS_EPOCH 0 }, d.fill (d.n Od.CLASS_EPOCH 0) 1) else (x, d)

/-- CLASS.DEFAULT_ACTION of the receiving port applies (R157, R158). -/
def Dev.defaultAction (x : Desc) (d : Dev) : Verdict × Desc :=
  let a0 := d.n Od.CLASS_DEFAULT_ACTION x.srcPort 0
  (.action (bits a0 63 60), x.action a0 (d.n Od.CLASS_DEFAULT_ACTION x.srcPort 1))

/-- CLASS.POISON_ACTION of the receiving port applies (R157). -/
def Dev.poisonAction (x : Desc) (d : Dev) : Verdict × Desc :=
  match d.n Od.CLASS_POISON_ACTION x.srcPort with
  | 0 => (.action 1, { x with inAction := 1 })
  | 1 => d.defaultAction x
  | _ => (.poisonHost, { x with inAction := 3 })

/-- The ingress lookup and its outcome (R151, R157 steps 1 to 3). -/
def Dev.ingressLookup (malAction len : Nat) (x : Desc) (d : Dev) : Verdict × Desc × Dev :=
  let p := x.srcPort
  match d.lookup false p x.epoch x with
  | .hit rule a0 a1 =>
    (.action (bits a0 63 60), { x.action a0 a1 with inOutcome := 0, inRule := rule }, d.ruleHit x.epoch rule x.rxLength)
  | .noMatch =>
    if !x.injected && x.pass == 0 && bit (d.n Od.CLASS_MANAGEMENT_SET 0) x.cls then
      let d := d.when (!x.malformed) (Dev.countMalformed p len 7)
      let x := { x with inOutcome := 4, malformed := true, malformedReason := if x.malformed then x.malformedReason else 7 }
      match malAction with
      | 0 => (.malDrop, { x with inAction := 1 }, d)
      | 1 => let r := d.defaultAction x; (r.1, r.2, d)
      | _ => (.malHost, { x with inAction := 3 }, d)
    else
      let r := d.defaultAction { x with inOutcome := 1 }
      (r.1, r.2, d.pair Od.CLASS_IN_NO_MATCH p x.rxLength)
  | .fault =>
    let r := d.poisonAction { x with inOutcome := 2 }
    (r.1, r.2, d.pair Od.CLASS_IN_FAULTS p x.rxLength)
  | .poison line =>
    let r := d.poisonAction { x with inOutcome := 3 }
    (r.1, r.2, (d.pair Od.CLASS_IN_FAULTS p x.rxLength).treeHit (sorusOf p) x.epoch line)

/-- The action code the later stages go by (R180, R215): deliveries to the host count as HOST, a malformed DROP as DROP. -/
def Verdict.code (v : Verdict) : Nat :=
  match v with
  | .action c => c
  | .malDrop => 1
  | .malHost => 3
  | .poisonHost => 3
  | .slowPath => 3

/-- The deliveries a verdict makes at the frame's end: ring and reason (R134, R137, R154, R157, R586). -/
def Verdict.host (v : Verdict) (i : PipeIn) (x : Desc) : List (Nat × Nat) :=
  match v with
  | .action 3 => [(x.ring, 5)]
  | .action 4 => [(x.ring, 6)]
  | .malHost => [(i.hostRing, 2)]
  | .poisonHost => [(i.hostRing, 4)]
  | .slowPath => [(i.slowRing, 3)]
  | _ => []

/-- The packet reaches admission with its final destination. -/
def Dev.toFabric (k : Clk) (i : PipeIn) (o : PipeOut) (d : Dev) : PipeOut × Dev :=
  let d := match o.x.lfsr with | some s => d.when o.x.sporeEn fun d => d.setLfsr (0x20000 + o.x.spore) s | none => d
  let st := d.lfsrState k (0x20000 + o.x.spore)
  let r := d.enterFabric k i.arr o.x
  ({ o with reached := true, fr := r.1.fr, first := r.1.first, sampled := r.1.sampled
            draw := if o.x.sporeEn && r.1.fr.isSome then some st else none }, r.2)

/-- From the verdict on (R154, R179 to R194, R215). -/
def Dev.afterLookup (k : Clk) (i : PipeIn) (v : Verdict) (o : PipeOut) (d : Dev) : PipeOut × Dev :=
  let p := o.x.srcPort
  let c := v.code
  let o := { o with host := v.host i o.x }
  if c = 1 then
    (o, (d.when (v == .action 1) fun d => d.pair Od.CLASS_IN_DROPS p o.x.rxLength).gone i.arr o.x)
  else
    let e := d.emStage k p true (c == 0 || c == 4) i.dest o.x
    let o := { o with x := e.2.1 }
    let d := e.2.2
    if c = 3 then (o, d)
    else if c = 6 then
      if d.on Od.DICT_PORT_INBAND p then ({ o with mgmt := true }, d)
      else (o, (d.pair Od.CLASS_IN_MGMT_REFUSED p o.x.rxLength).gone i.arr o.x)
    else if c = 5 ∧ (o.x.pass = 1 ∨ o.x.layers.length ≤ o.x.strip) then
      (o, (d.pair Od.CLASS_RECIRC_REFUSED p o.x.rxLength).gone i.arr o.x)
    else
      let d := d.when (c == 5) fun d => d.pair Od.CLASS_RECIRCULATED p o.x.rxLength
      if e.1 then (o, d.gone i.arr o.x)
      else
      let s := d.streamStage k i.journalled o.x
      let o := { o with x := s.2.1 }
      if s.1 then (o, s.2.2.gone i.arr o.x) else s.2.2.toFabric k i o

/-- A working word that a packet of a port needs is poisoned (R457; log entry 14): the receiving port's MAC, parser, classifier and exact-match
settings. -/
def Dev.configPoison (d : Dev) (p : Nat) : Bool :=
  d.poison.any fun k => k / 65536 % 65536 == p && [0x2100, 0x3080, 0x3480, 0x3880].contains (keyObj k / 256)

/-- The whole way of a packet through the ingress half; a poisoned word that its walk needs drops it (R457). A finding of R135 made before its lookup shows in
its descriptor from there on. -/
def Dev.pipe (k : Clk) (i : PipeIn) (d : Dev) : PipeOut × Dev :=
  let p := i.x.srcPort
  if d.configPoison p || i.w.poison then
    let t := d.takeEpoch i.x
    ({ x := t.1 }, (t.2.bump Od.INTEG_CONFIG_POISON_DROPS 0).gone i.arr t.1)
  else
  let w := i.w
  let d := (d.countWalk p i.len w).when (w.mal != 0) (Dev.countMalformed p i.len w.mal)
  let late := w.mal = 0 ∧ i.late ≠ 0
  let d := if late then (d.pair Od.PARSE_MALFORMED_LATE p i.len).countMalformed p i.len i.late else d
  let t := d.takeEpoch (i.x.parsed w)
  let o : PipeOut := { x := if late then { t.1 with malformed := true, malformedLate := true, malformedReason := i.late } else t.1, w := w }
  let d := t.2
  if w.mal ≠ 0 ∧ i.malAction = 0 then (o, d.gone i.arr o.x)
  else if w.mal ≠ 0 ∧ i.malAction ≠ 1 then ({ o with host := [(i.hostRing, 2)] }, d)
  else if o.x.fromMat then d.toFabric k i o
  else
    let l := d.ingressLookup i.malAction i.len o.x
    let v := if l.2.1.fragment && bit (l.2.2.n Od.CLASS_PRIVILEGED_SET 0) l.2.1.cls then Verdict.slowPath else l.1
    l.2.2.afterLookup k i v { o with x := l.2.1 }

/-- The counter of a delivery that finds no buffer, by its reason. -/
def refusedObj (reason : Nat) : Obj :=
  match reason with
  | 1 => Od.PORT_RX_KEEP_BAD_REFUSED
  | 2 => Od.PARSE_HOST_REFUSED
  | 3 => Od.PARSE_SLOW_PATH_REFUSED
  | _ => Od.CLASS_IN_HOST_REFUSED

end Sys2Proof.Machine
end

