-- ==== Sys2Proof/Machine/Egress.lean ====
section
/-! DEFINITION. What a copy meets on its way out: the egress lookup (R153 to R157), its tags and R-TAG (R89, R102, R231), the transit header (R418 to
R421), residence correction (R392 to R397), capture (R398, R399), IOAM (R401 to R403), and egress deliveries to the host (R155, R586). -/
namespace Sys2Proof.Machine

/-- What the egress lookup decides (R155, R157): an action (0 pass, 1 drop, 2 host, 3 copy to the host), the ring and reason of a delivery, the
descriptor after it, whether its action names a sampler. -/
structure Verd where
  act : Nat := 0
  ring : Nat := 0
  reason : Nat := 7
  x : Desc := {}
  sample : Bool := false
  deriving DecidableEq, Repr

/-- A frame that leaves without lookup, tag or rewrite: a relayed one (R426) or an answer of the dictionary (R574). -/
def Desc.asIs (x : Desc) : Bool := !x.transit.isEmpty || x.direct

/-- The egress lookup of a copy, without its counts; a frame as it is makes none (R426, R574). -/
def Dev.egressLook (d : Dev) (p : Nat) (x : Desc) : Verd :=
  if x.asIs then { x := x }
  else
    let bad := fun (o : Nat) =>
      let x := { x with outOutcome := o }
      match d.n Od.CLASS_POISON_ACTION p with
      | 0 => { act := 1, x := { x with outAction := 1 } }
      | 1 => { x := x }
      | _ => { act := 2, ring := d.n Od.PARSE_HOST_RING p, reason := 4, x := { x with outAction := 2 } }
    match d.lookup true p x.epoch x with
    | .hit rule a0 a1 =>
      let c := bits a0 63 60
      let x := { x.rewrite a0 with outOutcome := 0, outRule := rule, outAction := c }
      let x := if bit a1 43 then { x with sporeEn := true, spore := bits a1 42 27 } else x
      { act := c, ring := bits a0 15 12, reason := if c = 3 then 8 else 7, x := x, sample := bit a1 43 }
    | .noMatch => { x := { x with outOutcome := 1 } }
    | .fault => bad 2
    | .poison _ => bad 3

/-- The counts of an egress lookup (R157, R167, R173). -/
def Dev.egressCount (p : Nat) (x : Desc) (d : Dev) : Dev :=
  let d := d.drain x.epoch 1
  if x.asIs then d
  else match d.lookup true p x.epoch x with
    | .hit rule _ _ => d.ruleHit x.epoch rule x.rxLength
    | .noMatch => d.pair Od.CLASS_OUT_NO_MATCH p x.rxLength
    | .fault => d.pair Od.CLASS_OUT_FAULTS p x.rxLength
    | .poison line => (d.pair Od.CLASS_OUT_FAULTS p x.rxLength).treeHit (sorusOf p) x.epoch line

/-- Tags on a frame that leaves by a port, as its mode leaves them (R102). -/
def Dev.tagsOut (d : Dev) (p : Nat) (x : Desc) (bs : List Byte) : Nat :=
  let un := d.n Od.PORT_TX_UNTAGGED_VID p
  let c := if un ≠ 0 ∧ x.outerVid = un then 0 else 1
  match d.n Od.PORT_TX_TAG_MODE p with
  | 0 => (tagsOf (d.n Od.PORT_RX_TPID_S p) bs).1
  | 1 => 0
  | 2 => c
  | _ => 1 + c

/-- Steps 1 and 2 of R89 on the stored bytes, without the FCS; a frame as it is leaves as it came. -/
def Dev.outForm (d : Dev) (p : Nat) (x : Desc) (bs : List Byte) : List Byte :=
  if x.asIs then bs
  else
    let b := d.txTags p x bs
    let b := if x.seqValid && d.n Od.FRER_PORT_RTAG_MODE p == 0 then
        insertAt b (12 + 4 * d.tagsOut p x bs) ([0xF1, 0xC1, 0, 0] ++ bytesBE 2 x.seq) else b
    b ++ List.replicate (60 - b.length) 0

/-- Bytes of padding that such a frame takes (R101). -/
def Dev.padOut (d : Dev) (p : Nat) (x : Desc) (bs : List Byte) : Nat :=
  if x.asIs then 0 else 60 - ((d.txTags p x bs).length + (if x.seqValid && d.n Od.FRER_PORT_RTAG_MODE p == 0 then 6 else 0))

/-- The offset in the leaving frame of a layer parsed at an offset (R392): `stored` counts the stored bytes and the padding, `out` the leaving ones. -/
def layerOut (x : Desc) (stored out off : Nat) : Nat := if off < 12 then off else off - x.removed + out - stored

/-- The transit header of a copy that leaves by a trunk (R418, R421, R423, R426); e is its egress stamp. -/
def Dev.transitOut (p : Nat) (e : Nat) (x : Desc) (d : Dev) : List Byte × Dev :=
  if !d.matMode p then ([], d)
  else if !x.transit.isEmpty then (x.transit, d)
  else
    let b := fun (v : Bool) (n : Nat) => if v then 2 ^ n else 0
    let lost := x.noIngress || decide (25600000000 < (e + 2 ^ 72 - x.stamp) % 2 ^ 72)
    let c := if lost then (0, d) else d.convert (d.n Od.MAT_VIEW 0) x.stamp
    let arr := if lost then 0 else c.1 / 2 ^ 12 % 2 ^ 32
    (trBytes (2 ^ 108 + 2 ^ 104 + d.me * 2 ^ 101 + x.srcPort * 2 ^ 91 + x.finalDest * 2 ^ 71 + b x.preemptible 70 + x.cls * 2 ^ 67 + x.colour * 2 ^ 65 +
      b (x.epoch == 1) 64 + b x.seqValid 63 + b x.flooded 62 + b lost 61 + b x.relay 60 + x.seq * 2 ^ 32 + arr), c.2)

/-- The parameter set that will be in force at a raw value not before now (R368, R394): past the next boundary, the writes staged for it count, and holdover where it falls due there (R369,
R371). -/
def Dev.setAhead (k : Clk) (d : Dev) (v raw : Nat) : ViewSet :=
  let next := (k.raw + 64 * k.len) % 2 ^ 72
  let cur := d.viewSet v
  if 2 ^ 71 ≤ (raw + 2 ^ 72 - next) % 2 ^ 72 then cur
  else
    let ops := ((d.staged.filter fun s => s.tick == k.tick + 1).flatMap (·.ops)).filter fun o => o.idx == 0x6010 && o.inst == v
    let val := fun (o : WriteOp) => ofBytesLE o.data
    let base := { cur with from_ := next, anchor := next, offset := cur.offset + (((next : Int) - cur.anchor) % 2 ^ 72) * cur.inc }
    let last := fun (o : Obj) => ((ops.filter (·.sub == o.sub)).getLast?.map val).getD (d.n o v)
    let sub := last Od.TIME_VIEW_SET_SUB
    let a := last Od.TIME_VIEW_HOLDOVER_AFTER
    let h := last Od.TIME_VIEW_HOLDOVER_INCREMENT
    let lost := d.n Od.TIME_VIEW_STATE v == 1 && ((a != 0 && decide (d.n Od.TIME_VIEW_LAST_WRITE_TICK v + 2000000 * a ≤ k.tick + 1)) || d.isoDue.isSome)
    let base := if lost && h != 0 then { base with inc := h } else base
    ops.foldl (fun (s : ViewSet) o =>
      if o.sub = Od.TIME_VIEW_SET.sub then { s with offset := (time80Ns (val o) * 65536 + sub) * 2 ^ 32 }
      else if o.sub = Od.TIME_VIEW_STEP.sub then { s with offset := s.offset + toSigned 64 (val o) * 2 ^ 32 }
      else if o.sub = Od.TIME_VIEW_INCREMENT.sub then { s with inc := val o } else s) base

/-- A layer of a descriptor by its type: its place in the list and its offset. -/
def Desc.layer (x : Desc) (t : Nat) : Option (Nat × Nat) := (x.layers.zipIdx.find? fun l => l.1.1 == t).map fun l => (l.2, l.1.2)

/-- The PTP header of a leaving frame that meets conditions 2 to 4 of R392: its layer's place and its offset in the frame. -/
def Dev.ptpAt (d : Dev) (x : Desc) (stored : Nat) (bs : List Byte) : Option (Nat × Nat) :=
  match (if x.transit.isEmpty then x.layer (d.n Od.STAMP_PTP_LAYER 0) else none) with
  | some l =>
    let o := layerOut x stored bs.length l.2
    let b := fun i => (bs.getD (o + i) 0).toNat
    if b 1 % 16 = 2 ∧ bit (d.n Od.STAMP_TC_DOMAINS 0 (b 4 / 64)) (b 4 % 64) then some (l.1, o) else none
  | none => none

/-- The one's-complement update of a checksum for 16-bit words that change (RFC 1624, R395). -/
def rfc1624 (sum : Nat) (old new : List Nat) : Nat :=
  let fold := fun (n : Nat) => let n := n % 65536 + n / 65536; let n := n % 65536 + n / 65536; n
  let c := 65535 - fold ((65535 - sum) + ((old.zip new).map fun w => (65535 - w.1) + w.2).sum)
  if c = 0 then 65535 else c

/-- The residence a correction adds (R392, R394) in a receiving port's mode for a message type: none where it is not corrected. -/
def Dev.addFor (d : Dev) (src type : Nat) (r : Int) : Option Int :=
  match d.n Od.STAMP_PORT_TC_MODE src, type with
  | 1, 0 => some r
  | 1, 1 => some r
  | 2, 0 => some (r + d.get Od.STAMP_PORT_LINK_DELAY src)
  | _, _ => none

/-- The residence of a frame in 2⁻¹⁶ ns (R394). -/
def Dev.residenceOf (k : Clk) (d : Dev) (x : Desc) (e : Nat) : Int :=
  roundHalfEven ((((e : Int) - x.stamp) % 2 ^ 72) * (d.setAhead k (d.n Od.STAMP_TC_VIEW 0) e).inc) (2 ^ 32)

/-- Residence correction of a leaving frame (R392 to R397). -/
def Dev.correct (k : Clk) (p e stored : Nat) (x : Desc) (bs : List Byte) (d : Dev) : List Byte × Desc × Dev :=
  match d.ptpAt x stored bs with
  | none => (bs, x, d)
  | some l =>
    let x := { x with ptpEvent := true }
    let d := d.bump Od.STAMP_EVENT_COPIES p
    if x.noIngress then (bs, x, d.bump Od.STAMP_NO_INGRESS_EVENTS 0)
    else if d.n Od.STAMP_PORT_TC_MODE p = 0 ∨ d.matMode p ∨ x.outAction ≠ 0 then (bs, x, d)
    else
      let r := d.residenceOf k x e
      match d.addFor x.srcPort ((bs.getD l.2 0).toNat % 16) r with
      | none => (bs, x, d)
      | some add =>
        let ahead := x.layers.take l.1
        let grec := ahead.any fun y => y.1 == 13 && bit (bs.getD (layerOut x stored bs.length y.2) 0).toNat 7
        if grec || ahead.any (fun y => y.1 == 12 || decide (18 ≤ y.1)) then (bs, x, d.bump Od.STAMP_CHECKSUM_UNSUPPORTED 0)
        else
          let old := ofBytesBE (sliceZ bs (l.2 + 8) 8)
          let c := toSigned 64 old + add
          let sat := decide (2 ^ 63 - 1 < c) || old == 2 ^ 63 - 1 || decide (c < -(2 ^ 63))
          let c := if 2 ^ 63 - 1 < c ∨ old = 2 ^ 63 - 1 then 2 ^ 63 - 1 else if c < -(2 ^ 63) then -(2 ^ 63) else c
          let new := ofSigned 64 c
          let w := fun (v : Nat) => (List.range 4).map fun i => v / 2 ^ (16 * (3 - i)) % 65536
          let bs := patch bs (l.2 + 8) (bytesBE 8 new)
          let bs := (ahead.filter (·.1 == 11)).foldl (fun b y =>
            let o := layerOut x stored bs.length y.2 + 6
            let s := be16 b o
            if s = 0 ∨ old = new then b else patch b o (bytesBE 2 (rfc1624 s (w old) (w new)))) bs
          let d := (d.bump Od.STAMP_CORRECTED 0).when sat fun d => d.bump Od.STAMP_SATURATED 0
          (bs, { x with corrected := true, residence := r },
            d.when (decide ((d.n Od.STAMP_LONG_RESIDENCE 0 * 65536 : Nat) < r)) fun d => d.bump Od.STAMP_LONG_RESIDENCE_COUNT 0)

/-- The words of IOAM node data for a trace type (R402). -/
def Dev.ioamWords (k : Clk) (p e depth hop type : Nat) (x : Desc) (d : Dev) : List Nat × Dev :=
  let c := if x.noIngress then (0, d) else d.convert (d.n Od.STAMP_IOAM_VIEW 0) x.stamp
  let ones := 0xFFFFFFFF
  let delay := d.residenceOf k x e / 65536
  let word := fun (b : Nat) => match b with
    | 0 => hop * 2 ^ 24 + d.n Od.STAMP_IOAM_NODE_ID 0
    | 1 => x.srcPort * 65536 + p
    | 2 => if x.noIngress then ones else c.1 / 65536 / 1000000000 % 2 ^ 32
    | 3 => if x.noIngress then ones else c.1 / 65536 % 1000000000
    | 4 => if x.noIngress then ones else if 2 ^ 31 - 1 < delay then ones else delay.toNat
    | 6 => min depth ones
    | _ => ones
  (((List.range 12 ++ [22]).filter fun b => bit type (23 - b)).map word, c.2)

/-- IOAM node data (R401 to R403). -/
def Dev.ioam (k : Clk) (p e stored depth : Nat) (x : Desc) (bs : List Byte) (d : Dev) : List Byte × Desc × Dev :=
  match (if d.on Od.STAMP_PORT_IOAM_ENABLE p && x.transit.isEmpty then x.layer (d.n Od.STAMP_IOAM_LAYER 0) else none) with
  | none => (bs, x, d)
  | some l =>
    let o := layerOut x stored bs.length l.2
    let b := fun i => (bs.getD (o + i) 0).toNat
    let ns := be16 bs (o + 6)
    if b 2 ≠ 0x31 ∨ b 3 < 10 ∨ b 5 ≠ 0 ∨ !(d.elems Od.STAMP_IOAM_NAMESPACES 0 4).contains (65536 + ns) then (bs, x, d)
    else
      let h := be16 bs (o + 8)
      let nodeLen := bits h 15 11
      let left := bits h 6 0
      let hop := match ((x.layers.take l.1).reverse).find? (·.1 == 6) with
        | some y => (bs.getD (layerOut x stored bs.length y.2 + 7) 0).toNat
        | none => 0
      let w := d.ioamWords k p e depth hop (ofBytesBE (sliceZ bs (o + 10) 3)) x
      if w.1.length ≠ nodeLen then (bs, x, d.bump Od.STAMP_IOAM_BAD_LENGTH 0)
      else if left < nodeLen then (patch bs (o + 8) (bytesBE 2 (setBit h 10)), x, d.bump Od.STAMP_IOAM_OVERFLOW 0)
      else
        let bs := patch bs (o + 14 + 4 * (left - nodeLen)) (w.1.flatMap (bytesBE 4))
        (patch bs (o + 8) (bytesBE 2 (h - nodeLen)), { x with ioamWritten := true }, w.2.bump Od.STAMP_IOAM_WRITTEN 0)

/-- A capture of the egress stamp (R398): its record, which joins the FIFO as the clock ends (R399). -/
def Dev.stampCapture (k : Clk) (p e stored : Nat) (x : Desc) (bs : List Byte) (d : Dev) : Dev :=
  let host := x.injected && x.tag.isSome
  if !(host || (d.on Od.STAMP_PORT_TWO_STEP_CAPTURE p && x.ptpEvent)) then d
  else
    let u := (d.setAhead k (d.n Od.STAMP_TC_VIEW 0) e).at e
    let o := match d.ptpAt x stored bs with | some l => l.2 | none => 0
    let b := fun i => (bs.getD (o + i) 0).toNat
    let ptp := if x.ptpEvent then [BitVec.ofNat 8 (b 0 % 16), BitVec.ofNat 8 (b 4)] ++ bytesLE 2 (be16 bs (o + 30)) else [0, 0, 0, 0]
    let r := bytesLE 9 e ++ [BitVec.ofNat 8 (1 + flagAt host 1 + flagAt x.ptpEvent 2 + flagAt x.corrected 3)] ++ bytesLE 2 p ++ ptp ++
      bytesLE 6 (u / 65536 / 1000000000) ++ bytesLE 4 (u / 65536 % 1000000000) ++ bytesLE 2 (u % 65536) ++ bytesLE 4 (x.tag.getD 0)
    { d with now := { d.now with caps := d.now.caps ++ [r] } }

/-- The captures of a clock join the FIFO, after a read of it in that clock (R399). -/
def Dev.capJoin (d : Dev) : Dev :=
  d.each d.now.caps fun d r =>
    if 4096 ≤ d.capFifo.length then d.bump Od.STAMP_CAPTURE_LOST 0
    else ({ d with capFifo := d.capFifo ++ [r] }.put Od.STAMP_CAPTURE_COUNT 0 (d.capFifo.length + 1)).when d.capFifo.isEmpty (Dev.cause 34)

/-- A read of STAMP.CAPTURE.NEXT: the oldest record, removed (R399). -/
def Dev.captureNext (d : Dev) : List Byte × Dev :=
  match d.capFifo with
  | r :: t => (r, { d with capFifo := t }.put Od.STAMP_CAPTURE_COUNT 0 t.length)
  | [] => (List.replicate 32 0, d)

/-- The delivery of a copy to a host ring, its frame whole (R155, R586); a copy in place of transmission then releases its reference (R262). Poison of a cell goes with
its bytes into the buffer (R455). -/
def Dev.hostCopy (k : Clk) (t : TxCopy) (d : Dev) : Dev :=
  match d.frame t.copy.fr with
  | none => d
  | some f =>
    let bs := d.outForm t.port t.desc f.stored
    let v : Deliv := { handle := 0, ring := t.ring, reason := t.reason, egress := true, queue := t.copy.queue, port := t.port, fid := f.shown
                       copyIndex := t.copy.index, copies := t.copy.copies, admitTick := t.copy.admitTick, desc := t.desc }
    let q := d.deliver v bs.length
    let shift := bs.length - f.stored.length
    let bad := f.poisoned.flatMap fun i => (List.range 33).map fun w => (256 * i + shift) / 8 + w
    let d := match q.1 with
      | some h => (q.2.delivered h bs t.desc).updBuf h fun b => { b with poisoned := bad }
      | none => q.2.pair Od.CLASS_IN_HOST_REFUSED t.desc.srcPort t.desc.rxLength
    if t.path = 2 then d.release k (ownerOf t.copy.queue) t.copy.fr else d

/-- Copies of a frame that waited for its tail go to their rings. -/
def Dev.hostCopies (k : Clk) (id : Nat) (d : Dev) : Dev :=
  let l := d.tx.filter fun t => decide (2 ≤ t.path) && t.copy.fr == id
  { d with tx := d.tx.filter fun t => !(decide (2 ≤ t.path) && t.copy.fr == id) }.each l fun d t => d.hostCopy k t

end Sys2Proof.Machine
end

