-- ==== Sys2Proof/Machine/State.lean ====
section
/-! DEFINITION. The state of the machine, the reasons a step can stop, the state after reset, and the forms a meaning takes. -/
namespace Sys2Proof.Machine

/-- Why a step stops with a fault. -/
inductive Fault where
  /-- A command names an address beyond the 64 GiB of HBM (R5, R37): raised by REFILL_COMPLETE and HBM_CORRECTION_COLLECT. Safe: nothing is stored there. -/
  | noSuchAddress
  deriving DecidableEq, Repr

/-- Why a step has no meaning. -/
inductive Refusal where
  /-- The command is not modelled: raised by Dispatch alone. Safe: nothing is claimed of it. -/
  | notModelled (mnemonic : String)
  deriving DecidableEq, Repr

/-- The machine: commands waiting, first in first out; the timebase; HBM; the device. -/
structure State where
  pending : List Instr := []
  clk : Clk := {}
  mem : Memory := []
  dev : Dev := {}
  deriving DecidableEq, Repr

/-- The machine right after a power-on reset begins: every object at its default, tick 0, raw counter 0, HBM empty, the device STARTING
(R603, R616); START_UP takes it to RUN. -/
def State.reset : State := {}

/-- Every die but the crust stands still (R640, R652): only the crust's own work and the resets take place. -/
def State.halted (s : State) : Bool := s.dev.on Rg.HALT 0

/-- The device before a command: nothing has left it yet in this step. -/
def Dev.silent (d : Dev) : Dev := { d with out := [] }

/-- The state as nothing but the passing of a command leaves it. -/
def State.quiet (s : State) : State := { s with dev := s.dev.silent }

/-- The work of the crust, which goes on while the other dies stand still. -/
def State.runCrust (s : State) (f : Clk → Dev → Dev) : Host.Outcome State Fault Refusal :=
  .next { s with dev := f s.clk s.dev.silent }

/-- A meaning that acts on the device alone, at the clock's instant; the findings of its clock enter the logs at its end (R464). -/
def State.run (s : State) (f : Clk → Dev → Dev) : Host.Outcome State Fault Refusal :=
  if s.halted then .next s.quiet else s.runCrust f

/-- The same where the units the command names exist; what happens at no unit of the device changes nothing in it (log entry 20). -/
def State.runIf (s : State) (ok : Bool) (f : Clk → Dev → Dev) : Host.Outcome State Fault Refusal :=
  if ok then s.run f else .next s.quiet

/-- A meaning that acts on HBM and the device. -/
def State.runM (s : State) (ok : Bool) (f : Clk → Memory → Dev → Memory × Dev) : Host.Outcome State Fault Refusal :=
  if s.halted || !ok then .next s.quiet
  else
    let r := f s.clk s.mem s.dev.silent
    .next { s with mem := r.1, dev := r.2 }

/-- A meaning that acts on the timebase, HBM and the device. -/
def State.runAll (s : State) (f : Clk → Memory → Dev → Clk × Memory × Dev) : Host.Outcome State Fault Refusal :=
  let r := f s.clk s.mem s.dev.silent
  .next { s with clk := r.1, mem := r.2.1, dev := r.2.2 }

end Sys2Proof.Machine
end

