-- ==== Sys2Proof/Machine/Clock.lean ====
section
/-! DEFINITION. The end of a clock (what the clock's arbiters have gathered takes its effect, R50, R51, R184, R109, R250, R263, R277, R281), and the commands whose
contenders the device orders within one clock: a command that comes late for the clock now open takes the next (log entry 33). -/
namespace Sys2Proof.Machine

/-- The clock of k ends. -/
def Dev.clockEnd (k : Clk) (d : Dev) : Dev :=
  let rk := d.rk k
  let d := ((((((d.updJoin k).jjoin k).macFlush k).capJoin.namesJoin rk).bankWaits k).flowTests k).spillArrivals rk
  let ps : List Nat := d.insts Od.FAB_SPILL_STATE ++ (d.copies.filter fun c => decide (c.queue < 16384)).map fun c => c.queue / 16
  ((((d.refillIssue rk 5 0).each ps.dedup fun d p => d.spillState p).freeRecords.settle k).faultsJoin k).renew

/-- Something waits for a clock of its own: a frame of a MAC, a refill, a spilled frame that still arrives. -/
def Dev.busy (d : Dev) : Bool := !d.ctl.isEmpty || !d.plan.isEmpty || d.frames.any fun f => f.spilled && !f.complete

/-- The n clocks from k on end, in turn. -/
def Dev.clocks : Nat → Clk → Dev → Dev
  | 0, _, d => d
  | n + 1, k, d => Dev.clocks n { k with c := k.c + 1 } (d.clockEnd k)

/-- The clocks left of the tick of k end. -/
def Dev.tickClocks (k : Clk) (d : Dev) : Dev :=
  let d := d.clockEnd k
  if d.busy then d.clocks (k.len - (k.c + 1)) { k with c := k.c + 1 }
  else if k.c + 1 < k.len then d.clockEnd { k with c := k.len - 1 } else d

/-- The clock passes, within a tick: at its last clock the block waits for the boundary, and without its timebase for the start (R640, R652). -/
def State.pass (s : State) : State :=
  if s.halted || decide (s.clk.len ≤ s.clk.c + 1) then s
  else { s with clk := { s.clk with c := s.clk.c + 1 }, dev := s.dev.clockEnd s.clk }

/-- A meaning acts on HBM and the device after what has left the device in this step already. -/
def State.act (s : State) (f : Clk → Memory → Dev → Memory × Dev) : State :=
  let r := f s.clk s.mem s.dev
  { s with mem := r.1, dev := r.2 }

/-- A meaning of a command that the order of its clock's contenders may put into the next clock; at a tick's last clock it must come again. -/
def State.inTurn (s : State) (ok : Bool) (late : Clk → Dev → Bool) (f : Clk → Memory → Dev → Memory × Dev) : Host.Outcome State Fault Refusal :=
  if s.halted || !ok then .next s.quiet
  else if !late s.clk s.dev then .next (s.quiet.act f)
  else if s.clk.c + 1 < s.clk.len then .next (s.quiet.pass.act f)
  else .next s.quiet

/-- A request at an entry of the dictionary engine: of one clock the window's first, then MGMT0's, MGMT1's and those in-band (R33). One that comes late for its clock
is accepted in the next, or last of all in a tick's last clock. -/
def State.request (s : State) (entry : Nat) (f : Clk → Memory → Dev → Dev) : Host.Outcome State Fault Refusal :=
  let e := min entry 3
  let g := fun (k : Clk) (m : Memory) (d : Dev) =>
    let d := f k m d
    (m, { d with now := { d.now with entry := max d.now.entry e } })
  if s.halted then .next s.quiet
  else .next ((if e < s.dev.now.entry then s.quiet.pass else s.quiet).act g)

end Sys2Proof.Machine
end

