-- ==== Sys2Proof/Machine/Shed.lean ====
section
/-! DEFINITION. The commands of lane shedding (R73 to R84). -/
namespace Sys2Proof.Machine

/-- R76: HELLO every 2,000,000 ticks on a shedding-enabled UP port. -/
def execShedHelloSend (p : Nat) (st : State) : Host.Outcome State Fault Refusal :=
  st.runIf (okPort p) fun k d =>
    if d.on Od.PORT_SHED_ENABLE p ∧ d.link p = lkUP ∧ (d.n Rg.HELLO_SENT p = 0 ∨ d.n Rg.HELLO_SENT p + 1999999 ≤ k.tick) then
      (d.put Rg.HELLO_SENT p (k.tick + 1)).macSend k (d.shedFrame p 1 0 0 0)
    else d

/-- R76: no matching HELLO for 6,000,000 ticks. -/
def execPeerCapableTimeout (p : Nat) (st : State) : Host.Outcome State Fault Refusal :=
  st.runIf (okPort p) fun k d =>
    if d.n Rg.HELLO_SEEN p + 5999999 ≤ k.tick then d.put Od.PORT_SHED_PEER_CAPABLE p 0 else d

/-- R76: a valid HELLO of the port's own width makes the peer capable from the next boundary. -/
def Dev.rxHello (k : Clk) (p width : Nat) (d : Dev) : Dev :=
    if d.receives p && width == d.portWidth p then (d.put Rg.HELLO_SEEN p (k.tick + 1)).later (.peerCapable p 1) else d

/-- The same as a command. -/
def execShedHelloReceived (p width : Nat) (st : State) : Host.Outcome State Fault Refusal :=
  st.runIf (okPort p) fun k d => d.rxHello k p width

/-- The restore window that ends asks for twice the lanes (R77). -/
def restoreWanted (k : Clk) (d : Dev) (p : Nat) : Bool :=
  decide (d.n Rg.RESTORE_START p + d.n Od.PORT_SHED_RESTORE_WINDOW p ≤ k.tick ∧ d.n Od.PORT_ACTIVE_LANES p < d.portWidth p ∧
    d.n Od.PORT_SHED_ABOVE p * (d.n Od.PORT_ACTIVE_LANES p * d.portLane p * d.n Od.PORT_SHED_RESTORE_WINDOW p) <
      max (d.n Rg.RESTORE_RX p) (d.n Rg.RESTORE_TX p) * 1000)

/-- R77, R85: the end of a shed window. A restore due at the same boundary is made in its place (R78). -/
def execShedWindowEnd (p : Nat) (st : State) : Host.Outcome State Fault Refusal :=
  st.runIf (okPort p) fun k d =>
    let w := d.n Od.PORT_SHED_WINDOW p
    let n := d.n Od.PORT_ACTIVE_LANES p
    if d.n Rg.SHED_START p + w ≤ k.tick ∧ 0 < n then
      let load := max (d.n Rg.SHED_RX p) (d.n Rg.SHED_TX p)
      let d1 := (((d.put Od.PORT_SHED_LOAD p (load * 1000 / (d.portWidth p * d.portLane p * w))).put Rg.SHED_START p k.tick).put
        Rg.SHED_RX p 0).put Rg.SHED_TX p 0
      let idle := d1.n Rg.REQ_TYPE p == 0 && d1.n Rg.CHG_PHASE p == 0 && decide (d1.n Rg.SHED_AFTER p ≤ k.tick)
      let restoring := restoreWanted k d p || d.dues.contains (.restoreNow p)
      let half := n / 2 * d.portLane p * w
      let want := d1.link p == lkUP && d1.canShed p && decide (d1.n Od.PORT_SHED_MIN_LANES p < n) &&
        decide (load * 1000 < d1.n Od.PORT_SHED_BELOW p * half) && !restoring
      if idle && d1.link p == lkPARKED then d1.parkAsk k p
      else if want && idle then
        if (d1.operList p).hasGap 4000 then d1.request k p 2 (n / 2) else d1.bump Od.PORT_SHED_BLOCKED p
      else d1
    else d

/-- R77: the end of a restore window. -/
def execRestoreWindowEnd (p : Nat) (st : State) : Host.Outcome State Fault Refusal :=
  st.runIf (okPort p) fun k d =>
    if d.n Rg.RESTORE_START p + d.n Od.PORT_SHED_RESTORE_WINDOW p ≤ k.tick then
      let want := restoreWanted k d p && d.link p == lkUP && d.n Rg.REQ_TYPE p == 0 && d.n Rg.CHG_PHASE p == 0
      let d := (d.put Rg.LAST_TX p (d.n Rg.RESTORE_TX p)).put Rg.RESTORE_START p k.tick
      let d := (d.put Rg.RESTORE_RX p 0).put Rg.RESTORE_TX p 0
      if want then d.request k p 2 (2 * d.n Od.PORT_ACTIVE_LANES p) else d
    else d

/-- R80: a REQUEST is answered at the next boundary; one that crosses our own is its ACCEPT, or the larger target proceeds. -/
def Dev.rxRequest (_k : Clk) (p target seq : Nat) (d : Dev) : Dev :=
    if d.receives p then
      if d.on Rg.REQ_TYPE p then
        if d.n Rg.REQ_TARGET p = target then (d.put Rg.REQ_TYPE p 0).later (.shedAgree p target)
        else if d.n Rg.REQ_TARGET p < target then (d.put Rg.REQ_TYPE p 0).later (.shedAnswer p 2 target seq)
        else d
      else d.later (.shedAnswer p 2 target seq)
    else d

/-- The same as a command. -/
def execShedRequestReceived (p target seq : Nat) (st : State) : Host.Outcome State Fault Refusal :=
  st.runIf (okPort p) fun k d => d.rxRequest k p target seq

/-- R80: a RESTORE_NOW is always accepted, at the next boundary. -/
def Dev.rxRestoreNow (_k : Clk) (p target seq : Nat) (d : Dev) : Dev :=
    if d.receives p then (if d.n Rg.REQ_TARGET p < target then d.put Rg.REQ_TYPE p 0 else d).later (.shedAnswer p 6 target seq) else d

/-- The same as a command. -/
def execRestoreNowReceived (p target seq : Nat) (st : State) : Host.Outcome State Fault Refusal :=
  st.runIf (okPort p) fun k d => d.rxRestoreNow k p target seq

/-- R81: an ACCEPT of the outstanding request agrees the change from the next boundary. -/
def Dev.rxAccept (_k : Clk) (p target seq : Nat) (d : Dev) : Dev :=
    if d.on Rg.REQ_TYPE p && d.n Rg.REQ_SEQ p == seq && d.n Rg.REQ_TARGET p == target then
      (d.put Rg.REQ_TYPE p 0).later (.shedAgree p target)
    else d

/-- The same as a command. -/
def execShedAcceptReceived (p target seq : Nat) (st : State) : Host.Outcome State Fault Refusal :=
  st.runIf (okPort p) fun k d => d.rxAccept k p target seq

/-- R80: a REFUSE ends the request and is counted. -/
def Dev.rxRefuse (_k : Clk) (p seq : Nat) (d : Dev) : Dev :=
    if d.on Rg.REQ_TYPE p && d.n Rg.REQ_SEQ p == seq then (d.put Rg.REQ_TYPE p 0).bump Od.PORT_SHED_REFUSED p else d

/-- The same as a command. -/
def execShedRefuseReceived (p seq _reason : Nat) (st : State) : Host.Outcome State Fault Refusal :=
  st.runIf (okPort p) fun k d => d.rxRefuse k p seq

/-- R81: the receiver switches to the new lane count. -/
def Dev.rxSwitched (_k : Clk) (p count : Nat) (d : Dev) : Dev := if d.receives p then d.put Rg.RX_LANES p count else d

/-- The same as a command. -/
def execShedSwitchedReceived (p count : Nat) (st : State) : Host.Outcome State Fault Refusal :=
  st.runIf (okPort p) fun k d => d.rxSwitched k p count

/-- R74: a shedding frame with a bad FCS or version is discarded and counted. -/
def Dev.rxBadShed (p : Nat) (d : Dev) : Dev := d.bump Od.PORT_SHED_BAD_FRAMES p

/-- The same as a command. -/
def execShedBadFrame (p : Nat) (st : State) : Host.Outcome State Fault Refusal :=
  st.runIf (okPort p) fun _ d => if d.receives p then d.rxBadShed p else d

/-- A shedding frame as received (R74): bad when its FCS or version is. -/
def Dev.shedRx (k : Clk) (p : Nat) (bs : List Byte) (good : Bool) (d : Dev) : Dev :=
  let b := fun i => (bs.getD i 0).toNat
  if !good || b 14 / 16 != 1 then d.rxBadShed p
  else match b 14 % 16 with
    | 1 => d.rxHello k p (b 16)
    | 2 => d.rxRequest k p (b 18) (b 15)
    | 3 => d.rxAccept k p (b 18) (b 15)
    | 4 => d.rxRefuse k p (b 15)
    | 5 => d.rxSwitched k p (b 18)
    | 6 => d.rxRestoreNow k p (b 18) (b 15)
    | _ => d

/-- R80: without an answer for 2,000 ticks the request is sent again, up to three times; then a shed is abandoned and a restore takes the
port down. -/
def execShedRequestTimeout (p : Nat) (st : State) : Host.Outcome State Fault Refusal :=
  st.runIf (okPort p) fun k d =>
    if d.on Rg.REQ_TYPE p ∧ d.n Rg.REQ_TICK p + 2000 ≤ k.tick then
      if d.n Rg.REQ_TRIES p ≤ 3 then
        ((d.put Rg.REQ_TICK p k.tick).put Rg.REQ_TRIES p (d.n Rg.REQ_TRIES p + 1)).macSend k
          (d.shedFrame p (d.n Rg.REQ_TYPE p) (d.n Rg.REQ_SEQ p) (d.n Rg.REQ_TARGET p) 0)
      else if d.n Od.PORT_ACTIVE_LANES p < d.n Rg.REQ_TARGET p then (d.put Rg.REQ_TYPE p 0).later (.portDown p)
      else ((d.put Rg.REQ_TYPE p 0).bump Od.PORT_SHED_REFUSED p).put Rg.SHED_AFTER p (k.tick + d.n Od.PORT_SHED_WINDOW p)
    else d

/-- R82: the added lanes have woken for 32 ticks; the hold follows. -/
def execLaneWakeEnd (p : Nat) (st : State) : Host.Outcome State Fault Refusal :=
  st.runIf (okPort p) fun k d =>
    if d.n Rg.CHG_PHASE p = 2 ∧ d.n Rg.CHG_TICK p + 32 ≤ k.tick then d.put Rg.CHG_PHASE p 1 else d

/-- R81, R83: the hold begins once no frame is in transmission; a shed hold lies in a gap, a restore hold in the first gap that holds it, or in the last
before a list without one takes over, or, where the list has none, over an open window. SWITCHED is the last frame on the old count. -/
def execChangeoverHoldStart (p : Nat) (st : State) : Host.Outcome State Fault Refusal :=
  st.runIf (okPort p) fun k d =>
    let restore := decide (d.n Od.PORT_ACTIVE_LANES p < d.n Rg.CHG_TARGET p)
    let none4 := !(d.operList p).hasGap 4000
    let gap := d.inGap k p 4000 && !(restore && d.laterGap k p)
    if d.n Rg.CHG_PHASE p = 1 ∧ d.receives p ∧ (d.tx.all fun t => t.port != p || decide (1 < t.path)) ∧ (gap ∨ (restore ∧ none4)) then
      let d := d.when (restore && none4) fun d => d.bump Od.PORT_SHED_GATE_OVERLAPS p
      let d := d.macSend k (d.shedFrame p 5 0 (d.n Rg.CHG_TARGET p) 0)
      let d := (d.put Rg.CHG_PHASE p 3).put Rg.CHG_TICK p k.tick
      if d.link p = lkUP then d.setLink k p lkCHANGEOVER else d
    else d

/-- R81, R84: after eight ticks the new count applies to transmitter, receiver and scheduler; a target above the port's width is its whole
width (log entry 19). -/
def execChangeoverHoldEnd (p : Nat) (st : State) : Host.Outcome State Fault Refusal :=
  st.runIf (okPort p) fun k d =>
    if d.n Rg.CHG_PHASE p = 3 ∧ d.receives p ∧ d.n Rg.CHG_TICK p + 8 ≤ k.tick then
      let n := min (d.n Rg.CHG_TARGET p) (d.portWidth p)
      let d := if d.n Od.PORT_ACTIVE_LANES p < n then d.bump Od.PORT_SHED_RESTORES p else d.bump Od.PORT_SHED_SHEDS p
      let d := ((d.put Od.PORT_ACTIVE_LANES p n).put Rg.RX_LANES p n).put Rg.CHG_PHASE p 0
      let d := (d.setLanes p n 2).setLanes (p + n) (d.portWidth p - n) 3
      let d := d.setLink k p (if d.on Od.PORT_PARK p then lkPARKED else lkUP)
      ((d.put Rg.WAKING p 0).windows k p).parkAsk k p
    else d

end Sys2Proof.Machine
end

