-- ==== Sys2Proof/Machine/FrameOps.lean ====
section
/-! DEFINITION. Frames at the MAC (R88 to R98, R103, R420 to R424): reception, hand-off, end, tail check, injected frames, and what their ends bring to
the fabric (R249, R258), the host (R98, R134, R137, R154), the journal (R514 to R516) and slot accounting (R485). -/
namespace Sys2Proof.Machine

/-- A frame in the list of the MAC, by its place there. -/
def Dev.setRx (d : Dev) (i : Nat) (f : RxFrame) : Dev := { d with rx := d.rx.set i f }

/-- A frame leaves the list. -/
def Dev.dropRx (d : Dev) (i : Nat) : Dev := { d with rx := d.rx.eraseIdx i }

/-- The frame's bytes as received, the transit header in place. -/
def RxFrame.wire (f : RxFrame) : List Byte := if f.transit.isEmpty then f.bytes else insertAt f.bytes 12 ([0x88, 0xB6] ++ f.transit)

/-- The bytes the MAC passes on (R93): without the FCS, of a giant the first MTU − 4. -/
def RxFrame.body (f : RxFrame) : List Byte := f.bytes.take (min f.bytes.length f.mtu - 4)

/-- The frame is handed over only at its end (R92, R93); one whose reassembly fails is never handed over (R113). -/
def RxFrame.whole (f : RxFrame) : Bool := decide (f.bytes.length ≤ 256) || f.keepBad || decide (f.mtu < 256) || bit f.errs 6

/-- A frame of the MAC waits for its pipeline (R92): its first 256 bytes are in, or it has ended. -/
def RxFrame.ready (f : RxFrame) : Bool := f.kind == 0 && (f.phase == 2 || (f.phase == 0 && !f.whole))

/-- A clock of a pipeline's ingress half goes to a count of R485 and, when WASTED, to its cause: elements of SLOT.COUNTS. -/
def Dev.slot (pipe : Nat) (es : List Nat) (n : Nat) (d : Dev) : Dev :=
  (d.each es fun d e => d.bump Od.SLOT_COUNTS pipe n e).put Rg.SLOT_USED pipe (d.n Rg.SLOT_USED pipe + n)

/-- A pipeline's ingress half accepts no packet (R184, R539, R542, R605, R606, R618). -/
def Dev.pipeHeld (k : Clk) (d : Dev) (pipe : Nat) : Bool :=
  !d.sorusRuns (pipe / 8) || [Rg.HOLD_FLUSH, Rg.HOLD_STALL, Rg.HOLD_BANK, Rg.HOLD_PULSE].any fun o => decide (k.clock < d.n o pipe)

/-- The clock from which a frame has waited at the MAC of a pipeline, none where no frame waits (R485). -/
def Dev.waiting (d : Dev) (pipe : Nat) : Option Nat :=
  let l := (d.rx.filter fun f => f.ready && f.port / 16 == pipe).map (·.entry)
  match l with
  | [] => if d.inject.any fun j => j.port / 16 == pipe then some 0 else none
  | a :: t => some (t.foldl min a)

/-- The clocks of a pipeline's holds up to now go to their counts, in the order of R485: a flush, an epoch stall, a bank's wait, a pulse while a frame waits. -/
def Dev.holdCount (k : Clk) (d : Dev) (pipe : Nat) : Dev :=
  let now := k.clock
  let a := d.n Rg.HOLD_FROM pipe
  let e := fun (o : Obj) => min now (d.n o pipe)
  let a1 := max a (e Rg.HOLD_FLUSH)
  let a2 := max a1 (e Rg.HOLD_STALL)
  let a3 := max a2 (e Rg.HOLD_BANK)
  let n4 := match d.waiting pipe with | some r => e Rg.HOLD_PULSE - max a3 r | none => 0
  let holds := [Rg.HOLD_FLUSH, Rg.HOLD_STALL, Rg.HOLD_BANK, Rg.HOLD_PULSE]
  if now ≤ a ∨ holds.all fun o => d.n o pipe == 0 then d
  else
    let d := ((d.slot pipe [2, 6] (a1 - a)).slot pipe [2, 7] (a2 - a1)).slot pipe [2, 8] (a3 - a2)
    let d := (d.slot pipe [4] n4).put Rg.HOLD_FROM pipe now
    d.each holds fun d o => if d.n o pipe ≤ now then d.put o pipe 0 else d

/-- A pipeline is held until a clock by a flush, a stall or a pulse. -/
def Dev.hold (k : Clk) (o : Obj) (pipe until_ : Nat) (d : Dev) : Dev :=
  let d := d.holdCount k pipe
  (d.put Rg.HOLD_FROM pipe (max k.clock (d.n Rg.HOLD_FROM pipe))).put o pipe (max until_ (d.n o pipe))

/-- An R-TAG recognised (R230): its sequence number. -/
def rtag (tags : Nat) (bs : List Byte) : Option Nat :=
  let o := 12 + 4 * tags
  if be16 bs o = 0xF1C1 ∧ o + 6 ≤ bs.length then some (be16 bs (o + 4)) else none

/-- The stored form (R101, R230, R239): an R-TAG of the first pass and the stripped tags removed. -/
def storedForm (x : Desc) (bs : List Byte) : List Byte :=
  let b := if (rtag x.tagCount bs).isSome then cut bs (12 + 4 * x.tagCount) 6 else bs
  cut b 12 (4 * x.tagsStripped)

/-- The sequence number of a recognised R-TAG joins the descriptor (R230), with the bytes that the stored form leaves out ahead of the layers. -/
def Desc.tagged (x : Desc) (bs : List Byte) : Desc :=
  match rtag x.tagCount bs with
  | some s => { x with seqValid := true, seq := s, removed := 4 * x.tagsStripped + 6 }
  | none => { x with removed := 4 * x.tagsStripped }

/-- The first 128 bytes the journal keeps reach as far as this offset without a transit header (R516). -/
def deepLimit (mat : Bool) : Nat := if mat then 110 else 128

/-- The settings R121 captures at hand-off. -/
def Dev.captured (f : RxFrame) (d : Dev) : RxFrame :=
  { f with malAction := d.n Od.PARSE_MALFORMED_ACTION f.port, hostRing := d.n Od.PARSE_HOST_RING f.port
           slowRing := d.n Od.PARSE_SLOW_PATH_RING f.port }

/-- The MAC hands a frame over (R92): its settings and its walk are those of this clock, whenever it enters its pipeline (R121). Its length is known where it is
handed over at its end (R120). -/
def Dev.handed (f : RxFrame) (d : Dev) : RxFrame :=
  if f.walk.isSome then f
  else
    let known := f.phase == 2 && f.whole
    { d.captured f with
      walk := some (d.parse (if known then f.body else f.bytes) f.port (d.n Od.PARSE_START_LAYER f.port) known (f.bytes.length - 4)) }

/-- A trunk frame's class exceeds its credit on arrival (R290): counted, with its event. -/
def Dev.overrun (k : Clk) (p c : Nat) (d : Dev) : Bool × Dev :=
  let lim := d.n Od.FAB_CREDIT_CELLS p c + cellsOf (d.n Od.PORT_MTU p - 4)
  if lim < d.ingress p c then
    (true, (d.bump Od.FAB_CREDIT_OVERRUNS 0).event k 0x0A03 p ((d.ingress p c - lim : Nat) : Int) [BitVec.ofNat 8 c])
  else (false, d)

/-- The descriptor of a DATA frame from its transit header (R422, R424). -/
def Dev.matDesc (k : Clk) (h : List Byte) (x : Desc) (d : Dev) : Desc × Dev :=
  let lost := trField h 77 77 == 1
  ({ x with
      fromMat := true, matDevice := trField h 119 117, matPort := trField h 116 107, finalDest := trField h 106 87
      preemptible := trField h 86 86 == 1, cls := trField h 85 83, colour := trField h 82 81, seqValid := trField h 79 79 == 1
      flooded := trField h 78 78 == 1, seq := trField h 63 48, noIngress := lost
      stamp := if lost then 0 else d.trStamp k (trField h 47 16) },
    d.when lost fun d => d.bump Od.MAT_STAMP_LOST 0)

/-- A frame reaches its port's MAC (R88 steps 1 to 6): its place among the MAC's frames is the last. A parked port takes shedding frames (R85; DESIGN CHOICE, log
entry 26), and drops the rest after step 3. Fragments while PORT.PREEMPT.ENABLE is 0 are no frames (DESIGN CHOICE, log entry 29); a frame that lacks its transit
header is only counted (DESIGN CHOICE, log entry 31). A fragment counts the frame's bytes it brings (DESIGN CHOICE, log entry 27). -/
def Dev.receive (k : Clk) (p : Nat) (express : List Byte) (frags : List Fragment) (codeError fecError : Bool) (sub : Nat) (d : Dev) : Dev :=
  let pre := !frags.isEmpty
  if !d.receives p || (pre && !d.on Od.PORT_PREEMPT_ENABLE p) || d.rx.any (fun f => f.port == p && f.pre == pre && decide (f.phase < 2)) then d
  else
    let raw := if pre then frags.flatMap (·.bytes) else express
    let stamp := d.rxStamp k p sub
    let m := d.meet k raw.length (d.faultEntries k p 0) {}
    let d := m.2
    if m.1.drop then d
    else
      let bs := m.1.apply raw
      let d := d.each frags fun d f => d.pair Od.PORT_PREEMPT_RX_FRAGMENTS p f.bytes.length
      let errs := (if codeError then 16 else 0) + (if fecError then 8 else 0) + (if assembled frags then 0 else 64)
      let d := d.wakeTest p bs
      let et := be16 bs 12
      let f : RxFrame := { port := p, pre := pre, entry := k.clock, bytes := bs, errs := errs, keepBad := d.on Od.PORT_KEEP_BAD p, mtu := d.n Od.PORT_MTU p }
      let len := min bs.length 16383
      let x : Desc := { stamp := stamp, rxPreemptible := pre, rxLength := len }
      let ended := fun (d : Dev) => d.rxLoad p bs.length
      if et = 0x88B5 then { d with rx := d.rx ++ [{ f with kind := 2, desc := d.macDesc p bs x }] }
      else if d.link p = lkPARKED then ended (d.bump Od.PORT_PARKED_DROPS p)
      else if et = 0x8808 then { d with rx := d.rx ++ [{ f with kind := 1, desc := d.macDesc p bs x }] }
      else if d.maint then ended (d.bump Od.REPLAY_RX_DISCARDED 0)
      else if d.matMode p then
        let h := sliceZ bs 14 16
        if et ≠ 0x88B6 then ended (d.pair Od.PORT_RX_NO_TRANSIT p bs.length)
        else if bs.length < 30 ∨ !trOk h then ended ((d.pair Od.PORT_RX_NO_TRANSIT p bs.length).bump Od.MAT_BAD_HEADER 0)
        else
          let b := cut bs 12 18
          let x := d.macDesc p b { x with rxLength := min b.length 16383 }
          let f := { f with bytes := b, transit := h }
          let r := d.matDesc k h (x.tagged b)
          if trField h 123 120 ≠ 1 then { d with rx := d.rx ++ [{ f with kind := 3, desc := { r.1 with stamp := x.stamp, noIngress := false } }] }
          else
            let c := trField h 85 83
            let o := if r.2.creditClass p c then r.2.overrun k p c else (true, r.2)
            { o.2 with rx := o.2.rx ++ [{ f with desc := r.1, credit := !o.1, creditCls := if o.2.creditClass p c then c else 8 }] }
      else
        let x := d.macDesc p bs x
        let x := { x.tagged bs with cls := d.n Od.PORT_PFC_CLASS_MAP p x.outerPcp }
        { d with rx := d.rx ++ [{ f with desc := x }] }

/-- A frame found bad after hand-off is marked and counted once (R258). -/
def Dev.tailMark (id : Nat) (d : Dev) : Dev :=
  match d.frame id with
  | some f => if f.tailMark then d else (d.updFrame id fun f => { f with tailMark := true }).pair Od.FAB_PORT_TAIL_MARKED f.srcPort f.rxLength
  | none => d

/-- The descriptors made from a frame change together. -/
def Dev.updDesc (id : Nat) (g : Desc → Desc) (d : Dev) : Dev :=
  { d with
    copies := d.copies.map fun (c : Copy) => if c.fr == id then { c with desc := g c.desc } else c
    tx := d.tx.map fun (t : TxCopy) => if t.copy.fr == id then { t with desc := g t.desc } else t
    jobs := d.jobs.map fun (j : CapJob) => if j.fr == id then { j with desc := g j.desc } else j }

/-- At most n planned reads of a frame stay in the refill plan. -/
def Dev.trimPlan (id n : Nat) (d : Dev) : Dev :=
  { d with plan := (d.plan.foldl (fun (r : List Nat × Nat) i => if i ≠ id then (r.1 ++ [i], r.2) else if r.2 < n then (r.1 ++ [i], r.2 + 1) else r) ([], 0)).1 }

/-- The tail of a stored frame arrives (R249, R258): what its reservation loses is free from the next clock. -/
def Dev.tailIn (k : Clk) (id errs : Nat) (d : Dev) : Dev :=
  match d.frame id with
  | some f =>
    let n := cellsOf f.stored.length
    let freed := d.now.freed + (if f.spilled then 0 else f.reserved - n)
    let d := ({ d with now := { d.now with freed := freed } } : Dev).updFrame id fun f => { f with complete := true, reserved := n }
    let d := if errs = 0 then d else (d.tailMark id).updDesc id fun x => { x with rxError := errs }
    ((d.spillIn k id).trimPlan id (n - f.issued)).settleQuarantine
  | none => d

/-- One delivery to the host at a frame's end (R134, R137, R154, R586). -/
def Dev.hostDelivery (p len : Nat) (bs : List Byte) (x : Desc) (r : Nat × Nat) (d : Dev) : Dev :=
  let q := d.deliver { handle := 0, ring := r.1, reason := r.2, desc := x } bs.length
  let d := match q.1 with
    | some h => (q.2.delivered h bs x).when (r.2 == 3) fun d => d.pair Od.PARSE_SLOW_PATH p len
    | none => q.2.pair (refusedObj r.2) p (if r.2 = 2 ∨ r.2 = 3 then len else x.rxLength)
  if r.2 = 6 then d else d.drain x.epoch 1

/-- What a frame that has ended brings to the host and the dictionary engine; its credit returns where no record holds it (R154, R286, R574). -/
def Dev.atEnd (f : RxFrame) (d : Dev) : Dev :=
  let x := { f.desc with rxError := f.errs }
  let d := d.each f.host fun d r => d.hostDelivery f.port f.bytes.length f.body x r
  let d := if f.mgmt then { (d.drain x.epoch 1) with mgmtIn := d.mgmtIn ++ [(f.port, f.body, x.layers)] } else d
  if f.fr.isNone && decide (f.creditCls < 8) && (f.mgmt || f.host.any fun r => r.2 != 6) then d.grant f.port f.creditCls x.rxLength else d

/-- A bad frame on a KEEP_BAD port goes to the host (R98). -/
def Dev.keepBadDelivery (p : Nat) (f : RxFrame) (errs : Nat) (d : Dev) : Dev :=
  if f.bytes.length < 14 then d
  else
    let all := f.wire
    let cutShort := decide (16384 < all.length)
    let bs := all.take 16384
    let x := { f.desc with rxError := errs + (if cutShort then 128 else 0), epoch := d.n Od.CLASS_EPOCH 0 }
    let q := d.deliver { handle := 0, ring := d.n Od.PORT_KEEP_BAD_RING p, reason := 1, desc := x } bs.length
    match q.1 with
    | some h => (q.2.delivered h bs x).pair Od.PORT_RX_KEEP_BAD_DELIVERED p all.length
    | none => q.2.pair Od.PORT_RX_KEEP_BAD_REFUSED p all.length

/-- The flags of R96 of a frame at its end: sizes without the transit header (R103), the FCS over every byte received. -/
def RxFrame.endErrors (f : RxFrame) : Nat :=
  let n := f.bytes.length
  let fcs := fcsCheck f.wire
  f.errs ||| ((if n < 64 then 1 else 0) + (if f.mtu < n then 2 else 0) + (if fcs = 1 then 4 else 0) + (if fcs = 2 then 32 else 0))

/-- The journal's record of a frame (R515). -/
def RxFrame.jframe (f : RxFrame) (k : Clk) (errs : Nat) (known deep : Bool) (draw : Option Nat) : JFrame :=
  { stamp := f.desc.stamp, noIngress := f.desc.noIngress, known := known, deep := deep, draw := draw, port := f.port, tick := k.tick, clock := k.c
    rxLength := f.desc.rxLength, rxError := errs }

/-- The grants of a credit frame (R287, R288): G of each credit-controlled class. -/
def Dev.creditFrame (k : Clk) (p : Nat) (grants : List Nat) (d : Dev) : Dev :=
  let d := d.each ((List.range 8).filter fun c => d.creditClass p c) fun d c => d.put Rg.CREDIT_G p (grants.getD c 0) c
  (d.bump Od.FAB_CREDIT_FRAMES 0).jflow k p 2 ((((List.range 8).filter fun c => d.creditClass p c).map fun c => 2 ^ c).sum) 0 grants

/-- A frame of the mat engine, whole and right (R420, R427, R445); a time request or response bears the stamp of its arrival. -/
def Dev.matEngine (k : Clk) (f : RxFrame) (d : Dev) : Dev :=
  let b := f.body.drop 12
  let p := f.port
  match trField f.transit 123 120 with
  | 2 => d.creditFrame k p ((List.range 8).map fun i => ofBytesBE (sliceZ b (4 * i) 4))
  | 3 => d.matMessage k 0 b
  | 4 => d.timeReq k p f.desc.stamp (ofBytesBE (sliceZ b 0 4))
  | _ => d.timeResp k f.desc.stamp (ofBytesBE (sliceZ b 24 4)) (viewOf (sliceZ b 0 12)) (viewOf (sliceZ b 12 12))

/-- The end of a frame the MAC consumes (R88 step 4, R104, R74, R420). A shedding frame whose FCS alone fails is counted in PORT.SHED.BAD_FRAMES (R74), under
KEEP_BAD too (DESIGN CHOICE, log entry 30); one with an earlier flag of R97 in that flag's counter. -/
def Dev.consume (k : Clk) (f : RxFrame) (errs : Nat) (d : Dev) : Dev :=
  let p := f.port
  let n := f.wire.length
  if errs ≠ 0 then
    let fcsOnly := (errCounters.find? fun x => bit errs x.1).any fun x => x.1 == 2 || x.1 == 5
    let d := if f.kind = 2 ∧ fcsOnly then d.rxBadShed p else d.countError p errs n
    d.when f.keepBad fun d => d.keepBadDelivery p f errs
  else match f.kind with
    | 1 => d.macControl k p f.bytes
    | 2 => d.shedRx k p f.bytes true
    | _ => (d.pair Od.PORT_RX_GOOD p n).matEngine k f

/-- A frame's end (R88 step 8, R91 to R98, R135, R249, R258): the frame stands at place i. -/
def Dev.frameEnd (k : Clk) (i : Nat) (f : RxFrame) (d : Dev) : Dev :=
  let p := f.port
  let n := f.wire.length
  let errs := if f.desc.replay then f.errs else f.endErrors
  let d := if f.desc.replay then d else if f.kind = 2 then d.winRx p n else d.rxLoad p n
  if f.kind ≠ 0 then (d.dropRx i).consume k f errs
  else
    let d := if errs = 0 then d.pair Od.PORT_RX_GOOD p n else d.countError p errs n
    let f := { f with errs := errs }
    if f.phase = 1 then
      let d := (match f.fr with | some id => d.tailIn k id errs | none => d).jend f.jid errs (k.clock - f.entry)
      d.setRx i { f with phase := 3 }
    else if errs ≠ 0 ∧ f.whole then
      let d := (d.dropRx i).when f.keepBad fun d => d.keepBadDelivery p f errs
      let d := d.when (decide (f.creditCls < 8)) fun d => d.grant p f.creditCls f.desc.rxLength
      if d.journalled p then (d.jframe (f.jframe (d.rk k) errs true false none) true f.wire).2 else d
    else d.setRx i (d.handed { f with phase := 2, entry := k.clock })

/-- The tail check of R135 for the frame at place i, in the clock of its end; what the frame brings to the host follows it. -/
def Dev.tailCheck (k : Clk) (i : Nat) (f : RxFrame) (d : Dev) : Dev :=
  let d := d.dropRx i
  let r := if f.desc.malformed then 0 else tailReason f.spans f.lastEnd (f.bytes.length - 4)
  let late := fun (x : Desc) => { x with malformed := true, malformedLate := true, malformedReason := r }
  let d := if r = 0 then d
    else
      let d := (d.pair Od.PARSE_MALFORMED_LATE f.port f.bytes.length).countMalformed f.port f.bytes.length r
      match f.fr with
      | some id => (d.updDesc id late).when (f.malAction != 1) (Dev.tailMark id)
      | none => d
  let d := match f.fr with | some id => d.hostCopies k id | none => d
  d.atEnd (if r = 0 then f else { f with desc := late f.desc })

/-- A relay sends a frame on to another member's trunk unchanged (R426). -/
def Dev.relay (k : Clk) (a : Arriving) (f : RxFrame) (d : Dev) : Admitted × Dev :=
  let t := d.takeEpoch { f.desc with transit := f.transit }
  match t.2.pickPort t.1 (t.2.trunkActive (bits t.1.finalDest 12 10)) with
  | some p => (t.2.bump Od.MAT_RELAYED 0).admitTo k { a with stored := f.body } t.1 [(t.1.queueAt p, { port := p })]
  | none => ({}, (t.2.bump Od.MAT_UNREACHABLE 0).gone a t.1)

/-- The end of a frame handed over at 256 bytes reaches the MAC by the clock of its admission (R254): by its port's rate; in a replay by its record. -/
def Dev.soon (f : RxFrame) (d : Dev) : Bool :=
  if f.desc.replay then decide (f.tail ≤ stageClocks)
  else d.portRate f.port != 0 && decide (ceilDiv ((f.bytes.length - 256) * 6400) (d.portRate f.port) ≤ stageClocks)

/-- The hand-off of the frame at place i, with all that its pass through the ingress half brings (R92, R119 to R254): a frame that would be marked bad by the clock
of its admission is not admitted (R254); a finding of R135 on a frame that has ended stands before its lookup. -/
def Dev.handOffOut (k : Clk) (i : Nat) (f : RxFrame) (d : Dev) : PipeOut × Dev :=
  let p := f.port
  let done := f.phase == 2
  let known := done && f.whole
  let f := d.handed f
  let w := f.walk.getD {}
  let st := storedForm f.desc f.body
  let late := if w.mal = 0 ∧ !known then tailReason w.spans w.lastEnd (f.bytes.length - 4) else 0
  let marked := (if done || f.desc.replay then f.errs else f.endErrors) != 0 || (late != 0 && f.malAction != 1)
  let a : Arriving :=
    { stored := st, complete := done, head := min st.length (256 - f.desc.removed), mtu := f.mtu, rIn := d.portRate p, credit := f.credit
      creditCls := f.creditCls, bad := marked && (done || d.soon f) }
  let rk := d.rk k
  let relayed := f.desc.fromMat && trField f.transit 76 76 == 1 && bits f.desc.finalDest 19 18 == 3 && bits f.desc.finalDest 12 10 != d.me
  let skew := f.desc.fromMat && trField f.transit 80 80 != d.n Od.CLASS_EPOCH 0
  let d := (d.slot (pipeOf p) [1] 1).when skew fun d => d.bump Od.MAT_EPOCH_SKEW 0
  let j := d.journalled p
  let o : PipeOut × Dev :=
    if relayed then let r := d.relay rk a f; ({ x := f.desc, fr := r.1.fr }, r.2)
    else d.pipe rk { x := f.desc, w := w, len := f.bytes.length, late := if done then late else 0, malAction := f.malAction, hostRing := f.hostRing
                     slowRing := f.slowRing, arr := a, journalled := j }
  let d := o.2
  let deep := decide (deepLimit f.desc.fromMat < o.1.w.read)
  let jr := if j && !f.desc.replay then d.jframe (f.jframe rk f.errs known deep o.1.draw) done f.wire else (0, d)
  let f := { f with desc := o.1.x, spans := o.1.w.spans, lastEnd := o.1.w.lastEnd, fr := o.1.fr, host := o.1.host, mgmt := o.1.mgmt
                    jid := jr.1, entry := k.clock }
  let d := jr.2
  let d : Dev := { d with now := { d.now with turn := rotation rk (pipeOf p) 64 + 1 } }
  (o.1,
    if done then
      if known then (d.atEnd f).dropRx i else d.setRx i { f with phase := 3 }
    else d.setRx i { f with phase := 1 })

/-- The device after a hand-off. -/
def Dev.handOff (k : Clk) (i : Nat) (f : RxFrame) (d : Dev) : Dev := (d.handOffOut k i f).2

/-- The first frame of a port's MAC that a test picks, with its place. -/
def Dev.findRx (d : Dev) (t : RxFrame → Bool) : Option (Nat × RxFrame) :=
  (d.rx.zipIdx.find? fun x => t x.1).map fun x => (x.2, x.1)

/-- An injected frame enters its pipeline (R591): its buffer is adopted. -/
def Dev.injectEntry (k : Clk) (j : Inject) (d : Dev) : Dev :=
  let p := j.port
  let owner := 8 + j.ring
  let d := { d with inject := d.inject.erase j, now := { d.now with turn := rotation k (pipeOf p) 64 + 1 } }
  let d := (d.slot (pipeOf p) [1] 1).bump Od.HOST_RING_INJECTED j.ring
  let chk := d.bufCheck j.handle owner
  let own := chk.1 == 0
  let d := if own then (match d.buf j.handle with | some b => d.dropBuf b | none => d) else d.bufRefuse k j.handle owner chk.1 chk.2
  let x := d.macDesc p j.bytes { rxLength := j.bytes.length + 4, injected := true, noIngress := true, tag := j.tag }
  let x := { x.tagged j.bytes with cls := j.cls, preemptible := j.pre }
  let f := d.captured { port := p, bytes := j.bytes ++ [0, 0, 0, 0], desc := x, mtu := 16384 }
  let w := d.parse j.bytes p (d.n Od.PARSE_START_LAYER p) true j.bytes.length
  let a : Arriving := { stored := storedForm x j.bytes, complete := true, mtu := d.n Od.PORT_MTU p, rIn := d.portRate p }
  let d := if own then
      let o := d.pipe k { x := x, w := w, len := f.bytes.length, malAction := f.malAction, hostRing := f.hostRing, slowRing := f.slowRing, arr := a
                          dest := j.dest, journalled := d.on Od.JOURNAL_INJECTED 0 }
      let d := if o.2.on Od.JOURNAL_INJECTED 0 then
          (o.2.jframe { (f.jframe k 0 true (decide (128 < o.1.w.read)) o.1.draw) with
            injected := true, preClass := j.cls + (if j.pre then 8 else 0) } true j.bytes).2
        else o.2
      d.atEnd { f with desc := o.1.x, fr := o.1.fr, host := o.1.host, mgmt := o.1.mgmt }
    else d
  match d.hcmds.find? fun c => c.ring == j.ring && c.sq == j.sq && c.phase == 3 with
  | some c => d.endCmd k c 0
  | none => d

end Sys2Proof.Machine
end

