-- ==== Sys2Proof/Machine/PerturbOps.lean ====
section
/-! DEFINITION. The perturbation engine's pulses, stalls and return to normal (R536 to R550). -/
namespace Sys2Proof.Machine

/-- What writing PERTURB.ENABLE 0 or CLEAR 1 lifts: release clocks, pulses, stalls (R546). -/
def Dev.perturbLift (k : Clk) (d : Dev) : Dev :=
  let d : Dev := { d with copies := d.copies.map fun (c : Copy) => { c with release := 0 } }
  let d := d.each (List.range 64) (Dev.holdCount k)
  d.each [Rg.HOLD_STALL, Rg.HOLD_PULSE, Rg.PORT_PULSE, Rg.PULSE_UNIT, Rg.PULSE_UNTIL] Dev.clearObj

/-- The objects of the perturbation engine's entries (R548 to R551) and PERTURB.ENABLE, which a clear returns to their defaults;
LOCK stays (R536, R546). -/
def perturbObjs : List Obj := Od.all.filter fun o => decide (0x9800 ≤ o.idx ∧ o.idx ≤ 0x98FF) && o.acc == .rw && !(o.idx == 0x9800 && o.sub == 2)

/-- A write of PERTURB.CLEAR 1 (R546). -/
def Dev.perturbClear (k : Clk) (d : Dev) : Dev := (d.each perturbObjs Dev.clearObj).perturbLift k

/-- A pulse of an entry starts in the tick now open (R539). -/
def Dev.pulseDue (k : Clk) (e : Nat) (d : Dev) : Bool :=
  let s := d.n Od.PERTURB_PULSE_START_TICK e
  let p := d.n Od.PERTURB_PULSE_PERIOD e
  d.window k s (d.n Od.PERTURB_PULSE_TICKS e) && (if p = 0 then k.tick == s else (k.tick - s) % p == 0)

/-- A pulse starts (R539): its pipeline or port is held for LENGTH clocks; the clocks of a pipeline count as starved at its back (R485). -/
def Dev.pulseStart (k : Clk) (e : Nat) (d : Dev) : Dev :=
  let u := d.n Od.PERTURB_PULSE_UNIT e
  let end_ := k.clock + d.n Od.PERTURB_PULSE_LENGTH e
  let port := d.n Od.PERTURB_PULSE_TARGET e == 1
  let d := (d.put Rg.PULSE_UNIT e ((if port then 65536 else 0) + u + 1)).put Rg.PULSE_UNTIL e end_
  if port then d.put Rg.PORT_PULSE u (max end_ (d.n Rg.PORT_PULSE u)) else d.hold k Rg.HOLD_PULSE u end_

/-- A pulse's length has passed (R539): its unit goes on unless another pulse still holds it. -/
def Dev.pulseEnd (k : Clk) (e : Nat) (d : Dev) : Dev :=
  if d.on Rg.PULSE_UNIT e && decide (d.n Rg.PULSE_UNTIL e ≤ k.clock) then
    let u := d.n Rg.PULSE_UNIT e - 1
    let d := if u < 65536 then d.holdCount k u else d
    (d.clearInst Rg.PULSE_UNIT e).clearInst Rg.PULSE_UNTIL e else d

/-- An epoch stall begins (R542): at clock 0 of an active tick, or of one opened by a swap. -/
def Dev.stallDue (k : Clk) (e : Nat) (d : Dev) : Bool :=
  d.window k (d.n Od.PERTURB_STALL_START_TICK e) (d.n Od.PERTURB_STALL_TICKS e) &&
    (d.n Od.PERTURB_STALL_TRIGGER e == 0 || (k.tick != 0 && d.n Od.CLASS_SWAP_TICK 0 == k.tick))

/-- The pipelines a stall names are held (R542). -/
def Dev.stallStart (k : Clk) (e : Nat) (d : Dev) : Dev :=
  let end_ := k.clock + d.n Od.PERTURB_STALL_LENGTH e
  d.each ((List.range 64).filter (bit (d.n Od.PERTURB_STALL_PIPELINES e))) fun d p => d.hold k Rg.HOLD_STALL p end_

end Sys2Proof.Machine
end

