-- ==== Sys2Proof/Machine/EmOps.lean ====
section
/-! DEFINITION. Work on the exact-match table besides lookups: command batches (R200 to R204), learning (R191 to R193), the sweeper (R197 to
R199), the shadow (R206 to R209). -/
namespace Sys2Proof.Machine

/-- The hit and clear-seen bits of an entry as the changes of this tick leave them (R189): the latest one that sets the bit decides. -/
def Dev.emHitNow (d : Dev) (pos : Nat) : Nat :=
  match d.emPend.reverse.find? fun c => c.pos == pos && c.hit != 2 with | some c => c.hit | none => d.emWord pos 2
def Dev.emSeenNow (d : Dev) (pos : Nat) : Nat :=
  match d.emPend.reverse.find? fun c => c.pos == pos && c.seen != 2 with | some c => c.seen | none => d.emWord pos 3

/-- Valid, readable positions as the changes of this tick leave them, rising. -/
def Dev.emValidNow (d : Dev) : List Nat :=
  let more := (d.emPend.map (·.pos)).filter fun p => !bit (d.emWord p 0) 63
  sortBy (fun (a b : Nat) => decide (a ≤ b)) ((d.emValid ++ more).dedup.filter fun p => bit (d.emKey p) 63 && !d.emBadNow p)

/-- The readable way that holds a key (R201), as the changes of this tick leave the bucket. -/
def Dev.emWay (d : Dev) (key : Nat) : Option Nat :=
  (ways (d.emBase key)).find? fun p => !d.emBadNow p && bit (d.emKey p) 63 && sameKey (d.emKey p) key

/-- A key's bucket holds a poisoned way. -/
def Dev.emBucketBad (d : Dev) (key : Nat) : Bool := (ways (d.emBase key)).any d.emBadNow

/-- A record of the batch (R200). -/
def Dev.batchRec (d : Dev) (i : Nat) : List Byte := (List.range 48).map fun j => BitVec.ofNat 8 (d.n Od.EM_CMD_BATCH 0 (48 * i + j))

/-- Bytes of a record are written back. -/
def Dev.batchPut (i off : Nat) (bs : List Byte) (d : Dev) : Dev :=
  d.each bs.zipIdx fun d x => d.put Od.EM_CMD_BATCH 0 x.1.toNat (48 * i + off + x.2)

/-- A key meets R176. -/
def keyOk (key : Nat) : Bool :=
  match bits key 62 61 with
  | 1 => true
  | 2 => bits key 59 32 == 0
  | 3 => bits key 59 16 == 0
  | _ => false

/-- A result meets R156 (R176). -/
def resultOk (res : Nat) : Bool := !bit res 43 || destOk (bits res 63 44)

/-- A change by a command (R188). -/
def Dev.cmdChange (k : Clk) (c : EmChange) (d : Dev) : Dev := d.emChange k 1 c

/-- What a record finds: its status, then the device with what it wrote back (R201, R202). -/
def Dev.emFound (i pos : Nat) (words : Bool) (d : Dev) : Nat × Dev :=
  let d := d.batchPut i 36 (bytesLE 4 pos)
  if words then
    (1, (d.batchPut i 0 (bytesLE 8 (d.emKey pos) ++ bytesLE 8 (d.emResult pos))).batchPut i 35 [BitVec.ofNat 8 (d.emHitNow pos + 2 * d.emSeenNow pos)])
  else (1, d)

/-- INSERT (R201). -/
def Dev.emInsert (k : Clk) (i : Nat) (key res : Nat) (at_ : Bool) (d : Dev) : Nat × Dev :=
  if at_ || !keyOk key || !resultOk res then (6, d)
  else if (d.emWay key).isSome then (3, d)
  else if d.emBucketBad key then (7, d)
  else match (ways (d.emBase key)).find? d.emFree with
    | some p => (d.cmdChange k { pos := p, key := setBit key 63, result := res }).emFound i p false
    | none => (4, d)

/-- DELETE (R201). -/
def Dev.emDelete (k : Clk) (i : Nat) (key res pos : Nat) (at_ : Bool) (d : Dev) : Nat × Dev :=
  if !resultOk res then (6, d)
  else if at_ then
    if 4194304 ≤ pos then (6, d) else (d.cmdChange k { pos := pos, key := 0, result := 0 }).emFound i pos false
  else if !keyOk key then (6, d)
  else match d.emWay key with
    | some p => (d.cmdChange k { pos := p, key := 0, result := 0 }).emFound i p false
    | none => (if d.emBucketBad key then 7 else 2, d)

/-- READ (R201). -/
def Dev.emRead (i : Nat) (key res pos : Nat) (at_ : Bool) (d : Dev) : Nat × Dev :=
  if !resultOk res then (6, d)
  else if at_ then (if 4194304 ≤ pos then (6, d) else if d.emBadNow pos then (7, d) else d.emFound i pos true)
  else if !keyOk key then (6, d)
  else match d.emWay key with
    | some p => d.emFound i p true
    | none => (if d.emBucketBad key then 7 else 2, d)

/-- REPLACE (R201). -/
def Dev.emReplace (k : Clk) (i : Nat) (key res pos : Nat) (at_ : Bool) (d : Dev) : Nat × Dev :=
  if !keyOk key || !resultOk res then (6, d)
  else if at_ then
    let other := match d.emWay key with | some p => p != pos | none => false
    if 4194304 ≤ pos || pos / 8 * 8 != d.emBase key || other then (6, d)
    else (d.cmdChange k { pos := pos, key := setBit key 63, result := res }).emFound i pos false
  else match d.emWay key with
    | some p =>
      let kw := d.emKey p
      (d.cmdChange k { pos := p, key := if bit key 60 then setBit kw 60 else clearBit kw 60, result := res, hit := 2 }).emFound i p false
    | none => (if d.emBucketBad key then 7 else 2, d)

/-- An entry matches under the masks of SEARCH and FLUSH (R201). -/
def Dev.emMatches (d : Dev) (key res km rm : Nat) (p : Nat) : Bool := (d.emKey p &&& km) == (key &&& km) && (d.emResult p &&& rm) == (res &&& rm)

/-- The entries of a bucket that a SEARCH or FLUSH matches, as its visit finds them (R201): valid and readable, lowest first. -/
def Dev.scanHits (op key res km rm pos : Nat) (statics : Bool) (d : Dev) (base : Nat) : List Nat :=
  (ways base).filter fun p =>
    bit (d.emKey p) 63 && !d.emBadNow p && d.emMatches key res km rm p &&
      (if op = 5 then decide (pos ≤ p) else bits (d.emKey p) 62 61 == bits key 62 61 && (statics || !bit (d.emKey p) 60))

/-- The visit of a bucket with these matches (R201): a SEARCH keeps the lowest one, a FLUSH removes them. -/
def Dev.scanVisit (k : Clk) (op : Nat) (l : List Nat) (d : Dev) : Dev :=
  if op = 6 then (d.each l fun d p => d.cmdChange k { pos := p, key := 0, result := 0 }).put Rg.EM_REMOVED 0 (d.n Rg.EM_REMOVED 0 + l.length)
  else match l with
    | [] => d
    | p :: _ =>
      if d.n Rg.EM_BEST 0 ≠ 0 ∧ d.n Rg.EM_BEST 0 ≤ p + 1 then d
      else (((d.put Rg.EM_BEST 0 (p + 1)).put Rg.EM_BEST_KEY 0 (d.emKey p)).put Rg.EM_BEST_RESULT 0 (d.emResult p)).put Rg.EM_BEST_BITS 0
        (d.emHitNow p + 2 * d.emSeenNow p)

/-- A bank's scan goes on through its occupied buckets, rising, from bucket c with g slots: one slot a bucket, one more where a FLUSH changes it. -/
def Dev.scanWalk (k : Clk) (op : Nat) (hits : Dev → Nat → List Nat) (b : Nat) : List Nat → Nat → Nat → Dev → Nat × Nat × Dev
  | [], c, g, d => (min 2048 (c + g), g - (2048 - c), d)
  | x :: t, c, g, d =>
    if c + g ≤ x then (c + g, 0, d)
    else
      let l := hits d (b * 16384 + 8 * x)
      let cost := if op = 6 ∧ l ≠ [] then 2 else 1
      if c + g < x + cost then (x, 0, d) else Dev.scanWalk k op hits b t (x + 1) (c + g - x - cost) (d.scanVisit k op l)

/-- The scan of a SEARCH or FLUSH goes on in every bank with the slots of its grant (R201); whether it has visited every bucket. -/
def Dev.scanGo (k : Clk) (op : Nat) (hits : Dev → Nat → List Nat) (d : Dev) : Bool × Dev :=
  let valid := d.emValidNow
  let d := d.each (List.range 256) fun d b =>
    let c := d.n Rg.EM_SCAN b
    let g := d.emGrant k 0 - d.n Rg.EM_SPENT b
    if 2048 ≤ c ∨ g = 0 ∨ d.on Rg.EM_SERVED b then d
    else
      let occ := ((valid.filter fun p => p / 16384 == b && decide (c ≤ p % 16384 / 8)).map fun p => p % 16384 / 8).dedup
      let r := Dev.scanWalk k op hits b occ c g d
      (r.2.2.put Rg.EM_SCAN b r.1).put Rg.EM_SPENT b (d.emGrant k 0 - r.2.1)
  ((List.range 256).all fun b => d.n Rg.EM_SCAN b == 2048, d)

/-- A scan is over: nothing of it is kept. -/
def Dev.scanEnd (d : Dev) : Dev :=
  d.each [Rg.EM_SCAN, Rg.EM_BEST, Rg.EM_BEST_KEY, Rg.EM_BEST_RESULT, Rg.EM_BEST_BITS, Rg.EM_REMOVED] Dev.clearObj

/-- Fields that a SEARCH or FLUSH refuses (R174, R176): no key type, an unlisted bit of the key set, a bad destination, or no such position. -/
def scanBad (key res pos : Nat) : Bool := !keyOk key || !resultOk res || decide (4194304 ≤ pos)

/-- SEARCH (R201): a step of its scan; none while it goes on. -/
def Dev.emSearch (k : Clk) (i : Nat) (key res km rm pos : Nat) (d : Dev) : Option Nat × Dev :=
  if scanBad key res pos then (some 6, d)
  else
    let r := d.scanGo k 5 (Dev.scanHits 5 key res km rm pos false)
    if !r.1 then (none, r.2)
    else
      let d := r.2
      let p := d.n Rg.EM_BEST 0
      if p = 0 then (some 2, d.scanEnd)
      else
        let e := ((d.batchPut i 0 (bytesLE 8 (d.n Rg.EM_BEST_KEY 0) ++ bytesLE 8 (d.n Rg.EM_BEST_RESULT 0))).batchPut i 35
          [BitVec.ofNat 8 (d.n Rg.EM_BEST_BITS 0)]).batchPut i 36 (bytesLE 4 (p - 1))
        (some 1, e.scanEnd)

/-- FLUSH (R201): a step of its scan; none while it goes on. -/
def Dev.emFlush (k : Clk) (i : Nat) (key res km rm : Nat) (statics : Bool) (d : Dev) : Option Nat × Dev :=
  if scanBad key res 0 then (some 6, d)
  else
    let r := d.scanGo k 6 (Dev.scanHits 6 key res km rm 0 statics)
    if !r.1 then (none, r.2) else (some 1, (r.2.batchPut i 40 (bytesLE 4 (r.2.n Rg.EM_REMOVED 0))).scanEnd)

/-- A record completes with a status (R202, R204): its change is visible from the next tick on. -/
def Dev.batchDone (k : Clk) (i : Nat) (r : Nat × Dev) : Dev :=
  let d := (r.2.batchPut i 34 [BitVec.ofNat 8 r.1]).put Rg.EM_NEXT 0 (i + 1)
  let d := (d.put Od.EM_CMD_STATUS 0 (d.n Od.EM_CMD_STATUS 0 1 + 1) 1).put Rg.EM_CHANGED 0 (k.tick + 1)
  d.when (r.1 != 1) fun d => d.put Od.EM_CMD_STATUS 0 (d.n Od.EM_CMD_STATUS 0 2 + 1) 2

/-- Records of an unlisted opcode complete as the batch reaches them (R201). -/
def Dev.batchSkip (k : Clk) : Nat → Dev → Dev
  | 0, d => d
  | n + 1, d =>
    let i := d.n Rg.EM_NEXT 0
    let op := ((d.batchRec i).getD 32 0).toNat
    if d.n Od.EM_CMD_STATUS 0 0 = 1 ∧ i < d.n Rg.EM_RUN 0 ∧ (op = 0 ∨ 7 ≤ op) then Dev.batchSkip k n (Dev.batchDone k i (5, d)) else d

/-- Fields of a record (R200). -/
def recKey (r : List Byte) : Nat := ofBytesLE (sliceZ r 0 8)
def recResult (r : List Byte) : Nat := ofBytesLE (sliceZ r 8 8)
def recKeyMask (r : List Byte) : Nat := ofBytesLE (sliceZ r 16 8)
def recResultMask (r : List Byte) : Nat := ofBytesLE (sliceZ r 24 8)
def recAt (r : List Byte) : Bool := bit (r.getD 33 0).toNat 0
def recPos (r : List Byte) : Nat := ofBytesLE (sliceZ r 36 4)

/-- The bank that a record of one entry touches and the slots it costs there (R201); none for a record that no bank sees: it is refused for its fields. -/
def Dev.recCost (d : Dev) (op : Nat) (r : List Byte) : Option (Nat × Nat) :=
  let bad := !keyOk (recKey r) || !resultOk (recResult r)
  let slots := if op = 3 then 1 else 2
  if recAt r then (if op = 1 ∨ 4194304 ≤ recPos r ∨ !resultOk (recResult r) ∨ (op = 4 ∧ bad) then none else some (recPos r / 16384, slots))
  else if bad then none
  else some (d.emBase (recKey r) / 16384, slots)

/-- The next record of the batch is the running batch's and has opcode op. -/
def Dev.batchAt (op : Nat) (d : Dev) : Bool :=
  let i := d.n Rg.EM_NEXT 0
  d.n Od.EM_CMD_STATUS 0 0 == 1 && decide (i < d.n Rg.EM_RUN 0) && ((d.batchRec i).getD 32 0).toNat == op

/-- The next record of the batch is carried out when its opcode is op and its bank has slots left (R201, R204): commands are served before learning and the
sweeper (R46, R189), so once either has changed a bank in a tick its command slots of that tick are past. -/
def Dev.batchRun (k : Clk) (op : Nat) (f : Nat → List Byte → Dev → Nat × Dev) (d : Dev) : Dev :=
  let d := d.batchSkip k 512
  let i := d.n Rg.EM_NEXT 0
  let r := d.batchRec i
  if !d.batchAt op then d
  else match d.recCost op r with
    | some b =>
      if d.emGrant k 0 < d.n Rg.EM_SPENT b.1 + b.2 ∨ d.on Rg.EM_SERVED b.1 then d
      else Dev.batchDone k i (f i r (d.put Rg.EM_SPENT b.1 (d.n Rg.EM_SPENT b.1 + b.2)))
    | none => Dev.batchDone k i (f i r d)

/-- The next record of the batch, a SEARCH or FLUSH, goes on; it completes with a status. -/
def Dev.batchScan (k : Clk) (op : Nat) (f : Nat → List Byte → Dev → Option Nat × Dev) (d : Dev) : Dev :=
  let d := d.batchSkip k 512
  let i := d.n Rg.EM_NEXT 0
  if !d.batchAt op then d
  else
    let q := f i (d.batchRec i) d
    match q.1 with
    | some st => Dev.batchDone k i (st, q.2)
    | none => q.2

/-- A write of EM.CMD.START applies (R203). -/
def Dev.emStart (k : Clk) (n : Nat) (d : Dev) : Dev :=
  if n = 0 then d.put Od.EM_CMD_DONE_TICK 0 k.tick
  else
    let d := (((d.put Od.EM_CMD_STATUS 0 1 0).put Od.EM_CMD_STATUS 0 0 1).put Od.EM_CMD_STATUS 0 0 2).put Rg.EM_RUN 0 n
    (((d.put Rg.EM_NEXT 0 0).put Rg.EM_CHANGED 0 0).scanEnd).each (List.range n) fun d i => d.batchPut i 34 [0]

/-- The batch ends at the boundary that opens the first tick in which its changes are visible (R204). -/
def Dev.emBatchDone (k : Clk) (d : Dev) : Dev :=
  let d := d.batchSkip k 512
  if d.n Od.EM_CMD_STATUS 0 0 = 1 ∧ d.n Rg.EM_NEXT 0 = d.n Rg.EM_RUN 0 ∧ d.n Rg.EM_CHANGED 0 ≤ k.tick then
    (d.put Od.EM_CMD_STATUS 0 0 0).put Od.EM_CMD_DONE_TICK 0 k.tick
  else d

/-- The result word learning writes (R192). -/
def Dev.learnedResult (d : Dev) (port : Nat) : Nat :=
  d.n Od.EM_PORT_LEARN_DEST port * 2 ^ 44 + 2 ^ 43 + 2 ^ 21 + (if d.on Od.MAT_ENABLE 0 then d.me else 0) * 2 ^ 18

/-- A learning request is carried out (R192, R193), and sent in a mat (R440). -/
def Dev.learnOne (k : Clk) (d : Dev) (r : LearnReq) : Dev :=
  let dest := d.n Od.EM_PORT_LEARN_DEST r.port
  match d.emWay r.key with
  | some p =>
    let res := d.emResult p
    if bit res 43 && bits res 63 44 == dest then d
    else if bit (d.emKey p) 60 || bit res 17 then d.bump Od.EM_LEARN_MOVE_REFUSED 0
    else
      let new := dest * 2 ^ 44 + res % 2 ^ 44
      ((d.emChange k 2 { pos := p, key := d.emKey p, result := new, hit := 1 }).bump Od.EM_LEARN_MOVES 0).ownUpdate k 1 (d.emKey p) new
  | none =>
    if r.move || d.emBucketBad r.key then d
    else match (ways (d.emBase r.key)).find? d.emFree with
      | some p =>
        let new := d.learnedResult r.port
        ((d.emChange k 2 { pos := p, key := r.key, result := new, hit := 1 }).bump Od.EM_LEARN_INSERTS 0).ownUpdate k 1 r.key new
      | none => (d.bump Od.EM_LEARN_FULL 0).pair Od.PEM_LEARN_FULL r.port r.len

/-- A request goes ahead of those of later clocks, and of later places in the rotation (R191). -/
def LearnReq.before (a b : LearnReq) : Bool := decide (a.clock < b.clock ∨ (a.clock = b.clock ∧ a.rank ≤ b.rank))

/-- The requests of the tick before, in order, of one key the first alone (R191). -/
def learnOrder (l : List LearnReq) : List LearnReq :=
  (sortBy LearnReq.before l).foldl (fun r q => if r.any fun x => x.key == q.key then r else r ++ [q]) []

/-- The oldest broadcast record waiting is applied, if the learning slots of its bank reach it and no learning of the tick has used them (R442). -/
def Dev.syncNext (k : Clk) (d : Dev) : Dev :=
  match d.matApply with
  | [] => d
  | u :: t =>
    let b := d.emBase u.key / 16384
    let n := d.n Rg.LEARN_SPENT b + 2
    if d.isolated || decide (d.emGrant k 1 < n) || decide (2 ≤ d.n Rg.EM_SERVED b) then d
    else ((({ d with matApply := t } : Dev).put Rg.LEARN_SPENT b n).put Rg.EM_SERVED b (max 1 (d.n Rg.EM_SERVED b))).applySync k u

/-- The requests of the tick before are carried out, in each bank as far as the learning grant reaches (R191), after the broadcast records that wait (R442); the rest, and any that an earlier tick left,
overflow; none in a replay (R528). -/
def Dev.learnAll (k : Clk) (d : Dev) : Dev :=
  let old := d.learn.filter fun r => decide (r.tick + 1 < k.tick)
  let due := d.learn.filter fun r => decide (r.tick + 1 = k.tick)
  let d : Dev := { d with learn := d.learn.filter fun r => decide (k.tick ≤ r.tick) }
  if d.maint then d
  else ((d.each (List.range d.matApply.length) fun d _ => d.syncNext k).bump Od.EM_LEARN_OVERFLOW 0 old.length).each (learnOrder due) fun d r =>
    let b := d.emBase r.key / 16384
    let n := d.n Rg.LEARN_SPENT b + 2
    if d.emGrant k 1 < n then d.bump Od.EM_LEARN_OVERFLOW 0
    else ((d.put Rg.LEARN_SPENT b n).put Rg.EM_SERVED b (max 2 (d.n Rg.EM_SERVED b))).learnOne k r

/-- A sweep pass is under way (R197). -/
def Dev.sweeping (d : Dev) : Bool := !(d.insts Rg.SWEEP).isEmpty

/-- A pass begins (R197). -/
def Dev.sweepStart (k : Clk) (d : Dev) : Dev :=
  let i := d.n Od.EM_AGE_INTERVAL 0
  let go := fun (d : Dev) => d.each (List.range 256) fun d b => d.put Rg.SWEEP b 1
  if d.on Rg.SWEEP_LATE 0 && !d.sweeping then
    let d := d.put Rg.SWEEP_LATE 0 0
    if i = 0 then d else (go d).bump Od.EM_AGE_LATE 0
  else if i ≠ 0 ∧ k.tick % i = 0 then (if d.sweeping then d.put Rg.SWEEP_LATE 0 1 else go d)
  else d

/-- Bits of an entry change at once (R188), whatever this tick changed before. -/
def Dev.emBits (pos hit seen : Nat) (d : Dev) : Dev :=
  { (d.emPut pos 2 hit).emPut pos 3 seen with emPend := d.emPend.map fun c => if c.pos = pos then { c with hit := 2, seen := 2 } else c }

/-- The sweeper visits one entry (R198, R199, R443): it reads the hit bit as it stood before the hits of this clock. A replay makes no removal of its own
(R528). -/
def Dev.sweepEntry (d : Dev) (p : Nat) : Dev :=
  let late := d.now.hits.contains p
  let hit := if late then 1 else 0
  if !bit (d.emKey p) 63 || bit (d.emKey p) 60 || d.emBadNow p then d
  else if d.emHitNow p = 1 ∧ !late then d.emBits p 0 0
  else if d.emSeenNow p = 0 then d.emBits p hit 1
  else if d.isolated || d.maint || (d.on Od.MAT_ENABLE 0 && bits (d.emResult p) 20 18 != d.me) || d.emStaged.contains p then d
  else { d with emStaged := d.emStaged ++ [p] }

/-- The next bucket of a bank is visited (R197), after the learning of the tick (R189); the last visit of every bank ends the pass. In idle, and with no grant,
the sweeper holds its place (R46, R620); a visit costs a slot of its bank's grant, and one more for each removal it stages (R210). -/
def Dev.sweepVisit (k : Clk) (b : Nat) (d : Dev) : Dev :=
  let n := d.n Rg.SWEEP b
  if n = 0 ∨ d.idle then d
  else
    let d := d.learnAll k
    let e := d.each (ways (b * 16384 + (n - 1) * 8)) Dev.sweepEntry
    let spent := d.n Rg.SWEEP_SPENT b + 1 + (e.emStaged.length - d.emStaged.length)
    if d.emGrant k 2 < spent then d
    else
      let d := ((e.put Rg.SWEEP b (if n = 2048 then 0 else n + 1)).put Rg.SWEEP_SPENT b spent).put Rg.EM_SERVED b 3
      d.when (!d.sweeping) fun d => d.bump Od.EM_AGE_PASSES 0

/-- The removals staged in the tick that ends: withdrawn for a hit since, else made (R198). -/
def Dev.sweepResolve (k : Clk) (d : Dev) : Dev :=
  let l := d.emStaged
  { d with emStaged := [] }.each l fun d p =>
    if d.emWord p 2 = 1 then (d.emBits p 1 0).bump Od.EM_AGE_WITHDRAWN 0
    else if !bit (d.emKey p) 63 then d
    else
      let key := d.emKey p
      let res := d.emResult p
      ((d.emRemove k 3 p).bump Od.EM_AGE_REMOVED 0).ownUpdate k 2 key res

/-- A write of EM.SHADOW.DATA (R206): HBM, whose units it rewrites whole are whole again, and the offset. -/
def Dev.shadowWrite (k : Clk) (bs : List Byte) (m : Memory) (d : Dev) : Memory × Dev :=
  let n := bs.length / 16
  let o := d.n Od.EM_SHADOW_OFFSET 0
  if bs.length % 16 ≠ 0 ∨ bs.length = 0 ∨ 32768 < bs.length ∨ 4194304 < o + n then (m, d)
  else
    let a := d.n Od.EM_SHADOW_BASE 0 + 16 * o
    (m.wrBytes a bs, ((d.hbmWrite a bs.length).put Od.EM_SHADOW_OFFSET 0 (o + n)).each (List.range n) fun d i =>
      d.put Rg.SHADOW_CHANGED ((o + i) / 16384) k.tick ((o + i) % 16384 / 512))

/-- One table entry as the compare takes it (R207). -/
def Dev.shadowEntry (d : Dev) (p : Nat) : List Byte :=
  let key := d.emWord p 0
  if !bit key 63 || (d.n Od.EM_SHADOW_SCOPE 0 == 1 && !bit key 60) then List.replicate 16 0 else bytesLE 8 key ++ bytesLE 8 (d.emWord p 1)

/-- The signatures of a range of a bank are judged (R207, R208): skipped where it changed meanwhile. -/
def Dev.shadowJudge (k : Clk) (b r : Nat) (m : Memory) (d : Dev) : Dev :=
  let first := b * 16384 + r * 512
  let base := d.n Od.EM_SHADOW_BASE 0 + 16 * first
  let moved := decide (d.n Rg.SHADOW_BEGAN b ≤ d.n Rg.SHADOW_CHANGED b r)
  let changing := d.emPend.any fun c => c.pos / 512 == first / 512
  let bad := (List.range 512).any (fun i => d.emBad (first + i)) || d.hbmBad base 8192
  let d := (d.hbmRead base 8192).readFlips 2 8 (2 * first) 1024
  let table := (List.range 512).flatMap fun i => d.shadowEntry (first + i)
  let d :=
    if moved || changing then d.bump Od.EM_SHADOW_SKIPPED 0
    else if bad || crc32 table != crc32 (m.rdBytes base 8192) then
      let w := (32 * b + r) / 64
      let d := d.put Od.EM_SHADOW_MISMATCH 0 (setBit (d.n Od.EM_SHADOW_MISMATCH 0 w) ((32 * b + r) % 64)) w
      let low := d.n Rg.SHADOW_LOW 0
      (d.put Rg.SHADOW_SET 0 (d.n Rg.SHADOW_SET 0 + 1)).put Rg.SHADOW_LOW 0 (if low = 0 then 32 * b + r + 1 else min low (32 * b + r + 1))
    else d
  let d := (d.put Rg.SHADOW_NEXT b (r + 1)).put Rg.SHADOW_POS b 0
  if (List.range 256).all fun i => d.n Rg.SHADOW_NEXT i == 32 then
    let n := d.n Rg.SHADOW_SET 0
    let low := d.n Rg.SHADOW_LOW 0 - 1
    let d := d.when (n != 0) fun d => d.event k 0x0702 0 n [BitVec.ofNat 8 (low / 32), BitVec.ofNat 8 (low % 32)]
    (((d.clearObj Rg.SHADOW_NEXT).put Rg.SHADOW_SET 0 0).put Rg.SHADOW_LOW 0 0).bump Od.EM_SHADOW_PASSES 0
  else d

/-- The compare of a bank goes on, one entry for each slot of its grant left in the tick (R207, R210); a range whose 512 entries are through is judged, and a bank
whose 32 ranges are through waits for the others (R209). -/
def Dev.shadowCompare (k : Clk) (b : Nat) (m : Memory) (d : Dev) : Dev :=
  let r := d.n Rg.SHADOW_NEXT b
  let p := d.n Rg.SHADOW_POS b
  let n := min (512 - p) (d.emGrant k 3 - d.n Rg.SHADOW_SPENT b)
  if !d.on Od.EM_SHADOW_ENABLE 0 ∨ n = 0 ∨ 32 ≤ r then d
  else
    let d := if p = 0 then d.put Rg.SHADOW_BEGAN b (k.tick + 1) else d
    let d := d.put Rg.SHADOW_SPENT b (d.n Rg.SHADOW_SPENT b + n)
    if p + n < 512 then d.put Rg.SHADOW_POS b (p + n) else d.shadowJudge k b r m

end Sys2Proof.Machine
end

