-- ==== Sys2Proof/Machine/Sched.lean ====
section
/-! DEFINITION. The scheduler of a port (R320 to R337): which queues may send, which one is chosen, how its copy starts, is preempted (R110 to R112,
R355 to R357), ends and is charged. Bytes of a copy count from its destination address to its FCS, without the transit header. -/
namespace Sys2Proof.Machine

/-- Preemption is active on a port: it has two paths (R321). -/
def Dev.preemptive (d : Dev) (p : Nat) : Bool := d.n Od.PORT_PREEMPT_STATUS p == 2

/-- Change the copy in transmission on a path. -/
def Dev.updTx (p path : Nat) (f : TxCopy → TxCopy) (d : Dev) : Dev :=
  { d with tx := d.tx.map fun t => if t.port == p && t.path == path then f t else t }

/-- The fewest bytes of a fragment with its mCRC that is not the last (R111). -/
def Dev.minFrag (d : Dev) (p : Nat) : Nat := (1 + d.n Od.PORT_PREEMPT_ADD_FRAG_SIZE p) * 64

/-- Bytes of a copy the MAC has taken by the clock: 20 bytes of preamble and gap go ahead of each fragment (R322). -/
def Dev.txSent (k : Clk) (d : Dev) (t : TxCopy) : Nat :=
  if t.run = 0 then min t.ltx (t.sent + ((k.clock - t.mark) * d.portRate t.port / 6400 - 20)) else t.sent

/-- The first byte from s on at which R111 permits a split of a copy. -/
def Dev.splitAt (d : Dev) (t : TxCopy) (s : Nat) : Option Nat :=
  let sp := max s (t.frag + d.minFrag t.port - 4)
  if sp + 64 ≤ t.ltx then some sp else none

/-- Bytes of the other path still owed to the wire ahead of a copy chosen now on a path (R344). -/
def Dev.owed (k : Clk) (d : Dev) (p path : Nat) : Nat :=
  match d.txOn p (1 - path) with
  | none => 0
  | some t =>
    let s := d.txSent k t
    if path = 1 then t.ltx - s
    else if t.run = 0 ∧ t.mark < k.clock then (d.splitAt t s).getD t.ltx - s
    else 0

/-- The raw units from a choice to the timestamp point of its copy at the balls (R344, R388): 112 clocks to the first preamble bit, the bytes still owed to the other path, and
eight bytes of preamble (DEDUCED, log entry 41). -/
def Dev.toStamp (k : Clk) (d : Dev) (p path : Nat) : Nat :=
  7168 + (if d.portRate p = 0 then 0 else (roundHalfEven (((d.owed k p path + 8) * 8 * 51200 : Nat) : Int) (d.portRate p)).toNat)

/-- The wire time of n bytes on a port (R351); 0 while it has no rate. -/
def Dev.portTime (d : Dev) (p n : Nat) : Nat := if d.portRate p = 0 then 0 else wireTime (d.portRate p) n

/-- The view time of the operational list at which the first byte of a copy chosen now leaves the balls (R344). -/
def Dev.leaveTime (k : Clk) (d : Dev) (p path : Nat) : Int :=
  ((d.viewNow k (d.n Od.GATE_OPER_VIEW p) + 70 * 65536 + d.portTime p (d.owed k p path) : Nat) : Int)

/-- When the gate of an offset closes, from time w on and no later than lim (R351). -/
def Dev.closeAt (k : Clk) (d : Dev) (p o : Nat) (lim w : Int) : Int :=
  let next := ((d.gatePend false p).map (·.list)).getD {}
  closeFrom (d.operList p) (d.changeAt k p) next (d.viewSkew k p next) o lim 20000 w

/-- What a gate says of a head copy: whether it passes, whether only by a split at the close (R355), whether it can never fit (R353). -/
structure GateSays where
  pass : Bool
  closes : Bool := false
  tooLong : Bool := false
  deriving DecidableEq, Repr

/-- The gate condition of R323 for a copy of n bytes at time w (R352, R353, R355); a poisoned list closes every gated queue (R457). -/
def Dev.gateSays (k : Clk) (d : Dev) (p o n : Nat) (w : Int) : GateSays :=
  let g := d.operList p
  let oh := d.n Od.SCHED_OVERHEAD p
  if !g.gated o then { pass := true }
  else if d.poisoned Od.GATE_OPER_LIST p || !g.openAt (d.changeAt k p) o w then { pass := false }
  else
    let lim := w + d.portTime p (12351 + 63)
    let c := d.closeAt k p o lim w
    let split := d.preemptive p && o % 2 == 1 && decide (d.minFrag p + 60 ≤ n)
    let need := d.portTime p ((if split then d.minFrag p else n) + oh)
    let never := decide (d.n Od.GATE_MAX_OPEN p o ≠ 0xFFFFFFFF ∧ d.n Od.GATE_MAX_OPEN p o * 65536 < need)
    if lim ≤ c ∨ w + d.portTime p (n + oh) ≤ c then { pass := true }
    else if split ∧ w + need ≤ c then { pass := true, closes := true }
    else { pass := false, tooLong := never }

/-- Buckets full or zero, under RESET_TO_FULL (R333). -/
def Dev.fillShaper (d : Dev) (q : Nat) : Dev :=
  let f := fun (o : Obj) => if d.on Od.SHAPER_RESET_TO_FULL q then d.n o q * 65536 else 0
  (d.put Od.SHAPER_TOKENS q (f Od.SHAPER_CBS) 0).put Od.SHAPER_TOKENS q (f Od.SHAPER_PBS) 1

/-- The same of a port's shaper. -/
def Dev.fillPort (d : Dev) (p : Nat) : Dev :=
  let f := fun (o : Obj) => if d.on Od.PSHAPER_RESET_TO_FULL p then d.n o p * 65536 else 0
  (d.put Od.PSHAPER_TOKENS p (f Od.PSHAPER_CBS) 0).put Od.PSHAPER_TOKENS p (f Od.PSHAPER_PBS) 1

/-- A queue joins a level afresh: deficit 0, tag V of the level (R337). -/
def Dev.levelFresh (d : Dev) (q : Nat) : Dev :=
  (d.put Od.SCHED_DEFICIT q 0).put Od.SCHED_TAG q (d.n Od.SCHED_VTIME (q / 16) (d.n Od.SCHED_LEVEL q))

/-- Poison met in a port's shapers and levels (R456). -/
def Dev.schedHeal (p : Nat) (d : Dev) : Dev :=
  let reset := fun (d : Dev) => d.bump Od.INTEG_STATE_RESETS 0
  let d := if d.poisoned Od.PSHAPER_TOKENS p then reset ((d.heal Od.PSHAPER_TOKENS p).fillPort p) else d
  let levels := d.poisoned Od.SCHED_TURN p || d.poisoned Od.SCHED_VTIME p
  let d := if levels then reset (((d.heal Od.SCHED_TURN p).heal Od.SCHED_VTIME p).clearInst Od.SCHED_TURN p) else d
  d.each (List.range 16) fun d o =>
    let q := 16 * p + o
    let d := if d.poisoned Od.SHAPER_TOKENS q then reset ((d.heal Od.SHAPER_TOKENS q).fillShaper q) else d
    if levels then d.levelFresh q
    else if d.poisoned Od.SCHED_DEFICIT q ∨ d.poisoned Od.SCHED_TAG q then
      reset ((((d.heal Od.SCHED_DEFICIT q).heal Od.SCHED_TAG q).levelFresh q).put Od.SCHED_TURN p 255 (d.n Od.SCHED_LEVEL q))
    else d

/-- The copy at the head of a queue, with its record, once it is visible (R336). -/
def Dev.headCopy (k : Clk) (d : Dev) (q : Nat) : Option (Copy × FrameRec) :=
  match d.copies.find? (·.queue == q) with
  | some c => if c.arrive < k.clock then (d.frame c.fr).map fun f => (c, f) else none
  | none => none

/-- The length a copy leaves with (R95). -/
def Dev.outLen (d : Dev) (p : Nat) (c : Copy) (f : FrameRec) : Nat := (d.outForm p (d.egressLook p c.desc).x f.stored).length + 4

/-- The bytes that let a cut-through copy start (R255). -/
def Dev.threshold (d : Dev) (p : Nat) (f : FrameRec) : Nat :=
  let o := d.portRate p
  if o ≤ f.rIn then 256 else 256 + ceilDiv ((f.mtu - 4) * (o - f.rIn)) o

/-- The copy may start (R255, R256, R282). -/
def Dev.mayStart (k : Clk) (d : Dev) (p q : Nat) (f : FrameRec) : Bool :=
  (f.complete && (!f.spilled || f.placed == f.reserved) || (!f.complete && !f.spilled && !d.queueGated q && decide (f.rIn ≤ d.portRate p) && d.on Od.FAB_PORT_CUT_THROUGH p &&
    decide (d.threshold p f ≤ f.arrived k)))

/-- The sender's balance of credit (R285). -/
def Dev.balance (d : Dev) (p c : Nat) : Int := toSigned 32 ((d.n Rg.CREDIT_G p c + 2 ^ 32 - d.n Rg.CREDIT_U p c) % 2 ^ 32)

/-- The debit of a head copy (R285). -/
def Dev.debit (d : Dev) (p : Nat) (c : Copy) (f : FrameRec) : Nat :=
  if f.complete then cellsOf (d.outLen p c f - 4) else cellsOf (d.n Od.PORT_MTU p - 4)

/-- The class of a queue lacks credit for its head copy. -/
def Dev.lacksCredit (d : Dev) (p : Nat) (c : Copy) (f : FrameRec) : Bool :=
  let cl := c.queue % 16 / 2
  d.creditClass p cl && decide (d.balance p cl < (d.debit p c f : Int))

/-- A queue that may send: its offset, copy and record, whether it starts to be cut at its gate's close, whether it is committed. -/
structure Cand where
  o : Nat
  c : Copy
  f : FrameRec
  closes : Bool := false
  committed : Bool := false
  deriving DecidableEq, Repr

/-- A queue's head copy meets every condition of R323 but the gate, and R538. -/
def Dev.mayGo (k : Clk) (d : Dev) (p o : Nat) (c : Copy) (f : FrameRec) : Bool :=
  let q := 16 * p + o
  d.on Od.SHAPER_PIR q && decide (0 ≤ d.get Od.SHAPER_TOKENS q 1) && decide (c.release ≤ k.clock) && !d.classHeld k p (o / 2) &&
    d.mayStart k p q f && !d.lacksCredit p c f

/-- An eligible queue is committed (R323). -/
def Dev.isCommitted (d : Dev) (p o : Nat) : Bool :=
  let q := 16 * p + o
  d.on Od.SHAPER_CIR q && decide (0 ≤ d.get Od.SHAPER_TOKENS q 0) && (!d.on Od.PSHAPER_CIR p || decide (0 ≤ d.get Od.PSHAPER_TOKENS p 0))

/-- The offsets a path chooses among (R321). -/
def Dev.pathOffsets (d : Dev) (p path : Nat) : List Nat :=
  if d.preemptive p then (List.range 16).filter fun o => o % 2 == path else List.range 16

/-- A choice of the port may be made now on the path: it is free, in service, not in a hold or a pulse, and the port's shaper allows (R322, R323, R539). -/
def Dev.pathFree (k : Clk) (d : Dev) (p path : Nat) : Bool :=
  d.inService p && d.n Rg.CHG_PHASE p != 3 && decide (d.n Rg.PORT_PULSE p ≤ k.clock) && d.on Od.PSHAPER_PIR p &&
    decide (0 ≤ d.get Od.PSHAPER_TOKENS p 1) &&
    (if d.preemptive p then decide (path < 2) && (d.txOn p path).isNone else path == 0 && (d.txOn p 0).isNone && (d.txOn p 1).isNone)

/-- The queue of an offset is eligible (R323). -/
def Dev.candidate (k : Clk) (d : Dev) (p path o : Nat) : Option Cand :=
  match d.headCopy k (16 * p + o) with
  | some (c, f) =>
    if d.mayGo k p o c f then
      let g := d.gateSays k p o (d.outLen p c f) (d.leaveTime k p path)
      if g.pass then some { o := o, c := c, f := f, closes := g.closes, committed := d.isCommitted p o } else none
    else none
  | none => none

/-- The DWRR choice among eligible queues of a level, offsets rising (R326). -/
def Dev.dwrr (p lv : Nat) (q : List Cand) (d : Dev) : Option (Cand × Dev) :=
  let t := d.n Od.SCHED_TURN p lv
  let cur := q.find? (·.o == t)
  match cur with
  | some e => if 0 < d.get Od.SCHED_DEFICIT (16 * p + t) then some (e, d) else pass t d
  | none => pass t d
where
  pass (t : Nat) (d : Dev) : Option (Cand × Dev) :=
    let n := 16 * p + t
    let d := if t = 255 then d
      else if (d.queue n).isEmpty then d.put Od.SCHED_DEFICIT n 0
      else d.set Od.SCHED_DEFICIT n (min (d.get Od.SCHED_DEFICIT n) (d.get Od.SCHED_QUANTUM n))
    match (q.find? fun e => t != 255 && decide (t < e.o)).or q.head? with
    | some e =>
      let m := 16 * p + e.o
      some (e, (d.set Od.SCHED_DEFICIT m (d.get Od.SCHED_DEFICIT m + d.get Od.SCHED_QUANTUM m)).put Od.SCHED_TURN p e.o lv)
    | none => none

/-- Tag a is less than tag b (R328). -/
def tagLess (a b : Nat) : Bool := decide (2 ^ 63 ≤ (a + 2 ^ 64 - b) % 2 ^ 64)

/-- The queues of a level that woke from empty in this clock take V as its choice left it (R327, R336). -/
def Dev.wakeTags (k : Clk) (p lv : Nat) (d : Dev) : Dev :=
  d.each (((List.range 16).map (16 * p + ·)).filter fun q => d.n Od.SCHED_LEVEL q == lv && (d.queue q).head?.any fun c => c.arrive == k.clock) fun d q =>
    d.put Od.SCHED_TAG q (d.n Od.SCHED_VTIME p lv)

/-- The SFQ choice (R327). -/
def Dev.sfq (k : Clk) (p lv : Nat) (q : List Cand) (d : Dev) : Option (Cand × Dev) :=
  let tag := fun (e : Cand) => d.n Od.SCHED_TAG (16 * p + e.o)
  let best := q.foldl (fun (b : Option Cand) e => match b with | some x => if tagLess (tag e) (tag x) then some e else some x | none => some e) none
  best.map fun e => (e, (d.put Od.SCHED_VTIME p (tag e) lv).wakeTags k p lv)

/-- The choice of R324 among eligible queues, offsets rising. -/
def Dev.choice (k : Clk) (p : Nat) (es : List Cand) (d : Dev) : Option (Cand × Dev) :=
  let ks := es.filter (·.committed)
  let s := if ks.isEmpty then es else ks
  let level := fun (e : Cand) => d.n Od.SCHED_LEVEL (16 * p + e.o)
  let lv := (s.map level).foldl max 0
  let q := s.filter fun e => level e == lv
  match d.n Od.SCHED_LEVEL_MODE p lv with
  | 1 => d.dwrr p lv q
  | 2 => d.sfq k p lv q
  | _ => q.getLast?.map fun e => (e, d)

/-- A copy dropped at dequeue releases its reference (R262); it is charged nothing (R329). -/
def Dev.dropCopy (k : Clk) (c : Copy) (d : Dev) : Dev := d.release k (ownerOf c.queue) c.fr

/-- Head copies that can never fit their gates are dropped (R353). -/
def Dev.dropTooLong (k : Clk) (p path : Nat) (d : Dev) : Dev :=
  d.each (d.pathOffsets p path) fun d o =>
    match d.headCopy k (16 * p + o) with
    | some (c, f) =>
      let n := d.outLen p c f
      if f.complete && (d.gateSays k p o n (d.leaveTime k p path)).tooLong then
        (((d.unqueue c).pair Od.GATE_QUEUE_TOO_LONG c.queue n).drain c.desc.epoch 1).dropCopy k c
      else d
    | none => d

/-- A copy names an egress sampler: its capture holds a reference from here on, if the draws of the clock select it (R261, R266, R488). -/
def Dev.egressSample (k : Clk) (c : Copy) (v : Verd) (d : Dev) : Dev :=
  if !v.sample then d
  else
    let j : CapJob := { fr := c.fr, egress := some c.queue, sampler := v.x.spore, desc := v.x, tick := k.tick, clock := k.c, copyIndex := c.index, copies := c.copies }
    { (d.updFrame c.fr fun f => { f with refs := f.refs + 1 }) with now := { d.now with names := d.now.names ++ [j] } }

/-- Bytes that a transit header adds to a frame on the wire (R103). -/
def trExtra (h : List Byte) : Nat := if h.isEmpty then 0 else 18

/-- An express copy chosen on a port of two paths stops the preemptible copy at its next split (R111): the clock from which the express copy goes. -/
def Dev.preempt (k : Clk) (p : Nat) (d : Dev) : Nat × Dev :=
  match d.txOn p 1 with
  | none => (k.clock, d)
  | some t =>
    if t.run = 2 then (k.clock, d)
    else if t.run = 1 ∨ k.clock ≤ t.mark then (k.clock, d.updTx p 1 fun t => { t with run := 1 })
    else
      let go := k.clock + (if d.portRate p = 0 then 0 else ceilDiv (d.owed k p 0 * 6400) (d.portRate p))
      match d.splitAt t (d.txSent k t) with
      | some sp => (go, (d.updTx p 1 fun t => { t with run := 1, sent := sp, frag := sp }).pair Od.PORT_PREEMPT_TX_FRAGMENTS p (sp - t.frag + 4 + (if t.frag = 0 then trExtra t.header else 0)))
      | none => (go, d)

/-- The bytes of a frame of `out` bytes ahead of the first cell from the second on that reads as poison (R260). -/
def FrameRec.cutAt (f : FrameRec) (out : Nat) : Option Nat := (f.poisoned.filter (· != 0)).min?.map fun i => min out (i * 256 + out - f.stored.length)

/-- The copy chosen goes to its MAC (R89, R94, R95, R257, R285): its frame as it leaves, with every change on the way. -/
def Dev.transmit (k : Clk) (p path sub : Nat) (e : Cand) (v : Verd) (r : Faulted) (b : List Byte) (d : Dev) : Dev :=
  let f := e.f
  let n := b.length + 4
  let mtu := d.n Od.PORT_MTU p
  let owe := d.debit p e.c f
  let d := d.pair (if f.complete then Od.FAB_PORT_SF_STARTED else Od.FAB_PORT_CT_STARTED) p e.c.desc.rxLength
  let cl := e.o / 2
  let d := d.when (d.creditClass p cl) fun d => (d.put Rg.CREDIT_U p ((d.n Rg.CREDIT_U p cl + owe) % 2 ^ 32) cl).clearInst Rg.CREDIT_WAIT (16 * p + e.o)
  let st := d.txStamp k p (d.toStamp k p path + sub)
  let pad := d.padOut p v.x f.stored
  let len := f.stored.length + pad
  let h := d.transitOut p st v.x
  let c := h.2.correct k p st len v.x b
  let i := c.2.2.ioam k p st len e.c.depth c.2.1 c.1
  let d := (i.2.2.stampCapture k p st len i.2.1 i.1).when (pad != 0) fun d => d.pair Od.PORT_TX_PADDED p (n + trExtra h.1)
  let g := if path = 0 ∧ d.preemptive p then d.preempt k p else (k.clock, d)
  let wait := path == 1 && (g.2.txOn p 0).isSome
  let t : TxCopy :=
    { port := p, path := path, copy := { e.c with startMode := if f.complete then 1 else 0 }, desc := i.2.1, committed := e.committed, frame := i.1, header := h.1, stomp := r.stomp
      giant := decide (mtu < n), cut := f.cutAt b.length, xors := r.xors, ltx := min n mtu, debit := if d.creditClass p cl ∧ !f.complete then owe else 0, start := k.clock
      mark := g.1, run := if wait then 1 else 0, closes := e.closes }
  let d := { g.2 with tx := g.2.tx ++ [t] }
  if v.act ≠ 3 then d
  else
    let w : TxCopy := { t with path := 3, ring := v.ring, reason := v.reason, frame := [] }
    if f.complete then d.hostCopy k w else { d with tx := d.tx ++ [w] }

/-- The copy chosen leaves its queue and meets age (R295), frame faults (R543), the egress lookup (R155), poison (R260) and the MTU (R95). -/
def Dev.dequeue (k : Clk) (p path sub : Nat) (e : Cand) (d : Dev) : Dev :=
  let c := e.c
  let x := c.desc
  let d := d.unqueue c
  let max := d.n Od.PORT_MAX_AGE p (e.o / 2)
  if max ≠ 0 ∧ max < (k.tick + 2 ^ 32 - c.admitTick) % 2 ^ 32 then
    ((d.pair Od.FAB_QUEUE_AGED c.queue x.rxLength).drain x.epoch 1).dropCopy k c
  else
    let m := d.meet k (d.outLen p c e.f + (if d.matMode p then 18 else 0)) (d.faultEntries k p 1) {}
    let d := m.2
    if m.1.drop then (d.drain x.epoch 1).dropCopy k c
    else
      let v := d.egressLook p x
      let d := (d.egressCount p x).egressSample k c v
      if v.act = 1 then (d.pair Od.CLASS_OUT_DROPS p x.rxLength).dropCopy k c
      else if e.f.poisoned.contains 0 then (d.bump Od.FAB_POISON_DROPS 0).dropCopy k c
      else if v.act = 2 then
        let t : TxCopy := { port := p, path := 2, copy := c, desc := v.x, ring := v.ring, reason := v.reason }
        if e.f.complete then d.hostCopy k t else { d with tx := d.tx ++ [t] }
      else
        let b := d.outForm p v.x e.f.stored
        if e.f.complete ∧ d.n Od.PORT_MTU p < b.length + 4 then (d.pair Od.PORT_TX_GIANTS p (b.length + 4)).dropCopy k c
        else d.transmit k p path sub e v m.1 b

/-- A scheduler's choice on a path in this clock (R324); none once a replay is done (R530). -/
def Dev.schedule (k : Clk) (p path sub : Nat) (d : Dev) : Dev :=
  if !d.pathFree k p path || d.replayed then d
  else
    let d := ((d.gateDue k p).schedHeal p).dropTooLong k p path
    match d.choice k p ((d.pathOffsets p path).filterMap (d.candidate k p path)) with
    | some r => ({ r.2 with now := { r.2.now with sent := r.2.now.sent ++ [(p, path)] } } : Dev).dequeue k p path sub r.1
    | none => d

/-- In this clock the port's pipeline has taken a packet of another port, or the path a copy, or its last byte (R25, R295, R322): the choice falls in the next. Which port's comes
first is open (DESIGN CHOICE, log entry 32). -/
def Dev.egressTaken (k : Clk) (d : Dev) (p path : Nat) : Bool :=
  d.pathFree k p path && !d.replayed &&
    ((d.now.sent.any fun x => pipeOf x.1 == pipeOf p && (x.1 != p || x.2 == path)) || d.now.ended.any fun x => x.1 == p && (x.2 == path || !d.preemptive p))

/-- The charge of a copy of n bytes (R330). -/
def Dev.charge (p o n : Nat) (d : Dev) : Dev :=
  let q := 16 * p + o
  let c := n + d.n Od.SCHED_OVERHEAD p
  let take := fun (d : Dev) (b : Obj) (i : Nat) => (d.set b i (d.get b i 0 - (c * 65536 : Nat)) 0).set b i (d.get b i 1 - (c * 65536 : Nat)) 1
  let d := (take (take d Od.SHAPER_TOKENS q) Od.PSHAPER_TOKENS p).flipAny 9 (sorusOf p) Od.SHAPER_TOKENS q 0
  match d.n Od.SCHED_LEVEL_MODE p (d.n Od.SCHED_LEVEL q) with
  | 1 => d.set Od.SCHED_DEFICIT q (d.get Od.SCHED_DEFICIT q - c)
  | 2 => d.put Od.SCHED_TAG q ((d.n Od.SCHED_TAG q + ceilDiv (c * 65536) (d.n Od.SCHED_WEIGHT q)) % 2 ^ 64)
  | _ => d

/-- The view time at which the end of a copy leaves the balls, its gate's view (R357): the copy ends with its overhead `n` bytes after `mark`. -/
def Dev.endTime (k : Clk) (d : Dev) (t : TxCopy) (n : Nat) : Int :=
  let c := if d.portRate t.port = 0 then k.clock else t.mark + ((n - t.sent) * 6400 - 1) / d.portRate t.port
  let back := 64 * (k.clock - c)
  (((d.viewSet (d.n Od.GATE_OPER_VIEW t.port)).at ((k.now + 2 ^ 72 - back) % 2 ^ 72) + 70 * 65536 : Nat) : Int)

/-- A byte of a copy that ends `n` bytes after its mark, overhead with it, left the balls after its gate had closed (R357): under the list in force, from its change on. -/
def Dev.overran (k : Clk) (d : Dev) (t : TxCopy) (o n : Nat) : Bool :=
  let p := t.port
  let fin := d.endTime k t n
  let ct : Int := time80Ns (d.n Od.GATE_CONFIG_CHANGE_TIME p) * 65536
  let start := fin - d.portTime p (n - t.sent)
  (d.operList p).gated o && decide (d.closeAt k p o fin (if ct ≤ fin then max start ct else start) < fin)

/-- The last byte of a copy passes to the MAC (R89, R94, R95, R262, R330, R357). Of a copy of a preemptible path sent unsplit the whole is one fragment (DESIGN
CHOICE, log entry 28). Byte counts of the MAC are of the frame on the wire (R118), a transit header with it; the charge of R330 leaves it out. -/
def Dev.copyEnd (k : Clk) (t : TxCopy) (d : Dev) : Dev :=
  let p := t.port
  let q := t.copy.queue
  let o := q % 16
  let f := d.frame t.copy.fr
  let cut := t.cut
  let mtu := d.n Od.PORT_MTU p
  let body := t.frame.take (if t.giant then mtu - 4 else t.frame.length)
  let body := match cut with | some n => body.take n | none => body
  let n := body.length + 4
  let bad := t.stomp || t.giant || cut.isSome || (match f with | some f => f.tailMark | none => false)
  let fcs := fcsBytes (if t.header.isEmpty then body else insertAt body 12 ([0x88, 0xB6] ++ t.header))
  let fcs := if bad then fcs.map fun b => ~~~b else fcs
  let wire := (if t.header.isEmpty then body else insertAt body 12 ([0x88, 0xB6] ++ t.header)) ++ fcs
  let wire := t.xors.foldl (fun b x => xorByte b x.1 x.2) wire
  let l := wire.length
  let d : Dev := { d with tx := d.tx.erase t, now := { d.now with ended := d.now.ended ++ [(p, t.path)] } }
  let d := d.when (!d.maint) fun d => d.emit { kind := .frame, unit := p, vals := [t.path], bytes := wire }
  let d := d.when t.giant fun d => d.pair Od.PORT_TX_GIANTS p l
  let d := d.when cut.isSome fun d => d.bump Od.FAB_POISON_STOMPED 0
  let d := d.pair (if bad then Od.PORT_TX_STOMPED else Od.PORT_TX_GOOD) p l
  let d := d.when (t.path == 1) fun d => d.pair Od.PORT_PREEMPT_TX_FRAGMENTS p (if t.frag = 0 then l else n - t.frag)
  let d := ((d.txLoad p l).charge p o n).pair Od.SCHED_QUEUE_SENT q n
  let d := d.when t.committed fun d => d.pair Od.SCHED_QUEUE_SENT_COMMITTED q n
  let d := if t.debit = 0 then d else d.put Rg.CREDIT_U p ((d.n Rg.CREDIT_U p (o / 2) + 2 ^ 32 - (t.debit - cellsOf (n - 4))) % 2 ^ 32) (o / 2)
  let d := d.gateDue k p
  let late := d.overran k t o (n + d.n Od.SCHED_OVERHEAD p)
  let d := d.when late fun d => d.bump Od.GATE_OVERRUNS p
  let d := d.release k (ownerOf q) t.copy.fr
  if t.path = 0 then d.updTx p 1 fun t => if t.run = 1 then { t with run := 0, mark := k.clock + 1 } else t else d

/-- The MAC has taken all of a copy by the end of this clock (R322), its frame being whole; at once where the port has no rate. -/
def Dev.ended (k : Clk) (d : Dev) (t : TxCopy) : Bool :=
  t.run == 0 && decide (t.mark ≤ k.clock) && (match d.frame t.copy.fr with | some f => f.complete | none => true) &&
    (d.portRate t.port == 0 || !d.inService t.port ||
      decide (min t.ltx (t.cut.getD t.ltx + 4) + 20 ≤ t.sent + (k.clock + 1 - t.mark) * d.portRate t.port / 6400))

/-- A gate closes on a preemptible copy that started without fitting whole (R356), or a copy preempted there goes on (R355, R356). -/
def Dev.gateClose (k : Clk) (p : Nat) (d : Dev) : Dev :=
  let d := d.gateDue k p
  match d.txOn p 1 with
  | none => d
  | some t =>
    let o := t.copy.queue % 16
    let oh := d.n Od.SCHED_OVERHEAD p
    if t.run = 2 then
      let g := d.gateSays k p o (t.ltx - t.sent) (d.leaveTime k p 1)
      if g.pass ∧ d.inService p ∧ d.n Rg.CHG_PHASE p ≠ 3 then
        d.updTx p 1 fun t => { t with run := if (d.txOn p 0).isSome then 1 else 0, mark := k.clock, closes := g.closes }
      else d
    else if !t.closes ∨ t.run ≠ 0 ∨ k.clock ≤ t.mark then d
    else
      let w : Int := d.viewNow k (d.n Od.GATE_OPER_VIEW p) + 70 * 65536
      let c := d.closeAt k p o (w + d.portTime p (12351 + 63)) w
      let left := ((c - w).toNat * d.portRate p) / (8 * 500 * 65536)
      let gone := (k.clock - t.mark) * d.portRate p / 6400
      let s := d.txSent k t
      let last := t.sent + (gone + left - 4 - oh)
      let top := t.ltx - 64
      if s + d.portRate p / 6400 < min last top then d
      else match (if d.splitAt t 0 |>.isSome then some (max (t.frag + d.minFrag p - 4) (min last top)) else none) with
        | some sp =>
          ((d.updTx p 1 fun t => { t with run := 2, sent := max sp s |> min top, frag := max sp s |> min top }).bump Od.GATE_CLOSE_PREEMPTS p).pair
            Od.PORT_PREEMPT_TX_FRAGMENTS p ((max sp s |> min top) - t.frag + 4 + (if t.frag = 0 then trExtra t.header else 0))
        | none => d

/-- A write of a queue's level (R337). -/
def Dev.setLevel (d : Dev) (q lv : Nat) : Dev :=
  let p := q / 16
  let d := (d.put Od.SCHED_TURN p 255 (d.n Od.SCHED_LEVEL q)).put Od.SCHED_LEVEL q lv
  (d.put Od.SCHED_TURN p 255 lv).levelFresh q

/-- A write of a level's mode (R337). -/
def Dev.setLevelMode (d : Dev) (p lv m : Nat) : Dev :=
  let d := (d.put Od.SCHED_LEVEL_MODE p m lv).put Od.SCHED_TURN p 255 lv
  d.each (((List.range 16).map (16 * p + ·)).filter fun q => d.n Od.SCHED_LEVEL q == lv) Dev.levelFresh

/-- A sorus reset's effect on the schedulers of a port (R337). -/
def Dev.schedReset (d : Dev) (p : Nat) : Dev :=
  let d := ((d.clearInst Od.SCHED_VTIME p).clearInst Od.SCHED_TURN p).fillPort p
  d.each (List.range 16) fun d o =>
    let q := 16 * p + o
    ((d.put Od.SCHED_DEFICIT q 0).put Od.SCHED_TAG q 0).fillShaper q

/-- A bucket's refill (R331). -/
def Dev.refillOne (rate size tok : Obj) (i e : Nat) (d : Dev) : Dev :=
  d.set tok i (min (d.get tok i e + d.get rate i) (d.get size i * 65536)) e

/-- The refill of every bucket away from rest (R331): a bucket at its default with its size unchanged stays full. -/
def Dev.shaperRefill (d : Dev) : Dev :=
  let ques := ((d.insts Od.SHAPER_TOKENS) ++ d.insts Od.SHAPER_CBS ++ d.insts Od.SHAPER_PBS).dedup
  let d := d.each ques fun d q =>
    (d.refillOne Od.SHAPER_CIR Od.SHAPER_CBS Od.SHAPER_TOKENS q 0).refillOne Od.SHAPER_PIR Od.SHAPER_PBS Od.SHAPER_TOKENS q 1
  let ports := ((d.insts Od.PSHAPER_TOKENS) ++ d.insts Od.PSHAPER_CBS ++ d.insts Od.PSHAPER_PBS).dedup
  d.each ports fun d p =>
    (d.refillOne Od.PSHAPER_CIR Od.PSHAPER_CBS Od.PSHAPER_TOKENS p 0).refillOne Od.PSHAPER_PIR Od.PSHAPER_PBS Od.PSHAPER_TOKENS p 1

end Sys2Proof.Machine
end

