-- ==== Sys2Proof/Machine/IntegOps.lean ====
section
/-! DEFINITION. The scrubber (R465, R466), the effects of poison on what words hold (R456 to R458), retiring exact-match ways (R471), clearing the
logs (R462, R463). -/
namespace Sys2Proof.Machine

/-- A queue is flushed for a control word lost in both copies (R458, R624). -/
def Dev.controlLost (k : Clk) (q lost : Nat) (d : Dev) : Dev :=
  let d := d.each (d.queue q) (Dev.flushCopy k)
  let d := (d.bump Od.INTEG_CELLS_LOST 0 lost).put Rg.LOST_CELLS 0 (d.n Rg.LOST_CELLS 0 + lost)
  d.fault 8 8 q

/-- The descriptor of the object an address of the dictionary names. -/
def objOf (idx sub : Nat) : Option Obj := Od.all.find? fun o => o.idx == idx && o.sub == sub

/-- A cell of a frame becomes poison (R455): the copies that have not read it by then end ahead of it (R260). -/
def Dev.poisonCell (k : Clk) (shown c : Nat) (d : Dev) : Dev :=
  let d : Dev := { d with frames := d.frames.map fun (f : FrameRec) => if f.shown == shown then { f with poisoned := (f.poisoned ++ [c]).dedup } else f }
  let cut := fun (t : TxCopy) => (d.frame t.copy.fr).bind fun f => if f.shown == shown then ({ f with poisoned := [c] } : FrameRec).cutAt t.frame.length else none
  { d with tx := d.tx.map fun (t : TxCopy) => match cut t with
    | some n => if d.txSent k t ≤ n then { t with cut := some (min n (t.cut.getD n)) } else t
    | none => t }

/-- The parser's objects, of which each sorus holds its copy (R122). -/
def copiedObj (idx sub : Nat) : Bool := idx == 0x3010 || idx == 0x3020 || (idx == 0x3000 && sub == 1)

/-- An uncorrectable word carries its mark into what it holds (R455, R456). EM_BITS words are rewritten at once (log entry 17). -/
def Dev.poisonWord (k : Clk) (mem die addr : Nat) (h : Holds) (d : Dev) : Dev :=
  match h with
  | .cell id c => d.poisonCell (d.rk k) id c
  | .buffer b w => d.updBuf b fun x => { x with poisoned := (x.poisoned ++ [w]).dedup }
  | .control q n => d.controlLost k q n
  | .object idx inst sub elem =>
    let copy := if copiedObj idx sub && decide (die < 8) then (die + 1) * 2 ^ 64 else 0
    let key := copy + ((idx * 256 + sub) * 65536 + inst) * 65536 + elem
    if mem = 7 then { d with dictPoison := (d.dictPoison ++ [key % 2 ^ 64 / 65536]).dedup } else { d with poison := (d.poison ++ [key]).dedup }
  | .nothing =>
    match mem with
    | 2 => { d with emPoison := (d.emPoison ++ [addr]).dedup }
    | 3 => d.each ((List.range 32).map (32 * addr + ·)) fun d p => if bit (d.emWord p 0) 63 then d.emBits p 1 0 else d
    | 8 => { d with treePoison := (d.treePoison ++ [(die, addr / 393216, addr % 393216)]).dedup }.later (.repair die (addr / 393216) (addr % 393216 / 4))
    | _ => d

/-- The pipeline of a word that holds an F item (R624): its object's port. -/
def pipeOfHolds (h : Holds) : Option Nat :=
  match h with
  | .object idx inst sub _ => match objOf idx sub with | some o => if o.kept = .f then some (inst / 16 % 64) else none | none => none
  | _ => none

/-- The word holds the poison codeword already (R465): the scrubber rewrites it without a finding. -/
def Dev.wasPoison (d : Dev) (mem die addr : Nat) (h : Holds) : Bool :=
  match h with
  | .cell id c => d.frames.any fun f => f.shown == id && f.poisoned.contains c
  | .buffer b w => d.bufs.any fun x => x.handle == b && x.poisoned.contains w
  | .object idx inst sub elem =>
    d.poison.contains (((idx * 256 + sub) * 65536 + inst) * 65536 + elem) && mem != 7 && !copiedObj idx sub ||
      (mem == 7 && d.dictPoison.contains ((idx * 256 + sub) * 65536 + inst))
  | .control _ _ => false
  | .nothing => (mem == 2 && d.emPoison.contains addr) || (mem == 8 && d.treePoison.contains (die, addr / 393216, addr % 393216))

/-- A word of a scrub access, at its address (R465). -/
def Dev.scrubWord (k : Clk) (mem die base : Nat) (unreq : Bool) (d : Dev) (w : ScrubWord) : Dev :=
  let a := base + w.word
  if w.bits = 0 ∨ 3 < w.bits ∨ (w.bits = 3 ∧ unreq ∧ d.wasPoison mem die a w.holds) then d
  else
    let d := { d with found := d.found ++ [{ mem := mem, die := die, addr := a, bits := w.bits, unreq := unreq, pipe := pipeOfHolds w.holds }] }
    if w.bits = 3 then d.poisonWord k mem die a w.holds else d

/-- A memory and die that exist (R454). -/
def memOk (mem die : Nat) : Bool := (decide (1 ≤ mem ∧ mem ≤ 7) && die == 8) || ((mem == 8 || mem == 9) && decide (die < 8))

/-- The scrubber reads its next unit of a memory (R465, R466); words flipped under R469 in it are found too. A grant of 0
suspends it, and write-backs that are due go first (R460). -/
def Dev.scrub (k : Clk) (mem die : Nat) (l : List ScrubWord) (d : Dev) : Dev :=
  let first := d.wb.any fun w => w.mem == mem && w.die == die && decide (w.tick < k.tick) && d.wbMay k w
  match (if first then none else d.scrubSlot k mem die) with
  | none => d
  | some d =>
    let i := mem * 16 + die
    let u := scrubUnit mem
    let n := d.n Rg.SCRUB_NEXT i
    let d := if n = 0 ∧ d.n Rg.SCRUB_BEGAN i = 0 then d.put Rg.SCRUB_BEGAN i (k.tick + 1) else d
    let base := n * u.1
    let own := (d.flipped.filter fun f => f.mem == mem && f.die == die && decide (base ≤ f.addr ∧ f.addr < base + u.1)).map fun (f : Flipped) =>
      ({ word := f.addr - base, bits := f.bits } : ScrubWord)
    let d := d.each (l ++ own) (Dev.scrubWord k mem die base true)
    if n + 1 < u.2 then d.put Rg.SCRUB_NEXT i (n + 1)
    else
      let d := (d.bump Od.INTEG_MEM_SCRUB_PASSES i).put Od.INTEG_MEM_LAST_PASS_TICKS i (k.tick + 2 - d.n Rg.SCRUB_BEGAN i)
      (d.put Rg.SCRUB_NEXT i 0).put Rg.SCRUB_BEGAN i (k.tick + 2)

/-- A log's entries are cleared (R462, R463): one, or every one for 0xFF. -/
def Dev.clearLog (o : Obj) (n e : Nat) (d : Dev) : Dev :=
  d.each (if e = 0xFF then List.range n else [e]) fun d e => (d.put o 0 0 (2 * e)).put o 0 0 (2 * e + 1)

/-- A position joins the retired list (R471). -/
def Dev.listRetired (v : Nat) (d : Dev) : Dev :=
  let n := d.n Od.INTEG_EM_RETIRED_COUNT 0
  (d.put Od.INTEG_EM_RETIRED_LIST 0 v n).put Od.INTEG_EM_RETIRED_COUNT 0 (n + 1)

/-- A position is on the retired list. -/
def Dev.retireListed (d : Dev) (pos : Nat) : Bool :=
  (List.range (d.n Od.INTEG_EM_RETIRED_COUNT 0)).any fun e => d.n Od.INTEG_EM_RETIRED_LIST 0 e % 2 ^ 31 == pos

/-- A position is retired (R471): at once, after its entry moves within the bucket, or once the way becomes invalid. -/
def Dev.retire (k : Clk) (pos : Nat) (d : Dev) : Dev :=
  if d.retireListed pos ∨ 4096 ≤ d.n Od.INTEG_EM_RETIRED_COUNT 0 then d
  else if !bit (d.emKey pos) 63 then d.listRetired pos
  else
    match (ways (pos / 8 * 8)).find? fun p => p != pos && d.emFree p with
    | some p =>
      let c : EmChange := { pos := p, key := d.emKey pos, result := d.emResult pos, hit := d.emHitNow pos, seen := d.emSeenNow pos }
      ((d.emChange k 5 c).emRemove k 5 pos).listRetired pos
    | none => d.listRetired (2 ^ 31 + pos)

/-- A position leaves the retired list (R471); the entries above it close up. -/
def Dev.unretire (pos : Nat) (d : Dev) : Dev :=
  let n := d.n Od.INTEG_EM_RETIRED_COUNT 0
  let l := (d.elems Od.INTEG_EM_RETIRED_LIST 0 n).filter fun v => v % 2 ^ 31 != pos
  let d := (d.clearObj Od.INTEG_EM_RETIRED_LIST).put Od.INTEG_EM_RETIRED_COUNT 0 l.length
  d.each l.zipIdx fun d x => d.put Od.INTEG_EM_RETIRED_LIST 0 x.1 x.2

/-- The collection of the stacks' corrections (R467): their counts since the last, and the units that have since become uncorrectable. -/
def Dev.collectHbm (counts bad : List Nat) (d : Dev) : Dev :=
  let d := d.each ((counts.take 4).zipIdx) fun d x => d.bump Od.INTEG_HBM_CORRECTED x.2 x.1
  { d with hbmPoison := (d.hbmPoison ++ bad.map fun a => a / 32 * 32).dedup }

end Sys2Proof.Machine
end

