-- ==== Sys2Proof/Machine/Codec.lean ====
section
/-! DEFINITION. Payloads of the dictionary (R12, R567, R568): values as bytes, what a write carries, its size, and the store after a write. -/
namespace Sys2Proof.Machine

/-- Bits of a value of a type. -/
def ObjTy.width (t : ObjTy) : Nat := 8 * t.bytes

/-- A value as its payload (R12). -/
def ObjTy.encode (t : ObjTy) (v : Int) : List Byte := bytesLE t.bytes (ofSigned t.width v)

/-- The value a payload spells (R12). -/
def ObjTy.decode (t : ObjTy) (bs : List Byte) : Int :=
  match t with
  | .s32 => toSigned 32 (ofBytesLE bs)
  | .s64 => toSigned 64 (ofBytesLE bs)
  | _ => (ofBytesLE bs : Nat)

/-- The object is a BLOB or STR. -/
def Obj.isBytes (o : Obj) : Bool := o.ty == .blob || o.ty == .str

/-- Objects whose instance is the number of a port (R65). -/
def Obj.ofPort (o : Obj) : Bool := o.insts == 1023 && o.idx != 0x2000 && o.idx != 0x4060

/-- The most bytes a BLOB or STR object holds or takes in one write: its own limit where a rule gives one, else that of R566. -/
def Obj.limit (o : Obj) : Nat :=
  if o.ty = .str then 255
  else if o.idx = 0x3800 ∧ o.sub = 0x20 then 24576
  else if o.idx = 0x8800 then 4096
  else if o.idx = 0x1210 ∨ o.idx = 0x7000 ∨ o.idx = 0xC100 then 32
  else 32768

/-- A BLOB of one length only (R577, R427, R622). -/
def Obj.fixedBytes (o : Obj) : Bool := o.ty == .blob && o.limit == 32

/-- Bytes of the whole value of an object; for a BLOB or STR the most it holds (R565). -/
def Obj.size (o : Obj) : Nat := if o.isBytes then o.limit else o.count * o.ty.bytes

/-- The length and offset of a write suit its object: the status 0, TYPE or TOO_LARGE (R566 to R568). -/
def WriteOp.fits (o : Obj) (w : WriteOp) : Nat :=
  let n := w.data.length
  if o.isBytes then (if w.off ≠ 0 then 6 else if o.limit < n then 14 else 0)
  else if o.arr then
    (if n = 0 ∨ w.off % o.ty.bytes ≠ 0 ∨ n % o.ty.bytes ≠ 0 ∨ o.size < w.off + n then 6 else if 32768 < n then 14 else 0)
  else if n = o.ty.bytes ∧ w.off = 0 then 0 else 6

/-- The elements a write carries, with their numbers. -/
def WriteOp.elems (o : Obj) (w : WriteOp) : List (Nat × Int) :=
  let b := o.ty.bytes
  (List.range (w.data.length / b)).map fun i => (w.off / b + i, o.ty.decode ((w.data.drop (b * i)).take b))

/-- A value meets its type and its row's ranges (R12). -/
def Obj.admits (o : Obj) (v : Int) : Bool :=
  (match o.ty with
   | .bool => decide (v = 0 ∨ v = 1)
   | .time80 => decide (v.toNat / 2 ^ 48 ≤ 999999999)
   | _ => true) && (o.lim.isEmpty || o.lim.any fun r => decide (r.1 ≤ v ∧ v ≤ r.2))

/-- The value x with bits hi to lo zero. -/
def maskOut (x hi lo : Nat) : Nat := x - bits x hi lo * 2 ^ lo

/-- Element e of an object as the device keeps it: the reserved bits of the formats of R124 to R127, R153, R228 and R416 are ignored and read as zero (R9). -/
def Obj.kept9 (o : Obj) (e x : Nat) : Nat :=
  match o.idx * 256 + o.sub with
  | 0x301001 => if e = 0 then maskOut x 6 0 else maskOut x 16 0
  | 0x301002 => maskOut (maskOut (maskOut x 62 62) 55 48) 15 0
  | 0x301003 => maskOut x 8 0
  | 0x348001 => if e = 0 then maskOut x 6 0 else maskOut x 9 0
  | 0x3C6001 => maskOut x 58 32
  | 0x701001 => maskOut x 14 10
  | _ => x

/-- A byte string as the device keeps it: of the records of EM.CMD.BATCH the reserved bits of R175 and R200 read as zero (R9). -/
def Obj.keptBytes (o : Obj) (bs : List Byte) : List Byte :=
  if o.idx = 0x3800 ∧ o.sub = 0x20 then
    bs.zipIdx.map fun x => match x.2 % 48 with
      | 8 | 9 | 44 | 45 | 46 | 47 => 0
      | 10 => x.1 &&& 0xFE
      | 33 => x.1 &&& 3
      | _ => x.1
  else bs

/-- A word of a write finds the element's old value: a W1C write clears the bits it sets (R14), and reserved bits are ignored (R9). -/
def Obj.written (o : Obj) (e : Nat) (old v : Int) : Int :=
  if o.acc = .w1c then ((old.toNat &&& (v.toNat ^^^ (2 ^ o.ty.width - 1)) : Nat) : Int)
  else if 0 ≤ v then (o.kept9 e v.toNat : Nat)
  else v

/-- The values of a write enter the store. -/
def Dev.store (o : Obj) (w : WriteOp) (d : Dev) : Dev :=
  if o.isBytes then d.setBlob o w.inst (o.keptBytes w.data)
  else d.each (w.elems o) fun d x => d.set o w.inst (o.written x.1 (d.get o w.inst x.1) x.2) x.1

/-- The words of the dictionary's memory that hold an object are whole again (R457), and so are the working words that the write covers. -/
def Dev.healWrite (o : Obj) (w : WriteOp) (d : Dev) : Dev :=
  let i := (o.idx * 256 + o.sub) * 65536 + w.inst
  let d : Dev := if d.dictPoison.isEmpty then d else { d with dictPoison := d.dictPoison.filter (· != i) }
  if d.poison.isEmpty then d
  else if o.isBytes then d.heal o w.inst
  else { d with poison := d.poison.filter fun k => !(w.elems o).any fun x => k % 2 ^ 64 == o.key w.inst x.1 }

/-- Words of 64 bits a write counts (R44). -/
def WriteOp.words (w : WriteOp) : Nat := max 1 (ceilDiv w.data.length 8)

/-- The device's values once a write stands: values alone, and the offsets that DATA writes move (R162, R206). -/
def Dev.stands (w : WriteOp) (d : Dev) : Dev :=
  match objOf w.idx w.sub with
  | some o =>
    if o.idx = 0x3410 ∧ o.sub = 3 then d.put Od.CLASS_SLOT_OFFSET w.inst (d.n Od.CLASS_SLOT_OFFSET w.inst + w.data.length / 8)
    else if o.idx = 0x3800 ∧ o.sub = 7 then d.put Od.EM_SHADOW_OFFSET 0 (d.n Od.EM_SHADOW_OFFSET 0 + w.data.length / 16)
    else if o.acc = .rw ∧ !o.live then d.store o w
    else d
  | none => d

/-- The device as its values will stand once every write staged for a boundary up to this tick has applied (R43). -/
def Dev.asOf (tick : Nat) (d : Dev) : Dev :=
  d.each ((d.staged.filter fun s => decide (s.tick ≤ tick)).flatMap (·.ops)) fun d w => d.stands w

end Sys2Proof.Machine
end

