-- ==== Sys2Proof/Machine/CtrOps.lean ====
section
/-! DEFINITION. Counter writes (R479), dumps (R480 to R483), reads of the HBM rings (R484), window bandwidth (R487), spore records and their ring
(R489 to R491). -/
namespace Sys2Proof.Machine

/-- Words a write of a counter may carry (R479): bits 62..48 clear. -/
def counterWordsOk (o : Obj) (ws : List Nat) : Bool := ws.length == o.count && ws.all fun w => decide (w < 2 ^ 64) && bits w 62 48 == 0

/-- A word of a counter is written: its poison is gone (R456, R479); an armed flip may meet it (R469). -/
def Dev.counterPut (o : Obj) (i e v : Nat) (d : Dev) : Dev :=
  let d : Dev := { d with poison := d.poison.filter (· != o.key i e) }
  let d := match ctrWord o i e with | some a => d.unflip 4 8 a | none => d
  (d.put o i v e).flipCounter o i e

/-- A write of a counter sets every word of the instance. -/
def Dev.counterSet (o : Obj) (i : Nat) (ws : List Nat) (d : Dev) : Dev := d.each ws.zipIdx fun d x => d.counterPut o i x.2 x.1

/-- Bytes of the counter store (R476). -/
def storeBytes : Nat := 16777216

/-- The word of the counter store a key of the object store lies in. -/
def keyWord (key : Nat) : Option Nat :=
  (ctrRegions.find? fun r => keyObj key == r.1.idx * 256 + r.1.sub).map fun r =>
    2 * (r.2 + key / 65536 % 65536 * r.1.pairs + key % 65536 / 2) + key % 2

/-- The snapshot of the store (R456, R480): its words that are not zero, poisoned ones all ones. -/
def Dev.snapshot (d : Dev) : Store :=
  let live := d.objs.foldl (fun (s : Store) x => match keyWord x.1 with | some w => s.put w x.2 | none => s) []
  d.poison.foldl (fun (s : Store) k => match keyWord k with | some w => s.put w (2 ^ 64 - 1 : Nat) | none => s) live

/-- The header of a dump (R482): as it stands before the first body byte, or complete with the body's CRC. -/
def Dump.header (x : Dump) (crc : Option Nat) : List Byte :=
  bytesLE 4 1 ++ bytesLE 4 1048576 ++ bytesLE 8 x.seq ++ bytesLE 8 x.tick ++ bytesLE 6 (x.time / 65536 / 1000000000) ++
  bytesLE 4 (x.time / 65536 % 1000000000) ++ bytesLE 2 (x.time % 65536) ++ bytesLE 4 (crc.getD 0) ++
  bytesLE 4 (if crc.isSome then x.poisoned else 0) ++ bytesLE 4 (if crc.isSome then 1 else 0) ++ List.replicate 16 0

/-- The CRC of a dump's body (R482). -/
def Dump.crc (x : Dump) : Nat :=
  (List.range (storeBytes / 8)).foldl (fun c w => (bytesLE 8 ((x.words.find w).getD 0).toNat).foldl crc32Byte c) 0xFFFFFFFF ^^^ 0xFFFFFFFF

/-- Where the body of a slot begins in its ring (R482). -/
def bodyAt (slot : Nat) : Nat := 4096 + storeBytes * slot

/-- Bytes go to the target of a dump: HBM, or host memory by posted writes (R481, R593). -/
def Dump.write (x : Dump) (off : Nat) (bs : List Byte) (m : Memory) (d : Dev) : Memory × Dev :=
  if x.host then (m, d.emit { kind := .host, unit := 256, vals := [x.base + off], bytes := bs })
  else (m.wrBytes (x.base + off) bs, d.hbmWrite (x.base + off) bs.length)

/-- A dump falls due at the boundary that opened the tick now open (R480). -/
def Dev.dumpDue (k : Clk) (d : Dev) : Bool :=
  d.on Od.CTR_DUMP_PERIOD 0 && k.tick % (d.n Od.CTR_DUMP_PERIOD 0 * 2000) == 0 && k.tick != 0

/-- The snapshot is taken and its header written, or the dump is skipped (R480, R481, R483, R593). -/
def Dev.dumpStart (k : Clk) (m : Memory) (d : Dev) : Memory × Dev :=
  let host := d.n Od.CTR_DUMP_TARGET 0 == 1
  if d.dump.isSome || (host && !d.linkOk) || d.idle then (m, d.bump Od.CTR_DUMP_SKIPPED 0)
  else
    let bad := (d.poison.filterMap keyWord).dedup
    let seq := d.n Od.CTR_DUMP_SEQ 0
    let x : Dump :=
      { seq := seq, tick := k.tick, host := host, slot := seq % d.n Od.CTR_DUMP_SLOTS 0
        base := if host then d.n Od.CTR_DUMP_HOST_ADDR 0 else d.n Od.CTR_DUMP_RING_BASE 0
        time := (d.viewSet (d.n Od.CTR_DUMP_VIEW 0)).at k.raw, words := d.past.snapshot, poisoned := bad.length }
    let d := d.readFlips 4 8 0 (storeBytes / 8)
    let d : Dev := { d with dump := some x, found := d.found ++ bad.map fun w => ({ mem := 4, die := 8, addr := w, bits := 3 } : Found) }
    let d := ((d.bump Od.INTEG_STATE_RESETS 0 bad.length).put Od.CTR_DUMP_SEQ 0 (seq + 1)).put Od.CTR_DUMP_STATE 0 1
    x.write (64 * x.slot) (x.header none) m (d.put Rg.DUMP_SENT 0 0)

/-- The dump's body is in its slot; the header is completed (R483). An HBM dump has then drawn a grant of its whole length (R481). -/
def Dev.dumpEnd (m : Memory) (d : Dev) : Memory × Dev :=
  match d.dump with
  | none => (m, d)
  | some x =>
    if x.host && !d.linkOk then (m, d)
    else if !x.host && decide (d.n Rg.DUMP_SENT 0 < storeBytes) then (m, d)
    else
      let at_ := x.base + bodyAt x.slot
      let d : Dev := { d with dump := none }
      let r : Memory × Dev :=
        if x.host then
          (m, d.emit { kind := .host, unit := 256, vals := at_ :: x.words.flatMap fun w => [w.1, w.2.toNat], bytes := [] })
        else
          (x.words.foldl (fun (m : Memory) w => m.wrBytes (at_ + 8 * w.1) (bytesLE 8 w.2.toNat)) (m.clear at_ (at_ + storeBytes)), d.hbmWrite at_ storeBytes)
      let h := x.header (some x.crc)
      let r := x.write (64 * x.slot) (h.take 32) r.1 r.2
      let r := x.write (64 * x.slot + 32) (h.drop 32) r.1 r.2
      (r.1, ((r.2.put Od.CTR_DUMP_LAST_COMPLETE 0 x.seq).put Od.CTR_DUMP_STATE 0 0).cause 33)

/-- The areas of the dump ring in HBM and of the spore ring (R482, R490). -/
def Dev.dumpArea (d : Dev) : Nat × Nat := (d.n Od.CTR_DUMP_RING_BASE 0, 4096 + storeBytes * d.n Od.CTR_DUMP_SLOTS 0)
def Dev.sporeArea (d : Dev) : Nat × Nat := (d.n Od.SPORE_RING_BASE 0, 192 * d.n Od.SPORE_RING_RECORDS 0)

/-- Bytes of the result area of a journal of a length (R512). -/
def resultBytes (len : Nat) : Nat := ceilDiv (len / 160 * 32) 4096 * 4096

/-- The HBM areas whose bases objects set (R206, R492, R512): dump ring, spore ring, table shadow, journal, checkpoint, results. -/
def Dev.areas (d : Dev) : List (Nat × Nat) :=
  [d.dumpArea, d.sporeArea, (d.n Od.EM_SHADOW_BASE 0, 0x4000000), (d.n Od.JOURNAL_BASE 0, d.n Od.JOURNAL_LENGTH 0),
   (d.n Od.JOURNAL_CHECKPOINT_BASE 0, 0x8000000), (d.n Od.REPLAY_RESULT_BASE 0, resultBytes (d.n Od.JOURNAL_LENGTH 0))]

/-- Two areas share a byte. -/
def areaMeets (x y : Nat × Nat) : Bool := decide (x.1 < y.1 + y.2 ∧ y.1 < x.1 + x.2 ∧ 0 < x.2 ∧ 0 < y.2)

/-- Area i stands right (R492): on a 4,096-byte boundary, within HBM, clear of the spill area, the stash area and every other one. -/
def Dev.areaOk (i : Nat) (d : Dev) : Bool :=
  let a := d.areas.getD i (0, 0)
  let others := (d.areas.zipIdx.filter fun x => x.2 != i).map (·.1)
  a.1 % 4096 == 0 && decide (a.1 + a.2 ≤ 0x1000000000) && !areaMeets a (0, 0x840000000) && !others.any (areaMeets a)

/-- A read of n bytes at an address lies in an area. -/
def inArea (x : Nat × Nat) (a n : Nat) : Bool := decide (x.1 ≤ a ∧ a + n ≤ x.1 + x.2)

/-- Bytes of a range of HBM as a read of the dictionary returns them: units with poison read as 0xFF (R484). -/
def Dev.hbmSeen (d : Dev) (m : Memory) (a n : Nat) : List Byte :=
  if d.hbmPoison.isEmpty then m.rdBytes a n
  else (List.range n).map fun i => if d.hbmPoison.contains ((a + i) / 32 * 32) then 0xFF else m.rd (a + i)

/-- The poisoned units under a range. -/
def Dev.hbmBadUnits (d : Dev) (a n : Nat) : Nat := (d.hbmPoison.filter fun u => decide (a ≤ u + 31 ∧ u < a + n)).length

/-- A read of CTR.HBM_READ.DATA (R484): up to 32,768 bytes that stay within the ring its address lies in; none where it lies in neither. -/
def Dev.hbmReadData (m : Memory) (d : Dev) : Option (List Byte) × Dev :=
  let a := d.n Od.CTR_HBM_READ_ADDR 0
  let ring := if inArea d.dumpArea a 1 then some d.dumpArea else if inArea d.sporeArea a 1 then some d.sporeArea else none
  match ring with
  | none => (none, d)
  | some r =>
    let n := min 32768 (r.1 + r.2 - a)
    (some (d.hbmSeen m a n), (d.hbmRead a n).bump Od.CTR_HBM_READ_POISONED 0 (d.hbmBadUnits a n))

/-- Load in per mille (R487). -/
def perMille (frames bytes cap : Nat) : Nat := if cap = 0 then 0 else (bytes + 20 * frames) * 8 * 1000 / cap

/-- A port's window that ended last closes (R487). -/
def Dev.windowClose (p : Nat) (d : Dev) : Dev :=
  let v := d.elems Rg.WIN_END p 5
  let g := fun i => v.getD i 0
  let cap := g 4
  d.each ([d.n Rg.WIN_LAST 0 - 1, g 0, g 1, g 2, g 3, perMille (g 0) (g 1) cap, perMille (g 2) (g 3) cap].zipIdx) fun d x =>
    d.put Od.CTR_PORT_WINDOW_RESULT p x.1 x.2

/-- The spore ring is emptied (R490). -/
def Dev.sporeReset (d : Dev) : Dev := ((d.put Od.SPORE_RING_WRITE 0 0).put Od.SPORE_RING_READ 0 0).put Od.SPORE_RECORD_NUMBER 0 0

/-- The metadata of a spore record (R489); r is its number. -/
def CapJob.meta (j : CapJob) (f : FrameRec) (r : Nat) : List Byte :=
  let x := j.desc
  let b8 := fun (n : Nat) => [BitVec.ofNat 8 n]
  let out := j.egress.isSome
  bytesLE 9 (if x.noIngress then 0 else x.stamp) ++ b8 (1 + flagAt out 1 + flagAt x.noIngress 2 + flagAt f.tailMark 3 + flagAt x.fromMat 4) ++
  bytesLE 2 x.srcPort ++ bytesLE 2 (match j.egress with | some q => q % 32768 | none => 0x7FFF) ++ bytesLE 2 j.sampler ++ bytesLE 2 f.stored.length ++
  b8 (x.cls + flagAt x.preemptible 3 + x.colour * 16 + flagAt (x.epoch == 1) 6 + flagAt (x.pass == 1) 7) ++
  b8 (x.inAction + (if out then x.outAction * 16 else 0)) ++ bytesLE 4 j.tick ++ bytesLE 3 x.finalDest ++
  b8 (x.inOutcome + (if out then x.outOutcome else 5) * 8) ++ bytesLE 4 r

/-- Owner code of a capture (R242). -/
def CapJob.owner (j : CapJob) : Nat := match j.egress with | some q => 0x8000 + q | none => 0x4100

/-- The oldest capture job is served (R266, R489 to R491): within the grants of the buffer banks and of HBM. In mode STOP a record must leave one
index free after it (R490, log entry 18). -/
def Dev.captureJob (k : Clk) (m : Memory) (d : Dev) : Memory × Dev :=
  match d.jobs with
  | [] => (m, d)
  | j :: t =>
    let used := d.n Rg.SPORE_USED 0
    if d.n Od.TICK_PLAN_HBM 0 0 < 192 * (used + 1) ∨ 256 * d.bufGrant k 2 ≤ used then (m, d)
    else
      let d : Dev := { d with jobs := t }.put Rg.SPORE_USED 0 (used + 1)
      match d.frame j.fr with
      | none => (m, d)
      | some f =>
        if f.poisoned.contains 0 then (m, (d.bump Od.FAB_SPORE_SKIPPED 0).release k j.owner j.fr)
        else
          let n := d.n Od.SPORE_RING_RECORDS 0
          let w := d.n Od.SPORE_RING_WRITE 0
          let free := n - (w + n - d.n Od.SPORE_RING_READ 0) % n - 1
          let d := d.release k j.owner j.fr
          if d.n Od.SPORE_RING_MODE 0 = 1 ∧ free < 2 then (m, d.bump Od.SPORE_FULL_DROPS 0)
          else
            let r := d.n Od.SPORE_RECORD_NUMBER 0
            let a := d.n Od.SPORE_RING_BASE 0 + 192 * (r % n)
            let bs := j.meta f r ++ sliceZ f.stored 0 160
            ((m.wrBytes a bs), (((d.hbmWrite a 192).put Od.SPORE_RING_WRITE 0 ((w + 1) % n)).put Od.SPORE_RECORD_NUMBER 0 (r + 1)).bump Od.SPORE_WRITTEN 0)

end Sys2Proof.Machine
end

