-- ==== Sys2Proof/Machine/RecOps.lean ====
section
/-! DEFINITION. The event recorder's store (R499 to R506, R509). -/
namespace Sys2Proof.Machine

/-- Records the store holds (R503). -/
def recMax : Nat := 131072

/-- A record is valid (R505). -/
def recValid (r : List Byte) : Bool := r[63]? == some 0x5A

/-- Bytes are put at an index of the store. -/
def Dev.recPut (i : Nat) (r : List Byte) (d : Dev) : Dev :=
  { d with mram := (d.mram ++ List.replicate (i + 1 - d.mram.length) []).set i r }

/-- REC.WRITE_INDEX advances (R502, R503). -/
def Dev.recAdvance (d : Dev) : Dev :=
  let i := d.n Od.REC_WRITE_INDEX 0 + 1
  let d := d.put Od.REC_WRITE_INDEX 0 i
  if i = recMax then (d.put Od.REC_FULL 0 1).put Od.REC_STATE 0 1 else d

/-- The writer takes the oldest record of its queue (R502, R503). -/
def Dev.recTake (d : Dev) : Dev :=
  match d.recQ with
  | [] => d
  | r :: t =>
    let d : Dev := { d with recQ := t }
    if d.on Od.REC_FULL 0 then d.bump Od.REC_LOST_FULL 0 else (d.recPut (d.n Od.REC_WRITE_INDEX 0) r).recAdvance.cause 35

/-- The writer's turn: every two ticks, and never while clearing (R502, R504). -/
def Dev.recordWrite (k : Clk) (d : Dev) : Dev :=
  if d.recQ.isEmpty || d.on Rg.REC_CLEARING 0 || (d.on Rg.REC_LAST 0 && decide (k.tick < d.n Rg.REC_LAST 0 + 1)) then d
  else d.recTake.put Rg.REC_LAST 0 (k.tick + 1)

/-- The writer writes its whole queue out (R506). -/
def Dev.recFlush (d : Dev) : Dev := d.each (List.range d.recQ.length) fun d _ => d.recTake

/-- A clear begins (R504). -/
def Dev.recClear (k : Clk) (d : Dev) : Dev :=
  if d.on Rg.REC_CLEARING 0 then d else (d.put Rg.REC_CLEARING 0 (k.tick + 1)).put Od.REC_STATE 0 2

/-- Records whose marks are wiped by a tick while clearing: 8 per tick, from the highest (R504). -/
def Dev.recWiped (k : Clk) (d : Dev) : Nat :=
  if d.on Rg.REC_CLEARING 0 then min (d.n Od.REC_WRITE_INDEX 0) (8 * (k.tick + 1 - d.n Rg.REC_CLEARING 0)) else 0

/-- The store as the wiping so far leaves it. -/
def Dev.recStore (k : Clk) (d : Dev) : List (List Byte) :=
  let w := d.n Od.REC_WRITE_INDEX 0
  let n := d.recWiped k
  if n = 0 then d.mram else d.mram.zipIdx.map fun x => if decide (w - n ≤ x.2 ∧ x.2 < w) && decide (63 < x.1.length) then x.1.set 63 0 else x.1

/-- The clear ends (R504). -/
def Dev.recCleared (k : Clk) (d : Dev) : Dev :=
  if d.on Rg.REC_CLEARING 0 && d.recWiped k == d.n Od.REC_WRITE_INDEX 0 then
    let d : Dev := { d with mram := d.recStore k }
    (((d.put Od.REC_WRITE_INDEX 0 0).put Od.REC_FULL 0 0).put Od.REC_STATE 0 0).put Rg.REC_CLEARING 0 0
  else d

/-- A loss of power: the write under way is cut after n bytes (R505), a clear stops where it stands; what is queued or open is lost (R506). -/
def Dev.recCut (k : Clk) (n : Nat) (d : Dev) : Dev :=
  let st := d.recStore k
  let d : Dev := { d with mram := st }
  let d := match d.recQ with
    | r :: _ => if n = 0 ∨ d.on Od.REC_FULL 0 ∨ d.on Rg.REC_CLEARING 0 then d
                else
                  let i := d.n Od.REC_WRITE_INDEX 0
                  let old := sliceZ (d.mram.getD i []) 0 64
                  d.recPut i (if 64 ≤ n then r else r.take (min n 63) ++ old.drop (min n 63))
    | [] => d
  { d with accs := [], recQ := [] }

/-- The crust's check at every start (R505), with REC.STATE as the store stands. -/
def Dev.recCheck (d : Dev) : Dev :=
  let r := d.mram.getD (d.n Od.REC_WRITE_INDEX 0) []
  let d := d.put Od.REC_STATE 0 (if d.on Rg.REC_CLEARING 0 then 2 else if d.on Od.REC_FULL 0 then 1 else 0)
  if recValid r then d.recAdvance else if r.any (· != 0) then d.bump Od.REC_TORN 0 else d

/-- A read of REC.WINDOW (R509). -/
def Dev.recWindow (k : Clk) (d : Dev) : List Byte :=
  let c := d.n Od.REC_CURSOR 0
  let w := d.n Od.REC_WRITE_INDEX 0
  ((((d.recStore k).take w).drop c).filter recValid).take (d.n Od.REC_WINDOW_RECORDS 0) |>.flatten

end Sys2Proof.Machine
end

