-- ==== Sys2Proof/Machine/SlotOps.lean ====
section
/-! DEFINITION. Tree slots: what bars a write (R163), loading (R162), sealing (R164), swapping (R165), repair and copying (R168, R169). -/
namespace Sys2Proof.Machine

/-- Words of a slot (R162). -/
def slotWords : Nat := 393216

/-- States of CLASS.SLOT.STATE (R171). -/
def slLOADING : Nat := 1
def slCHECKING : Nat := 2
def slREADY : Nat := 3
def slFAILED : Nat := 4
def slCURRENT : Nat := 5

/-- A staged write names an object of an instance. -/
def Dev.stagedAny (d : Dev) (t : WriteOp → Bool) : Bool := d.staged.any fun s => s.ops.any t

/-- Why a write of DATA, OFFSET or SEAL to a slot is refused (R163); 0 where it is not. -/
def Dev.slotBar (s : Nat) (d : Dev) : Nat :=
  if d.n Od.CLASS_SLOT_STATE s = slCURRENT then 1
  else if d.n Od.CLASS_DRAIN_COUNT 0 s ≠ 0 then 2
  else if d.n Od.CLASS_SLOT_STATE s = slCHECKING then 3
  else if d.stagedAny fun o => o.idx == 0x3400 && o.sub == 2 && ofBytesLE o.data == s then 4
  else 0

/-- A DATA write of b bytes fits from a word on (R162). -/
def slotFits (offset b : Nat) : Bool := b % 8 == 0 && (b == 0 || decide (offset + b / 8 ≤ slotWords))

/-- A SEAL's values pass (R164). -/
def sealOk (rules lines crc : Nat) : Bool :=
  decide (rules ≤ 98304) && decide (lines ≤ 98304) && !(rules == 0 && (lines != 0 || crc != 0)) && (rules == 0 || decide (256 ≤ lines))

/-- A word is stored in the copy of a sorus: whole again, unless a flip meets it (R469). -/
def Dev.treeCopy (s w v : Nat) (d : Dev) (sorus : Nat) : Dev :=
  let a := s * slotWords + w
  let d := ({ d with treePoison := d.treePoison.filter (· != (sorus, s, w)) } : Dev).unflip 8 sorus a
  let r := d.flip 8 sorus a v
  let bad := fun (d : Dev) => ({ d with treePoison := d.treePoison ++ [(sorus, s, w)] } : Dev)
  if r.1 = 0 then r.2
  else if r.1 ≤ 2 then { r.2 with flipped := r.2.flipped ++ [{ mem := 8, die := sorus, addr := a, bits := r.1 }] }
  else if r.1 = 3 then bad r.2
  else let q := r.2.fresh; if q.1 % 2 = 1 then bad q.2 else q.2

/-- The retained copies of parked sori fall behind the running ones (R618). -/
def Dev.treeStale (d : Dev) : Dev :=
  d.each ((List.range 8).filter fun s => decide (2 ≤ d.n Od.POWER_SORUS_STATE s)) fun d s => d.put Rg.TREE_STALE s 1

/-- Whether a line's poison in every copy has been reported becomes v (R168). -/
def Dev.lineTold (s line v : Nat) (d : Dev) : Dev :=
  let i := 2 * s + line / 65536
  if d.n Rg.TREE_TOLD i (line % 65536) = v then d else d.put Rg.TREE_TOLD i v (line % 65536)

/-- Word w of a slot becomes v, in the copies of all eight sori (R162, R168). -/
def Dev.treeStore (s : Nat) (d : Dev) (x : Nat × Nat) : Dev :=
  let key := s * slotWords + x.1
  let d : Dev := { d with tree := if x.2 = 0 then d.tree.del key else d.tree.put key x.2 }
  let d := d.lineTold s (x.1 / 4) 0
  if d.treePoison.isEmpty && d.flipped.isEmpty && !d.on Od.INTEG_FLIP_ARM 0 then d else d.each (List.range 8) (Dev.treeCopy s x.1 x.2)

/-- The little-endian 64-bit words of a byte string. -/
def wordsLE (bs : List Byte) : List Nat := (List.range (bs.length / 8)).map fun i => ofBytesLE ((bs.drop (8 * i)).take 8)

/-- A DATA write applies (R162); a seal check under way is abandoned (R164). -/
def Dev.slotData (s : Nat) (bs : List Byte) (d : Dev) : Dev :=
  let o := d.n Od.CLASS_SLOT_OFFSET s
  let ws := wordsLE bs
  if ws.isEmpty then d
  else
    let d := (d.each (ws.zipIdx.map fun x => (o + x.2, x.1)) (Dev.treeStore s)).treeStale
    (d.put Od.CLASS_SLOT_OFFSET s (o + ws.length)).put Od.CLASS_SLOT_STATE s slLOADING

/-- The rule counters of a slot are set to zero (R164, R173). -/
def Dev.zeroRules (s : Nat) (d : Dev) : Dev :=
  let os := [(ruleObj s 0).1, (ruleObj s 65536).1]
  let d := d.each os Dev.clearObj
  { d with poison := d.poison.filter fun k => !(os.any fun o => keyObj k == o.idx * 256 + o.sub) }

/-- A SEAL write applies (R164). -/
def Dev.slotSeal (k : Clk) (s rules lines crc : Nat) (d : Dev) : Dev :=
  let d := ((d.put Od.CLASS_SLOT_SEAL s rules 0).put Od.CLASS_SLOT_SEAL s lines 1).put Od.CLASS_SLOT_SEAL s crc 2
  ((d.put Od.CLASS_SLOT_STATE s slCHECKING).put Rg.SEAL_CLOCK s (k.raw / 64 + 1)).zeroRules s |>.treeStale

/-- The CRC a seal check finds (R164). -/
def Dev.slotCrc (d : Dev) (s : Nat) : Nat :=
  (List.range (4 * d.n Od.CLASS_SLOT_SEAL s 1)).foldl (fun c w => (bytesLE 8 (d.treeWord s w)).foldl crc32Byte c) 0xFFFFFFFF ^^^ 0xFFFFFFFF

/-- The seal check has ended before the boundary that opened the tick now open (R164): one word per clock. -/
def Dev.sealChecked (k : Clk) (s : Nat) (d : Dev) : Bool :=
  d.n Od.CLASS_SLOT_STATE s == slCHECKING && decide (d.n Rg.SEAL_CLOCK s + max 1 (4 * d.n Od.CLASS_SLOT_SEAL s 1) ≤ k.raw / 64 + 1)

/-- The seal check's outcome (R164). -/
def Dev.sealEnd (s : Nat) (d : Dev) : Dev :=
  let c := d.slotCrc s
  (d.put Od.CLASS_SLOT_COMPUTED_CRC s c).put Od.CLASS_SLOT_STATE s (if c = d.n Od.CLASS_SLOT_SEAL s 2 then slREADY else slFAILED)

/-- A swap may name a slot (R165): READY or CURRENT, with no write of it staged. -/
def Dev.swapOk (s : Nat) (d : Dev) : Bool :=
  (d.n Od.CLASS_SLOT_STATE s == slREADY || d.n Od.CLASS_SLOT_STATE s == slCURRENT) &&
    !(d.stagedAny fun o => o.idx == 0x3410 && o.inst == s && (o.sub == 2 || o.sub == 3 || o.sub == 4))

/-- A staged swap applies at step 3 of the boundary that opens the clock's tick (R165). -/
def Dev.swapTo (k : Clk) (s : Nat) (d : Dev) : Dev :=
  if d.n Od.CLASS_EPOCH 0 = s then d
  else
    let d := (d.put Od.CLASS_SLOT_STATE s slCURRENT).put Od.CLASS_SLOT_STATE (1 - s) slREADY
    (((d.put Od.CLASS_EPOCH 0 s).bump Od.CLASS_SWAPS 0).put Od.CLASS_SWAP_TICK 0 k.tick).treeStale

/-- A poisoned line of a sorus is rewritten from the first other sorus whose copy is whole (R168); bad copies met on the way are findings.
The event for a line without a whole copy is raised once, until the line is whole again. -/
def Dev.treeRepair (k : Clk) (sorus s line : Nat) (d : Dev) : Dev :=
  let ws := (List.range 4).map (4 * line + ·)
  let bad := fun (d : Dev) (o : Nat) => ws.any fun w => d.treeBad o s w
  if !bad d sorus then d
  else
    let others := (List.range 8).filter fun o => o != sorus && d.sorusRuns o
    let seen := others.takeWhile (bad d)
    let src := others.find? fun o => !bad d o
    let read := seen ++ (match src with | some o => [o] | none => [])
    let d := d.each read fun d o =>
      let d := d.readFlips 8 o (s * slotWords + 4 * line) 4
      { d with found := d.found ++ (ws.filter fun w => d.treeBad o s w).map fun w => ({ mem := 8, die := o, addr := s * slotWords + w, bits := 3 } : Found) }
    match src with
    | some _ =>
      let d : Dev := { d with treePoison := d.treePoison.filter fun x => !(x.1 == sorus && x.2.1 == s && x.2.2 / 4 == line) }
      ((d.each ws fun d w => d.unflip 8 sorus (s * slotWords + w)).bump Od.CLASS_REPAIRS 0).lineTold s line 0
    | none => if d.on Rg.TREE_TOLD (2 * s + line / 65536) (line % 65536) then d else (d.lineTold s line 1).event k 0x0601 s 0 (bytesLE 4 line)

/-- A reset or woken sorus copies both slots from the lowest-numbered running one (R169): its copy is as whole as that. -/
def Dev.treeRecopy (sorus from_ : Nat) (d : Dev) : Dev :=
  let d : Dev := { d with treePoison := d.treePoison.filter fun x => x.1 != sorus, flipped := d.flipped.filter fun f => !(f.mem == 8 && f.die == sorus) }
  { d with treePoison := d.treePoison ++ (d.treePoison.filter fun x => x.1 == from_).map fun x => (sorus, x.2) }

end Sys2Proof.Machine
end

