-- ==== Sys2Proof/Machine/Live.lean ====
section
/-! DEFINITION. Reads of objects (R14, R16, R45, R566 to R569): those whose value is stored, those that report other state, and what a read changes. -/
namespace Sys2Proof.Machine

/-- An entry of CTR.MAP (R477): INDEX 63..48, SUB 47..40, pairs per instance in 39..37, INSTANCES 36..20, BASE 19..0. -/
def mapEntry (e : Nat) : Nat :=
  match ctrRegions[e]? with
  | some (o, base) => o.idx * 2 ^ 48 + o.sub * 2 ^ 40 + o.pairs * 2 ^ 37 + (o.insts + 1) * 2 ^ 20 + base
  | none => 0

/-- Some item of the perturbation engine is active in this tick (R537). -/
def Dev.perturbed (k : Clk) (d : Dev) : Bool :=
  d.on Od.PERTURB_ENABLE 0 &&
    ((d.insts Od.PERTURB_PORT_TICKS).any (fun p => d.portWindow k p) ||
     (d.insts Od.PERTURB_PULSE_TICKS).any (fun e => d.window k (d.n Od.PERTURB_PULSE_START_TICK e) (d.n Od.PERTURB_PULSE_TICKS e)) ||
     (d.insts Od.PERTURB_STALL_TICKS).any (fun e => d.window k (d.n Od.PERTURB_STALL_START_TICK e) (d.n Od.PERTURB_STALL_TICKS e)) ||
     (d.insts Od.PERTURB_FAULT_TICKS).any (fun e => d.window k (d.n Od.PERTURB_FAULT_START_TICK e) (d.n Od.PERTURB_FAULT_TICKS e)))

/-- Flags as a number, flag i in bit i. -/
def flagBits (n : Nat) (f : Nat → Bool) : Nat := ((List.range n).map fun i => if f i then 2 ^ i else 0).sum

/-- Offsets of a port whose gates are open for a copy chosen now (R344). -/
def Dev.gateState (k : Clk) (d : Dev) (p : Nat) : Nat :=
  flagBits 16 fun o =>
    (d.operList p).openAt (d.changeAt k p) o (d.leaveTime k p (if d.preemptive p && o % 2 == 1 then 1 else 0))

/-- The value of element e of instance i at the clock: of an object that reports other state what it reports, else what is stored. A class is held from the end of
its frame in transmission on (R106). -/
def Dev.value (k : Clk) (d : Dev) (o : Obj) (i e : Nat) : Int :=
  let nat := fun (n : Nat) => (n : Int)
  match o.idx * 256 + o.sub with
  | 0x110001 => nat k.tick
  | 0x21400A => nat (flagBits 8 fun c => d.classHeld k i c && d.tx.all fun t => !(t.port == i && decide (t.path < 2) && t.copy.queue % 16 / 2 == c))
  | 0x380002 => nat d.emValid.length
  | 0x400001 => nat d.freeAll
  | 0x400002 => nat ((d.frames.map (·.reserved)).sum)
  | 0x400003 => nat d.freeDescs
  | 0x400006 => nat d.jobs.length
  | 0x400040 => nat d.cellsOut
  | 0x400041 => nat d.pagesUsed
  | 0x400046 => nat d.creditFloor
  | 0x401002 => nat (d.depth i)
  | 0x401003 => nat (d.queue i).length
  | 0x401014 => nat (d.queuePages i)
  | 0x402002 => nat (d.ingress i e)
  | 0x402022 => if d.creditClass i e then d.balance i e else 0
  | 0x406002 => nat (flagBits 16 fun x =>
      let m := d.n Od.FAB_LAG_MEMBERS i x
      bit m 15 && d.portExists (bits m 9 0) && d.link (bits m 9 0) == lkUP)
  | 0x480002 => nat d.xferBacklog
  | 0x480004 => nat d.poolHeld
  | 0x481004 => nat (d.poolBufs i).length
  | 0x481006 => nat ((d.poolBufs i).filter fun b => b.slot.isSome && !b.stashing).length
  | 0x508005 => nat (d.queuedBytes k i)
  | 0x508006 => if d.preemptive i then 2 else 1
  | 0x510010 => nat (d.gateState k i)
  | 0x601001 => nat (viewTime80 (d.viewNow k i))
  | 0x601002 => if d.on Rg.NOW_SUB i then nat (d.n Rg.NOW_SUB i - 1) else nat (d.viewNow k i % 65536)
  | 0x60100B =>
    let p := d.viewSet i
    nat ([p.anchor % 2 ^ 64, p.anchor / 2 ^ 64, ofSigned 128 p.offset % 2 ^ 64, ofSigned 128 p.offset / 2 ^ 64].getD e 0)
  | 0x600001 => nat ([k.now % 2 ^ 64, k.now / 2 ^ 64].getD e 0)
  | 0x701002 => nat (flagBits 16 fun x =>
      let m := d.n Od.MAT_TRUNK_PORTS i x
      bit m 15 && d.link (bits m 9 0) == lkUP)
  | 0x80000A => nat (mapEntry e)
  | 0x804001 =>
    let used := d.n Rg.SLOT_USED i
    if d.n Od.RESET_STATE 0 ≠ 1 ∨ !d.sorusRuns (i / 8) then d.get o i e
    else if e = 0 then d.get o i e + nat (max k.c used)
    else if e = 3 then d.get o i e + nat (k.c - used)
    else d.get o i e
  | 0x880008 => nat d.recQ.length
  | 0x980003 => if d.perturbed k then 1 else 0
  | 0x120005 => nat (((d.sess.find? fun s => s.opened && s.num % 16 == e).map (·.num)).getD 0)
  | 0xB01008 => nat (d.backlog.filter (·.ring == i)).length
  | 0xB01009 => nat (d.bufs.filter fun b => b.owner == 8 + i).length
  | 0x100025 => if d.on Rg.OP_CAP 0 then nat (d.n Rg.OP_CAP 0 - 1) else d.get o i e
  | _ => d.get o i e

/-- The regions of the checkpoint area whose contents the spec leaves open (R522), as offsets. -/
def internalAt (off : Nat) : Bool :=
  decide ((0x9000 ≤ off ∧ off < 0x100000) ∨ (0x5200000 ≤ off ∧ off < 0x5E00000) ∨ (0x6400000 ≤ off ∧ off < 0x7400000))

/-- Bytes of the journal's areas as a read returns them (R534): what the spec leaves open of a checkpoint is free. -/
def Dev.journalSeen (d : Dev) (m : Memory) (a n : Nat) : List Byte :=
  let c := d.n Od.JOURNAL_CHECKPOINT_BASE 0
  match d.ckpt with
  | none => d.hbmSeen m a n
  | some x => (d.hbmSeen m a n).zipIdx.map fun b =>
      let at_ := a + b.2
      if c ≤ at_ ∧ internalAt (at_ - c) then Config.internalByte x.free (at_ - c) else b.1

/-- A read of JOURNAL.HBM.DATA (R534): bytes from ADDR that stay within the area it lies in; none outside the three areas. -/
def Dev.journalRead (m : Memory) (d : Dev) : Option (List Byte) × Dev :=
  let a := d.n Od.JOURNAL_HBM_ADDR 0
  match ([3, 4, 5].map fun i => d.areas.getD i (0, 0)).find? fun r => inArea r a 1 with
  | none => (none, d)
  | some r => let n := min 32768 (r.1 + r.2 - a); (some (d.journalSeen m a n), d.hbmRead a n)

/-- The bytes of a BLOB or STR at the clock, with what its read changes; none where the read is refused. -/
def Dev.blobRead (k : Clk) (m : Memory) (o : Obj) (i : Nat) (d : Dev) : Option (List Byte) × Dev :=
  match o.idx * 256 + o.sub with
  | 0x341003 =>
    let off := d.n Od.CLASS_SLOT_OFFSET i
    (some ((List.range (min 4096 (slotWords - off))).flatMap fun w => bytesLE 8 (d.treeSeen i (off + w))), d)
  | 0x80000C => d.hbmReadData m
  | 0x900015 => d.journalRead m
  | 0x880006 => (some (d.recWindow k), d)
  | _ => (some (d.past.blob o i), d)

/-- The words of an array that pops a FIFO at its read (R382, R399), and the FIFO after it. -/
def Dev.popRead (o : Obj) (i : Nat) (d : Dev) : Option (List Nat × Dev) :=
  match o.idx * 256 + o.sub with
  | 0x604008 => some (d.tioNext i)
  | 0x680006 => let r := d.captureNext; some (wordsLE r.1, r.2)
  | _ => none

/-- An element of an RC object is cleared; what this clock added to it, after the value read, stays (R14, R16). -/
def Dev.readCleared (o : Obj) (i e : Nat) (d : Dev) : Dev :=
  let more := d.get o i e - d.now.was.rd o i e
  let d := d.set o i (o.default i e + max 0 more) e
  { d with now := { d.now with was := d.now.was.wr o i e (o.default i e) } }

/-- A read captures what a later one returns, in this clock too (R13, R671). -/
def Dev.captured13 (o : Obj) (i v : Nat) (d : Dev) : Dev := { d.put o i v with now := { d.now with was := d.now.was.wr o i 0 v } }

/-- A read changes what it captures (R13, R671) or clears (R14, R16). -/
def Dev.readDone (k : Clk) (o : Obj) (i : Nat) (es : List Nat) (d : Dev) : Dev :=
  match o.idx * 256 + o.sub with
  | 0x601001 => d.captured13 Rg.NOW_SUB i (d.viewNow k i % 65536 + 1)
  | 0x100024 => d.captured13 Rg.OP_CAP 0 (d.past.n Od.DEVICE_OP_SECONDS 0 + 1)
  | _ => if o.acc = .rc then d.each es fun d e => d.readCleared o i e else d

/-- The stored value of an object's instance is poisoned (R456, R457): a counter's or another state's word, or the dictionary's own copy. -/
def Dev.readBad (d : Dev) (o : Obj) (i : Nat) : Bool :=
  d.dictPoison.contains ((o.idx * 256 + o.sub) * 65536 + i) || ((o.acc != .rw || o.ctr) && d.poisoned o i)

/-- The words of the counter store that a read of an object's elements meets are findings where they are poisoned or flipped (R456, R459, R463). -/
def Dev.counterFound (o : Obj) (i : Nat) (es : List Nat) (d : Dev) : Dev :=
  if !o.ctr || (d.poison.isEmpty && d.flipped.isEmpty) then d
  else d.each es fun d e => match ctrWord o i e with
    | some a =>
      if d.poison.contains (o.key i e) then { d with found := d.found ++ [{ mem := 4, die := 8, addr := a, bits := 3 }] } else d.readFlips 4 8 a 1
    | none => d

/-- A read of elements of an object, or of a whole BLOB (R566, R568): status 0 with the bytes, 13 POISONED, 8 where the object's rule refuses the read. -/
def Dev.readBytes (k : Clk) (m : Memory) (o : Obj) (i first count : Nat) (d : Dev) : Nat × List Byte × Dev :=
  let d := d.counterFound o i ((List.range count).map (first + ·))
  if d.readBad o i then (13, [], d.when o.ctr fun d => d.bump Od.INTEG_STATE_RESETS 0)
  else if o.ofPort && !d.portExists i then (0, (List.range count).flatMap fun e => o.ty.encode (o.default i (first + e)), d)
  else if o.isBytes then
    match d.blobRead k m o i with
    | (some bs, d) => (0, bs, d)
    | (none, d) => (8, [], d)
  else
    let es := (List.range count).map (first + ·)
    match d.popRead o i with
    | some (ws, e) => (0, es.flatMap fun x => o.ty.encode (ws.getD x 0), e)
    | none => (0, es.flatMap fun e => o.ty.encode (d.past.value k o i e), d.readDone k o i es)

end Sys2Proof.Machine
end

