-- ==== Sys2Proof/Machine/JournalOps.lean ====
section
/-! DEFINITION. The journal: its start and checkpoint (R513, R521, R522), its writer (R520), its stop (R523, R524), loading through the dictionary (R534). -/
namespace Sys2Proof.Machine

/-- The fabric holds nothing and no pipeline holds a packet (R513). -/
def Dev.clean (d : Dev) : Bool :=
  (d.frames.map (·.reserved)).sum == 0 && d.poolHeld == 0 && !d.rx.any fun f => f.phase == 1 || f.phase == 3

/-- What the journal records of a port's link: its state and active lanes (R517, R518). -/
def Dev.linkCode (d : Dev) (p : Nat) : Nat := d.link p * 16 + d.n Od.PORT_ACTIVE_LANES p + 1

/-- Ports that have or had a link state away from the default. -/
def Dev.linkPorts (d : Dev) : List Nat := ((d.insts Od.PORT_LINK_STATE) ++ d.insts Od.PORT_ACTIVE_LANES ++ d.insts Rg.J_LINK).dedup

/-- The journal starts at the boundary that opened the clock's tick (R513): objects, the checkpoint's state, usage bits. -/
def Dev.journalBegin (k : Clk) (d : Dev) : Dev :=
  let clean := d.clean
  let d := d.each [Od.JOURNAL_STOP_TICK, Od.JOURNAL_STOP_REASON, Od.JOURNAL_CHECKPOINT_DONE, Od.JOURNAL_RECORDS, Od.JOURNAL_LOST,
    Od.JOURNAL_FIRST_LOSS_TICK, Od.JOURNAL_MIXED, Rg.USE_METER, Rg.USE_STREAM, Rg.J_FRAME, Rg.J_CARRY, Rg.J_TRIGGER, Rg.J_COPIED, Rg.J_LOST, Rg.J_LINK] Dev.clearObj
  let d := d.each d.linkPorts fun d p => d.put Rg.J_LINK p (d.linkCode p)
  let d := ((d.put Od.JOURNAL_START_TICK 0 k.tick).put Od.JOURNAL_CLEAN_START 0 (if clean then 1 else 0)).put Od.JOURNAL_STATE 0 2
  let d : Dev := { d with jstage := [], jtab := [], now := { d.now with jrecs := [] }, rx := d.rx.map fun f => { f with jid := 0 } }
  let r := d.fresh
  let c : Ckpt :=
    { tick := k.tick, raw := k.raw, len := k.len, clean := clean, level := d.n Od.DEVICE_BEHAVIOUR_LEVEL 0, free := r.1, objs := d.objs, poison := d.poison
      em := d.em, tree := d.tree, views := d.views, gpend := d.gpend, sgate := d.sgate
      sgateOld := d.sgateOld, emPoison := d.emPoison }
  { r.2 with ckpt := some c }

/-- Regions of the checkpoint (R522) with the bytes their CRC covers: offset, length, whether the contents are internal. -/
def ckptRegions : List (Nat × Nat × Bool) :=
  [(0x9000, 0xF7000, true), (0x100000, 0x4000000, false), (0x4100000, 0x100000, false), (0x4200000, 0x1000000, false), (0x5200000, 0x800000, true),
   (0x5A00000, 0x400000, true), (0x5E00000, 0x600000, false), (0x6400000, 0x1000000, true)]

/-- The words of a store go to HBM from an address on, 8 bytes each. -/
def storeOut (a : Nat) (s : Store) (m : Memory) : Memory := s.foldl (fun m x => m.wrBytes (a + 8 * x.1) (bytesLE 8 x.2.toNat)) m

/-- A bitmap of positions goes to HBM. -/
def bitsOut (a : Nat) (ps : List Nat) (m : Memory) : Memory :=
  ps.foldl (fun m p => m.wr (a + p / 8) (m.rd (a + p / 8) ||| BitVec.ofNat 8 (2 ^ (p % 8)))) m

/-- The CRCs of the checkpoint's header (R522); those of internal regions are free. -/
def ckptCrcs (free base : Nat) (m : Memory) : List Byte :=
  (ckptRegions.zipIdx.map fun r =>
    if r.1.2.2 then (List.range 4).map fun j => Config.internalByte free (0x8000000 + 4 * r.2 + j)
    else bytesLE 4 (crc32 (m.rdBytes (base + r.1.1) r.1.2.1))).flatten

/-- The copy of the checkpoint ends: its regions and its header (R521, R522). -/
def Dev.checkpointWrite (c : Ckpt) (m : Memory) (d : Dev) : Memory :=
  let base := d.n Od.JOURNAL_CHECKPOINT_BASE 0
  let at0 : Dev := { d with objs := c.objs, poison := c.poison }
  let m := m.clear base (base + 0x7400000)
  let word := fun (w : Nat) => (c.em.filter fun x => x.1 % 4 == w).map fun x => (2 * (x.1 / 4) + w, x.2)
  let m := storeOut (base + 0x100000) (word 0) m
  let m := storeOut (base + 0x100000) (word 1) m
  let m := bitsOut (base + 0x4100000) ((c.em.filter fun x => x.1 % 4 == 2 && x.2 != 0).map fun x => x.1 / 4) m
  let m := bitsOut (base + 0x4180000) ((c.em.filter fun x => x.1 % 4 == 3 && x.2 != 0).map fun x => x.1 / 4) m
  let m := storeOut (base + 0x4200000) at0.snapshot m
  let m := storeOut (base + 0x5E00000) c.tree m
  let head := bytesLE 4 1 ++ [BitVec.ofNat 8 c.level, if c.clean then 1 else 0, 1, 0] ++ bytesLE 8 c.tick ++ bytesLE 9 c.raw ++ List.replicate 7 0
  m.wrBytes base (head ++ ckptCrcs c.free base m)

/-- The checkpoint copy is complete (R521). -/
def Dev.checkpointDone (m : Memory) (d : Dev) : Memory × Dev :=
  match d.ckpt with
  | some c =>
    if !d.on Od.JOURNAL_CHECKPOINT_DONE 0 && decide (0x7400000 ≤ d.n Rg.J_COPIED 0) then
      (d.checkpointWrite c m, (d.hbmWrite (d.n Od.JOURNAL_CHECKPOINT_BASE 0) 0x7400000).put Od.JOURNAL_CHECKPOINT_DONE 0 1)
    else (m, d)
  | none => (m, d)

/-- Records the journal area holds (R512, R524). -/
def Dev.journalRoom (d : Dev) : Nat := d.n Od.JOURNAL_LENGTH 0 / 160

/-- One record goes to the journal area (R519). -/
def Dev.journalPut (bs : List Byte) (m : Memory) (d : Dev) : Memory × Dev :=
  let i := d.n Od.JOURNAL_RECORDS 0
  let a := d.n Od.JOURNAL_BASE 0 + 160 * i
  (m.wrBytes a bs, (d.hbmWrite a 160).put Od.JOURNAL_RECORDS 0 (i + 1))

/-- Records are written from the staging memory while they are complete and the bytes in hand and the area admit them (R520). -/
def Dev.journalWrite : Nat → Memory → Dev → Memory × Dev
  | 0, m, d => (m, d)
  | n + 1, m, d =>
    match d.jstage with
    | r :: t =>
      if r.fin ∧ 160 ≤ d.n Rg.J_CARRY 0 ∧ d.n Od.JOURNAL_RECORDS 0 + 1 < d.journalRoom then
        let x := ({ d with jstage := t } : Dev).journalPut r.bytes m
        Dev.journalWrite n x.1 (x.2.put Rg.J_CARRY 0 (d.n Rg.J_CARRY 0 - 160))
      else (m, d)
    | [] => (m, d)

/-- The table changes of a tick join the records, by bank (R519). -/
def Dev.journalTabs (d : Dev) : Dev :=
  let tabs := (List.range 256).flatMap fun b => (d.jtab.filter fun x => x.1 / 16384 == b).map fun x => ({ frame := false, bytes := x.2 } : JRec)
  { d with jstage := d.jstage ++ tabs, jtab := [] }

/-- A tick of the journal's writer: the table changes of the tick that ends join the records, then the writer uses the tick's bytes (R519, R520). -/
def Dev.journalTick (m : Memory) (d : Dev) : Memory × Dev :=
  if !d.recording then
    (m, if d.ckpt.isSome && !d.on Od.JOURNAL_CHECKPOINT_DONE 0 then d.put Rg.J_COPIED 0 (d.n Rg.J_COPIED 0 + 62500) else d)
  else
    let copying := decide (d.n Rg.J_COPIED 0 < 0x7400000)
    let d := d.journalTabs.when copying fun d => d.put Rg.J_COPIED 0 (d.n Rg.J_COPIED 0 + 62500)
    let d := d.put Rg.J_CARRY 0 (d.n Rg.J_CARRY 0 + (if copying then 62500 else 125000))
    d.journalWrite d.jstage.length m

/-- A tick of 799 or 801 clocks and the link states that changed at the boundary that opened it are recorded (R517). -/
def Dev.journalOpen (k : Clk) (d : Dev) : Dev :=
  if !d.recording then d
  else
    let d := d.when (k.len != 800) fun d => d.jcontrol k 1 k.tick 0 0 (bytesLE 2 k.len) []
    d.each (d.linkPorts.filter fun p => d.n Rg.J_LINK p != d.linkCode p) fun d p =>
      (d.jcontrol k 4 k.tick 0 0 (bytesLE 2 p ++ [BitVec.ofNat 8 (d.link p), BitVec.ofNat 8 (d.n Od.PORT_ACTIVE_LANES p)]) []).put Rg.J_LINK p (d.linkCode p)

/-- A write that applies at a boundary is recorded in its parts (R517). -/
def Dev.journalWriteOp (k : Clk) (w : WriteOp) (d : Dev) : Dev :=
  if !d.recording || decide (0x9000 ≤ w.idx ∧ w.idx ≤ 0x91FF) then d
  else
    let head := bytesLE 2 w.idx ++ bytesLE 2 w.inst ++ [BitVec.ofNat 8 w.sub, 0, 0, 0] ++ bytesLE 4 w.data.length
    d.each (List.range (max 1 (ceilDiv w.data.length 128))) fun d p => d.jcontrol k 2 k.tick 0 p head ((w.data.drop (128 * p)).take 128)

/-- The usage bits of a kind of unit as a bitmap (R523): unit u's bits J and O in bits 2u and 2u + 1. -/
def Dev.usageBits (o : Obj) (d : Dev) : List Nat :=
  (d.insts o).flatMap fun u => (if bit (d.n o u) 0 then [2 * u] else []) ++ (if bit (d.n o u) 1 then [2 * u + 1] else [])

/-- Units of a kind that both journalled and other frames reached (R523). -/
def Dev.mixed (o : Obj) (d : Dev) : Nat := ((d.insts o).filter fun u => d.n o u == 3).length

/-- The journal stops (R523, R524), one that still waits for a clean fabric without a record: the records in staging, as far as the area holds them, the bitmaps, END. -/
def Dev.journalStop (k : Clk) (reason : Nat) (m : Memory) (d : Dev) : Memory × Dev :=
  if d.n Od.JOURNAL_STATE 0 = 1 then (m, d.put Od.JOURNAL_STATE 0 0)
  else if !d.recording then (m, d)
  else
    let d := d.journalTabs
    let d : Dev := { d with jstage := d.jstage.map fun (x : JRec) => { x with fin := true } }
    let d := d.put Rg.J_CARRY 0 (160 * d.jstage.length)
    let r := d.journalWrite d.jstage.length m
    let lost := (r.2.jstage.filter (·.frame)).length
    let d := r.2.each (List.range lost) fun d _ => d.jlose k
    let cp := d.n Od.JOURNAL_CHECKPOINT_BASE 0
    let m := bitsOut (cp + 0x1000) (d.usageBits Rg.USE_METER) (r.1.clear (cp + 0x1000) (cp + 0x9000))
    let m := bitsOut (cp + 0x5000) (d.usageBits Rg.USE_STREAM) m
    let d := (d.put Od.JOURNAL_MIXED 0 (d.mixed Rg.USE_METER) 0).put Od.JOURNAL_MIXED 0 (d.mixed Rg.USE_STREAM) 1
    let total := d.n Rg.J_FRAME 0 - d.n Od.JOURNAL_LOST 0
    let end_ := bytesLE 8 k.tick ++ [6, 3] ++ List.replicate 6 0 ++ sliceZ ([BitVec.ofNat 8 reason] ++ bytesLE 8 total ++ bytesLE 8 (d.n Od.JOURNAL_LOST 0)) 0 144
    let r := ({ d with jstage := [], jtab := [], now := { d.now with jrecs := [] } } : Dev).journalPut end_ m
    (r.1, ((r.2.note Od.JOURNAL_STATE 3 39).put Od.JOURNAL_STOP_REASON 0 reason).put Od.JOURNAL_STOP_TICK 0 k.tick)

/-- The area is full but for END (R524). -/
def Dev.journalFull (d : Dev) : Bool := d.recording && decide (d.journalRoom ≤ d.n Od.JOURNAL_RECORDS 0 + 1)

/-- The trigger's stop is due (R524). -/
def Dev.journalTriggered (k : Clk) (d : Dev) : Bool :=
  let c := d.n Od.JOURNAL_TRIGGER_CODE 0
  let t := d.n Rg.J_TRIGGER c
  d.recording && c != 0 && t != 0 && decide (t - 1 + d.n Od.JOURNAL_TRIGGER_AFTER 0 ≤ k.tick)

/-- A write of JOURNAL.START 1 or 2 applies (R513). -/
def Dev.journalAsk (k : Clk) (v : Nat) (d : Dev) : Dev :=
  if v = 1 then d.journalBegin k else if v = 2 then d.put Od.JOURNAL_STATE 0 1 else d

/-- A checkpoint taken here becomes bytes of HBM (R522), once it is to be changed or read as another unit's. -/
def Dev.checkpointOut (m : Memory) (d : Dev) : Memory × Dev :=
  match d.ckpt with
  | none => (m, d)
  | some c =>
    let base := d.n Od.JOURNAL_CHECKPOINT_BASE 0
    ((ckptRegions.filter (·.2.2)).foldl (fun m r => m.wrBytes (base + r.1) ((List.range r.2.1).map fun i => Config.internalByte c.free (r.1 + i))) m,
     { d with ckpt := none })

/-- A write of JOURNAL.HBM.DATA applies (R534). -/
def Dev.journalLoad (bs : List Byte) (m : Memory) (d : Dev) : Memory × Dev :=
  let a := d.n Od.JOURNAL_HBM_ADDR 0
  let r := if inArea (d.areas.getD 4 (0, 0)) a bs.length then d.checkpointOut m else (m, d)
  (r.1.wrBytes a bs, r.2.hbmWrite a bs.length)

end Sys2Proof.Machine
end

