-- ==== Sys2Proof/Machine/ResetOps.lean ====
section
/-! DEFINITION. Resets of a sorus and of a pipeline, parking and waking a sorus, idle (R601 to R607, R618 to R620). -/
namespace Sys2Proof.Machine

/-- The existing ports of a sorus. -/
def Dev.sorusPorts (d : Dev) (s : Nat) : List Nat := ((List.range 128).map (128 * s + ·)).filter d.portExists

/-- Resets of a kind of R601 are counted (R622). -/
def Dev.countReset (kind : Nat) (d : Dev) : Dev := d.bump Od.RESET_COUNTS 0 1 (kind - 1)

/-- A milder reset is noted for its boundary: a sorus's under its number, a pipeline's under 8 more (R602). -/
def Dev.mildReset (n : Nat) (d : Dev) : Dev :=
  { d.countReset (if n < 8 then 4 else 5) with now := { d.now with resets := n :: d.now.resets } }

/-- Milder resets of this boundary that a stronger one covers are discarded without count (R602). -/
def Dev.covers (on : Nat → Bool) (d : Dev) : Dev :=
  let n := fun (o : Nat → Bool) => (d.now.resets.filter fun x => on x && o x).length
  let d := (d.put Od.RESET_COUNTS 0 (d.n Od.RESET_COUNTS 0 3 - n fun x => decide (x < 8)) 3).put Od.RESET_COUNTS 0
    (d.n Od.RESET_COUNTS 0 4 - n fun x => decide (8 ≤ x)) 4
  { d with now := { d.now with resets := d.now.resets.filter fun x => !on x } }

/-- A copy in transmission ends here with a stomped FCS (R605, R94). -/
def Dev.cutCopy (k : Clk) (d : Dev) (t : TxCopy) : Dev :=
  let t' : TxCopy := { t with stomp := true, giant := false, frame := t.frame.take (d.txSent k t) }
  (d.updTx t.port t.path fun _ => t').copyEnd k t'

/-- Copies in transmission on some ports end stomped. -/
def Dev.cutCopies (k : Clk) (on : Nat → Bool) (d : Dev) : Dev :=
  d.each (d.tx.filter fun t => on t.port && decide (t.path < 2)) (Dev.cutCopy k)

/-- A frame in a MAC or pipeline is discarded (R605): one already handed over ends here, bad, and what it was to bring to the host is gone. -/
def Dev.discardRx (k : Clk) (d : Dev) (f : RxFrame) : Dev :=
  let d : Dev := { d with rx := d.rx.erase f }
  if f.phase = 1 ∨ f.phase = 3 then
    let d := if f.phase = 3 then d else (match f.fr with | some id => d.tailIn k id 4 | none => d).jend f.jid 4 (k.clock - f.entry)
    let d := match f.fr with | some id => d.hostCopies k id | none => d
    d.drain f.desc.epoch ((f.host.filter fun r => r.2 != 6).length + if f.mgmt then 1 else 0)
  else d

/-- Objects whose instances stand for parts of a sorus: lanes, ports, queues, pipelines. -/
def Obj.ofSorus (o : Obj) (s i : Nat) : Bool := decide (7 ≤ o.insts) && i * 8 / (o.insts + 1) == s

/-- The S and F items of a sorus return to their defaults (R18, R605); its buckets fill (R337). -/
def Dev.sorusItems (s : Nat) (d : Dev) : Dev :=
  let l := Od.all.filter fun o => o.kept == .s || o.kept == .f
  let d := d.each l fun d o => d.each ((d.insts o).filter (o.ofSorus s)) fun d i => d.clearInst o i
  d.each (d.sorusPorts s) Dev.schedReset

/-- Poisoned words of a sorus's own memory are whole again: of its objects, and of its copy of the parser's (R122, R605). -/
def Dev.sorusHeal (s : Nat) (d : Dev) : Dev :=
  { d with poison := d.poison.filter fun k =>
      if 2 ^ 64 ≤ k then k / 2 ^ 64 != s + 1
      else match objOf (keyObj k / 256) (keyObj k % 256) with
      | some o => o.ctr || !o.ofSorus s (k / 65536 % 65536)
      | none => true }

/-- Its tree slots come from the lowest-numbered running sorus (R169); with none it keeps its own, and with a reset under way for a fault that strikes
the recovery (R631). -/
def Dev.sorusTree (k : Clk) (s : Nat) (waking : Bool) (d : Dev) : Dev :=
  match (List.range 8).find? fun o => o != s && d.sorusRuns o with
  | some o => (d.treeRecopy s o).put Rg.TREE_STALE s 0
  | none =>
    if d.flt.any fun w => w.rung == 2 && w.die == s then d.isolateDue k 3
    else if waking then d else { d with treePoison := d.treePoison.filter fun x => x.1 != s }

/-- A sorus reset at its boundary (R605); under LANES no port keeps its lock. A parked sorus has nothing to reset. -/
def Dev.sorusReset (k : Clk) (s : Nat) (lanes waking : Bool) (d : Dev) : Dev :=
  if !waking && decide (2 ≤ d.n Od.POWER_SORUS_STATE s) then d
  else
    let again := !waking && !d.sorusRuns s
    let d := (d.covers fun x => x == s || decide (8 ≤ x) && (x - 8) / 8 == s).mildReset s
    let ps := (d.sorusPorts s).filter fun p => d.link p != lkDISABLED && d.link p != lkNO_REFCLK
    let d := d.cutCopies k fun p => sorusOf p == s
    let d := d.each (d.rx.filter fun f => sorusOf f.port == s) (Dev.discardRx k)
    let d := d.each ps fun d p =>
      let held := if again then d.on Rg.LOCK_HELD p else d.receives p && d.on Od.PORT_ACTIVE_LANES p
      (d.portDown k p false).put Rg.LOCK_HELD p (if held && !lanes then 1 else 0)
    let d := (((d.sorusItems s).sorusHeal s).sorusTree k s waking)
    let d := d.each (d.bufs.filter (·.owner == s)) Dev.dropBuf
    (d.put Od.POWER_SORUS_STATE s (if waking then 3 else 1)).put Rg.SORUS_UNTIL s (k.tick + 2001)

/-- The end of a sorus reset, at B + 2,000 (R605, R619); ports enabled in between start too (R607). -/
def Dev.sorusEnd (k : Clk) (s : Nat) (d : Dev) : Dev :=
  if d.n Rg.SORUS_UNTIL s = 0 ∨ k.tick + 1 < d.n Rg.SORUS_UNTIL s then d
  else
    let d := ((d.put Rg.SORUS_UNTIL s 0).put Od.POWER_SORUS_STATE s 0).put Od.DEVICE_SORUS_LINK_STATE s 2
    let w := d.n Rg.WAKE_PORT s
    let d := d.each ((d.sorusPorts s).filter fun p => [lkDISABLED, lkDOWN, lkNO_REFCLK].contains (d.link p) && d.on Od.PORT_ENABLE p) fun d p =>
      let d := d.when (w == p + 1) fun d => (d.put Od.PORT_PARK p 0).bump Od.PORT_WAKES p
      if d.on Rg.LOCK_HELD p then (d.put Rg.LOCK_HELD p 0).portUp k p else d.bringUp k p
    d.put Rg.WAKE_PORT s 0

/-- A pipeline flush at its boundary (R606), covered by a reset of its sorus (R602): what has been admitted is not touched. -/
def Dev.flushPipe (k : Clk) (i : Nat) (d : Dev) : Dev :=
  if !d.sorusRuns (i / 8) then d else
  let d := (d.mildReset (8 + i)).cutCopies k fun p => pipeOf p == i
  let l := Od.all.filter (·.kept == .f)
  let d := d.each l fun d o => d.each ((d.insts o).filter fun n => n * 64 / (o.insts + 1) == i) fun d n => d.clearInst o n
  d.hold k Rg.HOLD_FLUSH i (k.raw / 64 + 64)

/-- A write of POWER.SORUS.PARK 1 may stand (R618). -/
def Dev.parkOk (s : Nat) (d : Dev) : Bool :=
  let alone := (List.range 8).all fun o => o == s || !d.sorusRuns o
  let stale := (List.range 8).any fun o => o != s && d.on Rg.TREE_STALE o
  (d.sorusPorts s).all (fun p => d.link p == lkPARKED || d.link p == lkDISABLED) && !(alone && stale)

/-- A sorus parks at its boundary (R618); the last one takes the device into idle (R620). -/
def Dev.sorusPark (k : Clk) (s : Nat) (d : Dev) : Dev :=
  if !d.sorusRuns s then d
  else
    let d := d.each (d.sorusPorts s) fun d p =>
      let d := (d.flushPort k p).2.put Od.PORT_HOLD_STATE p 2
      if d.link p ≠ lkPARKED ∨ d.n Od.PORT_WAKE_ENABLE p ≠ 0 then d else d.lanesOff p 0
    let d := (((d.put Od.POWER_SORUS_PARK s 1).put Od.POWER_SORUS_STATE s 2).put Od.DEVICE_SORUS_LINK_STATE s 0).put Rg.TREE_STALE s 0
    if (List.range 8).all (fun o => d.n Od.POWER_SORUS_STATE o == 2) && d.on Od.POWER_IDLE_ENABLE 0 then d.put Od.POWER_STATE 0 1 else d

/-- A parked sorus wakes (R619): through a reset of form LOGIC, from idle 200 ticks later (R620). -/
def Dev.sorusWake (k : Clk) (s : Nat) (port : Option Nat) (d : Dev) : Dev :=
  if d.n Od.POWER_SORUS_STATE s ≠ 2 then d
  else
    let d := (d.put Od.POWER_SORUS_PARK s 0).put Rg.WAKE_PORT s (match port with | some p => p + 1 | none => 0)
    if d.idle then
      (d.put Od.POWER_SORUS_STATE s 3).put Rg.IDLE_UNTIL 0 (if d.n Rg.IDLE_UNTIL 0 = 0 then k.tick + 201 else d.n Rg.IDLE_UNTIL 0)
    else d.sorusReset k s false true

/-- The hub leaves idle, and the wakes that wait for it begin (R620). -/
def Dev.idleExit (k : Clk) (d : Dev) : Dev :=
  if d.n Rg.IDLE_UNTIL 0 = 0 ∨ k.tick + 1 < d.n Rg.IDLE_UNTIL 0 then d
  else
    let d := (d.put Rg.IDLE_UNTIL 0 0).put Od.POWER_STATE 0 0
    d.each ((List.range 8).filter fun s => d.n Od.POWER_SORUS_STATE s == 3) fun d s => d.sorusReset k s false true

end Sys2Proof.Machine
end

