-- ==== Sys2Proof/Machine/ReplayOps.lean ====
section
/-! DEFINITION. Maintenance mode (R525, R674), loading a checkpoint, the records a replay reads (R526 to R530), and the adoption of a journal (R674). -/
namespace Sys2Proof.Machine

/-- The device enters maintenance mode (R525): 1 by a replay, 2 by AGE.REPLACE.MAINTAIN. What is in transmission ends stomped, what waits at a MAC is
discarded, queues, buffers and the capture FIFO empty. -/
def Dev.maintain (k : Clk) (mode : Nat) (d : Dev) : Dev :=
  let d := d.cutCopies k fun _ => true
  let l := d.rx.filter fun f => f.kind == 0 && (f.phase == 0 || f.phase == 2)
  let d : Dev := { d with rx := d.rx.filter fun f => !(f.kind == 0 && (f.phase == 0 || f.phase == 2)) }
  let d := (d.bump Od.REPLAY_RX_DISCARDED 0 l.length).each d.copies (Dev.flushCopy k)
  let d := d.each d.jobs fun d j => d.release k j.owner j.fr
  ({ d with jobs := [] }.each d.bufs Dev.dropBuf).put Rg.MAINT 0 mode

/-- A write of REPLAY.START 1 applies (R525). -/
def Dev.replayStart (k : Clk) (d : Dev) : Dev :=
  (((d.maintain k 1).put Od.REPLAY_STATE 0 1).put Od.REPLAY_FRAMES 0 0).put Od.REPLAY_DEEP 0 0

/-- Keys a checkpoint carries (R522): what forwarding, the tables, the timebase and the plan hold; not what lies in MRAM, nor the journal's own objects. -/
def replayKey (key : Nat) : Bool :=
  let i := keyObj key / 256
  if 0x10000 ≤ i then
    let n := i % 0x1000
    decide (4 ≤ n ∧ n ≤ 50) || decide (54 ≤ n ∧ n ≤ 59) || decide (65 ≤ n ∧ n ≤ 70) || decide (113 ≤ n ∧ n ≤ 119) || decide (132 ≤ n ∧ n ≤ 141)
  else
    match objOf i (keyObj key % 256) with
    | some o => o.kept != .n && !decide (0x9000 ≤ i ∧ i ≤ 0x91FF) && (i == 0x1100 || decide (0x2000 ≤ i ∧ i ≤ 0x83FF) || o.acc == .rw)
    | none => false

/-- Values of a checkpoint take the place of the device's. -/
def Dev.loadValues (vs : Store) (d : Dev) : Dev :=
  let objs : Store := d.objs.filter fun x => !replayKey x.1
  { d with objs := (vs.filter fun x => replayKey x.1).foldl (fun s x => Store.put s x.1 x.2) objs }

/-- The fabric and the stages of the pipelines are empty as a load ends. -/
def Dev.replayClear (d : Dev) : Dev :=
  { d with rx := d.rx.filter (·.kind != 0), frames := [], copies := [], tx := [], jobs := [], learn := [], emPend := [], emStaged := [], lfsr := [], inject := [] }

/-- The words of 8 bytes at an address that are not zero, numbered. -/
def wordsIn (m : Memory) (a n : Nat) : Store :=
  ((List.range n).map fun i => (i, (ofBytesLE (m.rdBytes (a + 8 * i) 8) : Int))).filter fun x => x.2 != 0

/-- The set bits of a bitmap in HBM, numbered. -/
def bitsIn (m : Memory) (a n : Nat) : List Nat := (List.range n).filter fun i => bit (m.rd (a + i / 8)).toNat (i % 8)

/-- The counter store of a checkpoint, as values of counters (R476, R477). -/
def countersIn (m : Memory) (a : Nat) : Store :=
  ctrRegions.flatMap fun r => (List.range (r.1.insts + 1)).flatMap fun i =>
    (List.range r.1.count).filterMap fun e =>
      let v : Int := (ofBytesLE (m.rdBytes (a + 8 * (2 * (r.2 + i * r.1.pairs + e / 2) + e % 2)) 8) : Nat)
      if v = r.1.default i e then none else some (r.1.key i e, v)

/-- The regions of a checkpoint agree with its header (R525, R674): a region whose contents the model holds only as a free value agrees while it is the
checkpoint the device itself took. -/
def Dev.checkpointGood (m : Memory) (d : Dev) : Bool :=
  let base := d.n Od.JOURNAL_CHECKPOINT_BASE 0
  ckptRegions.zipIdx.all fun r =>
    (r.1.2.2 && d.ckpt.isSome) || crc32 (m.rdBytes (base + r.1.1) r.1.2.1) == ofBytesLE (m.rdBytes (base + 32 + 4 * r.2) 4)

/-- The checkpoint's state enters the device's memories (R525): the device's own, or one from another unit by its bytes. -/
def Dev.checkpointLoad (m : Memory) (d : Dev) : Dev :=
  let base := d.n Od.JOURNAL_CHECKPOINT_BASE 0
  match d.ckpt with
  | some c =>
    { d.replayClear.loadValues c.objs with em := c.em, tree := c.tree, views := c.views, gpend := c.gpend, sgate := c.sgate, sgateOld := c.sgateOld,
                                               poison := c.poison, emPoison := c.emPoison }
  | none =>
    let inner := (ckptRegions.filter (·.2.2)).flatMap fun r => m.rdBytes (base + r.1) r.2.1
    let d := (d.replayClear.loadValues (Config.internalValues inner)).loadValues
      ((d.objs.filter fun x => replayKey x.1 && (objOf (keyObj x.1 / 256) (keyObj x.1 % 256)).all (fun o => !o.ctr)) ++ countersIn m (base + 0x4200000))
    let word := (wordsIn m (base + 0x100000) 8388608).map fun x => (4 * (x.1 / 2) + x.1 % 2, x.2)
    let bits := fun (w a : Nat) => (bitsIn m (base + a) 4194304).map fun p => (4 * p + w, (1 : Int))
    { d with
      em := (bits 2 0x4100000 ++ bits 3 0x4180000).foldl (fun (s : Store) x => Store.put s x.1 x.2) word
      tree := wordsIn m (base + 0x5E00000) 786432
      views := (Config.internalViews inner).map fun v => ({ view := v.1, from_ := v.2.1, offset := v.2.2.1, anchor := v.2.2.2.1, inc := v.2.2.2.2 } : ViewSet)
      gpend := [], sgate := [], sgateOld := [], emPoison := [] }

/-- Record i of the journal, where it is valid (R515, R518). -/
def Dev.jrec (m : Memory) (d : Dev) (i : Nat) : Option (List Byte) :=
  let r := m.rdBytes (d.n Od.JOURNAL_BASE 0 + 160 * i) 160
  if decide (i < d.journalRoom) && bit ((r.getD 9 0).toNat) 0 then some r else none

/-- A number held in bytes of a record. -/
def jnum (r : List Byte) (o n : Nat) : Nat := ofBytesLE (sliceZ r o n)

/-- The record is a control record of a type. -/
def jtype (r : List Byte) : Nat := if bit (jnum r 9 1) 1 then jnum r 8 1 else 0

/-- The tick a record belongs to (R518, R527). -/
def jtick (start : Nat) (r : List Byte) : Nat :=
  if jtype r = 0 then start + (jnum r 12 4 + 2 ^ 32 - start % 2 ^ 32) % 2 ^ 32 else jnum r 0 8

/-- The next record of the replay. -/
def Dev.replayNext (m : Memory) (d : Dev) : Option (List Byte) := d.jrec m (d.n Rg.R_NEXT 0)

/-- A TABLE_CHANGE record is made (R528). -/
def Dev.tableChange (r : List Byte) (d : Dev) : Dev :=
  let b := jnum r 21 1
  { d with emPend := d.emPend ++ [{ pos := jnum r 16 4 % 4194304, key := jnum r 32 8, result := jnum r 40 8, hit := b % 2, seen := b / 2 % 2 }] }

/-- The records left of the replay tick that ends: its table changes are made, frames and requests not taken are passed over (R519, R528). -/
def Dev.replayClose (m : Memory) : Nat → Dev → Dev
  | 0, d => d
  | n + 1, d =>
    match d.replayNext m with
    | some r =>
      if jtype r ≠ 6 ∧ jtick (d.n Od.JOURNAL_START_TICK 0) r ≤ d.n Od.REPLAY_TICK 0 then
        Dev.replayClose m n ((d.when (jtype r == 3) (Dev.tableChange r)).put Rg.R_NEXT 0 (d.n Rg.R_NEXT 0 + 1))
      else d
    | none => d

/-- What a record asks of the boundary that opens its tick (R528): a write, or a port's state and lanes. -/
inductive JAct where
  | write (w : WriteOp)
  | link (p st lanes : Nat)
  deriving DecidableEq, Repr

/-- The length a TICK_LENGTH record gives (R518): 799 or 801. -/
def tickLength (n : Nat) : Nat := if n = 799 ∨ n = 801 then n else 800

/-- The actions of the boundary that opens the replay tick, with its length; the parts of a write join again (R517). -/
def Dev.replayOpen (m : Memory) : Nat → List JAct → Dev → List JAct × Dev
  | 0, l, d => (l, d)
  | n + 1, l, d =>
    match d.replayNext m with
    | some r =>
      let t := jtype r
      if jtick (d.n Od.JOURNAL_START_TICK 0) r = d.n Od.REPLAY_TICK 0 ∧ (t = 1 ∨ t = 2 ∨ t = 4) then
        let d := d.put Rg.R_NEXT 0 (d.n Rg.R_NEXT 0 + 1)
        if t = 1 then Dev.replayOpen m n l (d.put Rg.REPLAY_LEN 0 (tickLength (jnum r 16 2)))
        else if t = 4 then Dev.replayOpen m n (l ++ [.link (jnum r 16 2 % 1024) (jnum r 18 1) (jnum r 19 1)]) d
        else
          let part := jnum r 12 4
          let bs := sliceZ r 32 (min 128 (jnum r 24 4 - 128 * part))
          let w : WriteOp := { idx := jnum r 16 2, inst := jnum r 18 2, sub := jnum r 20 1, data := bs }
          match l.getLast?, part with
          | some (.write v), _ + 1 => Dev.replayOpen m n (l.dropLast ++ [.write { v with data := v.data ++ bs }]) d
          | _, _ => Dev.replayOpen m n (l ++ [.write w]) d
      else (l, d)
    | none => (l, d)

/-- A port's recorded state (R528). -/
def Dev.replayLink (k : Clk) (p st lanes : Nat) (d : Dev) : Dev := (d.put Od.PORT_ACTIVE_LANES p lanes).setLink k p st

/-- An END record lies among the records from one on that belong to ticks up to t. -/
def Dev.endAhead (m : Memory) (t : Nat) (d : Dev) : Nat → Nat → Bool
  | 0, _ => false
  | n + 1, i =>
    match d.jrec m i with
    | some r => decide (jtick (d.n Od.JOURNAL_START_TICK 0) r ≤ t) && (jtype r == 6 || Dev.endAhead m t d n (i + 1))
    | none => false

/-- The boundary that opens replay tick t ends the replay (R530). -/
def Dev.replayEnds (m : Memory) (t : Nat) (d : Dev) : Bool :=
  decide (d.n Od.REPLAY_STOP_TICK 0 < t) || d.endAhead m t d.journalRoom (d.n Rg.R_NEXT 0)

/-- The usage bits of a journal, from its checkpoint area (R523). -/
def Dev.usageIn (m : Memory) (o : Obj) (a : Nat) (d : Dev) : Dev :=
  (d.clearObj o).each (bitsIn m a 131072) fun d b => d.put o (b / 2) (d.n o (b / 2) + 1 + b % 2)

/-- The load ends (R525, R526): the state is the checkpoint's; with every region's CRC right the replay runs from START_TICK. -/
def Dev.replayLoaded (m : Memory) (d : Dev) : Dev :=
  let good := d.checkpointGood m
  let base := d.n Od.JOURNAL_CHECKPOINT_BASE 0
  let d := d.checkpointLoad m
  if !good then d.note Od.REPLAY_STATE 4 39
  else
    let d := ((d.put Od.REPLAY_STATE 0 2).put Rg.R_NEXT 0 0).put Od.REPLAY_TICK 0 (ofBytesLE (m.rdBytes (base + 8) 8))
    let d := (d.usageIn m Rg.USE_METER (base + 0x1000)).usageIn m Rg.USE_STREAM (base + 0x5000)
    let d := (d.put Rg.REPLAY_RAW 0 (ofBytesLE (m.rdBytes (base + 16) 9))).put Rg.REPLAY_LEN 0 800
    (d.replayOpen m d.journalRoom []).2

/-- A write of AGE.REPLACE.ADOPT 1 applies (R674): the first check that fails, or the journal is the device's. -/
def Dev.adopt (m : Memory) (d : Dev) : Dev :=
  let base := d.n Od.JOURNAL_CHECKPOINT_BASE 0
  let last := ((List.range d.journalRoom).filterMap (d.jrec m)).getLast?
  let status := fun (n : Nat) => d.put Od.AGE_REPLACE_STATUS 0 n
  if ofBytesLE (m.rdBytes base 4) ≠ 1 then status 2
  else if !d.checkpointGood m then status 3
  else if (m.rd (base + 4)).toNat ≠ d.n Od.DEVICE_BEHAVIOUR_LEVEL 0 then status 4
  else
    match last with
    | some r =>
      if jtype r = 6 then
        let d := (((status 1).note Od.JOURNAL_STATE 3 39).put Od.JOURNAL_CHECKPOINT_DONE 0 1).put Od.JOURNAL_START_TICK 0 (ofBytesLE (m.rdBytes (base + 8) 8))
        ((d.put Od.JOURNAL_CLEAN_START 0 (m.rd (base + 5)).toNat).put Od.JOURNAL_STOP_TICK 0 (jnum r 0 8)).put Od.JOURNAL_STOP_REASON 0 (jnum r 16 1)
      else status 5
    | none => status 5

end Sys2Proof.Machine
end

