-- ==== Sys2Proof/Machine/SessOps.lean ====
section
/-! DEFINITION. Messages of the Bluntoak protocol as the device sends them (R556 to R558), where they go (R555, R573, R574), and the close of sessions
(R562). An entry is 0 for the PCIe window, 1 and 2 for MGMT0 and MGMT1, 3 + p for a frame received on port p. -/
namespace Sys2Proof.Machine

/-- Bytes take the place of others. -/
def overlay (bs : List Byte) (o : Nat) (new : List Byte) : List Byte := bs.take o ++ new ++ bs.drop (o + new.length)

/-- Two runs of n bytes change places. -/
def exchange (bs : List Byte) (a b n : Nat) : List Byte := overlay (overlay bs a (sliceZ bs b n)) b (sliceZ bs a n)

/-- The Internet checksum of a byte string (RFC 1071). -/
def inetSum : List Byte → Nat → Nat
  | a :: b :: t, s => inetSum t (s + a.toNat * 256 + b.toNat)
  | [a], s => inetSum [] (s + a.toNat * 256)
  | [], s =>
    let f := fun (n : Nat) => n % 65536 + n / 65536
    65535 - f (f (f s))

/-- One layer's header in an answer to a frame of `total` bytes: addresses and ports change places, lengths and header checksum follow (R574). -/
def turnLayer (total : Nat) (bs : List Byte) (l : Nat × Nat) : List Byte :=
  let o := l.2
  if l.1 = 5 then
    let bs := overlay (overlay (exchange bs (o + 12) (o + 16) 4) (o + 2) (bytesBE 2 (total - o))) (o + 10) [0, 0]
    overlay bs (o + 10) (bytesBE 2 (inetSum (sliceZ bs o (4 * ((sliceZ bs o 1).getD 0 0).toNat % 64)) 0))
  else if l.1 = 6 then overlay (exchange bs (o + 8) (o + 24) 16) (o + 4) (bytesBE 2 (total - o - 40))
  else if l.1 = 11 then overlay (exchange bs o (o + 2) 2) (o + 4) (bytesBE 2 (total - o) ++ [0, 0])
  else bs

/-- The pseudo-header of the layer that carries a datagram (RFC 768, RFC 8200). -/
def pseudoHeader (bs : List Byte) (l : Nat × Nat) (n : Nat) : List Byte :=
  if l.1 = 5 then sliceZ bs (l.2 + 12) 8 ++ [0, 17] ++ bytesBE 2 n else sliceZ bs (l.2 + 8) 32 ++ bytesBE 4 n ++ [0, 0, 0, 17]

/-- The answer's frame, without its FCS (R574): the headers of the request up to its UDP payload turned round, and the message. -/
def answerFrame (via : List Byte × List (Nat × Nat)) (message : List Byte) : List Byte :=
  match (via.2.filter fun l => l.1 == 11).getLast? with
  | none => message
  | some u =>
    let total := u.2 + 8 + message.length
    let head := exchange (sliceZ via.1 0 (u.2 + 8)) 0 6 6
    let bs := ((via.2.filter fun l => decide (l.2 ≤ u.2)).foldl (turnLayer total) head) ++ message
    let bs := match (via.2.filter fun l => decide (l.2 < u.2) && (l.1 == 5 || l.1 == 6)).getLast? with
      | some ip =>
        let s := inetSum (pseudoHeader bs ip (total - u.2) ++ bs.drop u.2) 0
        overlay bs (u.2 + 6) (bytesBE 2 (if s = 0 then 65535 else s))
      | none => bs
    sliceZ bs 0 (max 60 bs.length)

/-- An in-band answer is admitted to its queue of the receiving port (R574). -/
def Dev.answerInband (k : Clk) (p : Nat) (via : List Byte × List (Nat × Nat)) (message : List Byte) (d : Dev) : Dev :=
  let bs := answerFrame via message
  let x : Desc :=
    { srcPort := p, rxLength := bs.length + 4, noIngress := true, direct := true, cls := d.n Od.DICT_INBAND_CLASS 0, finalDest := p
      epoch := d.n Od.CLASS_EPOCH 0 }
  let a : Arriving := { stored := bs, complete := true, rIn := d.portRate p }
  ((d.fill x.epoch 1).admitTo k a x [(x.queueAt p, { port := p })]).2

/-- Key of a session's messages: none while the window asks for no tags (R560). -/
def Dev.tagKey (d : Dev) (entry : Nat) (key : List Byte) : Option (List Byte) :=
  if entry = 0 ∧ !d.on Od.DICT_PCIE_AUTH 0 then none else some key

/-- The tag of a message (R557, R560). -/
def tagOf (key : Option (List Byte)) (bs : List Byte) : List Byte :=
  match key with
  | some k => (hmac k bs).take 16
  | none => List.replicate 16 0

/-- A message (R556): its header, body and tag. -/
def message (kind session seq count : Nat) (body : List Byte) (key : Option (List Byte)) : List Byte :=
  let m := [BitVec.ofNat 8 (16 + kind), 0] ++ bytesBE 2 (32 + body.length) ++ bytesBE 4 session ++ bytesBE 4 seq ++ bytesBE 2 count ++ [0, 0] ++ body
  m ++ tagOf key m

/-- The window shows its next response once the one before has been acknowledged (R573). -/
def Dev.windowNext (d : Dev) : Dev :=
  match d.windowQ with
  | r :: t => if d.on Rg.WINDOW 0 0 then d else ({ d with windowQ := t, windowResp := r }.put Rg.WINDOW 0 1 0).cause 32
  | [] => d

/-- A message leaves by its entry: into the window (R573), as a datagram to its source (R555), or as a frame (R574). -/
def Dev.answer (k : Clk) (entry source : Nat) (via : List Byte × List (Nat × Nat)) (bs : List Byte) (d : Dev) : Dev :=
  if entry = 0 then ({ d with windowQ := d.windowQ ++ [bs] } : Dev).windowNext
  else if entry < 3 ∨ via.1.isEmpty then d.emit { kind := .response, unit := entry, vals := [source], bytes := bs }
  else d.answerInband k (entry - 3) via bs

/-- A SEQ the spec does not give: that of a CHALLENGE, OPENED, CLOSED or REJECT. -/
def Dev.freeSeq (d : Dev) : Nat × Dev := let r := d.fresh; (r.1 % 2 ^ 32, r.2)

/-- A session closes (R562); its device end says why where it was open. -/
def Dev.closeSess (k : Clk) (reason : Nat) (d : Dev) (s : Sess) : Dev :=
  let d : Dev := { d with sess := d.sess.filter fun x => x.num != s.num }
  if s.opened then
    let q := d.freeSeq
    q.2.answer k s.entry s.source s.via (message 8 s.num q.1 0 ([BitVec.ofNat 8 reason] ++ List.replicate 7 0) (d.tagKey s.entry s.key))
  else d

/-- Every session closes (R562, R604). -/
def Dev.closeAll (k : Clk) (reason : Nat) (d : Dev) : Dev := d.each d.sess (Dev.closeSess k reason)

/-- A role's key is written (R562, R577): its sessions close, but for the one that wrote it. -/
def Dev.keyWritten (k : Clk) (role writer : Nat) (bs : List Byte) (d : Dev) : Dev :=
  let d := (d.setBlob Od.DICT_KEY role bs).put Od.DICT_KEY_SET 0 (d.n Od.DICT_KEY_SET 0 ||| 2 ^ role)
  d.each (d.sess.filter fun s => s.role == role && s.num != writer) (Dev.closeSess k 3)

end Sys2Proof.Machine
end

