-- ==== Sys2Proof/Machine/Restart.lean ====
section
/-! DEFINITION. Warm, cold and power-on resets: what each keeps (R17, R603, R604, R608), and the order of a warm reset (R604). -/
namespace Sys2Proof.Machine

/-- Registers of the crust and of the PCIe link that a warm reset leaves running (R604). -/
def crustReg (n cause : Nat) : Bool :=
  (decide (127 ≤ n ∧ n ≤ 130) && cause != 4) || decide (148 ≤ n ∧ n ≤ 155) || n == 161 || n == 163

/-- The value under a key outlives a reset of kind 1 POR, 2 cold or 3 warm with a cause (R17, R603, R604); live objects of the tick, of ageing, of the
PCIe link and of the supplies go on through a warm reset. -/
def resetKeeps (kind cause key : Nat) : Bool :=
  let i := keyObj key / 256
  let kept : Kept :=
    if 0x10000 ≤ i then (match (i - 0x10000) / 0x1000 with | 1 => .n | 2 => .p | 3 => .c | _ => .w)
    else match objOf i (keyObj key % 256) with | some o => o.kept | none => .w
  match kept with
  | .n => true
  | .p => kind != 1
  | .c => kind == 3
  | .none => kind == 3 && (i == 0x1100 || decide (0xA000 ≤ i ∧ i ≤ 0xA0FF) || i == 0xC300 || (i == 0xB000 && cause != 4))
  | _ => kind == 3 && decide (0x10000 ≤ i) && crustReg (i % 0x1000) cause

/-- Everything a reset clears is cleared (R452, R603, R604); a batch under way stops (R205) and EM.CMD.BATCH is empty (R203), so no record of it can be read. -/
def Dev.resetClear (kind cause : Nat) (d : Dev) : Dev :=
  let warm := kind == 3
  { freeCtr := d.freeCtr, nextRec := d.nextRec, out := d.out, mram := d.mram, recQ := d.recQ
    objs := d.objs.filter fun x => resetKeeps kind cause x.1
    poison := d.poison.filter fun key => resetKeeps kind cause (key % 2 ^ 64)
    views := if warm then d.views else []
    hbmPoison := if warm then d.hbmPoison else []
    flipped := if warm then d.flipped.filter (·.mem == 4) else []
    ckpt := if warm then d.ckpt else none
    windowResp := if warm && cause != 4 then d.windowResp else []
    windowQ := if warm && cause != 4 then d.windowQ else [] }

/-- A reset of kind 1 to 3 is noted (R601, R622). -/
def Dev.resetNoted (kind cause : Nat) (d : Dev) : Dev :=
  ((d.countReset kind).put Od.RESET_LAST_KIND 0 kind).put Od.RESET_LAST_CAUSE 0 cause

/-- Steps 1 to 3 of a warm reset at its boundary (R604): recorder and journal close, sessions close, all is cleared, the level is adopted. START_UP goes on
with the seed. -/
def Dev.warmBegin (k : Clk) (cause : Nat) (m : Memory) (d : Dev) : Memory × Dev :=
  let j := (((d.settle k).covers fun _ => true).resetNoted 3 cause).closeAllAccs.recFlush.journalStop k 4 m
  let d := j.2.closeAll k 4
  let d := d.each ((List.range 16).filter fun r => d.on Od.HOST_RING_ENABLE r) fun d r => d.ringOff r
  let c := (d.resetClear 3 cause).when (cause == 4) fun c => c.put Rg.PERST 0 (d.n Rg.PERST 0)
  let w := c.when (cause != 4) fun c => (c.put Rg.WINDOW 0 (d.n Rg.WINDOW 0 0) 0).put Rg.WINDOW 0 (d.n Rg.WINDOW 0 1) 1
  (j.1, ((w.put Od.DEVICE_BEHAVIOUR_LEVEL 0 (d.n Od.RESET_LEVEL_NEXT 0)).put Od.RESET_STATE 0 2).renew)

/-- A power-on or cold reset (R603): the HBM counts as empty, the timebase starts over, the device is STARTING. -/
def Dev.coldClear (kind cause : Nat) (d : Dev) : Dev :=
  let d := (d.covers fun _ => true).resetNoted kind cause
  ((d.resetClear kind cause).put Od.DEVICE_BEHAVIOUR_LEVEL 0 (d.n Od.RESET_LEVEL_NEXT 0)).renew

end Sys2Proof.Machine
end

