-- ==== Sys2Proof/Machine/GateOps.lean ====
section
/-! DEFINITION. Installing gate lists (R346 to R350, R353), credit waits (R290), credit frames (R287, R288), refill (R281 to R283). -/
namespace Sys2Proof.Machine

/-- A list is copied for a port; its change time is fixed after step 4 of the boundary (R346): until then it reads 0 here. A shed port whose new list has
no gap restores full width (R78, R83). -/
def Dev.gateInstall (p : Nat) (d : Dev) : Dev :=
  if (d.gatePend false p).isSome then d
  else
    let g := d.adminList p
    let d : Dev := { d with gpend := d.gpend ++ [{ stream := false, unit := p, ct := 0, list := g }] }
    let d := d.put Od.GATE_CONFIG_PENDING p 1
    if d.n Od.PORT_ACTIVE_LANES p < d.portWidth p ∧ d.inService p ∧ !g.hasGap 4000 then d.later (.restoreNow p) else d

/-- A stream gate's list is copied (R349). -/
def Dev.sgateInstall (g : Nat) (d : Dev) : Dev :=
  { d with gpend := (d.gpend.filter fun x => !(x.stream && x.unit == g)) ++ [{ stream := true, unit := g, ct := 0, list := d.streamList g }] }

/-- Change times of the lists copied at this boundary (R346): from the view's time at the boundary, after step 4 of R42. -/
def Dev.gateFix (k : Clk) (d : Dev) : Dev :=
  let new := d.gpend.filter (·.ct == 0)
  let fix := fun (g : GPend) => if g.ct = 0 then { g with ct := changeTime g.list ((d.viewSet g.list.view).at k.raw) } else g
  let d : Dev := { d with gpend := d.gpend.map fix }
  d.each (new.filter fun (g : GPend) => !g.stream) fun d (g : GPend) => d.put Od.GATE_CONFIG_CHANGE_TIME g.unit (nsTime80 (((d.gatePend false g.unit).map (·.ct)).getD 0))

/-- A pending change is cancelled unless its time has come (R347): the boundary's instant decides. -/
def Dev.gateCancel (k : Clk) (p : Nat) (d : Dev) : Dev :=
  match d.gatePend false p with
  | some g =>
    if (d.viewSet g.list.view).at k.raw < g.ct * 65536 then
      ({ d with gpend := d.gpend.filter fun x => !(!x.stream && x.unit == p) } : Dev).put Od.GATE_CONFIG_PENDING p 0
    else d
  | none => d

/-- A stream gate's list takes over (R349). -/
def Dev.sgateChange (u : Nat) (g : GPend) (d : Dev) : Dev :=
  { d with gpend := d.gpend.filter fun x => !(x.stream && x.unit == u), sgate := (d.sgate.filter (·.1 != u)) ++ [(u, g.list)]
           sgateOld := (d.sgateOld.filter (·.1 != u)) ++ [(u, g.ct, d.streamOper u)] }

/-- The waits for credit of a tick (R290): a head copy that lacks credit waits from the tick now open. -/
def Dev.creditWaits (k : Clk) (d : Dev) : Dev :=
  let qs := ((d.copies.map (·.queue)).filter fun q => decide (q < 16384) && d.matMode (q / 16)).dedup
  let d := d.each ((d.insts Rg.CREDIT_WAIT).filter fun q => !qs.contains q) fun d q => d.clearInst Rg.CREDIT_WAIT q
  d.each qs fun d q =>
    match d.headCopy k q with
    | some (c, f) =>
      if !d.lacksCredit (q / 16) c f then d.clearInst Rg.CREDIT_WAIT q
      else if d.n Rg.CREDIT_WAIT q 2 = f.id + 1 then d
      else ((d.clearInst Rg.CREDIT_WAIT q).put Rg.CREDIT_WAIT q (k.tick + 1)).put Rg.CREDIT_WAIT q (f.id + 1) 2
    | none => d.clearInst Rg.CREDIT_WAIT q

/-- A head copy has waited for credit for STALL_TICKS ticks (R290): counted once. -/
def Dev.creditStall (k : Clk) (q : Nat) (d : Dev) : Dev :=
  let n := d.n Od.FAB_CREDIT_STALL_TICKS 0
  let w := d.n Rg.CREDIT_WAIT q
  if n ≠ 0 ∧ w ≠ 0 ∧ w + n ≤ (d.rk k).tick + 1 ∧ !d.on Rg.CREDIT_WAIT q 1 then
    ((d.put Rg.CREDIT_WAIT q 1 1).bump Od.FAB_CREDIT_STALLS 0).event k 0x0A04 q 0 []
  else d

/-- A trunk port's credit frame, INTERVAL ticks after its last (R287, R288). -/
def Dev.creditSend (k : Clk) (p : Nat) (d : Dev) : Dev :=
  let cs := (List.range 8).filter fun c => d.creditClass p c
  let due := d.n Rg.CREDIT_SENT p = 0 ∨ d.n Rg.CREDIT_SENT p + d.n Od.FAB_CREDIT_INTERVAL 0 ≤ k.tick + 1
  if d.link p = lkUP ∧ !cs.isEmpty ∧ due then
    let grants := (List.range 8).flatMap fun c => bytesBE 4 (if cs.contains c then d.n Od.FAB_CREDIT_GRANTED p c else 0)
    ((d.sendMatFrame k p 2 (grants ++ bytesBE 8 k.tick)).put Rg.CREDIT_SENT p (k.tick + 1)).bump Od.FAB_CREDIT_FRAMES 0
  else d

/-- The oldest refill read under way places its cell, 96 clocks after its issue, from an HBM address (R281, R283, R467): `fails` times its transfer failed. -/
def Dev.refillCell (k : Clk) (addr fails : Nat) (d : Dev) : Dev :=
  match d.flight with
  | [] => d
  | (id, due) :: t =>
    if (d.rk k).clock < due then d
    else
      let d := { d with flight := t }
      let l := d.hbmLink k (addr / 32 * 32) fails
      let d := l.2.hbmRead addr 256
      let bad := l.1 || d.hbmBad addr 256
      let left := match d.frame id, d.copies.find? (·.fr == id) with
        | some f, some c => (f.home.take 1).map fun h => (c.queue, h / 8)
        | _, _ => []
      ({ d with now := { d.now with pages := d.now.pages ++ left } } : Dev).updFrame id fun f =>
        { f with home := f.home.drop 1, placed := f.placed + 1, poisoned := if bad then f.poisoned ++ [f.placed] else f.poisoned }

/-- The cells of a frame that no read was issued or planned for (R281). -/
def FrameRec.unplanned (plan : List Nat) (f : FrameRec) : Nat :=
  if f.spilled then f.reserved - f.issued - (plan.filter (· == f.id)).length else 0

/-- A queue's cells join the refill plan, frame by frame from its head (R281). -/
def Dev.planQueue (d : Dev) (plan : List Nat) (q : Nat) : List Nat :=
  let ahead := d.n Od.FAB_SPILL_REFILL_AHEAD 0
  ((d.queue q).foldl (fun (r : Nat × List Nat × Bool) c =>
    match d.frame c.fr with
    | none => r
    | some f =>
      let n := f.unplanned r.2.1
      if n = 0 then (r.1 + f.reserved, r.2)
      else if r.2.2 ∨ ahead ≤ r.1 ∨ 3662 ≤ r.2.1.length then (r.1, r.2.1, true)
      else (r.1 + f.reserved, r.2.1 ++ List.replicate n f.id, false)) (0, plan, false)).2.1

/-- The refill plan of a tick (R281): what the tick before did not read comes first, but for the queues of ports that have left service (R292). -/
def Dev.planRefill (n : Nat) (d : Dev) : Dev :=
  let base := n % 16384
  let serves := fun (c : Copy) => decide (c.queue < 16384) && d.inService (c.queue / 16)
  let qs := ((d.copies.filter serves).map (·.queue)).dedup
  let carry := d.plan.filter fun id => d.copies.any fun c => c.fr == id && serves c
  let order := fun (q : Nat) => (q + 16384 - base) % 16384
  { d with plan := (sortBy (fun a b => decide (order a ≤ order b)) qs).foldl d.planQueue carry }

end Sys2Proof.Machine
end

