-- ==== Sys2Proof/Machine/WriteCheck.lean ====
section
/-! DEFINITION. What the dictionary engine checks of a write when it accepts it (R566): the tick plan (R48), values, the device's state. -/
namespace Sys2Proof.Machine

/-- The check of a tick plan (R48), in the codes of TICK.PLAN.STATUS. -/
def Dev.planStatus (a : Dev) : Nat :=
  let b := a.elems Od.TICK_PLAN_BUF 0 4
  let x := a.elems Od.TICK_PLAN_EM 0 5
  let h := a.elems Od.TICK_PLAN_HBM 0 4
  let period := a.n Od.CTR_DUMP_PERIOD 0
  let dumps := h.getD 1 0
  if b.getD 0 0 = 0 ∨ x.getD 0 0 = 0 then 4
  else if 800 < 783 + b.sum then 1
  else if 800 < 400 + x.sum then 2
  else if 2400000 < 2115000 + h.sum + (if a.on Od.JOURNAL_LENGTH 0 then 125000 else 0) then 3
  else if h.getD 2 0 < x.getD 3 0 * 4096 then 4
  else if a.n Od.CTR_DUMP_TARGET 0 = 0 ∧ 0 < period ∧ (dumps = 0 ∨ period * 2000 < ceilDiv 16777216 dumps) then 4
  else 0

/-- The writes a plan check reads (R49). -/
def planKey (key : Nat) : Bool := [0x110010, 0x110011, 0x110012, 0x900001, 0x800001, 0x800002].contains key

/-- A descriptor of the parser, its transitions and extractions meet R128. -/
def Dev.layerOk (a : Dev) (i : Nat) : Bool :=
  let w0 := a.n Od.PARSE_LAYER_DESC i 0
  let w1 := a.n Od.PARSE_LAYER_DESC i 1
  let mode := bits w0 62 61
  let width := bits w0 51 48
  let lenOk := match mode with
    | 0 => bits w0 37 30 != 0 && width == 0
    | 1 => decide (1 ≤ width ∧ width ≤ 8)
    | 2 => decide (1 ≤ width ∧ width ≤ 4)
    | _ => false
  let fit := (descFields w0 w1).all fun f => decide (f.1 + f.2 ≤ 1024)
  let exOk := (a.elems Od.PARSE_LAYER_EXTRACT i 8).all fun e =>
    !bit e 31 || (decide (bits e 18 9 + bits e 24 19 + 1 ≤ 1024) && !(decide (32 ≤ bits e 24 19) && bits e 29 25 == 31))
  i != 0 && (!bit w0 63 || (lenOk && decide (bits w0 21 17 ≤ 16) && fit)) && exOk

/-- The trunks' ports meet R416. -/
def Dev.trunksOk (a : Dev) (n : Nat) : Bool :=
  let on := fun m => ((a.elems Od.MAT_TRUNK_PORTS m 16).filter fun v => bit v 15).map fun v => bits v 9 0
  let mine := on n
  let lags := ((a.insts Od.FAB_LAG_MEMBERS).flatMap fun g => ((a.elems Od.FAB_LAG_MEMBERS g 16).filter fun v => bit v 15).map fun v => bits v 9 0)
  mine.isEmpty || (n != a.n Od.MAT_DEVICE 0 && mine.all fun p => !lags.contains p && (List.range 8).all fun m => m == n || !(on m).contains p)

/-- The lease settings meet R436. -/
def Dev.leaseOk (a : Dev) : Bool :=
  let dur := a.n Od.MAT_LEASE_DURATION 0
  let renew := a.n Od.MAT_LEASE_RENEW 0
  let guard := a.n Od.MAT_LEASE_GUARD 0
  let coll := a.n Od.MAT_LEASE_COLLECT 0
  decide (0 < renew ∧ renew ≤ dur / 3 ∧ 0 < guard ∧ guard < dur ∧ 0 < coll ∧ coll < guard ∧
    2 * a.n Od.MAT_HEARTBEAT_INTERVAL 0 ≤ a.n Od.MAT_HEARTBEAT_TIMEOUT 0)

/-- The credit floor with every term at its largest (R289). -/
def Dev.creditMost (a : Dev) : Nat :=
  ((List.range 8).map fun n =>
    (((a.elems Od.MAT_TRUNK_PORTS n 16).filter fun v => bit v 15).map fun v =>
      (((List.range 8).filter fun c => bit (a.n Od.FAB_CREDIT_ENABLE (bits v 9 0)) c).map fun c =>
        a.n Od.FAB_CREDIT_CELLS (bits v 9 0) c + cellsOf (a.n Od.PORT_MTU (bits v 9 0) - 4)).sum).sum).sum

/-- The event codes of R508. -/
def eventCodes : List Nat :=
  [0x0101, 0x0102, 0x0601, 0x0701, 0x0702, 0x0901, 0x0A01, 0x0A02, 0x0A03, 0x0A04, 0x0A05, 0x0B01, 0x0E01, 0x0E02, 0x0F01, 0x0F02, 0x1001, 0x1002,
   0x1003, 0x1901]

/-- A size of a host queue (R582). -/
def ringSize (n : Nat) : Bool := (List.range 13).any fun i => n == 2 ^ (i + 4)

/-- A pulse's unit and length suit its target (R539, R550). -/
def Dev.pulseOk (a : Dev) (i : Nat) : Bool :=
  let port := a.n Od.PERTURB_PULSE_TARGET i == 1
  decide (a.n Od.PERTURB_PULSE_UNIT i < (if port then 1024 else 64)) &&
    decide (1 ≤ a.n Od.PERTURB_PULSE_LENGTH i ∧ a.n Od.PERTURB_PULSE_LENGTH i ≤ (if port then 65535 else 64))

/-- A frame fault's action suits its direction and mask (R544). -/
def Dev.faultOk (a : Dev) (i : Nat) : Bool :=
  let act := a.n Od.PERTURB_FAULT_ACTION i
  !(act == 3 && a.n Od.PERTURB_FAULT_DIR i == 0) && !(act == 2 && a.n Od.PERTURB_FAULT_MASK i == 0)

/-- Buckets of the value rules that look at other objects or at more than one element: `a` is the device as the writes before it leave it, `e` with this
write in it, `f` with its whole commit group (R66, R278); v is its first value. -/
def Dev.valueOk (o : Obj) (w : WriteOp) (a e f : Dev) : Bool :=
  let i := w.inst
  let n := w.data.length
  let v := ((w.elems o).map (·.2.toNat)).headD 0
  let all := fun (p : Nat → Bool) => (w.elems o).all fun x => p x.2.toNat
  match o.idx * 256 + o.sub with
  | 0x201001 | 0x201002 | 0x201005 => octetOk (f.n Od.OCTET_MODE i) (f.n Od.OCTET_RATE i) (f.n Od.OCTET_CHANNEL i)
  | 0x201003 | 0x201004 => (List.range 8).all fun x => (e.elems o i 8).contains x
  | 0x200003 => decide (((List.range 5).map fun x => (e.get Od.LANE_TX_TAPS i x).natAbs).sum ≤ 128)
  | 0x214006 | 0x214007 => (List.range 8).all fun c => !e.on Od.PORT_FLOW_XOFF i c || decide (e.n Od.PORT_FLOW_XON i c < e.n Od.PORT_FLOW_XOFF i c)
  | 0x301001 | 0x301002 | 0x301003 => e.layerOk i
  | 0x348001 => decide (bits (e.n Od.CLASS_DEFAULT_ACTION i 0) 63 60 < 5)
  | 0x341003 => slotFits (a.n Od.CLASS_SLOT_OFFSET i) n
  | 0x341004 => sealOk (e.n Od.CLASS_SLOT_SEAL i 0) (e.n Od.CLASS_SLOT_SEAL i 1) (e.n Od.CLASS_SLOT_SEAL i 2)
  | 0x380007 => n % 16 == 0 && (n == 0 || decide (a.n Od.EM_SHADOW_OFFSET 0 + n / 16 ≤ 4194304))
  | 0x380009 => e.areaOk 2
  | 0x380020 => n % 48 == 0
  | 0x380021 => decide (v ≤ a.n Od.EM_CMD_BATCH 0 lenElem / 48)
  | 0x388004 => decide (v < 2 ^ 20) && destOk v
  | 0x701001 => e.trunksOk i && decide (e.creditMost ≤ 524288)
  | 0x402020 | 0x402021 | 0x210004 => decide (e.creditMost ≤ 524288)
  | 0x402013 | 0x402014 => !f.on Od.FAB_SPILL_ON i || decide (f.n Od.FAB_SPILL_OFF i < f.n Od.FAB_SPILL_ON i)
  | 0x408001 | 0x408002 => (List.range 3).all fun c => decide (e.n Od.FAB_RED_MIN i c ≤ e.n Od.FAB_RED_MAX i c)
  | 0x481002 => decide (((List.range 4).map fun p => e.n Od.POOL_BUFFERS p * poolCells p).sum ≤ 524288)
  | 0x481005 => decide (((List.range 4).map fun p => e.n Od.POOL_STASH_SLOTS p * poolSize p).sum ≤ 0x40000000)
  | 0x510001 => all fun x => bits x 63 48 == 0
  | 0x510005 => decide (v ≤ a.n Od.GATE_ADMIN_CYCLE i)
  | 0x601003 => incOk v
  | 0x601009 => v == 0 || incOk v
  | 0x700001 => v == 0 || bit (a.n Od.MAT_MEMBERS 0) (a.n Od.MAT_DEVICE 0)
  | 0x70000B | 0x70000C | 0x70000D | 0x70000E | 0x700010 | 0x700011 => e.leaseOk
  | 0x780010 => decide (e.n Od.INTEG_FLIP_MASK 0 1 < 65536)
  | 0x780011 => decide (v < 2 ^ 56) && bits v 43 36 == 0
  | 0x800003 | 0x800004 => e.areaOk 0
  | 0x800005 => v % 4096 == 0
  | 0x810001 | 0x810002 => e.areaOk 1
  | 0x810005 => decide (v < a.n Od.SPORE_RING_RECORDS 0)
  | 0x881003 => v == 1 || i == 0x0901
  | 0x900001 => v % 4096 == 0 && decide (v ≤ 0x200000000) && e.areaOk 3 && e.areaOk 5
  | 0x900002 => e.areaOk 3
  | 0x900003 => e.areaOk 4
  | 0x910005 => e.areaOk 5
  | 0x900011 => v == 0 || eventCodes.contains v
  | 0x900015 => inArea (a.areas.getD 3 (0, 0)) (a.n Od.JOURNAL_HBM_ADDR 0) n || inArea (a.areas.getD 4 (0, 0)) (a.n Od.JOURNAL_HBM_ADDR 0) n
  | 0x982002 | 0x982004 => e.pulseOk i
  | 0x984002 | 0x984003 | 0x984006 => e.faultOk i
  | 0xB01001 => v == 0 || (a.on Od.HOST_RING_SQ_BASE i && a.on Od.HOST_RING_CQ_BASE i)
  | 0xB01002 | 0xB01004 => v % 4096 == 0
  | 0xB01003 | 0xB01005 => ringSize v
  | 0xC00006 => bit (a.n Od.DEVICE_LEVELS_SUPPORTED 0) v
  | 0x122003 => decide (e.n Od.DICT_MGMT_IPV4 i 4 ≤ 32)
  | 0x122004 => decide (e.n Od.DICT_MGMT_IPV6 i 16 ≤ 128)
  | _ => true

/-- Why the device's state refuses a write (R566): STATE_REFUSED, BUSY or 0. `a` as in valueOk, d the device as it stands, m its HBM; `signed` says
that a signed copy of the seed carries the write (R612). -/
def Dev.stateBar (d : Dev) (o : Obj) (w : WriteOp) (signed : Bool) (m : Memory) (a : Dev) : Nat :=
  let i := w.inst
  let v := ((w.elems o).map (·.2.toNat)).headD 0
  let bar := fun (b : Bool) => if b then 8 else 0
  let running := d.n Od.JOURNAL_STATE 0 == 1 || d.n Od.JOURNAL_STATE 0 == 2
  match o.idx * 256 + o.sub with
  | 0x340002 => bar (d.idle || !d.swapOk v)
  | 0x341002 => bar (d.slotBar i != 0)
  | 0x341003 | 0x341004 => bar (d.idle || d.slotBar i != 0)
  | 0x380001 => bar !d.emValid.isEmpty
  | 0x380009 => bar (a.on Od.EM_SHADOW_ENABLE 0)
  | 0x380020 => if d.on Od.EM_CMD_STATUS 0 0 then 9 else 0
  | 0x380021 => if d.on Od.EM_CMD_STATUS 0 0 || d.stagedAny (fun x => x.idx == 0x3800 && x.sub == 0x21) then 9 else 0
  | 0x480005 => bar (decide (4096 ≤ d.n Od.POOL_QUARANTINE_COUNT 0) && !((List.range 4096).any fun e => d.n Od.POOL_QUARANTINE_LIST 0 e % 2 ^ 31 == v))
  | 0x481005 => bar (d.bufs.any fun b => b.slot.isSome)
  | 0x510001 | 0x510002 | 0x510003 | 0x510004 | 0x510005 | 0x510006 => bar (d.on Od.GATE_CONFIG_PENDING i)
  | 0x510007 => bar (v == 1 && (d.on Od.GATE_CONFIG_PENDING i || d.stagedAny fun x => x.idx == 0x5100 && x.sub == 7 && x.inst == i))
  | 0x3C6001 | 0x3C6002 | 0x3C6003 | 0x3C6004 | 0x3C6005 => bar (d.gatePend true i).isSome
  | 0x780010 | 0x780011 => bar (a.on Od.INTEG_FLIP_ARM 0)
  | 0x780020 => bar (decide (4096 ≤ d.n Od.INTEG_EM_RETIRED_COUNT 0) && !d.retireListed v)
  | 0x900001 | 0x900002 | 0x900003 | 0x900004 | 0x900005 | 0x910005 => bar running
  | 0x900006 => bar (running || d.maint || !a.on Od.JOURNAL_LENGTH 0)
  | 0x900015 => bar (!d.maint || d.replaying)
  | 0x910001 => bar (v == 1 && !(d.n Od.JOURNAL_STATE 0 == 3 && d.on Od.JOURNAL_CHECKPOINT_DONE 0 && d.n Od.MAT_STATE 0 == 0 &&
      (m.rd (d.n Od.JOURNAL_CHECKPOINT_BASE 0 + 4)).toNat == d.n Od.DEVICE_BEHAVIOUR_LEVEL 0))
  | 0x980001 => bar (v == 1 && a.on Od.PERTURB_LOCK 0)
  | 0xB01002 | 0xB01003 | 0xB01004 | 0xB01005 => bar (a.on Od.HOST_RING_ENABLE i)
  | 0xC01002 => bar (v == 1 && !d.parkOk i)
  | 0xC10008 => bar (a.on Od.SEED_REQUIRE_SIGNATURE 0 && !signed)
  | 0xC10009 => bar ((a.on Od.SEED_REQUIRE_SIGNATURE 0 || v == 0) && !signed)
  | 0xA10001 => bar (v == 1 && !((d.n Od.JOURNAL_STATE 0 == 0 || d.n Od.JOURNAL_STATE 0 == 3) && d.n Od.MAT_STATE 0 == 0))
  | _ => 0

/-- A write of a view's time is refused while its view is frozen, or the device isolated (R371, R376): TIME_FROZEN, TIME_ISOLATED or 0. -/
def Dev.timeBar (o : Obj) (w : WriteOp) (d : Dev) : Nat :=
  if o.idx = 0x6010 ∧ (o.sub = 3 ∨ o.sub = 4 ∨ o.sub = 6) then
    if d.on Od.TIME_VOTE_FROZEN 0 && d.n Od.TIME_VOTE_VIEW 0 == w.inst then 11 else if d.isolated then 12 else 0
  else 0

/-- The write role of a write (R552): of its object, but MAINTAINER to arm a flip (R469) and to load a journal (R534). -/
def WriteOp.role (o : Obj) (w : WriteOp) : Nat :=
  if o.idx = 0x7800 ∧ o.sub = 0x12 then (if ofBytesLE w.data = 0 then 1 else 2)
  else if o.idx = 0x9000 ∧ o.sub = 0x15 then 2
  else o.role

/-- An object has an instance (R10): an event code for 0x8810 (R511), a layer type from 1 for 0x3010 (R142). -/
def Obj.hasInst (o : Obj) (i : Nat) : Bool := if o.idx = 0x8810 then eventCodes.contains i else decide (i ≤ o.insts ∧ ¬(o.idx = 0x3010 ∧ i = 0))

/-- The checks of a write for the codes 1 to 6 and 14 (R566, R571), in the order of R566. -/
def WriteOp.pre (role : Nat) (w : WriteOp) : Nat :=
  match objOf w.idx w.sub with
  | none => if 0xF000 ≤ w.idx ∧ role < 3 then 5 else 2
  | some o =>
    if !o.hasInst w.inst then 3
    else if o.acc = .ro ∨ o.acc = .rc then 4
    else if role < w.role o then 5
    else w.fits o

/-- Every other check of a write (R566), the plan's code among them. -/
def Dev.post (d : Dev) (w : WriteOp) (signed : Bool) (m : Memory) (a f : Dev) : Nat :=
  match objOf w.idx w.sub with
  | none => 2
  | some o =>
    let e := if o.live then a else a.store o w
    let bad :=
      (o.fixedBytes && w.data.length != 32) || (!o.isBytes && !(w.elems o).all fun x => o.admits x.2) || (o.ofPort && !a.portExists w.inst) ||
      (o.ctr && (w.elems o).any fun x => bits x.2.toNat 62 48 != 0) || !Dev.valueOk o w a e f
    if bad then 7
    else
      let s := d.stateBar o w signed m a
      if s ≠ 0 then s
      else if planKey (o.idx * 256 + o.sub) && f.planStatus != 0 then 10
      else d.timeBar o w

/-- What a check leaves behind: CLASS.SLOT.LAST_REFUSAL (R163), TICK.PLAN.STATUS (R49). -/
def Dev.noteCheck (d : Dev) (w : WriteOp) (status : Nat) (f : Dev) : Dev :=
  let key := w.idx * 256 + w.sub
  if (key = 0x341002 ∨ key = 0x341003 ∨ key = 0x341004) ∧ status = 8 ∧ d.slotBar w.inst ≠ 0 then d.put Od.CLASS_SLOT_LAST_REFUSAL w.inst (d.slotBar w.inst)
  else if planKey key && (status == 0 || status == 10) then d.put Od.TICK_PLAN_STATUS 0 f.planStatus
  else d

/-- A write by itself is checked for the boundary that opens a tick. -/
def Dev.checkOne (tick : Nat) (w : WriteOp) (signed : Bool) (m : Memory) (d : Dev) : Nat × Dev :=
  let a := d.asOf tick
  let f := a.stands w
  let s := d.post w signed m a f
  (s, d.noteCheck w s f)

end Sys2Proof.Machine
end

