-- ==== Sys2Proof/Machine/Apply.lean ====
section
/-! DEFINITION. What a write does at the boundary at which it applies (R20, R42 step 2): its value enters the store, and the effects its object's rule names
follow. Resets, swaps and journal starts, which come later in the boundary, are left to it. -/
namespace Sys2Proof.Machine

/-- The first value a write carries, as a number. -/
def WriteOp.value (o : Obj) (w : WriteOp) : Int := ((w.elems o).map (·.2)).headD 0

/-- The target of the margin planner returns to the boot setpoint (R664). -/
def Dev.relearn (d : Dev) : Dev :=
  (d.put Od.AGE_PLAN_LEARNED_TARGET 0 (d.n Od.POWER_AVS_BOOT 0)).put Od.POWER_AVS_TARGET 0 (d.n Od.POWER_AVS_BOOT 0)

/-- A write of an octet's object takes its place; once the last of its group stands, the octet changes (R66, R67). `rest` are the writes of the group
after it, `all` every one. -/
def Dev.applyOctet (k : Clk) (w : WriteOp) (all rest : List WriteOp) (d : Dev) : Dev :=
  let same := fun (x : WriteOp) => x.idx == 0x2010 && x.inst == w.inst && (x.sub == 1 || x.sub == 2 || x.sub == 5)
  if rest.any same then d
  else
    let e := d.each (all.filter same) fun d x => match objOf x.idx x.sub with | some o => d.store o x | none => d
    let v := fun (o : Obj) => e.n o w.inst
    let now := [Od.OCTET_MODE, Od.OCTET_RATE, Od.OCTET_CHANNEL].map fun o => d.n o w.inst
    if now = [v Od.OCTET_MODE, v Od.OCTET_RATE, v Od.OCTET_CHANNEL] then d
    else d.octetChange k w.inst (v Od.OCTET_MODE) (v Od.OCTET_RATE) (v Od.OCTET_CHANNEL)

/-- TEMP_ALERT_N is low while any reading exceeds POWER.TEMP.ALERT; each assertion counts (R652). -/
def Dev.tempAlert (d : Dev) : Dev :=
  let low := (List.range 13).any fun i => decide ((d.n Od.POWER_TEMP_ALERT 0 * 16 : Nat) < d.get Od.POWER_TEMP 0 i)
  let d := if low == d.on Rg.TEMP_LOW 0 then d else d.emit { kind := .pin, unit := 16, vals := [if low then 0 else 1] }
  let d := d.when (low && !d.on Rg.TEMP_LOW 0) fun d => d.bump Od.POWER_TEMP_ALERTS 0
  d.put Rg.TEMP_LOW 0 (if low then 1 else 0)

/-- The effect of a write on the device alone. `std` is the device with the write's values in its store; `planner`: the margin planner makes it. -/
def Dev.effect (k : Clk) (o : Obj) (w : WriteOp) (all rest : List WriteOp) (writer : Nat) (planner : Bool) (d : Dev) : Dev :=
  let i := w.inst
  let x := w.value o
  let v := x.toNat
  let std := (d.store o w).flipAny 7 8 o i 0
  let one := fun (f : Dev → Dev) => if v = 0 then d else f d
  let key := o.idx * 256 + o.sub
  if o.ctr then d.each (w.elems o) fun d x => d.counterPut o i x.1 x.2.toNat
  else
    match key with
    -- ticks, lanes and ports
    | 0x110010 | 0x110011 | 0x110012 => std.put Od.TICK_PLAN_APPLIED 0 k.tick
    | 0x201001 | 0x201002 | 0x201005 => d.applyOctet k w all rest
    | 0x200005 => std.when (!planner) fun d => d.put Rg.AGE_LANE i 1 1
    | 0x201004 => d.rxMap i std
    | 0x208005 => if d.on Od.PORT_ENABLE i ∧ d.link i ≠ lkDISABLED then std.bringUp k i else std
    | 0x208001 => d.portEnable k i (v == 1)
    | 0x20800A => if !d.portExists i then d else if v = 1 then d.park k i else d.unpark k i false
    | 0x216001 => if d.n o i = v then std else std.verify k i
    -- the classifier, the exact-match table, meters and streams
    | 0x341003 => d.slotData i w.data
    | 0x341004 => let e := d.store o w; d.slotSeal k i (e.n o i 0) (e.n o i 1) (e.n o i 2 % 2 ^ 32)
    | 0x380021 => d.emStart k v
    | 0x3C1001 | 0x3C1002 | 0x3C1003 | 0x3C1004 | 0x3C1005 | 0x3C1007 => std.meterFull i
    | 0x3C6001 | 0x3C6002 | 0x3C6003 | 0x3C6004 | 0x3C6005 => std.sgateInstall i
    | 0x3C8003 | 0x3C8004 | 0x3C8005 => std.recTakeAny i
    -- the fabric, pools and schedulers
    | 0x401010 => std.put Od.FAB_QUEUE_RED_AVG i (256 * d.past.depth i)
    | 0x480005 => d.quarantine v
    | 0x480006 => d.unquarantine v
    | 0x501001 => d.setLevel i v
    | 0x501006 | 0x501007 | 0x501008 | 0x501009 => std.fillShaper i
    | 0x508001 => d.each (w.elems o) fun d x => d.setLevelMode i x.1 x.2.toNat
    | 0x508010 | 0x508011 | 0x508012 | 0x508013 => std.fillPort i
    | 0x510007 => if v = 1 then d.gateInstall i else d.gateCancel k i
    -- time and stream watch
    | 0x600002 => d.refA k x
    | 0x600010 => std.voteViewSet
    | 0x600015 => one fun d => d.put Od.TIME_VOTE_FROZEN 0 0
    | 0x601003 => { d with viewWrites := d.viewWrites ++ [{ view := i, kind := 3, value := x }] }
    | 0x601004 => { d with viewWrites := d.viewWrites ++ [{ view := i, kind := 1, value := x }] }
    | 0x601006 => { d with viewWrites := d.viewWrites ++ [{ view := i, kind := 2, value := x }] }
    | 0x69000E => one fun d => (d.watchClose k i).watchClear i
    -- mats, integrity, counters, spores, recorder
    | 0x700001 => if v = 1 then d.matOn k else d.matOff
    | 0x700014 => one fun d => d.rejoinWrite k
    | 0x780002 => d.clearLog Od.INTEG_LOG 32 v
    | 0x780004 => d.clearLog Od.INTEG_UE_LOG 16 v
    | 0x780012 => d.put o 0 v
    | 0x780020 => d.retire k v
    | 0x780021 => d.unretire v
    | 0x800010 => (std.clearObj Rg.WIN).clearObj Rg.WIN_CAP
    | 0x810001 | 0x810002 | 0x810003 => std.sporeReset
    | 0x880007 => one fun d => d.recClear k
    | 0x881001 => std.when (v == 0) fun d => d.closeAcc i
    -- replay and perturbation
    | 0x910001 => one fun d => d.replayStart k
    | 0x980001 => std.when (v == 0) fun d => d.perturbLift (d.rk k)
    | 0x980002 => d.put o 0 1
    | 0x980004 => one fun d => d.perturbClear (d.rk k)
    -- the dictionary, ageing, the host, power
    | 0x121001 => d.keyWritten k i writer w.data
    | 0xA00015 => one Dev.relearn
    | 0xA10001 => one fun d => d.maintain k 2
    | 0xB01001 => if v = 1 then d.ringOn k i else d.when (d.on o i) fun d => d.ringOff i
    | 0xC3000A => std.tempAlert
    | 0xC01002 => if v = 1 then d.sorusPark k i else d.sorusWake k i none
    | _ =>
      if key / 256 = 0x6900 then (((d.watchClose k i).store o w).flipAny 7 8 o i 0).watchClear i
      else if o.acc = .rw ∨ o.acc = .w1c ∨ key = 0x700016 then std
      else d

/-- A write applies (R20): it is journalled, the words it writes are whole again, and its effect follows; the rest are the writes of its group after it. -/
def Dev.applyWrite (k : Clk) (w : WriteOp) (all rest : List WriteOp) (writer : Nat) (planner : Bool) (m : Memory) (d : Dev) : Memory × Dev :=
  match objOf w.idx w.sub with
  | none => (m, d)
  | some o =>
    let d := (d.healWrite o w).journalWriteOp k w
    let v := (w.value o).toNat
    match o.idx * 256 + o.sub with
    | 0x380007 => d.shadowWrite k w.data m
    | 0x900007 => if v = 1 then d.journalStop k 1 m else (m, d)
    | 0x900015 => d.journalLoad w.data m
    | 0xA10002 => (m, if v = 1 then d.adopt m else d)
    | _ => (m, d.effect k o w all rest writer planner)

/-- The writes of a group apply in order (R33, R571). -/
def Dev.applyOps (k : Clk) (all : List WriteOp) (writer : Nat) (planner : Bool) : List WriteOp → Memory → Dev → Memory × Dev
  | [], m, d => (m, d)
  | w :: t, m, d =>
    let r := d.applyWrite k w all t writer planner m
    Dev.applyOps k all writer planner t r.1 r.2

/-- The value of the last write of an object of one byte or word among writes that applied, with its instance. -/
def lastOf (key : Nat) (ws : List WriteOp) : Option Nat := ((ws.filter fun w => w.idx * 256 + w.sub == key).getLast?).map fun w => ofBytesLE w.data

/-- Step 3 of R42: a swap among the writes of the boundary flips the current epoch (R165). -/
def Dev.swapsOf (k : Clk) (ws : List WriteOp) (d : Dev) : Dev :=
  match lastOf 0x340002 ws with
  | some s => d.swapTo k s
  | none => d

/-- The journal starts that the writes ask for, after every other action of the boundary (R513, R521). -/
def Dev.startsOf (k : Clk) (ws : List WriteOp) (d : Dev) : Dev :=
  match lastOf 0x900006 ws with
  | some v => d.journalAsk k v
  | none => d

/-- The resets that the writes ask for: only the strongest, and none that one covers (R602, R605, R606). -/
def Dev.resetsOf (k : Clk) (ws : List WriteOp) (m : Memory) (d : Dev) : Memory × Dev :=
  if lastOf 0xC00001 ws = some 1 then d.warmBegin k 3 m
  else
    let sori := ((ws.filter fun w => w.idx == 0xC010 && w.sub == 1).map (·.inst)).dedup
    let form := fun s => lastOf 0xC01001 (ws.filter fun w => w.inst == s) == some 2
    let d := d.each sori fun d s => d.sorusReset k s (form s) false
    let pipes := ((ws.filter fun w => w.idx == 0xC020 && w.sub == 1 && ofBytesLE w.data == 1).map (·.inst)).dedup
    (m, d.each pipes fun d i => d.flushPipe k i)

end Sys2Proof.Machine
end

