-- ==== Sys2Proof/Machine/DictOps.lean ====
section
/-! DEFINITION. The dictionary engine: messages and their checks (R556, R557), sessions (R558 to R562), operation records (R563 to R572). -/
namespace Sys2Proof.Machine

/-- One operation record of a request (R563). -/
structure OpReq where
  op : Nat
  flags : Nat
  idx : Nat
  inst : Nat
  sub : Nat
  handle : Nat
  len : Nat
  off : Nat
  total : Nat
  tick : Nat
  value : List Byte
  deriving DecidableEq, Repr

/-- A number in network order. -/
def be (bs : List Byte) (o n : Nat) : Nat := ofBytesBE (sliceZ bs o n)

/-- Bytes a value takes in a record. -/
def padded (n : Nat) : Nat := (n + 7) / 8 * 8

/-- The records of a request's body, which they fill exactly (R563); only a write carries a value. -/
def parseRecs : Nat → List Byte → Option (List OpReq)
  | 0, bs => if bs.isEmpty then some [] else none
  | n + 1, bs =>
    let op := be bs 0 1
    let len := be bs 12 4
    let carried := if op = 1 ∨ (4 ≤ op ∧ op ≤ 8) then 0 else len
    if bs.length < 32 + padded carried then none
    else
      let r : OpReq :=
        { op := op, flags := be bs 1 1, idx := be bs 4 2, inst := be bs 6 2, sub := be bs 8 1, handle := be bs 9 1, len := len, off := be bs 16 4
          total := be bs 20 4, tick := be bs 24 8, value := sliceZ bs 32 carried }
      (parseRecs n (bs.drop (32 + padded carried))).map (r :: ·)

/-- A record of a response (R563). -/
def OpRec.bytes (r : OpRec) : List Byte :=
  bytesBE 1 r.op ++ bytesBE 1 r.flags ++ bytesBE 2 r.status ++ bytesBE 2 r.idx ++ bytesBE 2 r.inst ++ bytesBE 1 r.sub ++ bytesBE 1 r.handle ++ [0, 0] ++
    bytesBE 4 r.value.length ++ bytesBE 4 r.off ++ bytesBE 4 r.total ++ bytesBE 8 r.tick ++ sliceZ r.value 0 (padded r.value.length)

/-- The session of a number. -/
def Dev.sessOf (d : Dev) (num : Nat) : Option Sess := d.sess.find? (·.num == num)

/-- Change a session. -/
def Dev.updSess (num : Nat) (f : Sess → Sess) (d : Dev) : Dev := { d with sess := d.sess.map fun s => if s.num == num then f s else s }

/-- Responses are sent in the order of SEQ, each once none of its records waits (R561, R572); the last 8 are kept. -/
def Dev.flushPends (k : Clk) (num : Nat) : Nat → Dev → Dev
  | 0, d => d
  | n + 1, d =>
    match d.sessOf num with
    | some s =>
      match s.pends with
      | p :: t =>
        if p.recs.any fun r => r.wait != 0 then d
        else
          let m := message 6 num p.seq p.recs.length (p.recs.flatMap OpRec.bytes) (d.tagKey s.entry s.key)
          let d := d.updSess num fun s => { s with pends := t, sent := (s.sent ++ [(p.seq, m)]).reverse.take 8 |>.reverse }
          Dev.flushPends k num n (d.answer k s.entry s.source s.via m)
      | [] => d
    | none => d

/-- What a record waits for: 1 the commit of the open group, else the boundary of the write of a record of a request. -/
def waitOf (seq op : Nat) : Nat := seq * 65536 + op + 2

/-- The answers that wait for one thing. -/
def Dev.updWait (num was : Nat) (f : OpRec → OpRec) (d : Dev) : Dev :=
  d.updSess num fun s => { s with pends := s.pends.map fun p => { p with recs := p.recs.map fun r => if r.wait == was then f r else r } }

/-- A write or group has applied at the boundary that opened a tick (R572). -/
def Dev.writeApplied (k : Clk) (s : Staged) (d : Dev) : Dev :=
  let d := d.bump Od.DICT_GROUPS_APPLIED 0
  if s.session = 0 then d
  else (d.updWait s.session (waitOf s.seq s.op) fun r => { r with wait := 0, tick := k.tick, flags := 0 }).flushPends k s.session 8

/-- The type code of R565. -/
def ObjTy.code (t : ObjTy) : Nat :=
  match t with
  | .bool => 1 | .u8 => 2 | .u16 => 3 | .u32 => 4 | .u64 => 5 | .s32 => 6 | .s64 => 7 | .enum8 => 8 | .time80 => 9 | .blob => 10 | .str => 11 | .wide => 0

/-- The lowest instance of an object (R511, R565). -/
def Obj.low (o : Obj) : Nat := if o.idx = 0x8810 then 0x0101 else if o.idx = 0x3010 then 1 else 0

/-- The descriptor of an object (R565). -/
def Obj.descriptor (o : Obj) : List Byte :=
  let acc := match o.acc with | .ro => 1 | .rw => 2 | .wo => 3 | .w1c => 4 | .rc => 5
  let kept := match o.kept with | .none => 0 | .n => 1 | .p => 2 | .c => 3 | .w => 4 | .s => 5 | .f => 6
  let top := if o.idx = 0x8810 then 0x1901 else o.insts
  bytesLE 2 o.idx ++ bytesLE 2 o.low ++ bytesLE 1 o.sub ++ bytesLE 1 (if o.arr then 12 else o.ty.code) ++ bytesLE 1 acc ++ bytesLE 1 kept ++ bytesLE 1 o.role ++
    bytesLE 1 (if o.arr then o.ty.code else 0) ++ bytesLE 2 o.count ++ bytesLE 2 top ++ bytesLE 4 o.size

/-- The object a DESCRIBE names, or with NEXT the one above it in address order (R564). -/
def describe (idx sub : Nat) (next : Bool) : Option Obj :=
  if next then
    (Od.all.filter fun o => decide (idx * 256 + sub < o.idx * 256 + o.sub)).foldl (fun b o =>
      match b with
      | some x => if o.idx * 256 + o.sub < x.idx * 256 + x.sub then some o else b
      | none => some o) none
  else objOf idx sub

/-- The checks of a READ for the codes 2 to 6 and 14 (R566, R568). -/
def OpReq.readCheck (r : OpReq) (o : Obj) : Nat :=
  if !o.hasInst r.inst then 3
  else if o.acc = .wo then 4
  else
    let b := o.ty.bytes
    if o.isBytes then (if r.off ≠ 0 ∨ r.len ≠ 0 then 6 else 0)
    else if o.arr then
      (if r.off % b ≠ 0 ∨ r.len % b ≠ 0 ∨ o.size < r.off + r.len then 6 else if 32768 < (if r.len = 0 then o.size else r.len) then 14 else 0)
    else if r.off ≠ 0 ∨ (r.len ≠ 0 ∧ r.len ≠ b) then 6 else 0

/-- The answer to a record, before its outcome. -/
def OpReq.answer (r : OpReq) : OpRec := { op := r.op, idx := r.idx, inst := r.inst, sub := r.sub, handle := r.handle, off := r.off, total := r.total }

/-- READ (R566, R568, R569); `room` is how many bytes of values the response still takes. -/
def Dev.opRead (k : Clk) (m : Memory) (num room : Nat) (r : OpReq) (d : Dev) : OpRec × Dev :=
  let a := r.answer
  match objOf r.idx r.sub with
  | none => ({ a with status := 2 }, d)
  | some o =>
    let c := r.readCheck o
    if c ≠ 0 then ({ a with status := c }, d)
    else
      let whole := r.len = 0 ∨ !o.arr
      let v := d.readBytes k m o r.inst (if whole then 0 else r.off / o.ty.bytes) (if whole then o.count else r.len / o.ty.bytes)
      if v.1 ≠ 0 then ({ a with status := v.1, tick := k.tick }, v.2.2)
      else if v.2.1.length ≤ 8 ∨ padded v.2.1.length ≤ room then ({ a with value := v.2.1, tick := k.tick }, v.2.2)
      else
        match (d.sessOf num).bind fun s => (List.range 8).find? fun h => !s.snaps.any fun x => x.handle == h with
        | none => ({ a with status := 20 }, d)
        | some h =>
          let x : Snap := { handle := h, bytes := v.2.1, tick := k.tick }
          ({ a with handle := h, total := v.2.1.length, tick := k.tick }, v.2.2.updSess num fun s => { s with snaps := s.snaps ++ [x] })

/-- READ_SEG (R569). -/
def Dev.opReadSeg (k : Clk) (num room : Nat) (r : OpReq) (d : Dev) : OpRec × Dev :=
  let a := r.answer
  match (d.sessOf num).bind fun s => s.snaps.find? fun x => x.handle == r.handle with
  | none => ({ a with status := 19 }, d)
  | some x =>
    let n := x.bytes.length
    if n < r.off + r.len ∨ (room < padded r.len ∧ 8 < r.len) then ({ a with status := 6 }, d)
    else
      let d := d.updSess num fun s =>
        { s with snaps := if r.off + r.len = n then s.snaps.filter fun y => y.handle != x.handle
                          else s.snaps.map fun (y : Snap) => if y.handle == x.handle then { y with tick := k.tick } else y }
      ({ a with value := sliceZ x.bytes r.off r.len, total := n, tick := k.tick }, d)

/-- The first boundary a request may name, and the check of its TICK (R43, R566). -/
def applyTick (k : Clk) (t : Nat) : Nat := max (k.tick + 2) t

/-- A TICK too far ahead (R566). -/
def tickFar (k : Clk) (t : Nat) : Bool := decide (k.tick + 4000000000 < t)

/-- A write is accepted: into the open group (R571), or staged by itself (R43). `final`: the whole value of a segmented write. -/
def Dev.acceptWrite (k : Clk) (m : Memory) (num seq op : Nat) (r : OpReq) (w : WriteOp) (seg : Bool) (d : Dev) : OpRec × Dev :=
  let a := r.answer
  match d.sessOf num with
  | none => (a, d)
  | some s =>
    let c := w.pre s.role
    let c := if c = 0 ∧ seg ∧ !(objOf w.idx w.sub).any (·.isBytes) then 6 else c
    match s.group with
    | some g =>
      if c = 0 then ({ a with flags := 4, wait := 1 }, d.updSess num fun s => { s with group := some (g.1 ++ [w], g.2) })
      else ({ a with status := c }, d.updSess num fun s => { s with group := some (g.1, true) })
    | none =>
      if c ≠ 0 then ({ a with status := c }, d)
      else if tickFar k r.tick then ({ a with status := 21 }, d)
      else
        let t := applyTick k r.tick
        let x := d.checkOne t w false m
        if x.1 ≠ 0 then ({ a with status := x.1 }, x.2)
        else
          ({ a with wait := waitOf seq op },
            x.2.stage { tick := t, ops := [w], entry := s.entry, session := num, seq := seq, op := op, role := s.role })

/-- WRITE (R567, R568). -/
def Dev.opWrite (k : Clk) (m : Memory) (num seq op : Nat) (r : OpReq) (d : Dev) : OpRec × Dev :=
  d.acceptWrite k m num seq op r { idx := r.idx, inst := r.inst, sub := r.sub, off := r.off, data := r.value } false

/-- WRITE_SEG (R570). -/
def Dev.opWriteSeg (k : Clk) (m : Memory) (num seq op : Nat) (r : OpReq) (d : Dev) : OpRec × Dev :=
  let a := r.answer
  match d.sessOf num with
  | none => (a, d)
  | some s =>
    let g : Seg := s.seg.getD { idx := r.idx, inst := r.inst, sub := r.sub, total := r.total }
    let n := g.data.length + r.len
    let final := bit r.flags 0
    let ok := g.idx = r.idx ∧ g.inst = r.inst ∧ g.sub = r.sub ∧ g.total = r.total ∧ r.off = g.data.length ∧ n ≤ g.total ∧ (final = true → n = g.total)
    if ¬ ok then ({ a with status := 19 }, d.updSess num fun s => { s with seg := none })
    else if !final then ({ a with flags := 4 }, d.updSess num fun s => { s with seg := some { g with data := g.data ++ r.value } })
    else
      let d := d.updSess num fun s => { s with seg := none }
      d.acceptWrite k m num seq op r { idx := r.idx, inst := r.inst, sub := r.sub, data := g.data ++ r.value } true

/-- GROUP_BEGIN (R571). -/
def Dev.opBegin (num : Nat) (r : OpReq) (d : Dev) : OpRec × Dev :=
  match (d.sessOf num).bind (·.group) with
  | some _ => ({ r.answer with status := 16 }, d)
  | none => (r.answer, d.updSess num fun s => { s with group := some ([], false) })

/-- The group is discarded; its members' answers wait no longer. -/
def Dev.dropGroup (num : Nat) (d : Dev) : Dev := (d.updSess num fun s => { s with group := none }).updWait num 1 fun r => { r with wait := 0 }

/-- GROUP_ABORT (R571). -/
def Dev.opAbort (num : Nat) (r : OpReq) (d : Dev) : OpRec × Dev :=
  match (d.sessOf num).bind (·.group) with
  | some _ => (r.answer, d.dropGroup num)
  | none => ({ r.answer with status := 15 }, d)

/-- The device with more writes staged, as a check of a write after them counts them (R571; DEDUCED, log entry 37). -/
def Dev.counted (ws : List WriteOp) (d : Dev) : Dev := { d with staged := d.staged ++ [{ tick := 0, ops := ws }] }

/-- The remaining checks of a group's members in their order (R571): the status and number of the first that fails, and what the checks note. `a` is the
device as the writes and the members done leave it, f as every member leaves it. -/
def Dev.checkGroup (m : Memory) (f : Dev) : List WriteOp → List WriteOp → Dev → Dev → Nat × Nat × Dev
  | done, [], _, d => (0, done.length, d)
  | done, w :: t, a, d =>
    let c := d.counted done
    let s := c.post w false m a f
    let d := { c.noteCheck w s f with staged := d.staged }
    if s ≠ 0 then (s, done.length, d) else Dev.checkGroup m f (done ++ [w]) t (a.stands w) d

/-- GROUP_COMMIT (R571). -/
def Dev.opCommit (k : Clk) (m : Memory) (num seq op : Nat) (r : OpReq) (d : Dev) : OpRec × Dev :=
  let a := r.answer
  match d.sessOf num with
  | none => (a, d)
  | some s =>
    match s.group with
    | none => ({ a with status := 15 }, d)
    | some g =>
      let ws := g.1
      let bad := fun (c off : Nat) (d : Dev) => (({ a with status := c, off := off } : OpRec), d.dropGroup num)
      if tickFar k r.tick then bad 21 r.off d
      else if g.2 then bad 17 r.off d
      else if 1024 < ws.length ∨ 65536 < (ws.map (·.data.length)).sum ∨ 4096 < (ws.map WriteOp.words).sum then bad 18 r.off d
      else
        let t := applyTick k r.tick
        let now := d.asOf t
        let c := Dev.checkGroup m (now.each ws fun d w => d.stands w) [] ws now d
        if c.1 ≠ 0 then bad c.1 c.2.1 c.2.2
        else
          let d := (c.2.2.updSess num fun s => { s with group := none }).updWait num 1 fun r => { r with wait := waitOf seq op }
          ({ a with wait := waitOf seq op },
            d.stage { tick := t, ops := ws, group := true, entry := s.entry, session := num, seq := seq, op := op, role := s.role })

/-- DESCRIBE (R564, R565). -/
def opDescribe (r : OpReq) : OpRec :=
  let next := bit r.flags 1
  match describe r.idx r.sub next with
  | none => { r.answer with status := 2 }
  | some o =>
    if !next && !o.hasInst r.inst then { r.answer with status := 3 }
    else { r.answer with idx := o.idx, inst := if next then o.low else r.inst, sub := o.sub, value := o.descriptor }

/-- One record of a request (R564); op its number in the request. -/
def Dev.opRun (k : Clk) (m : Memory) (num seq op room : Nat) (r : OpReq) (d : Dev) : OpRec × Dev :=
  match r.op with
  | 1 => d.opRead k m num room r
  | 2 => d.opWrite k m num seq op r
  | 3 => d.opWriteSeg k m num seq op r
  | 4 => d.opReadSeg k num room r
  | 5 => d.opBegin num r
  | 6 => d.opCommit k m num seq op r
  | 7 => d.opAbort num r
  | 8 => (opDescribe r, d)
  | _ => ({ r.answer with status := 1 }, d)

/-- The records of a request in order (R564); each answer joins the response. -/
def Dev.opAll (k : Clk) (m : Memory) (num seq : Nat) : Nat → Nat → List OpReq → Dev → Dev
  | _, _, [], d => d
  | op, room, r :: t, d =>
    let x := d.opRun k m num seq op room r
    let d := x.2.when (x.1.status != 0) fun d => d.bump Od.DICT_REFUSED 0
    let d := d.updSess num fun s => { s with pends := s.pends.map fun p => if p.seq == seq then { p with recs := p.recs ++ [x.1] } else p }
    Dev.opAll k m num seq (op + 1) (room - padded x.1.value.length) t d

/-- A message is discarded without answer, and counted (R557). -/
def Dev.badMessage (d : Dev) : Bool × Dev := (true, d.bump Od.DICT_AUTH_FAILURES 0)

/-- The tag of a message is right (R557), or none is asked for (R560). -/
def Dev.tagGood (d : Dev) (entry : Nat) (key bs : List Byte) : Bool :=
  match d.tagKey entry key with
  | some k => tagOf (some k) (bs.take (bs.length - 16)) == bs.drop (bs.length - 16)
  | none => true

/-- A REQUEST of an open session (R561). -/
def Dev.requestIn (k : Clk) (m : Memory) (s : Sess) (bs : List Byte) (d : Dev) : Bool × Dev :=
  let seq := be bs 8 4
  let count := be bs 12 2
  match parseRecs count ((bs.drop 16).take (bs.length - 32)) with
  | none => d.badMessage
  | some rs =>
    if seq = s.seq + 1 ∧ s.pends.length < 8 then
      let d := (d.bump Od.DICT_REQUESTS 0).updSess s.num fun s =>
        { s with seq := seq, since := k.tick, pends := s.pends ++ [{ seq := seq, recs := [] }] }
      (false, (d.opAll k m s.num seq 0 (s.most - 32 - 32 * count) rs).flushPends k s.num 8)
    else if seq ≤ s.seq ∧ s.seq < seq + 8 ∧ s.pends.any (·.seq == seq) then (false, d.bump Od.DICT_RETRANSMITTED 0)
    else
      match (if seq ≤ s.seq ∧ s.seq < seq + 8 then s.sent.find? (·.1 == seq) else none) with
      | some x => (false, (d.bump Od.DICT_RETRANSMITTED 0).answer k s.entry s.source s.via x.2)
      | none => (false, d.bump Od.DICT_BAD_SEQ 0)

/-- The address of a source, without its port (R559). -/
def addressOf (source : Nat) : Nat := source / 65536

/-- HELLOs from an address are discarded now (R559). -/
def Dev.lockedOut (k : Clk) (entry source : Nat) (d : Dev) : Bool :=
  entry != 0 && d.fails.any fun f => f.1 == addressOf source && decide (k.tick < f.2.2)

/-- A failed OPEN from an address (R559): the eighth in succession locks it out. -/
def Dev.openFailed (k : Clk) (entry source : Nat) (d : Dev) : Dev :=
  if entry = 0 then d
  else
    let a := addressOf source
    let n := ((d.fails.find? fun f => f.1 == a).map (·.2.1)).getD 0 + 1
    let f : Nat × Nat × Nat := if n = 8 then (a, 0, k.tick + 20000000) else (a, n, 0)
    { d with fails := (d.fails.filter fun f => f.1 != a) ++ [f] }

/-- HELLO (R558 to R560). -/
def Dev.hello (k : Clk) (entry source : Nat) (via : List Byte × List (Nat × Nat)) (bs : List Byte) (d : Dev) : Bool × Dev :=
  let role := be bs 16 1
  let key := d.blob Od.DICT_KEY role
  let most := be bs 36 2
  let bare := entry = 0 ∧ !d.on Od.DICT_PCIE_AUTH 0
  if bs.length ≠ 56 ∨ d.lockedOut k entry source ∨ 3 ≤ role ∨ (¬ bare ∧ !bit (d.n Od.DICT_KEY_SET 0) role) ∨ !d.tagGood entry key bs ∨ most < 1024 ∨
      8960 < most then d.badMessage
  else
    match (List.range 16).find? fun s => !d.sess.any fun x => x.num % 16 == s with
    | none =>
      let q := d.freeSeq
      (false, q.2.answer k entry source via (message 9 0 q.1 0 (1 :: List.replicate 7 0) (d.tagKey entry key)))
    | some s =>
      let g := (d.n Rg.DICT_GEN s + 1) % 2 ^ 28
      let num := g * 16 + s
      let f := d.fresh
      let nonce := bytesLE 16 f.1
      let K := hmac key ("BLUNTOAK-1".toList.map (fun c => BitVec.ofNat 8 c.toNat) ++ sliceZ bs 20 16 ++ nonce ++ bytesBE 4 num ++ bytesBE 1 role)
      let x : Sess := { num := num, role := role, key := K, entry := entry, source := source, since := k.tick, most := most, via := via }
      let d := ({ f.2 with sess := f.2.sess ++ [x] } : Dev).put Rg.DICT_GEN s g
      let q := d.freeSeq
      (false, q.2.answer k entry source via (message 2 num q.1 0 (bytesBE 1 role ++ [0, 0, 0] ++ nonce ++ bytesBE 8 k.tick) (d.tagKey entry key)))

/-- OPEN of a session named by a CHALLENGE (R558, R559). -/
def Dev.openSess (k : Clk) (s : Sess) (bs : List Byte) (d : Dev) : Bool × Dev :=
  if !d.tagGood s.entry s.key bs then (d.openFailed k s.entry s.source).badMessage
  else if bs.length ≠ 32 ∨ be bs 8 4 ≠ 0 then d.badMessage
  else
    let d : Dev := { d with fails := d.fails.filter fun f => f.1 != addressOf s.source }
    let d := d.updSess s.num fun s => { s with opened := true, since := k.tick }
    let q := d.freeSeq
    let body := bytesBE 8 k.tick ++ bytesBE 1 (d.n Od.DEVICE_BEHAVIOUR_LEVEL 0) ++ List.replicate 7 0
    (false, q.2.answer k s.entry s.source s.via (message 4 s.num q.1 0 body (d.tagKey s.entry s.key)))

/-- A message of a session that is not, or not yet, open is rejected (R556); no key can tag the answer, so its tag is free unless tags are not used. -/
def Dev.rejectUnknown (k : Clk) (entry source : Nat) (via : List Byte × List (Nat × Nat)) (session : Nat) (d : Dev) : Bool × Dev :=
  let q := d.freeSeq
  let t := q.2.fresh
  let m := message 9 session q.1 0 (3 :: List.replicate 7 0) none
  let m := if entry = 0 ∧ !d.on Od.DICT_PCIE_AUTH 0 then m else m.take (m.length - 16) ++ bytesLE 16 t.1
  (false, t.2.answer k entry source via m)

/-- A message reaches the engine by an entry (R554, R557): the answer says whether it was discarded. -/
def Dev.bluntoak (k : Clk) (m : Memory) (entry source : Nat) (via : List Byte × List (Nat × Nat)) (bs : List Byte) (d : Dev) : Bool × Dev :=
  let kind := be bs 0 1
  if bs.length < 32 ∨ 8960 < bs.length ∨ be bs 2 2 ≠ bs.length ∨ !([0x11, 0x13, 0x15, 0x17].contains kind) then d.badMessage
  else if kind = 0x11 then d.hello k entry source via bs
  else
    match d.sess.find? fun s => s.num == be bs 4 4 && s.entry == entry && (s.opened || kind == 0x13) with
    | none => d.rejectUnknown k entry source via (be bs 4 4)
    | some s =>
      let s := { s with source := source, via := via }
      let e := d.updSess s.num fun s => { s with source := source, via := via }
      if kind = 0x13 then e.openSess k s bs
      else if !d.tagGood entry s.key bs then d.badMessage
      else if kind = 0x15 then e.requestIn k m s bs
      else if bs.length ≠ 32 then d.badMessage
      else (false, e.closeSess k 1 s)

/-- The dictionary accepts requests by an entry: the device runs, and the entry is open (R555, R574, R616). -/
def Dev.entryOpen (d : Dev) (entry : Nat) : Bool :=
  d.n Od.RESET_STATE 0 == 1 &&
    (entry == 0 || (decide (entry < 3) && d.on Od.DICT_MGMT_ENABLE (entry - 1)) || (decide (3 ≤ entry) && d.on Od.DICT_PORT_INBAND (entry - 3)))

/-- A message by an entry that is open. -/
def Dev.messageIn (k : Clk) (m : Memory) (entry source : Nat) (bs : List Byte) (d : Dev) : Dev :=
  if d.entryOpen entry then (d.bluntoak k m entry source ([], []) bs).2 else d

/-- A frame handed to the engine (R574): its message is the payload of its UDP layer. -/
def Dev.frameIn (k : Clk) (m : Memory) (f : Nat × List Byte × List (Nat × Nat)) (d : Dev) : Dev :=
  match (f.2.2.filter fun l => l.1 == 11).getLast? with
  | none => d.bump Od.DICT_AUTH_FAILURES 0
  | some u =>
    let ip := (f.2.2.filter fun l => decide (l.2 < u.2) && (l.1 == 5 || l.1 == 6)).getLast?
    let addr := match ip with | some l => (if l.1 = 5 then be f.2.1 (l.2 + 12) 4 else be f.2.1 (l.2 + 8) 16) | none => be f.2.1 6 6
    if d.entryOpen (3 + f.1) then
      (d.bluntoak k m (3 + f.1) (addr * 65536 + be f.2.1 u.2 2) (f.2.1, f.2.2) (sliceZ f.2.1 (u.2 + 8) (be f.2.1 (u.2 + 4) 2 - 8))).2
    else d

/-- The frames handed to the engine are taken in order. -/
def Dev.takeMgmt (k : Clk) (m : Memory) (d : Dev) : Dev :=
  let l := d.mgmtIn
  let d : Dev := { d with mgmtIn := [], now := { d.now with entry := if l.isEmpty then d.now.entry else 3 } }
  d.each l fun d f => d.frameIn k m f

end Sys2Proof.Machine
end

