-- ==== Sys2Proof/Machine/MgmtOps.lean ====
section
/-! DEFINITION. The management ports (R555): address resolution and echo. The PCIe window (R573). Reads and writes of single objects as commands. -/
namespace Sys2Proof.Machine

/-- The IPv4 and IPv6 address of a management port. -/
def Dev.mgmtV4 (d : Dev) (e : Nat) : List Byte := (d.elems Od.DICT_MGMT_IPV4 e 4).map (BitVec.ofNat 8)
def Dev.mgmtV6 (d : Dev) (e : Nat) : List Byte := (d.elems Od.DICT_MGMT_IPV6 e 16).map (BitVec.ofNat 8)

/-- The MAC address of a management port. -/
def Dev.mgmtMac (d : Dev) (e : Nat) : List Byte := bytesBE 6 (d.n Od.DICT_MGMT_MAC e)

/-- A frame for a management port is whole and addressed to it, or to a group: its bytes without the FCS (R555). -/
def Dev.mgmtFrame (d : Dev) (e : Nat) (bs : List Byte) : Option (List Byte) :=
  let n := bs.length - 4
  if d.n Od.RESET_STATE 0 = 1 ∧ d.on Od.DICT_MGMT_ENABLE e ∧ 64 ≤ bs.length ∧ bs.length ≤ 9216 ∧ bs.drop n = fcsBytes (bs.take n) ∧
      (bs.take 6 = d.mgmtMac e ∨ bit (be bs 0 1) 0) then some (bs.take n) else none

/-- A frame leaves a management port. -/
def Dev.mgmtSend (e : Nat) (bs : List Byte) (d : Dev) : Dev := d.emit { kind := .response, unit := 1 + e, bytes := controlFrame' bs }
where
  /-- Padded, with its FCS. -/
  controlFrame' (bs : List Byte) : List Byte := let b := sliceZ bs 0 (max 60 bs.length); b ++ fcsBytes b

/-- An ARP request for the port's IPv4 address is answered (R555, RFC 826). -/
def Dev.arpReply (e : Nat) (bs : List Byte) (d : Dev) : Dev :=
  match d.mgmtFrame e bs with
  | none => d
  | some f =>
    let me := d.mgmtV4 e
    if sliceZ f 12 10 = [0x08, 0x06, 0, 1, 8, 0, 6, 4, 0, 1] ∧ sliceZ f 38 4 = me ∧ me ≠ [0, 0, 0, 0] then
      d.mgmtSend e (sliceZ f 22 6 ++ d.mgmtMac e ++ [0x08, 0x06, 0, 1, 8, 0, 6, 4, 0, 2] ++ d.mgmtMac e ++ me ++ sliceZ f 22 6 ++ sliceZ f 28 4)
    else d

/-- An IPv6 packet without extension headers, whole in its frame, of a next header: its payload. -/
def v6Payload (f : List Byte) (next : Nat) : Option (List Byte) :=
  let n := be f 18 2
  if be f 12 2 = 0x86DD ∧ be f 14 1 / 16 = 6 ∧ be f 20 1 = next ∧ 54 + n ≤ f.length then some (sliceZ f 54 n) else none

/-- An IPv6 packet of ICMPv6 with its checksum (RFC 8200, RFC 4443). -/
def icmp6 (dst src ipDst ipSrc body : List Byte) : List Byte :=
  let head := [0x60, 0, 0, 0] ++ bytesBE 2 body.length ++ [58, 255] ++ ipSrc ++ ipDst
  let s := inetSum (ipSrc ++ ipDst ++ bytesBE 4 body.length ++ [0, 0, 0, 58] ++ body) 0
  dst ++ src ++ [0x86, 0xDD] ++ head ++ overlay body 2 (bytesBE 2 s)

/-- The checksum of an ICMPv6 message is right. -/
def icmp6Ok (f body : List Byte) : Bool := inetSum (sliceZ f 22 32 ++ bytesBE 4 body.length ++ [0, 0, 0, 58] ++ body) 0 == 0

/-- A neighbour solicitation for the port's IPv6 address is answered (R555, RFC 4861). -/
def Dev.neighbourReply (e : Nat) (bs : List Byte) (d : Dev) : Dev :=
  match d.mgmtFrame e bs with
  | none => d
  | some f =>
    match v6Payload f 58 with
    | none => d
    | some b =>
      let me := d.mgmtV6 e
      if icmp6Ok f b ∧ 24 ≤ b.length ∧ be b 0 2 = 0x8700 ∧ be f 21 1 = 255 ∧ sliceZ b 8 16 = me ∧ me ≠ List.replicate 16 0 then
        let src := sliceZ f 22 16
        let probe := src = List.replicate 16 0
        let dst := if probe then [0xFF, 2, 0, 0, 0, 0, 0, 0, 0, 0, 0, 0, 0, 0, 0, 1] else src
        let body := [136, 0, 0, 0, (if probe then 0x20 else 0x60), 0, 0, 0] ++ me ++ [2, 1] ++ d.mgmtMac e
        d.mgmtSend e (icmp6 (if probe then [0x33, 0x33, 0, 0, 0, 1] else sliceZ f 6 6) (d.mgmtMac e) dst me body)
      else d

/-- An echo request to the port's address is answered (R555); fragments are discarded. -/
def Dev.echoReply (e : Nat) (bs : List Byte) (d : Dev) : Dev :=
  match d.mgmtFrame e bs with
  | none => d
  | some f =>
    let h := 4 * (be f 14 1 % 16)
    let n := be f 16 2
    if be f 12 2 = 0x0800 then
      let ip := sliceZ f 14 h
      let b := sliceZ f (14 + h) (n - h)
      let me := d.mgmtV4 e
      if be f 14 1 / 16 = 4 ∧ 20 ≤ h ∧ h + 8 ≤ n ∧ 14 + n ≤ f.length ∧ be f 23 1 = 1 ∧ be f 20 2 % 0x4000 = 0 ∧ inetSum ip 0 = 0 ∧ inetSum b 0 = 0 ∧
          be b 0 2 = 0x0800 ∧ sliceZ f 30 4 = me ∧ me ≠ [0, 0, 0, 0] then
        let head := [0x45, 0] ++ bytesBE 2 (20 + b.length) ++ [0, 0, 0, 0, 64, 1, 0, 0] ++ me ++ sliceZ f 26 4
        let body := overlay b 0 [0, 0, 0, 0]
        d.mgmtSend e (sliceZ f 6 6 ++ d.mgmtMac e ++ [0x08, 0x00] ++ overlay head 10 (bytesBE 2 (inetSum head 0)) ++ overlay body 2 (bytesBE 2 (inetSum body 0)))
      else d
    else
      match v6Payload f 58 with
      | none => d
      | some b =>
        let me := d.mgmtV6 e
        if icmp6Ok f b ∧ 8 ≤ b.length ∧ be b 0 2 = 0x8000 ∧ sliceZ f 38 16 = me ∧ me ≠ List.replicate 16 0 then
          d.mgmtSend e (icmp6 (sliceZ f 6 6) (d.mgmtMac e) (sliceZ f 22 16) me (overlay b 0 [129, 0, 0, 0]))
        else d

/-- A message submitted by the window (R573): DISCARDED says how R557 took it. -/
def Dev.submit (k : Clk) (m : Memory) (bs : List Byte) (d : Dev) : Dev :=
  if d.entryOpen 0 then
    let r := d.bluntoak k m 0 0 ([], []) (bs.take (be bs 2 2))
    r.2.put Rg.WINDOW 0 (if r.1 then 1 else 0) 1
  else d

/-- A message by an entry other than a frame's (R554): the window or a management port. -/
def Dev.take (k : Clk) (m : Memory) (entry source : Nat) (bs : List Byte) (d : Dev) : Dev :=
  if entry = 0 then d.submit k m bs else if entry < 3 then d.messageIn k m entry source bs else d

/-- The first operation of a REQUEST. -/
def firstOp (bs : List Byte) : Nat := be bs 16 1

/-- A message of a kind, with a first operation, is taken. -/
def Dev.takeKind (k : Clk) (m : Memory) (kind : Nat) (op : Nat → Bool) (entry source : Nat) (bs : List Byte) (d : Dev) : Dev :=
  if be bs 0 1 % 16 = kind ∧ (kind ≠ 5 ∨ op (firstOp bs)) then d.take k m entry source bs else d

/-- A write applies by itself at the boundary that opened the tick now open: it is checked as R566 orders and, where it passes, everything it does is done. -/
def Dev.writeNow (k : Clk) (role : Nat) (w : WriteOp) (m : Memory) (d : Dev) : Memory × Dev :=
  if w.pre role ≠ 0 then (m, d)
  else
    let f := d.stands w
    let s := d.post w false m d f
    let d := d.noteCheck w s f
    if s ≠ 0 then (m, d)
    else
      let r := d.applyWrite k w [w] [] 0 false m
      let e := (((r.2.swapsOf k [w]).applyViewWrites k).gateFix k).startsOf k [w]
      e.resetsOf k [w] r.1

/-- A read of elements of an RC object: it is cleared in the clock of the read (R14, R16). -/
def Dev.readClear (k : Clk) (m : Memory) (idx inst sub first count : Nat) (d : Dev) : Dev :=
  match objOf idx sub with
  | some o =>
    if o.acc = .rc ∧ o.hasInst inst ∧ first + count ≤ o.count then
      let r := d.readBytes k m o inst first count
      r.2.2.emit { kind := .response, vals := [idx, r.1], bytes := r.2.1 }
    else d
  | none => d

/-- A slot held by an unanswered CHALLENGE is freed (R558). -/
def Dev.challengeEnd (k : Clk) (slot : Nat) (d : Dev) : Dev :=
  { d with sess := d.sess.filter fun s => !(s.num % 16 == slot && !s.opened && decide (s.since + 2000000 ≤ k.tick)) }

/-- A session has been idle for DICT.SESSION_IDLE seconds (R562). -/
def Dev.sessionIdle (k : Clk) (slot : Nat) (d : Dev) : Dev :=
  d.each (d.sess.filter fun s => s.num % 16 == slot && s.opened && decide (s.since + 2000000 * d.n Od.DICT_SESSION_IDLE 0 ≤ k.tick)) (Dev.closeSess k 2)

/-- A snapshot is freed 2,000,000 ticks after its latest reading (R569). -/
def Dev.snapshotEnd (k : Clk) (slot handle : Nat) (d : Dev) : Dev :=
  { d with sess := d.sess.map fun s =>
      if s.num % 16 = slot then { s with snaps := s.snaps.filter fun x => !(x.handle == handle && decide (x.tick + 2000000 ≤ k.tick)) } else s }

/-- HELLOs from an address are taken again (R559). -/
def Dev.lockoutEnd (k : Clk) (address : Nat) (d : Dev) : Dev :=
  { d with fails := d.fails.filter fun f => !(f.1 == address && f.2.2 != 0 && decide (f.2.2 ≤ k.tick)) }

/-- The client acknowledges the window's response (R573). -/
def Dev.windowAck (d : Dev) : Dev := (d.put Rg.WINDOW 0 0 0).windowNext

end Sys2Proof.Machine
end

