-- ==== Sys2Proof/Machine/AgeOps.lean ====
section
/-! DEFINITION. Service life (R660 to R668): samples, margins, the margin planner, operating time. -/
namespace Sys2Proof.Machine

/-- The acceleration factors of the bins of R668. -/
def tjFactors : List Nat := [68, 141, 282, 540, 1000, 1793, 3118]

/-- The bin of a temperature in units of 0.0625 °C (R668). -/
def tjBin (t : Int) : Nat := ([55, 65, 75, 85, 95, 105].filter fun (b : Int) => decide (16 * b ≤ t)).length

/-- A second of operation (R507, R668). -/
def Dev.operatingSecond (d : Dev) : Dev :=
  let s := d.n Od.DEVICE_OP_SECONDS 0 + 1
  let d := if s < 3600 then d.put Od.DEVICE_OP_SECONDS 0 s else (d.put Od.DEVICE_OP_SECONDS 0 0).bump Od.DEVICE_OP_HOURS 0
  let hot := ((List.range 8).map fun i => d.get Od.POWER_TEMP 0 i).foldl max (d.get Od.POWER_TEMP 0 8)
  let d := d.bump Od.AGE_TJ_SECONDS 0 1 (tjBin hot)
  let sum := ((tjFactors.zipIdx).map fun f => f.1 * d.n Od.AGE_TJ_SECONDS 0 f.2).sum
  d.put Od.AGE_RATING_CONSUMED 0 (min 0xFFFF (sum / 473364000))

/-- The operating time in seconds. -/
def Dev.operated (d : Dev) : Nat := 3600 * d.n Od.DEVICE_OP_HOURS 0 + d.n Od.DEVICE_OP_SECONDS 0

/-- A die counts: a sorus that runs, or the hub (R661). -/
def Dev.dieRuns (d : Dev) (i : Nat) : Bool := i == 8 || d.sorusRuns i

/-- A sample begins at a multiple of the period (R661): the dies it takes in. -/
def Dev.sampleStart (k : Clk) (d : Dev) : Dev :=
  if d.n Od.RESET_STATE 0 = 1 ∧ k.tick % (d.n Od.AGE_SAMPLE_PERIOD 0 * 2000000) = 0 then
    (d.put Rg.AGE_START 0 (k.tick + 1)).put Rg.AGE_START 0 ((((List.range 9).filter d.dieRuns).map fun i => 2 ^ i).sum) 1
  else d

/-- The least of a list of integers, none of an empty one. -/
def least : List Int → Option Int
  | [] => none
  | a :: t => some (t.foldl min a)

/-- Projected years (R667). -/
def projectedYears (b b0 : Int) (h : Nat) : Nat :=
  let l := b0 - b
  if b ≤ 0 then 0
  else if h < 1000 ∨ l ≤ 0 then 0xFFFF
  else
    let n := ((h : Int) * (b0 ^ 4 - l ^ 4) * 10).fdiv (8766 * l ^ 4)
    (min 999 (max 0 n)).toNat

/-- The corrected findings of a memory per hour of the period that ends (R666). -/
def Dev.correctedRate (i : Nat) (d : Dev) : Dev :=
  let c := d.n Od.INTEG_MEM_CORRECTED i
  let was := d.n Rg.AGE_CORRECTED i 0
  let rise := if was ≤ c then c - was else c
  (d.put Rg.AGE_CORRECTED i c 0).put Rg.AGE_CORRECTED i (rise * 3600 / d.n Od.AGE_SAMPLE_PERIOD 0) 1

/-- A sample ends 2,000 ticks after it began (R661, R662, R667): by die, the shifts of its oscillators and the slacks of its monitors. -/
def Dev.sampleEnd (k : Clk) (shifts slacks : List (List Int)) (d : Dev) : Dev :=
  let start := d.n Rg.AGE_START 0 0
  if start = 0 ∨ k.tick + 1 < start + 2000 then d
  else
    let dies := (List.range 9).filter fun i => bit (d.n Rg.AGE_START 0 1) i
    let d := d.each dies fun d i =>
      let d := d.each ((shifts.getD i []).take 64).zipIdx fun d x => d.set Od.AGE_RO_SHIFT i x.1 x.2
      d.each ((slacks.getD i []).take 16).zipIdx fun d x => d.set Od.AGE_PATH_SLACK i x.1 x.2
    let sp := d.n Od.POWER_AVS_SETPOINT 0
    let mt := (least (dies.flatMap fun i => (List.range 16).map fun e => d.get Od.AGE_PATH_SLACK i e)).getD 0
    let mv : Int := (sp : Int) - ((List.range 9).map fun i => d.n Od.AGE_VMIN i).foldl max 0
    let b : Int := mt - 25 + ((d.n Od.AGE_FUSE 0 1 : Int) * (800 - sp)).tdiv 100
    let d := ((d.set Od.AGE_MARGIN_TIMING 0 mt).set Od.AGE_MARGIN_VMIN 0 mv).set Od.AGE_BUDGET 0 b
    let d := d.put Od.AGE_PROJECTED_YEARS 0 (projectedYears b (d.n Od.AGE_FUSE 0 0) (d.n Od.DEVICE_OP_HOURS 0))
    (((d.correctedRate 0x18).correctedRate 0x28).put Rg.AGE_START 0 0).put Rg.AGE_READY 0 (k.tick + 1)

/-- The minimum-voltage test (R661): by die, the lowest step in mV at which its array passed. -/
def Dev.vminTest (steps : List Nat) (d : Dev) : Dev :=
  let h := d.n Od.DEVICE_OP_HOURS 0
  let last := d.n Rg.AGE_VMIN_LAST 0
  if last ≠ 0 ∧ h + 1 < last + d.n Od.AGE_VMIN_PERIOD 0 then d
  else
    let d := d.put Rg.AGE_VMIN_LAST 0 (h + 1)
    d.each (((steps.take 9).zipIdx).filter fun x => d.dieRuns x.2) fun d x => d.put Od.AGE_VMIN x.2 (max 550 x.1 + 5)

/-- Number of the entry the planner's writes come by, after every entry of R33 (R663). -/
def plannerEntry : Nat := 1100

/-- A write of the planner (R663): staged if it is accepted, with what f does then; else counted. -/
def Dev.planWrite (k : Clk) (m : Memory) (w : WriteOp) (f : Dev → Dev) (d : Dev) : Dev :=
  let p := w.pre 2
  let c := if p ≠ 0 then (p, d) else d.checkOne (k.tick + 2) w false m
  if c.1 ≠ 0 then c.2.bump Od.AGE_PLAN_REFUSED 0
  else f (c.2.stage { tick := k.tick + 2, ops := [w], entry := plannerEntry, role := 2 })

/-- The planner's test of the voltage (R664). -/
def Dev.planVoltage (d : Dev) : Dev :=
  let now := d.operated
  let target := d.n Od.POWER_AVS_TARGET 0
  let low := decide (d.get Od.AGE_MARGIN_TIMING 0 < d.get Od.AGE_PLAN_TIMING_FLOOR 0) || decide (d.get Od.AGE_MARGIN_VMIN 0 < d.get Od.AGE_PLAN_VMIN_FLOOR 0)
  let last := d.n Rg.AGE_RAISED 0
  if !low then d
  else if 800 ≤ target then d.bump Od.AGE_PLAN_AT_CEILING 0
  else if last = 0 ∨ d.n Od.AGE_PLAN_RAISE_INTERVAL 0 ≤ now - (last - 1) then
    (((d.put Od.POWER_AVS_TARGET 0 (target + 5)).put Od.AGE_PLAN_LEARNED_TARGET 0 (target + 5)).put Rg.AGE_RAISED 0 (now + 1)).bump Od.AGE_PLAN_RAISES 0
  else d

/-- The planner's guards (R665): lanes with a first eye scan since their bring-up that neither the planner nor another entry wrote since. -/
def Dev.planLanes (k : Clk) (m : Memory) (d : Dev) : Dev :=
  let lanes := (d.insts Rg.AGE_LANE).filter fun l =>
    d.on Rg.AGE_LANE l 0 && !d.on Rg.AGE_LANE l 1 && !d.on Rg.AGE_LANE l 2 && !d.stagedAny fun w => w.idx == 0x2000 && w.sub == 5 && w.inst == l
  d.each (if d.on Od.AGE_PLAN_LANES 0 then lanes else []) fun d l =>
    let v := max 12 (d.n Rg.AGE_LANE l 0 - 1 - d.n Od.AGE_PLAN_LANE_DROP 0)
    d.planWrite k m { idx := 0x2000, inst := l, sub := 5, data := bytesLE 2 v } fun d => (d.put Rg.AGE_LANE l 1 2).bump Od.AGE_PLAN_GUARD_WRITES 0

/-- A grant doubled, at most to what R48 accepts (R666). -/
def raised (g top : Nat) : Nat := max g (min (2 * g) top)

/-- The planner's tick plan (R666). -/
def Dev.planScrub (k : Clk) (m : Memory) (d : Dev) : Dev :=
  let limit := d.n Od.AGE_PLAN_SCRUB_RAISE 0
  let hot := fun (i : Nat) => limit != 0 && decide (limit < d.n Rg.AGE_CORRECTED i 1)
  if !hot 0x18 && !hot 0x28 then d
  else
    let b := d.elems Od.TICK_PLAN_BUF 0 4
    let e := d.elems Od.TICK_PLAN_EM 0 5
    let b' := if hot 0x18 then b.set 3 (raised (b.getD 3 0) (17 - (b.take 3).sum)) else b
    let e' := if hot 0x28 then e.set 4 (raised (e.getD 4 0) (400 - (e.take 4).sum)) else e
    let d := d.each (b' ++ e').zipIdx fun d x => d.put Od.AGE_PLAN_PROPOSED 0 x.1 x.2
    if !d.on Od.AGE_PLAN_AUTO_PLAN 0 then d
    else
      let bytes := fun (l : List Nat) => l.flatMap (bytesLE 2)
      let d := if hot 0x18 then d.planWrite k m { idx := 0x1100, inst := 0, sub := 0x10, data := bytes b' } id else d
      if hot 0x28 then d.planWrite k m { idx := 0x1100, inst := 0, sub := 0x11, data := bytes e' } id else d

/-- The planner decides after a sample (R663). -/
def Dev.planDecide (k : Clk) (m : Memory) (d : Dev) : Dev :=
  if d.n Rg.AGE_READY 0 = 0 then d
  else
    let d := d.put Rg.AGE_READY 0 0
    if !d.on Od.AGE_PLAN_ENABLE 0 || d.maint || d.isolated || d.n Od.RESET_STATE 0 != 1 then d
    else ((d.planVoltage).planLanes k m).planScrub k m

end Sys2Proof.Machine
end

