-- ==== Sys2Proof/Machine/Rows.lean ====
section
/-! DEFINITION. The commands that are a write of an object. In a tick's first clock such a command is the write as it applies at the boundary that opened the
tick; within a tick nothing tick-aligned changes (R20, R31), so the write is checked and waits, staged, for the next boundary (log entry 36). -/
namespace Sys2Proof.Machine

/-- A write of an object, from its first element on. -/
def wr (o : Obj) (i : Nat) (data : List Byte) : WriteOp := { idx := o.idx, inst := i, sub := o.sub, data := data }

/-- A write of 1. -/
def wr1 (o : Obj) (i : Nat) : List WriteOp := [wr o i [1]]

/-- A write of 0. -/
def wr0 (o : Obj) (i : Nat) : List WriteOp := [wr o i [0]]

/-- A write of a number to an object of one element. -/
def wrN (o : Obj) (i n : Nat) : WriteOp := wr o i (bytesLE o.ty.bytes n)

/-- The entry of a staged write of a command; nothing answers it. -/
def rowEntry : Nat := 1200

/-- Writes that come within a tick wait for the next boundary, if they pass the checks of R566 and R571. -/
def Dev.rowLater (k : Clk) (ws : List WriteOp) (m : Memory) (d : Dev) : Dev :=
  if ws.any fun w => w.pre 2 ≠ 0 then d
  else
    let now := d.asOf (k.tick + 1)
    let c := Dev.checkGroup m (now.each ws fun d w => d.stands w) [] ws now d
    if c.1 ≠ 0 then c.2.2 else c.2.2.stage { tick := k.tick + 1, ops := ws, group := decide (1 < ws.length), entry := rowEntry, role := 2 }

/-- A command that is the writes ws: f is what they do as they apply. -/
def State.row (s : State) (ok : Bool) (ws : List WriteOp) (f : Clk → Memory → Dev → Memory × Dev) : Host.Outcome State Fault Refusal :=
  s.runM ok fun k m d =>
    if k.c = 0 then
      let r := f k m d
      (r.1, r.2.atOpen)
    else (m, d.rowLater k ws m)

/-- The same where HBM is not touched. -/
def State.rowD (s : State) (ok : Bool) (ws : List WriteOp) (f : Clk → Dev → Dev) : Host.Outcome State Fault Refusal :=
  s.row ok ws fun k m d => (m, f k d)

/-- A command that is any write of an object. -/
def State.rowAny (s : State) (w : WriteOp) : Host.Outcome State Fault Refusal := s.row true [w] fun k m d => d.writeNow k 2 w m

end Sys2Proof.Machine
end

