-- ==== Sys2Proof/Machine/Ageing.lean ====
section
/-! DEFINITION. The meanings of the commands of chapter 27: operating time, ageing samples, the margin planner, replacement. -/
namespace Sys2Proof.Machine

/-- R507, R668: a second of operation passes; the crust counts it whatever the other dies do. -/
def execOperatingSecond (st : State) : Host.Outcome State Fault Refusal := st.runCrust fun _ d => d.operatingSecond

/-- R661: the boundary that opened the tick now open begins a sample. -/
def execAgeSampleStart (st : State) : Host.Outcome State Fault Refusal := st.run fun k d => d.sampleStart k

/-- R661, R662, R667: the boundary that opened the tick now open ends a sample. -/
def execAgeSampleEnd (shifts slacks : List (List Int)) (st : State) : Host.Outcome State Fault Refusal :=
  st.run fun k d => d.sampleEnd k shifts slacks

/-- R661: the minimum-voltage arrays have been stepped down. -/
def execVminTest (steps : List Nat) (st : State) : Host.Outcome State Fault Refusal := st.run fun _ d => d.vminTest steps

/-- R663 to R666: the planner decides in the first clock of the tick that follows a sample. -/
def execPlannerDecision (st : State) : Host.Outcome State Fault Refusal := st.run fun k d => d.planDecide k st.mem

/-- R664: a write of AGE.PLAN.RELEARN with value 1. -/
def execPlanRelearn (st : State) : Host.Outcome State Fault Refusal :=
  st.rowAny { idx := 0xA000, inst := 0, sub := 0x15, data := [1] }

/-- R674: a write of AGE.REPLACE.MAINTAIN with value 1. -/
def execReplaceMaintain (st : State) : Host.Outcome State Fault Refusal :=
  st.rowAny { idx := 0xA100, inst := 0, sub := 1, data := [1] }

/-- R674: a write of AGE.REPLACE.ADOPT with value 1. -/
def execReplaceAdopt (st : State) : Host.Outcome State Fault Refusal :=
  st.rowAny { idx := 0xA100, inst := 0, sub := 2, data := [1] }

end Sys2Proof.Machine
end

