-- ==== Sys2Proof/Machine/DictCmds.lean ====
section
/-! DEFINITION. The meanings of the commands of chapter 22: the dictionary engine's messages, sessions, operations, window and management ports. A command of an
operation carries the REQUEST whose first record asks for it. -/
namespace Sys2Proof.Machine

/-- A message that changes no HBM. -/
def State.say (st : State) (f : Clk → Memory → Dev → Dev) : Host.Outcome State Fault Refusal := st.run fun k d => f k st.mem d

/-- HELLO (R558 to R560), and every message that is no OPEN, REQUEST or CLOSE. -/
def execBluntoakHello (entry source : Nat) (message : List Byte) (st : State) : Host.Outcome State Fault Refusal :=
  st.say fun k m d => if [3, 5, 7].contains (be message 0 1 % 16) then d else d.take k m entry source message

/-- OPEN (R558). -/
def execBluntoakOpen (entry source : Nat) (message : List Byte) (st : State) : Host.Outcome State Fault Refusal :=
  st.say fun k m d => d.takeKind k m 3 (fun _ => true) entry source message

/-- CLOSE (R562). -/
def execBluntoakClose (entry source : Nat) (message : List Byte) (st : State) : Host.Outcome State Fault Refusal :=
  st.say fun k m d => d.takeKind k m 7 (fun _ => true) entry source message

/-- A REQUEST that begins with a READ (R566, R569), or with an operation that is none of R564. -/
def execOpRead (entry source : Nat) (message : List Byte) (st : State) : Host.Outcome State Fault Refusal :=
  st.request entry fun k m d => d.takeKind k m 5 (fun o => o == 1 || o == 0 || decide (8 < o)) entry source message

/-- A REQUEST that begins with a WRITE (R567, R568). -/
def execOpWrite (entry source : Nat) (message : List Byte) (st : State) : Host.Outcome State Fault Refusal :=
  st.request entry fun k m d => d.takeKind k m 5 (· == 2) entry source message

/-- A REQUEST that begins with a WRITE_SEG (R570). -/
def execOpWriteSeg (entry source : Nat) (message : List Byte) (st : State) : Host.Outcome State Fault Refusal :=
  st.request entry fun k m d => d.takeKind k m 5 (· == 3) entry source message

/-- A REQUEST that begins with a READ_SEG (R569). -/
def execOpReadSeg (entry source : Nat) (message : List Byte) (st : State) : Host.Outcome State Fault Refusal :=
  st.request entry fun k m d => d.takeKind k m 5 (· == 4) entry source message

/-- A REQUEST that begins with a GROUP_BEGIN (R571). -/
def execGroupBegin (entry source : Nat) (message : List Byte) (st : State) : Host.Outcome State Fault Refusal :=
  st.request entry fun k m d => d.takeKind k m 5 (· == 5) entry source message

/-- A REQUEST that begins with a GROUP_COMMIT (R571). -/
def execGroupCommit (entry source : Nat) (message : List Byte) (st : State) : Host.Outcome State Fault Refusal :=
  st.request entry fun k m d => d.takeKind k m 5 (· == 6) entry source message

/-- A REQUEST that begins with a GROUP_ABORT (R571). -/
def execGroupAbort (entry source : Nat) (message : List Byte) (st : State) : Host.Outcome State Fault Refusal :=
  st.request entry fun k m d => d.takeKind k m 5 (· == 7) entry source message

/-- A REQUEST that begins with a DESCRIBE (R564, R565). -/
def execOpDescribe (entry source : Nat) (message : List Byte) (st : State) : Host.Outcome State Fault Refusal :=
  st.request entry fun k m d => d.takeKind k m 5 (· == 8) entry source message

/-- A slot held by an unanswered CHALLENGE (R558). -/
def execChallengeTimeout (slot : Nat) (st : State) : Host.Outcome State Fault Refusal := st.runIf (decide (slot < 16)) fun k d => d.challengeEnd k slot

/-- An idle session (R562). -/
def execSessionIdleTimeout (slot : Nat) (st : State) : Host.Outcome State Fault Refusal := st.runIf (decide (slot < 16)) fun k d => d.sessionIdle k slot

/-- The end of a lockout (R559). -/
def execHelloLockoutEnd (address : Nat) (st : State) : Host.Outcome State Fault Refusal := st.run fun k d => d.lockoutEnd k address

/-- An unread snapshot (R569). -/
def execSnapshotTimeout (slot handle : Nat) (st : State) : Host.Outcome State Fault Refusal :=
  st.runIf (decide (slot < 16 ∧ handle < 8)) fun k d => d.snapshotEnd k slot handle

/-- A write of a role's key (R562, R577). -/
def execDictKeyWrite (role : Nat) (key : List Byte) (st : State) : Host.Outcome State Fault Refusal :=
  st.rowAny { idx := 0x1210, inst := role, sub := 1, data := key }

/-- A write of DOORBELL with the REQUEST area's message (R573). -/
def execWindowDoorbell (value : Nat) (message : List Byte) (st : State) : Host.Outcome State Fault Refusal :=
  st.request 0 fun k m d => if value = 1 then d.submit k m message else d

/-- A write of ACK (R573). -/
def execWindowAck (value : Nat) (st : State) : Host.Outcome State Fault Refusal := st.run fun _ d => if value = 1 then d.windowAck else d

/-- An ARP request on a management port (R555). -/
def execArpRequest (port : Nat) (frame : List Byte) (st : State) : Host.Outcome State Fault Refusal :=
  st.runIf (decide (port < 2)) fun _ d => d.arpReply port frame

/-- A neighbour solicitation on a management port (R555). -/
def execNeighbourSolicitation (port : Nat) (frame : List Byte) (st : State) : Host.Outcome State Fault Refusal :=
  st.runIf (decide (port < 2)) fun _ d => d.neighbourReply port frame

/-- An echo request on a management port (R555). -/
def execEchoRequest (port : Nat) (frame : List Byte) (st : State) : Host.Outcome State Fault Refusal :=
  st.runIf (decide (port < 2)) fun _ d => d.echoReply port frame

/-- A write of an object (R20, R566), of role MAINTAINER. -/
def execObjectWrite (idx inst sub off : Nat) (data : List Byte) (st : State) : Host.Outcome State Fault Refusal :=
  st.rowAny { idx := idx, inst := inst, sub := sub, off := off, data := data }

/-- A read of elements of an RC object (R14, R16). -/
def execRcRead (idx inst sub first count : Nat) (st : State) : Host.Outcome State Fault Refusal :=
  st.say fun k m d => d.readClear k m idx inst sub first count

end Sys2Proof.Machine
end

