-- ==== Sys2Proof/Machine/StartOps.lean ====
section
/-! DEFINITION. The seed image (R609 to R615) and the start of the device (R505, R507, R616, R643). -/
namespace Sys2Proof.Machine

/-- A record of the seed image (R611). -/
structure SeedRec where
  idx : Nat
  inst : Nat
  sub : Nat
  flags : Nat
  count : Nat
  off : Nat
  data : List Byte
  deriving DecidableEq, Repr

/-- A little-endian number in a copy of the image. -/
def le (bs : List Byte) (o n : Nat) : Nat := ofBytesLE (sliceZ bs o n)

/-- The records of a copy's body (R611), none where one runs past the end or sets a reserved bit; `fuel` bounds their number. -/
def seedRecs : Nat → List Byte → Option (List SeedRec)
  | 0, bs => if bs.isEmpty then some [] else none
  | fuel + 1, bs =>
    if bs.isEmpty then some []
    else
      let n := le bs 8 4
      if bs.length < 16 + padded n ∨ 4 ≤ le bs 5 1 then none
      else
        let r : SeedRec :=
          { idx := le bs 0 2, inst := le bs 2 2, sub := le bs 4 1, flags := le bs 5 1, count := le bs 6 2, off := le bs 12 4, data := sliceZ bs 16 n }
        (seedRecs fuel (bs.drop (16 + padded n))).map (r :: ·)

/-- Groups do not nest, and none is open at the end (R611). -/
def seedNested : Bool → List SeedRec → Bool
  | opened, [] => !opened
  | opened, r :: t =>
    let begins := bit r.flags 0
    let commits := bit r.flags 1
    !(begins && opened) && !(commits && !begins && !opened) && seedNested ((opened || begins) && !commits) t

/-- A copy is signed. -/
def seedSigned (bs : List Byte) : Bool := bit (le bs 7 1) 0

/-- The records of a copy that passes every check of R610 to R612. -/
def Dev.seedCheck (bs : List Byte) (d : Dev) : Option (List SeedRec) :=
  let n := le bs 8 4
  let sig := if seedSigned bs then 64 else 0
  let body := (bs.take (n - sig)).drop 64
  let head := bs.take 4 = [0x4F, 0x5A, 0x53, 0x49] ∧ le bs 4 2 = 1 ∧ le bs 28 4 = crc32 (bs.take 28) ∧ bit (d.n Od.DEVICE_LEVELS_SUPPORTED 0) (le bs 6 1) ∧
    64 + sig ≤ n ∧ n ≤ 16777216 ∧ n ≤ bs.length ∧ le bs 7 1 < 2 ∧ (sliceZ bs 32 32).all (· == 0)
  if ¬ (64 ≤ bs.length ∧ head ∧ le bs 24 4 = crc32 body) then none
  else
    match seedRecs (body.length / 16 + 1) body with
    | none => none
    | some rs =>
      let signature := if sig = 0 then !d.on Od.SEED_REQUIRE_SIGNATURE 0
        else Config.ed25519Verify (d.blob Od.SEED_PUBLIC_KEY 0) (bs.take (n - 64)) ((bs.take n).drop (n - 64))
      if rs.length = le bs 12 4 ∧ seedNested false rs ∧ signature then some rs else none

/-- The copies in the order in which the loader tries them (R609): highest SEQUENCE first, A first when they are equal. -/
def seedOrder (a b : List Byte) : List (Nat × List Byte) := if le a 16 8 < le b 16 8 then [(1, b), (0, a)] else [(0, a), (1, b)]

/-- The copy the loader uses, and the copies that failed before it as bits. -/
def Dev.seedChoice (d : Dev) : List (Nat × List Byte) → Option (Nat × List Byte × List SeedRec) × Nat
  | [] => (none, 0)
  | c :: t =>
    match d.seedCheck c.2 with
    | some rs => (some (c.1, c.2, rs), 0)
    | none => let r := Dev.seedChoice d t; (r.1, r.2 + 2 ^ c.1)

/-- The writes of a record, each with the record's number (R611). -/
def SeedRec.writes (n : Nat) (r : SeedRec) : List (Nat × WriteOp) :=
  (List.range r.count).map fun i => (n, { idx := r.idx, inst := r.inst + i, sub := r.sub, off := r.off, data := r.data })

/-- The writes of a copy as writes outside groups and commit groups, in order (R611, R613). -/
def seedGroups : Nat → Option (List (Nat × WriteOp)) → List SeedRec → List (List (Nat × WriteOp))
  | _, _, [] => []
  | n, g, r :: t =>
    let ws := r.writes n
    match g with
    | some l => if bit r.flags 1 then (l ++ ws) :: seedGroups (n + 1) none t else seedGroups (n + 1) (some (l ++ ws)) t
    | none =>
      if bit r.flags 0 then (if bit r.flags 1 then ws :: seedGroups (n + 1) none t else seedGroups (n + 1) (some ws) t)
      else (ws.map fun w => [w]) ++ seedGroups (n + 1) none t

/-- The checks of the writes of a group in order (R566, R571, R604, R613): the record and status of the first refused. `a` is the device as the writes before
leave it, f as all do. -/
def Dev.seedRefusal (m : Memory) (signed warm : Bool) (f : Dev) : List (Nat × WriteOp) → Dev → Dev → Option (Nat × Nat) × Dev
  | [], _, d => (none, d)
  | w :: t, a, d =>
    let p := w.2.pre 2
    let s := if p ≠ 0 then p else if warm ∧ w.2.idx / 256 = 0x60 then 8 else d.post w.2 signed m a f
    let d := if p = 0 then d.noteCheck w.2 s f else d
    if s ≠ 0 then (some (w.1, s), d) else Dev.seedRefusal m signed warm f t (a.stands w.2) d

/-- A write or group of the seed is accepted and applies, or is refused and counted (R613). -/
def Dev.seedApply (k : Clk) (signed warm : Bool) (s : Memory × Dev) (g : List (Nat × WriteOp)) : Memory × Dev :=
  let d := s.2
  let ws := g.map (·.2)
  let f := d.each ws fun d w => d.stands w
  let big := 1024 < ws.length ∨ 65536 < (ws.map (·.data.length)).sum ∨ 4096 < (ws.map WriteOp.words).sum
  let c := if big then (some ((g.head?.map (·.1)).getD 0, 18), d) else Dev.seedRefusal s.1 signed warm f g d d
  match c.1 with
  | some r =>
    let d := c.2
    let d := if d.n Od.SEED_REFUSED 0 = 0 then (d.put Od.SEED_FIRST_REFUSED 0 r.1).put Od.SEED_FIRST_STATUS 0 r.2 else d
    (s.1, d.bump Od.SEED_REFUSED 0)
  | none =>
    let r := Dev.applyOps k ws 0 false ws s.1 c.2
    (r.1, ((((r.2.swapsOf k ws).applyViewWrites k).gateFix k).startsOf k ws))

/-- The word of VOUT_COMMAND for a setpoint in mV (R643). -/
def voutWord (mv : Nat) (exp : Int) : Nat :=
  (if exp < 0 then roundHalfEven (mv * 2 ^ exp.natAbs) 1000 else roundHalfEven mv (1000 * 2 ^ exp.natAbs)).toNat

/-- A step is sent to the regulator (R644). -/
def Dev.avsSend (mv : Nat) (d : Dev) : Dev :=
  let w := voutWord mv ((d.n Rg.AVS_EXP 0 : Int) - 100)
  d.emit { kind := .pmbus, unit := d.n Od.POWER_AVS_ADDRESS 0, vals := [0x21, w], bytes := bytesLE 2 w }

/-- The boot setpoint is set (R643): VOUT_MODE as the regulator answers it, none where it does not. -/
def Dev.avsStart (vout : Option Nat) (d : Dev) : Dev :=
  match vout with
  | some v =>
    if d.on Od.POWER_AVS_ENABLE 0 ∧ bits v 7 5 = 0 then
      let n : Int := toSigned 5 (bits v 4 0)
      ((d.put Rg.AVS_EXP 0 (n + 100).toNat).put Od.POWER_AVS_SETPOINT 0 (d.n Od.POWER_AVS_BOOT 0)).avsSend (d.n Od.POWER_AVS_BOOT 0)
    else (d.put Rg.AVS_EXP 0 0).bump Od.POWER_AVS_FAILURES 0
  | none => (d.put Rg.AVS_EXP 0 0).bump Od.POWER_AVS_FAILURES 0
/-- The steps of a start before the seed (R616 steps 1 to 3; none of them after a warm reset). -/
def Dev.startFirst (vout : Option Nat) (d : Dev) : Dev :=
  if d.n Od.RESET_STATE 0 = 2 then d
  else
    let d := (d.when (d.n Od.RESET_LAST_KIND 0 == 1) fun d => d.bump Od.DEVICE_POWER_CYCLES 0).recCheck
    d.avsStart vout

/-- Step 6 of a start (R507, R616, R664): the learned target, the START record, RUN, and the bring-up of every enabled port. -/
def Dev.startLast (k : Clk) (d : Dev) : Dev :=
  let d := (d.put Od.POWER_AVS_TARGET 0 (d.n Od.AGE_PLAN_LEARNED_TARGET 0)).startRecord k (d.n Od.RESET_LAST_KIND 0)
  let d := (d.put Od.RESET_STATE 0 1).each (List.range 8) fun d s => d.put Od.DEVICE_SORUS_LINK_STATE s 2
  (d.each (d.ports.filter fun p => d.on Od.PORT_ENABLE p) fun d p => d.bringUp k p).atOpen

/-- The device starts (R616): the seed is chosen and its records accepted; one for another level causes a warm reset (R614). -/
def Dev.startUp (k : Clk) (a b : List Byte) (vout : Option Nat) (m : Memory) (d : Dev) : Memory × Dev :=
  let warm := d.n Od.RESET_STATE 0 == 2
  let d := d.startFirst vout
  let c := d.seedChoice (seedOrder a b)
  let d := d.put Od.SEED_FAILED_COPIES 0 c.2
  match c.1 with
  | none => (m, ((d.put Od.SEED_STATUS 0 3).put Od.SEED_COPY 0 255).startLast k)
  | some s =>
    let level := le s.2.1 6 1
    if level ≠ d.n Od.DEVICE_BEHAVIOUR_LEVEL 0 then (d.put Od.RESET_LEVEL_NEXT 0 level).warmBegin k 5 m
    else
      let d := (d.put Od.SEED_COPY 0 s.1).put Od.SEED_SEQUENCE 0 (le s.2.1 16 8)
      let groups := seedGroups 0 none s.2.2
      let r := groups.foldl (Dev.seedApply k (seedSigned s.2.1) warm) (m, d)
      let d := r.2.put Od.SEED_STATUS 0 (if r.2.on Od.SEED_REFUSED 0 then 2 else 1)
      (d.startLast k).resetsOf k (groups.flatten.map (·.2)) r.1

end Sys2Proof.Machine
end

