-- ==== Sys2Proof/Machine/Electrical.lean ====
section
/-! DEFINITION. The meanings of the commands of chapter 26: temperature (R652) and adaptive voltage scaling (R643, R644). -/
namespace Sys2Proof.Machine

/-- The sensors are read (R652): TEMP_ALERT_N follows; 115 degrees on a die stops every die but the crust. -/
def Dev.temperature (k : Clk) (rs : List Int) (d : Dev) : Dev :=
  let d := d.each ((rs.take 13).zipIdx) fun d x => (d.set Od.POWER_TEMP 0 x.1 x.2).set Od.POWER_TEMP_PEAK 0 (max x.1 (d.get Od.POWER_TEMP_PEAK 0 x.2)) x.2
  let d := (d.put Rg.TEMP_LAST 0 (k.tick + 1)).tempAlert
  if (List.range 9).any fun i => decide (1840 ≤ d.get Od.POWER_TEMP 0 i) then
    (((d.put Rg.HALT 0 2).put Od.HOST_LINK_STATE 0 0).put Od.RESET_STATE 0 0).emit { kind := .pin, unit := 17, vals := [0] }
  else d

/-- The next setpoint towards the target, at most 5 mV away, within POWER.AVS.BOOT and 800 mV (R644). -/
def Dev.avsNext (d : Dev) : Nat :=
  let sp := d.n Od.POWER_AVS_SETPOINT 0
  let t := max (d.n Od.POWER_AVS_BOOT 0) (min 800 (d.n Od.POWER_AVS_TARGET 0))
  if sp < t then min t (sp + 5) else max t (sp - 5)

/-- READ_VOUT and READ_IOUT are read. -/
def Dev.avsRead (k : Clk) (vout iout : Nat) (d : Dev) : Dev :=
  ((d.put Od.POWER_AVS_READ_VOUT 0 vout).put Od.POWER_AVS_READ_IOUT 0 iout).put Rg.AVS_READ 0 (k.tick + 1)

/-- A try of a step is answered: acknowledged, or to be tried again up to three times (R644). -/
def Dev.avsTry (k : Clk) (ack : Bool) (vout iout : Nat) (d : Dev) : Dev :=
  let d := d.avsSend (d.n Rg.AVS_STEP 0)
  if ack then
    ((d.put Od.POWER_AVS_SETPOINT 0 (d.n Rg.AVS_STEP 0)).put Rg.AVS_TRIES 0 0).avsRead k vout iout
  else if d.n Rg.AVS_TRIES 0 = 3 then ((d.bump Od.POWER_AVS_FAILURES 0).put Rg.AVS_TRIES 0 0).put Rg.AVS_LAST 0 (k.tick + 1)
  else (d.put Rg.AVS_TRIES 0 (d.n Rg.AVS_TRIES 0 + 1)).put Rg.AVS_TRY_TICK 0 k.tick

/-- A step may be sent: AVS works, no retry is pending, the last step is 2,000 ticks old, the rail is away from the target (R644, R657). -/
def Dev.avsDue (k : Clk) (d : Dev) : Bool :=
  d.on Od.POWER_AVS_ENABLE 0 && d.on Rg.AVS_EXP 0 && !d.on Rg.AVS_TRIES 0 && d.n Od.POWER_AVS_SETPOINT 0 != d.avsNext &&
    (!d.on Rg.AVS_LAST 0 || decide (d.n Rg.AVS_LAST 0 + 1999 ≤ k.tick))

/-- R652: every 2,000 ticks the thirteen sensors are read. -/
def execTemperatureSample (readings : List Int) (st : State) : Host.Outcome State Fault Refusal :=
  st.run fun k d => if d.n Rg.TEMP_LAST 0 = 0 ∨ d.n Rg.TEMP_LAST 0 + 1999 ≤ k.tick then d.temperature k readings else d

/-- R644: PMB_ALERT_N is asserted. -/
def execPmbAlert (status : Nat) (st : State) : Host.Outcome State Fault Refusal :=
  st.run fun _ d => (d.bump Od.POWER_AVS_ALERTS 0).put Od.POWER_AVS_STATUS 0 (status % 65536)

/-- R644: a step of at most 5 mV towards the target, at the boundary that opened the tick now open. -/
def execAvsStep (ack : Bool) (vout iout : Nat) (st : State) : Host.Outcome State Fault Refusal :=
  st.run fun k d =>
    if d.avsDue k then ((d.put Rg.AVS_STEP 0 d.avsNext).put Rg.AVS_LAST 0 (k.tick + 1)).avsTry k ack vout iout else d

/-- R644: a failed transaction is tried again 100 µs after its last try. -/
def execAvsRetry (ack : Bool) (vout iout : Nat) (st : State) : Host.Outcome State Fault Refusal :=
  st.run fun k d => if d.on Od.POWER_AVS_ENABLE 0 && d.on Rg.AVS_TRIES 0 && decide (d.n Rg.AVS_TRY_TICK 0 + 200 ≤ k.tick) then d.avsTry k ack vout iout else d

/-- R644: every 20,000 ticks READ_VOUT and READ_IOUT are read. -/
def execAvsReadback (vout iout : Nat) (st : State) : Host.Outcome State Fault Refusal :=
  st.run fun k d =>
    if d.on Od.POWER_AVS_ENABLE 0 && (!d.on Rg.AVS_READ 0 || decide (d.n Rg.AVS_READ 0 + 19999 ≤ k.tick)) then d.avsRead k vout iout else d

end Sys2Proof.Machine
end

