-- ==== Sys2Proof/Machine/Evidence.lean ====
section
/-! DEFINITION. The meanings of the commands of tree slots (R161 to R165) and of counters, dumps, windows and spores (R479 to R490). -/
namespace Sys2Proof.Machine

/-- R165: a write of CLASS.SWAP is staged for the boundary that opens the tick after the next (R43). -/
def execClassSwap (slot : Nat) (st : State) : Host.Outcome State Fault Refusal :=
  st.runIf (decide (slot < 2)) fun k d =>
    if d.swapOk slot && !d.idle then
      let w : WriteOp := { idx := 0x3400, inst := 0, sub := 2, data := bytesLE 1 slot }
      d.stage { tick := k.tick + 2, ops := [w] }
    else d

/-- R162, R163: a write of CLASS.SLOT.DATA. -/
def execSlotDataWrite (slot : Nat) (data : List Byte) (st : State) : Host.Outcome State Fault Refusal :=
  st.rowD (decide (slot < 2)) [wr Od.CLASS_SLOT_DATA slot data] fun _ d =>
    if d.idle then d
    else if d.slotBar slot ≠ 0 then d.put Od.CLASS_SLOT_LAST_REFUSAL slot (d.slotBar slot)
    else if slotFits (d.n Od.CLASS_SLOT_OFFSET slot) data.length then d.slotData slot data else d

/-- R163, R164: a write of CLASS.SLOT.SEAL. -/
def execSlotSeal (slot rules lines crc : Nat) (st : State) : Host.Outcome State Fault Refusal :=
  st.rowD (decide (slot < 2) && sealOk rules lines crc) [wr Od.CLASS_SLOT_SEAL slot (bytesLE 4 rules ++ bytesLE 4 lines ++ bytesLE 4 crc)] fun k d =>
    if d.idle then d
    else if d.slotBar slot ≠ 0 then d.put Od.CLASS_SLOT_LAST_REFUSAL slot (d.slotBar slot)
    else d.slotSeal k slot rules lines (crc % 2 ^ 32)

/-- R164: the boundary after the seal check. -/
def execSealCheckEnd (slot : Nat) (st : State) : Host.Outcome State Fault Refusal :=
  st.runIf (decide (slot < 2)) fun k d => if d.sealChecked k slot then d.sealEnd slot else d

/-- R479: a write of a counter object. -/
def execCounterWrite (idx sub inst : Nat) (words : List Nat) (st : State) : Host.Outcome State Fault Refusal :=
  st.rowD (words.all fun w => decide (w < 2 ^ 64)) [{ idx := idx, inst := inst, sub := sub, data := words.flatMap (bytesLE 8) }] fun _ d =>
    match objOf idx sub with
    | some o => if o.ctr && decide (inst ≤ o.insts) && counterWordsOk o words then d.counterSet o inst words else d
    | none => d

/-- R480 to R483: a dump falls due at the boundary that opened the tick now open. -/
def execDumpDue (st : State) : Host.Outcome State Fault Refusal :=
  st.runM true fun k m d => if d.dumpDue (d.rk k) && k.c == 0 then d.dumpStart (d.rk k) m else (m, d)

/-- R483: the last body byte of the dump under way has been written. -/
def execDumpComplete (st : State) : Host.Outcome State Fault Refusal := st.runM true fun _ m d => d.dumpEnd m

/-- R484: a read of CTR.HBM_READ.DATA; a read outside both rings is refused. -/
def execHbmReadData (st : State) : Host.Outcome State Fault Refusal :=
  st.runM true fun _ m d =>
    let r := d.hbmReadData m
    match r.1 with
    | some bs => (m, r.2.emit { kind := .response, vals := [0x8000], bytes := bs })
    | none => (m, r.2)

/-- R487: a port's window closes at the boundary that ended it. -/
def execWindowClose (port : Nat) (st : State) : Host.Outcome State Fault Refusal :=
  st.runIf (decide (port < 1024)) fun _ d => if d.on Rg.WIN_LAST 0 then d.windowClose port else d

/-- R490: a write of SPORE.RING.BASE, RECORDS or MODE; RECORDS outside 2 to 5,592,405 and a mode above 1 are refused, as is a bad base (R492). -/
def execSporeRingReset (base records mode : Nat) (st : State) : Host.Outcome State Fault Refusal :=
  st.rowD (decide (base < 2 ^ 64 ∧ 2 ≤ records ∧ records ≤ 5592405 ∧ mode ≤ 1)) [wrN Od.SPORE_RING_BASE 0 base, wrN Od.SPORE_RING_RECORDS 0 records, wrN Od.SPORE_RING_MODE 0 mode] fun _ d =>
    let e := ((d.put Od.SPORE_RING_BASE 0 base).put Od.SPORE_RING_RECORDS 0 records).put Od.SPORE_RING_MODE 0 mode
    if e.areaOk 1 then e.sporeReset else d

/-- R266, R489, R490: the oldest capture job is served. -/
def execCaptureJob (st : State) : Host.Outcome State Fault Refusal := st.runM true fun k m d => d.captureJob k m

end Sys2Proof.Machine
end

