-- ==== Sys2Proof/Machine/ExactMatch.lean ====
section
/-! DEFINITION. The commands of "Exact-match tables". A row of a batch runs the batch's next record when it has that opcode and its bank has slots left in the tick; SEARCH and FLUSH
scan on with the slots of the tick. -/
namespace Sys2Proof.Machine

/-- R191. -/
def execLearningExecute (st : State) : Host.Outcome State Fault Refusal := st.run fun k d => d.learnAll (d.rk k)

/-- R197. -/
def execSweepPassStart (st : State) : Host.Outcome State Fault Refusal := st.run fun k d => d.sweepStart (d.rk k)

/-- R198: the next bucket of a bank. -/
def execSweepVisit (bank : Nat) (st : State) : Host.Outcome State Fault Refusal := st.runIf (decide (bank < 256)) fun k d => d.sweepVisit (d.rk k) bank

/-- R201: INSERT. -/
def execEmInsert (st : State) : Host.Outcome State Fault Refusal :=
  st.run fun k d => d.batchRun k 1 fun i r d => d.emInsert k i (recKey r) (recResult r) (recAt r)

/-- R201: DELETE. -/
def execEmDelete (st : State) : Host.Outcome State Fault Refusal :=
  st.run fun k d => d.batchRun k 2 fun i r d => d.emDelete k i (recKey r) (recResult r) (recPos r) (recAt r)

/-- R201: READ. -/
def execEmRead (st : State) : Host.Outcome State Fault Refusal :=
  st.run fun k d => d.batchRun k 3 fun i r d => d.emRead i (recKey r) (recResult r) (recPos r) (recAt r)

/-- R201: REPLACE. -/
def execEmReplace (st : State) : Host.Outcome State Fault Refusal :=
  st.run fun k d => d.batchRun k 4 fun i r d => d.emReplace k i (recKey r) (recResult r) (recPos r) (recAt r)

/-- R201: SEARCH. -/
def execEmSearch (st : State) : Host.Outcome State Fault Refusal :=
  st.run fun k d => d.batchScan k 5 fun i r d => d.emSearch k i (recKey r) (recResult r) (recKeyMask r) (recResultMask r) (recPos r)

/-- R201: FLUSH. -/
def execEmFlush (st : State) : Host.Outcome State Fault Refusal :=
  st.run fun k d => d.batchScan k 6 fun i r d =>
    d.emFlush k i (recKey r) (recResult r) (recKeyMask r) (recResultMask r) (bit (r.getD 33 0).toNat 1)

/-- R204. -/
def execEmBatchDone (st : State) : Host.Outcome State Fault Refusal := st.run fun k d => d.emBatchDone k

/-- R206. -/
def execShadowDataWrite (data : List Byte) (st : State) : Host.Outcome State Fault Refusal := 
  st.row true [wr Od.EM_SHADOW_DATA 0 data] fun k m d => d.shadowWrite k data m

/-- R207: the next range of a bank. -/
def execShadowCompareRange (bank : Nat) (st : State) : Host.Outcome State Fault Refusal :=
  st.runM (decide (bank < 256)) fun k m d => (m, d.shadowCompare k bank m)

end Sys2Proof.Machine
end

