-- ==== Sys2Proof/Machine/FabricCmds.lean ====
section
/-! DEFINITION. The meanings of refill, credit, hold and gate-list commands (R281 to R293, R346 to R349), stamp captures (R399), stream watch (R408,
R409) and the reset timers of recovery functions (R234). -/
namespace Sys2Proof.Machine

/-- R281 to R283: a refill read brings a cell from the spill area; `addr` is the address read, `fails` how often its transfer failed its CRC. -/
def execRefillComplete (addr fails : Nat) (st : State) : Host.Outcome State Fault Refusal :=
  if addr < hbmBytes then st.runIf (decide (addr < 0x800000000)) fun k d => d.refillCell k addr fails else .fault .noSuchAddress

/-- R287, R288: a trunk port sends its credit frame. -/
def execCreditFrameSend (port : Nat) (st : State) : Host.Outcome State Fault Refusal := st.runIf (okPort port) fun k d => d.creditSend k port

/-- R287, R288: a credit frame that passed its checks. -/
def execCreditFrameReceived (port : Nat) (grants : List Nat) (st : State) : Host.Outcome State Fault Refusal :=
  st.runIf (okPort port) fun k d => d.trunkFrame port fun d => d.creditFrame k port (grants.map (· % 2 ^ 32))

/-- R290: the head copy of a queue has waited for credit too long. -/
def execCreditStall (queue : Nat) (st : State) : Host.Outcome State Fault Refusal :=
  st.runIf (decide (queue < 16384)) fun k d => d.creditStall k queue

/-- R293: the hold of a port out of service runs out. -/
def execHoldExpiry (port : Nat) (st : State) : Host.Outcome State Fault Refusal :=
  st.runIf (okPort port) fun k d =>
    if d.n Od.PORT_HOLD_STATE port = 1 ∧ d.n Rg.HOLD_START port + d.n Od.PORT_HOLD_TIME port ≤ (d.rk k).tick then d.holdOut k port else d

/-- R346: a write of GATE.CONFIG_CHANGE 1. -/
def execGateConfigInstall (port : Nat) (st : State) : Host.Outcome State Fault Refusal :=
  st.rowD (okPort port) (wr1 Od.GATE_CONFIG_CHANGE port) fun k d => (d.gateInstall port).gateFix k

/-- R347: a write of GATE.CONFIG_CHANGE 0. -/
def execGateConfigCancel (port : Nat) (st : State) : Host.Outcome State Fault Refusal := 
  st.rowD (okPort port) (wr0 Od.GATE_CONFIG_CHANGE port) fun k d => d.gateCancel k port

/-- R348: the first clock whose w reaches the change time makes the copied list the operational one. -/
def execGateListChange (port : Nat) (st : State) : Host.Outcome State Fault Refusal :=
  st.runIf (okPort port) fun k d => d.gateDue (d.rk k) port

/-- R349: a stream gate's list takes over at its change time. -/
def execStreamGateListChange (gate : Nat) (st : State) : Host.Outcome State Fault Refusal :=
  st.runIf (decide (gate < 256)) fun k d =>
    match d.gatePend true gate with
    | some g => if g.ct * 65536 ≤ d.viewNow (d.rk k) g.list.view then d.sgateChange gate g else d
    | none => d

/-- R399: a read of STAMP.CAPTURE.NEXT. -/
def execCaptureNext (st : State) : Host.Outcome State Fault Refusal :=
  st.run fun _ d => let r := d.captureNext; r.2.emit { kind := .response, vals := [0x6800], bytes := r.1 }

/-- R408: a write of WATCH.CLEAR 1. -/
def execWatchClear (stream : Nat) (st : State) : Host.Outcome State Fault Refusal :=
  st.rowD (decide (stream < 65536)) (wr1 Od.WATCH_CLEAR stream) fun k d => (d.watchClose (d.rk k) stream).watchClear stream

/-- R409, R500: the report period of a watched stream closes. -/
def execWatchReport (stream : Nat) (st : State) : Host.Outcome State Fault Refusal :=
  st.runIf (decide (stream < 65536)) fun k d => if d.on Od.WATCH_ENABLE stream then d.watchClose (d.rk k) stream else d

/-- R234: the reset timer of a recovery function reaches 0. -/
def execFrerResetTimer (stream : Nat) (st : State) : Host.Outcome State Fault Refusal :=
  st.runIf (decide (stream < 65536)) fun _ d => d.frerTimeout stream

end Sys2Proof.Machine
end

