-- ==== Sys2Proof/Machine/Faults.lean ====
section
/-! DEFINITION. Recoveries of chapter 25: the actions of the rungs (R625), their start, their windows and queues (R627 to R629), isolation (R632), and the
meanings of its commands. -/
namespace Sys2Proof.Machine

/-- Length of a rung's action in ticks (R625). -/
def rungTicks (rung : Nat) : Nat := match rung with | 1 => 1 | 2 => 2000 | 3 => 1 | _ => 0

/-- A queue is flushed for a RETIRE (R625, R296). -/
def Dev.flushQueue (k : Clk) (d : Dev) (q : Nat) : Dev := d.each (d.queue q) (Dev.flushCopy k)

/-- The RETIRE action of a resource (R625): its cell, position, queue or frame record; a full list isolates the device (R631). -/
def Dev.retireAction (k : Clk) (r : Recov) (d : Dev) : Dev :=
  if r.kind = 6 then
    let n := d.n Od.POOL_QUARANTINE_COUNT 0
    let listed := (List.range n).any fun e => bits (d.n Od.POOL_QUARANTINE_LIST 0 e) 19 0 == r.unit
    if !listed && decide (4096 ≤ n) then d.isolateDue k 5 else d.quarantine r.unit
  else if r.kind = 7 then
    let d := d.emRemove k 5 r.unit
    if d.retireListed r.unit then d
    else if 4096 ≤ d.n Od.INTEG_EM_RETIRED_COUNT 0 then d.isolateDue k 5 else d.listRetired r.unit
  else if r.kind = 8 then d.flushQueue k r.unit
  else
    let ids := (d.frames.filter (·.shown == r.unit)).map (·.id)
    d.each ((d.copies.filter fun c => ids.contains c.fr).map (·.queue)).dedup (Dev.flushQueue k)

/-- A milder action that a stronger one due at the same boundary or under way covers (R602). -/
def Dev.covered (k : Clk) (r : Recov) (d : Dev) : Bool :=
  r.rung == 1 && (!d.sorusRuns (r.unit / 8) || d.fltDue.any fun w => w.rung == 2 && w.die == r.unit / 8 && decide (w.start ≤ k.tick))

/-- A rung's action at its start boundary (R625, R626). -/
def Dev.rungAction (k : Clk) (r : Recov) (d : Dev) : Dev :=
  match r.rung with
  | 1 => if d.covered k r then d else d.flushPipe k r.unit
  | 2 => d.sorusReset k r.die (r.kind == 5) false
  | 3 => d.retireAction k r
  | 4 => d.ringOff r.unit
  | _ => d

/-- A recovery starts (R627, R628, R634): one of the same resource that was under way gives way to it. -/
def Dev.recovStart (k : Clk) (r : Recov) (d : Dev) : Dev :=
  let len := rungTicks r.rung
  let win := max (d.n Od.FAULT_WINDOW 0 (faultSub r.kind - 1)) len
  let r := { r with start := k.tick, actEnd := k.tick + len, winEnd := k.tick + win }
  let d := if r.via = 0 then d else d.faultLog k (match r.via with | 1 => 0 | 2 => 5 | _ => 3) r
  { d with flt := (d.flt.filter fun w => !r.same w) ++ [r] }.rungAction k r

/-- The first recovery due starts. -/
def Dev.recoverNext (k : Clk) (d : Dev) : Dev :=
  match d.fltDue.find? fun r => decide (r.start ≤ k.tick) with
  | some r => { d with fltDue := d.fltDue.erase r }.recovStart k r
  | none => d

/-- Windows that end at this boundary, and the heads of the queues they held up (R627, R629). -/
def Dev.windowsEnd (k : Clk) (d : Dev) : Dev :=
  let subs := (d.fltQ.map fun r => faultSub r.kind).dedup
  let d : Dev := { d with flt := d.flt.filter fun r => !r.over k }
  d.each (subs.filter fun s => !d.subBusy k s) fun d s =>
    match d.fltQ.find? fun q => faultSub q.kind == s with
    | some q => (({ d with fltQ := d.fltQ.erase q } : Dev).pending s).recovStart k q
    | none => d

/-- R627: the first recovery due starts at the boundary that opened the tick now open. -/
def execRecoveryStart (st : State) : Host.Outcome State Fault Refusal := st.run fun k d => d.recoverNext k

/-- R627, R629: windows that have run out end, and queued recoveries start. -/
def execRecoveryWindowEnd (st : State) : Host.Outcome State Fault Refusal := st.run fun k d => d.windowsEnd k

/-- R632: the device enters isolated state for the first cause that is due. -/
def execIsolationEntry (st : State) : Host.Outcome State Fault Refusal :=
  st.run fun k d => match d.isoDue with | some c => if c.2 ≤ k.tick then d.isolateNow k c.1 else d | none => d

end Sys2Proof.Machine
end

