-- ==== Sys2Proof/Machine/FrameIn.lean ====
section
/-! DEFINITION. The meanings of the commands at a port's MAC (chapter 4), of frames entering pipelines (R92, R424, R591), and of flow control and preemption
(R104 to R113). -/
namespace Sys2Proof.Machine

/-- R88 steps 1 to 6, R93, R103, R420: a frame arrives at a port. It is express, or preemptible and comes in fragments; `sub` raw units into this clock its
timestamp point crosses the balls. A parked port whose lanes are off receives nothing (R86). -/
def execFrameReception (port : Nat) (bytes : List Byte) (frags : List Fragment) (codeError fecError : Bool) (sub : Nat) (st : State) :
    Host.Outcome State Fault Refusal :=
  st.runIf (okPort port) fun k d =>
    if d.link port = lkPARKED ∧ d.n Od.PORT_ACTIVE_LANES port = 0 then d else d.receive k port bytes frags codeError fecError sub

/-- The frame that waits at a port's MAC. -/
def Dev.waitingAt (port : Nat) (pre mat : Bool) (d : Dev) : Option (Nat × RxFrame) :=
  d.findRx fun f => f.ready && f.port == port && f.pre == pre && f.desc.fromMat == mat && !f.desc.replay

/-- A frame of a port is handed over, under the settings of this clock (R121), and enters its pipeline unless that is held. -/
def Dev.enter (k : Clk) (m : Memory) (port : Nat) (pre mat : Bool) (d : Dev) : Dev :=
  match d.waitingAt port pre mat with
  | some x =>
    let d := d.holdCount k (pipeOf port)
    if d.maint then d
    else if d.pipeHeld k (pipeOf port) then d.setRx x.1 (d.handed x.2)
    else (d.handOff k x.1 x.2).takeMgmt k m
  | none => d

/-- In this clock a pipeline has taken a packet, or stands behind one that has (R25, R50, R51). -/
def Dev.pipeLate (k : Clk) (pipe : Nat) (d : Dev) : Bool :=
  !d.pipeHeld k pipe && !d.maint && decide (rotation (d.rk k) pipe 64 < d.now.turn)

/-- R92, R119 to R254: the frame waiting at a port's MAC enters its pipeline. -/
def execFrameHandOff (port : Nat) (pre : Bool) (st : State) : Host.Outcome State Fault Refusal :=
  st.inTurn (okPort port) (fun k d => (d.waitingAt port pre false).isSome && d.pipeLate k (pipeOf port)) fun k m d => (m, d.enter k m port pre false)

/-- R424: a DATA frame of a trunk enters its pipeline. -/
def execMatDataFrame (port : Nat) (pre : Bool) (st : State) : Host.Outcome State Fault Refusal :=
  st.inTurn (okPort port) (fun k d => (d.waitingAt port pre true).isSome && d.pipeLate k (pipeOf port)) fun k m d => (m, d.enter k m port pre true)

/-- R88 step 8: the end of the frame that a port's MAC is receiving; one of a replay ends at the clock its record gives (R527). -/
def execFrameEnd (port : Nat) (pre : Bool) (st : State) : Host.Outcome State Fault Refusal :=
  st.runIf (okPort port) fun k d =>
    let here := fun (f : RxFrame) =>
      decide (f.phase < 2) && f.port == port && f.pre == pre && (!f.desc.replay || decide (f.entry + f.tail ≤ (d.rk k).clock))
    match d.findRx here with
    | some x => ((if x.2.desc.replay then d.frameEnd (d.rk k) x.1 x.2 else d.frameEnd k x.1 x.2)).takeMgmt k st.mem
    | none => d

/-- R135: the tail check of a frame that has ended after its hand-off. -/
def execTailCheck (port : Nat) (st : State) : Host.Outcome State Fault Refusal :=
  st.runIf (okPort port) fun k d =>
    match d.findRx fun f => f.phase == 3 && f.port == port with
    | some x => (d.tailCheck k x.1 x.2).takeMgmt k st.mem
    | none => d

/-- The oldest frame that waits for injection into a pipeline. -/
def Dev.injectHead (pipe : Nat) (d : Dev) : Option Inject := d.inject.find? fun j => pipeOf j.port == pipe

/-- R591: the oldest injected frame of a pipeline enters it. -/
def execInjectedFrameEntry (pipeline : Nat) (st : State) : Host.Outcome State Fault Refusal :=
  st.inTurn (decide (pipeline < 64)) (fun k d => (d.injectHead pipeline).isSome && d.pipeLate k pipeline) fun k m d =>
    match d.injectHead pipeline with
    | some j =>
      let d := d.holdCount k pipeline
      (m, if d.pipeHeld k pipeline || d.maint then d else (d.injectEntry k j).takeMgmt k m)
    | none => (m, d)

/-- R104, R105: a PAUSE frame. -/
def execPauseFrameReceived (port quanta : Nat) (st : State) : Host.Outcome State Fault Refusal :=
  st.runIf (okPort port) fun k d => d.control port 64 fun d => d.pauseFrame k port (quanta % 65536) 64

/-- R104, R105: a PFC frame, its enable vector and its eight quanta. -/
def execPfcFrameReceived (port enables : Nat) (quanta : List Nat) (st : State) : Host.Outcome State Fault Refusal :=
  st.runIf (okPort port) fun k d => d.control port 64 fun d => d.pfcFrame k port (enables % 256) (quanta.map (· % 65536)) 64

/-- R104: another MAC control frame of a length. -/
def execMacControlOther (port length : Nat) (st : State) : Host.Outcome State Fault Refusal :=
  st.runIf (okPort port) fun _ d => d.control port length fun d => d.pair Od.PORT_RX_MAC_CONTROL_OTHER port length

/-- R109: the request of each class asserted repeats, TX_REFRESH ticks after its last; those due together share a frame. -/
def execFlowControlRefresh (port : Nat) (st : State) : Host.Outcome State Fault Refusal :=
  st.runIf (okPort port) fun k d =>
    let due := fun (c : Nat) => bit (d.n Rg.ASSERTED port) c && decide (d.n Rg.FLOW_LAST port c + d.n Od.PORT_FLOW_TX_REFRESH port ≤ k.tick + 1)
    let cs := (d.flowClasses port).filter due
    (d.each cs fun d c => d.put Rg.FLOW_LAST port (k.tick + 1) c).flowRequest k port (cs.map fun c => (c, d.n Od.PORT_FLOW_TX_QUANTA port))

/-- R106: the hold timer of a class has reached zero. -/
def execPauseTimerExpiry (port cls : Nat) (st : State) : Host.Outcome State Fault Refusal :=
  st.runIf (okPort port && decide (cls < 8)) fun k d =>
    if d.n Rg.PAUSE_UNTIL port cls ≤ (d.rk k).clock then d.put Rg.PAUSE_UNTIL port 0 cls else d

/-- R110: an attempt of verification ends: answered, or VERIFY_TIME ms after it was made. -/
def execPreemptionVerification (port : Nat) (peer : MPacket) (st : State) : Host.Outcome State Fault Refusal :=
  st.runIf (okPort port) fun k d =>
    match peer with
    | .verify => d.verifyAnswer k port
    | .respond => d.when (d.verifying port) fun d => d.put Od.PORT_PREEMPT_STATUS port 2
    | .none =>
      d.when (d.verifying port && decide (d.n Rg.VERIFY_TICK port + 2000 * d.n Od.PORT_PREEMPT_VERIFY_TIME port ≤ k.tick + 1)) fun d =>
        let n := d.n Rg.VERIFY_TRIES port + 1
        let d := (d.put Rg.VERIFY_TRIES port n).put Rg.VERIFY_TICK port (k.tick + 1)
        if 3 ≤ n then d.put Od.PORT_PREEMPT_STATUS port 3 else d.verifySend k port

end Sys2Proof.Machine
end

