-- ==== Sys2Proof/Machine/FrameOut.lean ====
section
/-! DEFINITION. The meanings of the commands at a port's scheduler and at a recirculation port (chapters 12, 13 and R265). -/
namespace Sys2Proof.Machine

/-- R320 to R337, R341 to R358, R392 to R403: a path of a port makes its choice in this clock, if any queue is eligible; `sub` raw units on, the first
bit crosses the balls 112 clocks later. -/
def execSchedulerChoice (port path sub : Nat) (st : State) : Host.Outcome State Fault Refusal :=
  st.inTurn (okPort port) (fun k d => d.egressTaken (d.rk k) port path) fun k m d => (m, d.schedule (d.rk k) port path sub)

/-- R262, R322, R330: the copy a path sends ends in this clock; nothing happens while bytes of it remain. -/
def execCopyLastByte (port path : Nat) (st : State) : Host.Outcome State Fault Refusal :=
  st.runIf (okPort port) fun k d =>
    match (if path < 2 then d.txOn port path else none) with
    | some t => if d.ended (d.rk k) t then d.copyEnd (d.rk k) t else d
    | none => d

/-- R355 to R357: a preemptible copy is preempted as its gate closes, or goes on where its gate is open again. -/
def execGateClosePreemption (port : Nat) (st : State) : Host.Outcome State Fault Refusal :=
  st.runIf (okPort port) fun k d => d.gateClose (d.rk k) port

/-- The second pass of a recirculated copy (R160): its bytes from recorded layer STRIP + 1 on enter the ingress half of the first pass. -/
def Dev.secondPass (k : Clk) (c : Copy) (f : FrameRec) (handle : Nat) (d : Dev) : Dev :=
  let x := c.desc
  let p := x.srcPort
  let l := x.layers.getD x.strip (0, 0)
  let bs := f.stored.drop (layerOut x f.stored.length f.stored.length l.2)
  let start := if x.strip = 0 then d.n Od.PARSE_START_LAYER p else l.1
  let d := match d.buf handle with | some b => d.dropBuf b | none => d
  let d := d.slot (pipeOf p) [2, 5] 1
  let d : Dev := { d with now := { d.now with turn := rotation k (pipeOf p) 64 + 1 } }
  let y : Desc :=
    { srcPort := p, rxLength := bs.length + 4, fromMat := x.fromMat, matDevice := x.matDevice, matPort := x.matPort, tagCount := x.tagCount
      outerIsS := x.outerIsS, outerPcp := x.outerPcp, outerDei := x.outerDei, outerVid := x.outerVid, innerPcp := x.innerPcp, innerDei := x.innerDei
      innerVid := x.innerVid, pvidApplied := x.pvidApplied, stamp := x.stamp, noIngress := x.noIngress, injected := x.injected, tag := x.tag
      epoch := x.epoch, pass := 1, cls := x.cls, preemptible := x.preemptible, seqValid := x.seqValid, seq := x.seq, colour := x.colour
      replay := x.replay }
  let g := d.captured { port := p, bytes := bs ++ [0, 0, 0, 0], desc := y, mtu := 16384 }
  let a : Arriving := { stored := bs, complete := true, mtu := d.n Od.PORT_MTU p, rIn := d.portRate p }
  let w := d.parse bs p start true bs.length
  let o := d.pipe k { x := y, w := w, len := bs.length + 4, malAction := g.malAction, hostRing := g.hostRing, slowRing := g.slowRing, arr := a
                      journalled := d.journalled p }
  o.2.atEnd { g with desc := o.1.x, fr := o.1.fr, host := o.1.host, mgmt := o.1.mgmt }

/-- The copy that a sorus's recirculation port may serve in this clock (R265): the head of its queue, its descriptor there since an earlier clock, its frame whole, the
port done with the copy before. -/
def Dev.recircHead (k : Clk) (s : Nat) (d : Dev) : Option (Copy × FrameRec) :=
  match d.copies.find? (·.queue == 16384 + s) with
  | none => none
  | some c => ((d.frame c.fr).filter fun f => f.complete && decide (c.arrive < k.clock ∧ d.n Rg.RECIRC_FREE s ≤ k.clock) && !d.replayed).map fun f => (c, f)

/-- The bytes a second pass takes from its frame: those from recorded layer STRIP + 1 on (R160). -/
def recircLen (c : Copy) (f : FrameRec) : Nat :=
  f.stored.length - layerOut c.desc f.stored.length f.stored.length (c.desc.layers.getD c.desc.strip (0, 0)).2

/-- The head of a sorus's recirculation queue is served (R259, R260, R265), 1,000 bits a clock. A copy whose frame has poison behind its first cell reaches no MAC that
could stomp it: it is counted as R260 says and goes no further (DESIGN CHOICE, log entry 34). -/
def Dev.recirculate (k : Clk) (s : Nat) (d : Dev) : Dev :=
  match d.recircHead k s with
  | none => d
  | some (c, f) =>
    let d := d.holdCount k (pipeOf c.desc.srcPort)
    if d.pipeHeld k (pipeOf c.desc.srcPort) then d
    else
      let d := d.unqueue c
      let lost := fun (o : Obj) (d : Dev) => ((d.bump o 0).drain c.desc.epoch 1).dropCopy k c
      if f.tailMark then lost Od.FAB_RECIRC_BAD_DROPPED d
      else if f.poisoned.contains 0 then lost Od.FAB_POISON_DROPS d
      else if !f.poisoned.isEmpty then lost Od.FAB_POISON_STOMPED d
      else
        let n := recircLen c f
        let b := d.alloc s n false
        if b.1 ≠ 0 then lost Od.FAB_RECIRC_NO_BUFFER b.2.2
        else ((b.2.2.dropCopy k c).put Rg.RECIRC_FREE s (k.clock + ceilDiv (8 * n) 1000)).secondPass k c f b.2.1

/-- The copy at a recirculation port's head comes late in this clock: its pipeline has taken a packet or stands behind one that has (R25, R50, R51), or its buffer's pool
has served a later contender. -/
def Dev.recircLate (k : Clk) (s : Nat) (d : Dev) : Bool :=
  match d.recircHead k s with
  | none => false
  | some (c, f) =>
    let pipe := pipeOf c.desc.srcPort
    !d.pipeHeld k pipe && (decide (rotation k pipe 64 < d.now.turn) || (!f.tailMark && f.poisoned.isEmpty && d.poolLate k s (recircLen c f)))

/-- R160, R265: the copy at the head of a sorus's recirculation queue makes its second pass, once its frame is whole. -/
def execRecirculationPass (sorus : Nat) (st : State) : Host.Outcome State Fault Refusal :=
  st.inTurn (decide (sorus < 8)) (fun k d => d.recircLate (d.rk k) sorus) fun k m d => (m, d.recirculate (d.rk k) sorus)

end Sys2Proof.Machine
end

