-- ==== Sys2Proof/Machine/HostRing.lean ====
section
/-! DEFINITION. The commands of "PCIe host interface and packet I/O" but for the entry of injected frames and the resets, and the stash of "Buffer pool
manager". A command row carries the ring, the 64-byte entry the device reads and, for INJECT, the frame read from host memory. -/
namespace Sys2Proof.Machine

/-- A ring of the device (R581). -/
def okRing (r : Nat) : Bool := decide (r < 16)

/-- R582. -/
def execRingEnable (ring : Nat) (st : State) : Host.Outcome State Fault Refusal := 
  st.rowD (okRing ring) (wr1 Od.HOST_RING_ENABLE ring) fun k d => d.ringOn k ring

/-- R595. -/
def execRingDisable (ring : Nat) (st : State) : Host.Outcome State Fault Refusal := 
  st.rowD (okRing ring) (wr0 Od.HOST_RING_ENABLE ring) fun _ d => d.ringOff ring

/-- R581, R583. -/
def execSqTail (ring value : Nat) (st : State) : Host.Outcome State Fault Refusal :=
  st.runIf (okRing ring) fun _ d =>
    if d.n Od.HOST_RING_SQ_ENTRIES ring ≤ value then d.bump Od.HOST_RING_BAD_DOORBELL ring else d.put Rg.SQ_TAIL ring value

/-- R581, R584. -/
def execCqHead (ring value : Nat) (st : State) : Host.Outcome State Fault Refusal :=
  st.runIf (okRing ring) fun k d =>
    if d.n Od.HOST_RING_CQ_ENTRIES ring ≤ value then d.bump Od.HOST_RING_BAD_DOORBELL ring else (d.put Rg.CQ_HEAD ring value).pumpAll k ring

/-- R589. -/
def execFetch (ring : Nat) (entry : List Byte) (st : State) : Host.Outcome State Fault Refusal :=
  st.runIf (okRing ring) fun k d => d.hostCmd k 1 ring entry [] true

/-- R310, R589. -/
def execFree (ring : Nat) (entry : List Byte) (st : State) : Host.Outcome State Fault Refusal :=
  st.inTurn (okRing ring) (fun _ d => d.bufLate (ofBytesLE (sliceZ entry 4 4)) (8 + ring)) fun k m d => (m, d.hostCmd k 2 ring entry [] true)

/-- R310, R589. -/
def execHand (ring : Nat) (entry : List Byte) (st : State) : Host.Outcome State Fault Refusal :=
  st.inTurn (okRing ring) (fun _ d => d.bufLate (ofBytesLE (sliceZ entry 4 4)) (8 + ring)) fun k m d => (m, d.hostCmd k 3 ring entry [] true)

/-- R590. -/
def execInject (ring : Nat) (entry frame : List Byte) (readOk : Bool) (st : State) : Host.Outcome State Fault Refusal :=
  st.inTurn (okRing ring) (fun k d => d.poolLate k (8 + ring) (ofBytesLE (sliceZ entry 16 2))) fun k m d => (m, d.hostCmd k 4 ring entry frame readOk)

/-- R589. -/
def execFetchDone (ring : Nat) (ok : Bool) (st : State) : Host.Outcome State Fault Refusal :=
  st.inTurn (okRing ring) (fun _ d => d.fetchLate ring) fun k m d => (m, d.fetchDone k ring ok)

/-- R586: the oldest delivery whose last byte has arrived, if it is the ring's, within the grant of R313, which serves transfers in their order. -/
def execDeliveryComplete (ring : Nat) (st : State) : Host.Outcome State Fault Refusal :=
  st.runIf (okRing ring) fun k d =>
    match (d.deliv.find? (·.whole)).filter fun v => v.ring == ring with
    | some v => match d.xfer k (ceilDiv v.len 256 * if v.egress then 2 else 1) 0 with
      | some d => d.deliveryDone k v
      | none => d
    | none => d

/-- R597. -/
def execCoalesceTimeout (ring : Nat) (st : State) : Host.Outcome State Fault Refusal :=
  st.runIf (okRing ring) fun k d =>
    if d.on Rg.CQ_OLDEST ring ∧ d.n Rg.CQ_OLDEST ring - 1 + d.n Od.HOST_RING_COALESCE_TICKS ring ≤ k.tick then d.signal ring else d

/-- R594. -/
def execHostLinkDown (st : State) : Host.Outcome State Fault Refusal :=
  st.run fun k d => (d.put Od.HOST_LINK_STATE 0 0).linkLost k

/-- R594: the link trains to a speed and width. -/
def execHostLinkUp (speed width : Nat) (st : State) : Host.Outcome State Fault Refusal :=
  st.runIf (decide (1 ≤ speed ∧ speed ≤ 5) && (width == 1 || width == 2 || width == 4)) fun k d =>
    if d.on Rg.PERST 0 then d
    else (((d.put Od.HOST_LINK_STATE 0 2).put Od.HOST_LINK_SPEED 0 speed).put Od.HOST_LINK_WIDTH 0 width).linkBack k

/-- R594. -/
def execBusMasterEnableChange (on : Bool) (st : State) : Host.Outcome State Fault Refusal :=
  st.run fun k d => if on then (d.put Rg.BME 0 1).linkBack k else d.put Rg.BME 0 0

/-- R596. -/
def execMsixUnmask (v : Nat) (st : State) : Host.Outcome State Fault Refusal :=
  st.runIf (decide (v < 64)) fun _ d =>
    let was := bit (d.n Rg.MSIX_PENDING 0) v
    let d := d.put Rg.MSIX_MASK 0 (clearBit (d.n Rg.MSIX_MASK 0) v)
    if was && d.linkOk then (d.put Rg.MSIX_PENDING 0 (clearBit (d.n Rg.MSIX_PENDING 0) v)).vector v else d

/-- R314. -/
def execStash (handle : Nat) (st : State) : Host.Outcome State Fault Refusal :=
  st.run fun k d => match d.buf handle with | some b => d.stash k b | none => d

/-- R314. -/
def execStashDone (handle : Nat) (st : State) : Host.Outcome State Fault Refusal :=
  st.runM true fun k m d => match d.buf handle with | some b => d.stashDone k b m | none => (m, d)

/-- R316: a write of POOL.QUARANTINE. -/
def execPoolQuarantine (cell : Nat) (st : State) : Host.Outcome State Fault Refusal :=
  st.rowD (decide (cell < 1048576)) [wrN Od.POOL_QUARANTINE 0 cell] fun _ d => d.quarantine cell

/-- R316. -/
def execPoolUnquarantine (cell : Nat) (st : State) : Host.Outcome State Fault Refusal :=
  st.rowD (decide (cell < 1048576)) [wrN Od.POOL_UNQUARANTINE 0 cell] fun _ d => d.unquarantine cell

end Sys2Proof.Machine
end

