-- ==== Sys2Proof/Machine/Integrity.lean ====
section
/-! DEFINITION. The meanings of the commands of chapter 17. -/
namespace Sys2Proof.Machine

/-- R460: the oldest pending write-back of a memory is made, or abandoned where another write reached the word. -/
def execWriteBack (mem die : Nat) (raced : Bool) (st : State) : Host.Outcome State Fault Refusal :=
  st.runIf (memOk mem die) fun k d => d.writeBack k mem die raced

/-- R453 to R459, R462 to R466: a scrub access reads the next unit of a memory; `requested` marks a consumer's read instead, its words at their
addresses. -/
def execScrubAccess (mem die : Nat) (requested : Bool) (words : List ScrubWord) (st : State) : Host.Outcome State Fault Refusal :=
  st.runIf (memOk mem die) fun k d => if requested then d.each words (Dev.scrubWord k mem die 0 false) else d.scrub k mem die words

/-- R467: once a second the stacks' corrections are collected. -/
def execHbmCorrectionCollect (counts bad : List Nat) (st : State) : Host.Outcome State Fault Refusal :=
  if bad.all fun a => decide (a < hbmBytes) then st.run fun _ d => d.collectHbm counts bad else .fault .noSuchAddress

/-- R469: a write of INTEG.FLIP.ARM 1 arms the flip. -/
def execFlipArm (st : State) : Host.Outcome State Fault Refusal := 
  st.rowD true (wr1 Od.INTEG_FLIP_ARM 0) fun _ d => d.put Od.INTEG_FLIP_ARM 0 1

/-- R469: a write of INTEG.FLIP.ARM 0 disarms it. -/
def execFlipDisarm (st : State) : Host.Outcome State Fault Refusal := 
  st.rowD true (wr0 Od.INTEG_FLIP_ARM 0) fun _ d => d.put Od.INTEG_FLIP_ARM 0 0

/-- R462: a write of INTEG.LOG.CLEAR. -/
def execLogClear (entry : Nat) (st : State) : Host.Outcome State Fault Refusal :=
  st.rowD (decide (entry < 32 ∨ entry = 0xFF)) [wrN Od.INTEG_LOG_CLEAR 0 entry] fun _ d => d.clearLog Od.INTEG_LOG 32 entry

/-- R463: a write of INTEG.UE_LOG.CLEAR. -/
def execUeLogClear (entry : Nat) (st : State) : Host.Outcome State Fault Refusal :=
  st.rowD (decide (entry < 16 ∨ entry = 0xFF)) [wrN Od.INTEG_UE_LOG_CLEAR 0 entry] fun _ d => d.clearLog Od.INTEG_UE_LOG 16 entry

/-- R471: a write of INTEG.EM.RETIRE. -/
def execEmRetire (pos : Nat) (st : State) : Host.Outcome State Fault Refusal :=
  st.rowD (decide (pos < 4194304)) [wrN Od.INTEG_EM_RETIRE 0 pos] fun k d => d.retire k pos

/-- R471: a write of INTEG.EM.UNRETIRE. -/
def execEmUnretire (pos : Nat) (st : State) : Host.Outcome State Fault Refusal := 
  st.rowD (decide (pos < 4194304)) [wrN Od.INTEG_EM_UNRETIRE 0 pos] fun _ d => d.unretire pos

end Sys2Proof.Machine
end

