-- ==== Sys2Proof/Machine/ReplayFrames.lean ====
section
/-! DEFINITION. The frames and requests a replay takes from the journal (R527, R528), and its result records (R529). -/
namespace Sys2Proof.Machine

/-- The result record of frame record r (R529): what its pass through the pipeline found. -/
def replayResult (r : List Byte) (tick clock : Nat) (mixed : Bool) (o : PipeOut) : List Byte :=
  let x := o.x
  let flag := fun (b : Bool) (n : Nat) => if b then 2 ^ n else 0
  bytesLE 4 (jnum r 28 4) ++ bytesLE 4 tick ++ bytesLE 2 clock ++
    bytesLE 1 (1 + flag (bit (jnum r 9 1) 4) 1 + flag mixed 2 + flag o.sampled 3) ++
    bytesLE 1 (x.cls % 8 + flag x.preemptible 3 + x.colour % 4 * 16 + x.epoch % 2 * 64) ++
    bytesLE 1 (x.endReason % 8 + flag x.depthExceeded 3 + flag x.malformed 4 + flag x.fragment 5 + flag x.malformedLate 6) ++
    bytesLE 1 (x.inAction % 16 + x.inOutcome % 8 * 16) ++ bytesLE 3 (x.inRule % 2 ^ 17) ++ bytesLE 3 (x.finalDest % 2 ^ 20) ++
    bytesLE 1 (x.srcOutcome % 4 + x.dstOutcome % 4 * 4 + x.learnField % 4 * 16 + flag x.flooded 6) ++
    bytesLE 1 (x.filterOutcome % 8 + x.recoveryOutcome % 8 * 8 + flag x.finalStreamSet 6) ++ bytesLE 2 x.finalStream ++ bytesLE 3 (x.dstIndex % 2 ^ 22) ++
    bytesLE 1 (o.first % 8 + flag o.reached 3) ++ bytesLE 2 (if x.sporeEn then x.spore else 0) ++ [0, 0]

/-- The result record goes to the result area. -/
def Dev.resultOut (k : Clk) (r : List Byte) (o : PipeOut) (m : Memory) (d : Dev) : Memory × Dev :=
  let a := d.n Od.REPLAY_RESULT_BASE 0 + 32 * jnum r 28 4
  (m.wrBytes a (replayResult r k.tick k.c (d.on Rg.R_MIXED 0) o), (d.hbmWrite a 32).put Rg.R_MIXED 0 0)

/-- The frame of a record as the MAC meets it (R527): steps 5 and 6 of R88 on BYTES, zero beyond them. -/
def Dev.replayRx (r : List Byte) (d : Dev) : RxFrame :=
  let p := jnum r 10 2 % 1024
  let flags := jnum r 9 1
  let n := jnum r 18 2
  let mat := d.matMode p
  let bs := if mat then cut (r.drop 32) 12 18 else r.drop 32
  let bs := sliceZ bs 0 n
  let h := if mat then sliceZ (r.drop 32) 14 16 else []
  let x : Desc :=
    { stamp := jnum r 0 9, noIngress := bit flags 2, rxLength := n, replay := true, lfsr := if bit flags 6 then some (jnum r 24 4) else none }
  let x := (d.macDesc p bs x).tagged bs
  let x := if mat then x else { x with cls := d.n Od.PORT_PFC_CLASS_MAP p x.outerPcp }
  { port := p, bytes := bs, errs := jnum r 20 1, transit := h, keepBad := bit flags 3, mtu := d.n Od.PORT_MTU p, desc := x, tail := jnum r 22 2 }

/-- A received frame's record enters the pipeline (R527); a frame found bad before hand-off ends at the MAC. -/
def Dev.replayFrame (k : Clk) (r : List Byte) (d : Dev) : PipeOut × Dev :=
  let f := d.replayRx r
  let known := bit (jnum r 9 1) 3
  let i := d.rx.length
  let g := if f.transit.isEmpty then (f.desc, d)
    else
      let g := d.matDesc k f.transit f.desc
      (if f.desc.noIngress then g.1 else { g.1 with stamp := f.desc.stamp }, g.2)
  let f := { f with desc := g.1, creditCls := if !f.transit.isEmpty && g.2.creditClass f.port g.1.cls then g.1.cls else 8 }
  let d : Dev := { g.2 with rx := g.2.rx ++ [f] }
  if known ∧ f.errs ≠ 0 then ({ x := f.desc }, d.frameEnd k i { f with keepBad := d.on Od.PORT_KEEP_BAD f.port })
  else
    let d := if known ∨ f.tail = 0 then d.frameEnd k i { f with desc := { f.desc with replay := true } } else d
    match d.rx[i]? with
    | some f => d.handOffOut k i f
    | none => ({ x := f.desc }, d)

/-- An injected frame's record enters the pipeline (R145, R527). -/
def Dev.replayInject (k : Clk) (r : List Byte) (d : Dev) : PipeOut × Dev :=
  let p := jnum r 10 2 % 1024
  let n := jnum r 18 2 - 4
  let bs := sliceZ (r.drop 32) 0 n
  let flags := jnum r 9 1
  let x : Desc :=
    { rxLength := n + 4, injected := true, noIngress := bit flags 2, stamp := jnum r 0 9, replay := true
      lfsr := if bit flags 6 then some (jnum r 24 4) else none }
  let x := (d.macDesc p bs x).tagged bs
  let x := { x with cls := jnum r 21 1 % 8, preemptible := bit (jnum r 21 1) 3 }
  let f := d.captured { port := p, bytes := bs ++ [0, 0, 0, 0], desc := x, mtu := 16384 }
  let a : Arriving := { stored := storedForm x bs, complete := true, mtu := d.n Od.PORT_MTU p, rIn := d.portRate p }
  let d := d.slot (pipeOf p) [1] 1
  let w := d.parse bs p (d.n Od.PARSE_START_LAYER p) true n
  let o := d.pipe k { x := x, w := w, len := n + 4, malAction := f.malAction, hostRing := f.hostRing, slowRing := f.slowRing, arr := a, journalled := true }
  (o.1, o.2.atEnd { f with desc := o.1.x, fr := o.1.fr, host := o.1.host, mgmt := o.1.mgmt })

/-- The next record is one of the clock now open of the replay tick, of a kind. -/
def Dev.replayHere (k : Clk) (m : Memory) (type : Nat) (d : Dev) : Option (List Byte) :=
  if !d.replaying then none
  else
    (d.replayNext m).filter fun r =>
      jtype r == type && jtick (d.n Od.JOURNAL_START_TICK 0) r == k.tick && jnum r (if type = 0 then 16 else 10) 2 == k.c

/-- A frame record is taken at its clock (R527). -/
def Dev.replayEntry (k : Clk) (m : Memory) (d : Dev) : Memory × Dev :=
  match d.replayHere k m 0 with
  | none => (m, d)
  | some r =>
    let d := (d.put Rg.R_NEXT 0 (d.n Rg.R_NEXT 0 + 1)).bump Od.REPLAY_FRAMES 0
    let d := (d.when (bit (jnum r 9 1) 4) fun d => d.bump Od.REPLAY_DEEP 0).put Rg.R_MIXED 0 0
    let o := if bit (jnum r 9 1) 5 then d.replayInject k r else d.replayFrame k r
    o.2.resultOut k r o.1 m

/-- A FLOW record is taken at its clock (R105 to R107, R287, R528). -/
def Dev.replayFlow (k : Clk) (m : Memory) (d : Dev) : Dev :=
  match d.replayHere k m 5 with
  | none => d
  | some r =>
    let d := d.put Rg.R_NEXT 0 (d.n Rg.R_NEXT 0 + 1)
    let p := jnum r 16 2 % 1024
    let q := jnum r 20 2
    let cs := (List.range 8).filter (bit (jnum r 19 1))
    if jnum r 18 1 = 1 then d.each cs (Dev.loadHold k p q)
    else d.creditFrame k p ((List.range 8).map fun i => jnum r (32 + 4 * i) 4)

end Sys2Proof.Machine
end

