-- ==== Sys2Proof/Machine/JournalCmds.lean ====
section
/-! DEFINITION. The meanings of the commands of chapter 20: the journal and its replay. -/
namespace Sys2Proof.Machine

/-- R513: a write of JOURNAL.START with value 1. -/
def execJournalStart (st : State) : Host.Outcome State Fault Refusal :=
  st.rowAny { idx := 0x9000, inst := 0, sub := 6, data := [1] }

/-- R513: a write of JOURNAL.START with value 2. -/
def execJournalStartWhenClean (st : State) : Host.Outcome State Fault Refusal :=
  st.rowAny { idx := 0x9000, inst := 0, sub := 6, data := [2] }

/-- R513: a boundary meets the clean condition while the journal waits for it. -/
def execJournalCleanStart (st : State) : Host.Outcome State Fault Refusal :=
  st.run fun k d => if k.c = 0 ∧ d.n Od.JOURNAL_STATE 0 = 1 ∧ d.clean then d.journalBegin k else d

/-- R521: the boundary after the copy's last byte. -/
def execCheckpointDone (st : State) : Host.Outcome State Fault Refusal := st.runM true fun _ m d => d.checkpointDone m

/-- R524: a write of JOURNAL.STOP with value 1. -/
def execJournalStop (st : State) : Host.Outcome State Fault Refusal :=
  st.rowAny { idx := 0x9000, inst := 0, sub := 7, data := [1] }

/-- R524: the area holds its last record but END. -/
def execJournalFull (st : State) : Host.Outcome State Fault Refusal :=
  st.runM true fun k m d => if k.c == 0 && d.journalFull then d.journalStop k 2 m else (m, d)

/-- R524: TRIGGER.AFTER ticks after the first occurrence of the trigger's code; a full area gives the lower reason. -/
def execJournalTrigger (st : State) : Host.Outcome State Fault Refusal :=
  st.runM true fun k m d => if k.c == 0 && d.journalTriggered k then d.journalStop k (if d.journalFull then 2 else 3) m else (m, d)

/-- R525: a write of REPLAY.START with value 1. -/
def execReplayStart (st : State) : Host.Outcome State Fault Refusal :=
  st.rowAny { idx := 0x9100, inst := 0, sub := 1, data := [1] }

/-- R525, R526: the boundary that opened the tick now open ends loading; the tick takes the length of the replay's first. -/
def execReplayLoadEnd (st : State) : Host.Outcome State Fault Refusal :=
  if st.halted then .next st.quiet else st.runAll fun k m d =>
    if d.n Od.REPLAY_STATE 0 = 1 ∧ k.c = 0 then
      let d := d.replayLoaded m
      (if d.replaying then { k with len := tickLength (d.n Rg.REPLAY_LEN 0) } else k, m, d)
    else (k, m, d)

/-- R527, R529: the next record of the journal is a frame of this clock. -/
def execReplayFrameEntry (st : State) : Host.Outcome State Fault Refusal := st.runM true fun k m d => d.replayEntry (d.rk k) m

/-- R528: the next record of the journal is a request of this clock. -/
def execReplayFlowRecord (st : State) : Host.Outcome State Fault Refusal := st.runM true fun k m d => (m, d.replayFlow (d.rk k) m)

/-- R530: the boundary that opened the tick now open ends the replay. -/
def execReplayEnd (st : State) : Host.Outcome State Fault Refusal :=
  st.runM true fun _ m d => (m, if d.replaying && d.replayEnds m (d.n Od.REPLAY_TICK 0) then d.note Od.REPLAY_STATE 3 39 else d)

/-- R534: a write of JOURNAL.HBM.DATA. -/
def execJournalHbmDataWrite (data : List Byte) (st : State) : Host.Outcome State Fault Refusal :=
  st.rowAny { idx := 0x9000, inst := 0, sub := 0x15, data := data }

/-- R534: a read of JOURNAL.HBM.DATA; one outside the three areas is refused. -/
def execJournalHbmDataRead (st : State) : Host.Outcome State Fault Refusal :=
  st.runM true fun _ m d =>
    let r := d.journalRead m
    match r.1 with
    | some bs => (m, r.2.emit { kind := .response, vals := [0x9000], bytes := bs })
    | none => (m, r.2)

end Sys2Proof.Machine
end

