-- ==== Sys2Proof/Machine/Mat.lean ====
section
/-! DEFINITION. The commands of "Mats". A message row carries the path it came by (0 a trunk, 1 a datagram of the management network with its tag, 2
a relay) and its bytes (R427), and acts only on a message of its own code. -/
namespace Sys2Proof.Machine

/-- A message of a code arrives. -/
def Dev.matRow (k : Clk) (code path : Nat) (bs : List Byte) (d : Dev) : Dev :=
  if (bs.getD 0 0).toNat = code then d.matMessage k path bs else d

/-- R415: a write of MAT.ENABLE 1, refused where MAT.MEMBERS lacks the device. -/
def execMatEnable (st : State) : Host.Outcome State Fault Refusal :=
  st.rowD true (wr1 Od.MAT_ENABLE 0) fun k d => if bit (d.n Od.MAT_MEMBERS 0) d.me then d.matOn k else d

/-- R429. -/
def execHeartbeatSend (st : State) : Host.Outcome State Fault Refusal :=
  st.run fun k d =>
    let l := d.n Rg.HB_SENT 0
    if d.n Od.MAT_STATE 0 ≠ 0 ∧ (l = 0 ∨ l - 1 + d.n Od.MAT_HEARTBEAT_INTERVAL 0 ≤ k.tick) then d.sendHeartbeats k else d

/-- R430. -/
def execHeartbeat (path : Nat) (message : List Byte) (st : State) : Host.Outcome State Fault Refusal :=
  st.runIf (decide (path < 3)) fun k d => d.matRow k 1 path message

/-- R430. -/
def execHeartbeatTimeout (device path : Nat) (st : State) : Host.Outcome State Fault Refusal :=
  st.runIf (decide (device < 8 ∧ path < 3)) fun k d =>
    if bit (d.n Od.MAT_REACH 0 device) path ∧ d.n Rg.MAT_HEARD device path - 1 + d.n Od.MAT_HEARTBEAT_TIMEOUT 0 ≤ k.tick then
      d.heartbeatLost k device path
    else d

/-- R433. -/
def execLeaseRequest (path : Nat) (message : List Byte) (st : State) : Host.Outcome State Fault Refusal :=
  st.runIf (decide (path < 3)) fun k d => d.matRow k 2 path message

/-- R433. -/
def execLeaseCollectEnd (st : State) : Host.Outcome State Fault Refusal :=
  st.run fun k d =>
    let c := d.n Rg.V_COLLECT 0
    if c ≠ 0 ∧ c - 1 + d.n Od.MAT_LEASE_COLLECT 0 ≤ k.tick then d.collectEnd k else d

/-- R434. -/
def execLeaseGrant (path : Nat) (message : List Byte) (st : State) : Host.Outcome State Fault Refusal :=
  st.runIf (decide (path < 3)) fun k d => d.matRow k 3 path message

/-- R433. -/
def execLeaseRefuse (path : Nat) (message : List Byte) (st : State) : Host.Outcome State Fault Refusal :=
  st.runIf (decide (path < 3)) fun k d => d.matRow k 4 path message

/-- R434. -/
def execLeaseRenewalSend (st : State) : Host.Outcome State Fault Refusal :=
  st.run fun k d =>
    if d.n Od.MAT_STATE 0 = 4 ∧ d.n Rg.RENEW_SENT 0 - 1 + d.n Od.MAT_LEASE_RENEW 0 ≤ k.tick then
      (d.askLease k (d.n Rg.H_TERM 0) false).put Rg.RENEW_SENT 0 (k.tick + 1)
    else d

/-- R434: grants of the tick that ended have been applied at the boundary. -/
def execLeaseEnd (st : State) : Host.Outcome State Fault Refusal :=
  st.run fun k d =>
    if d.n Od.MAT_STATE 0 = 4 ∧ d.n Rg.H_END 0 ≤ k.tick then
      ((d.bump Od.MAT_LEASE_LOST 0).fault 13 8 0).isolateNow k 1
    else d

/-- R435: the standby claims once its voter end and the guard have passed and no master is still renewing. -/
def execLeaseClaim (st : State) : Host.Outcome State Fault Refusal :=
  st.run fun k d =>
    if d.n Od.MAT_STATE 0 = 3 ∧ !d.claiming ∧ !d.renewing k ∧ d.n Rg.V_END 0 + d.n Od.MAT_LEASE_GUARD 0 ≤ k.tick then
      d.askLease k (d.n Od.MAT_TERM 0 + 1) true
    else d

/-- R435: no master heard for DURATION + GUARD ticks. -/
def execMasterlessTimeout (st : State) : Host.Outcome State Fault Refusal :=
  st.run fun k d =>
    let w := d.n Od.MAT_LEASE_DURATION 0 + d.n Od.MAT_LEASE_GUARD 0
    let s := d.n Od.MAT_STATE 0
    if (s = 1 ∨ s = 2) ∧ d.n Rg.MASTER_SEEN 0 - 1 + w ≤ k.tick then
      let may := bit (d.n Od.MAT_CANDIDATES 0) d.me && decide (d.n Rg.STANDBY_SEEN 0 - 1 + w ≤ k.tick)
      if may && !d.claiming then d.askLease k (d.n Od.MAT_TERM 0 + 1) true
      else if d.claiming ∧ k.tick < d.n Rg.O_TICK 0 + 2 * d.n Od.MAT_LEASE_COLLECT 0 + 1000 * d.me then d
      else d.isolateNow k 6
    else d

/-- R435: a claim that found no majority is made again. -/
def execClaimRetry (st : State) : Host.Outcome State Fault Refusal :=
  st.run fun k d =>
    if d.claiming && !d.leaseWon && !d.isolated && !d.renewing k && decide (d.n Rg.O_TICK 0 + 2 * d.n Od.MAT_LEASE_COLLECT 0 + 1000 * d.me ≤ k.tick) then
      d.askLease k (d.n Od.MAT_TERM 0 + 1) true
    else d

/-- R441. -/
def execTableUpdate (path : Nat) (message : List Byte) (st : State) : Host.Outcome State Fault Refusal :=
  st.runIf (decide (path < 3)) fun k d => d.matRow k 5 path message

/-- R442: the oldest broadcast record waiting. -/
def execSyncRecordApply (st : State) : Host.Outcome State Fault Refusal :=
  st.run fun k d => d.syncNext k

/-- R441. -/
def execTableAck (path : Nat) (message : List Byte) (st : State) : Host.Outcome State Fault Refusal :=
  st.runIf (decide (path < 3)) fun k d => d.matRow k 6 path message

/-- R444. -/
def execSignatureSend (st : State) : Host.Outcome State Fault Refusal :=
  st.run fun k d =>
    if d.n Od.MAT_STATE 0 = 4 ∧ d.n Od.MAT_CHECK_SAMPLE 0 ≠ 0 ∧ d.n Rg.SIG_FIRST 0 + 2000000 ≤ k.tick then
      let b := bytesBE 8 (d.n Rg.SIG_FIRST 0) ++ bytesBE 4 (d.n Rg.SIG_COUNT 0) ++ bytesBE 4 (d.n Rg.SIG_CRC 0 ^^^ 0xFFFFFFFF)
      let s := d.n Od.MAT_STANDBY 0
      let d := if s < 8 ∧ s ≠ d.me then d.sendMat k s 7 b else d
      ((d.put Rg.SIG_FIRST 0 k.tick).put Rg.SIG_COUNT 0 0).put Rg.SIG_CRC 0 0xFFFFFFFF
    else d

/-- R444. -/
def execSignature (path : Nat) (message : List Byte) (st : State) : Host.Outcome State Fault Refusal :=
  st.runIf (decide (path < 3)) fun k d => d.matRow k 7 path message

/-- R439. -/
def execResyncRequest (path : Nat) (message : List Byte) (st : State) : Host.Outcome State Fault Refusal :=
  st.runIf (decide (path < 3)) fun k d => d.matRow k 8 path message

/-- R439. -/
def execResyncDone (path : Nat) (message : List Byte) (st : State) : Host.Outcome State Fault Refusal :=
  st.runIf (decide (path < 3)) fun k d => d.matRow k 9 path message

/-- R439. -/
def execMatRejoin (st : State) : Host.Outcome State Fault Refusal := 
  st.rowD true (wr1 Od.MAT_REJOIN 0) fun k d => d.rejoinWrite k

/-- R445: a request on the lowest active port of the trunk to the master; one still unanswered is lost. -/
def execTimeReqSend (st : State) : Host.Outcome State Fault Refusal :=
  st.run fun k d =>
    let m := d.n Od.MAT_MASTER 0
    let s := d.n Od.MAT_STATE 0
    let l := d.n Rg.TIME_SENT 0
    let due := decide (l = 0 ∨ l - 1 + d.n Od.MAT_TIME_INTERVAL 0 ≤ k.tick)
    match (if decide (m < 8) && m != d.me && due && (s == 1 || s == 2 || s == 3) then d.trunkLow m else none) with
    | some p =>
      let d := d.when (d.on Rg.TQ_SEQ 0) fun d => d.bump Od.MAT_TIME_LOST 0
      let q := (d.n Rg.MAT_SEQ 0 + 1) % 2 ^ 32
      let d := ((d.put Rg.MAT_SEQ 0 q).put Rg.TQ_SEQ 0 (q + 1)).put Rg.TQ_T1 0 (d.txStamp k p 0)
      (d.put Rg.TIME_SENT 0 (k.tick + 1)).sendMatFrame k p 4 (bytesBE 4 q)
    | none => d

/-- R445: a request that arrives on a trunk port `sub` raw units into the clock. -/
def execTimeReq (port seq sub : Nat) (st : State) : Host.Outcome State Fault Refusal :=
  st.runIf (decide (port < 1024 ∧ sub < 64)) fun k d => d.trunkFrame port fun d => d.timeReq k port (d.rxStamp k port sub) seq

/-- R445: a response with its two stamps in 2⁻¹⁶ ns. -/
def execTimeResp (port seq t2 t3 sub : Nat) (st : State) : Host.Outcome State Fault Refusal :=
  st.runIf (decide (port < 1024 ∧ sub < 64)) fun k d => d.trunkFrame port fun d => d.timeResp k (d.rxStamp k port sub) seq t2 t3

/-- R445. -/
def execTimeRespTimeout (st : State) : Host.Outcome State Fault Refusal :=
  st.run fun k d =>
    if d.on Rg.TQ_SEQ 0 ∧ d.n Rg.TIME_SENT 0 - 1 + d.n Od.MAT_TIME_INTERVAL 0 ≤ k.tick then (d.put Rg.TQ_SEQ 0 0).bump Od.MAT_TIME_LOST 0 else d

end Sys2Proof.Machine
end

