-- ==== Sys2Proof/Machine/Ports.lean ====
section
/-! DEFINITION. The commands of "Lanes, port modes and lane shedding", link part: bring-up, loss, references, eye scan, FEC, octets, parking. -/
namespace Sys2Proof.Machine

/-- R60: a reference absent or beyond 200 ppm is a fault, acted on at the next boundary; ten good comparisons end it, and a port that is not enabled then
reads DISABLED again (log entry 24). -/
def execRefclkComparison (s : Nat) (present : Bool) (ppm : Int) (st : State) : Host.Outcome State Fault Refusal :=
  st.runIf (decide (s < 8)) fun k d =>
    if !present || decide (200 < ppm.natAbs) then
      let d := d.put Rg.REF_GOOD s 0
      if d.on Rg.REF_FAULT s then d
      else (((d.put Rg.REF_FAULT s 1).set Rg.REF_PPM s (ppm.natAbs : Int)).later (.noRefclk s)).fault 5 s s
    else if d.on Rg.REF_FAULT s then
      let n := d.n Rg.REF_GOOD s + 1
      if n < 10 then d.put Rg.REF_GOOD s n
      else
        let d := (d.put Rg.REF_GOOD s 0).put Rg.REF_FAULT s 0
        d.each ((List.range 128).map (128 * s + ·)) fun d p =>
          if d.on Od.PORT_ENABLE p ∨ d.link p ≠ lkNO_REFCLK then d.bringUp k p else d.setLink k p lkDISABLED
    else d

/-- A write of PORT.ENABLE 1 (R67): a port that was held in DISABLED starts bring-up. -/
def execPortEnable (p : Nat) (st : State) : Host.Outcome State Fault Refusal :=
  st.rowD (okPort p) (wr1 Od.PORT_ENABLE p) fun k d => if d.portExists p then d.portEnable k p true else d

/-- R67: a change of an octet's mode, rate or channel; one that R66 refuses changes nothing. -/
def execOctetConfigChange (o mode rate chan : Nat) (st : State) : Host.Outcome State Fault Refusal :=
  st.rowD (decide (o < 128) && octetOk mode rate chan) [wrN Od.OCTET_MODE o mode, wrN Od.OCTET_RATE o rate, wrN Od.OCTET_CHANNEL o chan] fun k d =>
    d.octetChange k o mode rate chan

/-- R678: signal and clock recovery on every lane of a port in bring-up. -/
def execSignalDetect (p : Nat) (st : State) : Host.Outcome State Fault Refusal :=
  st.runIf (okPort p) fun _ d => if d.link p = lkTRAINING then d.put Rg.UP_STEPS p (d.n Rg.UP_STEPS p ||| 1) else d

/-- R64: auto-negotiation ends on a KR or CR port that runs it and has signal. -/
def execAutoNegotiationComplete (p : Nat) (baseR : Bool) (st : State) : Host.Outcome State Fault Refusal :=
  st.runIf (okPort p) fun _ d =>
    if d.link p = lkTRAINING ∧ bit (d.n Rg.UP_STEPS p) 0 ∧ bit (d.stepsNeeded p) 1 then
      (d.put Rg.UP_STEPS p (d.n Rg.UP_STEPS p ||| 2)).put Rg.AN_FEC p (if baseR then 1 else 0)
    else d

/-- R64: link training ends on a KR or CR port that runs it, after the steps before it. -/
def execLinkTrainingComplete (p : Nat) (st : State) : Host.Outcome State Fault Refusal :=
  st.runIf (okPort p) fun _ d =>
    if d.link p = lkTRAINING ∧ bit (d.stepsNeeded p) 2 ∧ d.n Rg.UP_STEPS p &&& 3 = d.stepsNeeded p &&& 3 then
      d.put Rg.UP_STEPS p (d.n Rg.UP_STEPS p ||| 4)
    else d

/-- R678: with every step made, the PCS locks and the port reads UP from the next boundary. -/
def execPcsLock (p : Nat) (st : State) : Host.Outcome State Fault Refusal :=
  st.runIf (okPort p) fun _ d =>
    if d.link p = lkTRAINING ∧ d.n Rg.UP_STEPS p &&& 7 = d.stepsNeeded p then
      (d.put Rg.UP_STEPS p (d.n Rg.UP_STEPS p ||| 8)).later (.portUp p)
    else d

/-- R69: a port not UP within 500 ms (1,000,000 ticks) of its origin starts again and counts the attempt. -/
def execBringUpTimeout (p : Nat) (st : State) : Host.Outcome State Fault Refusal :=
  st.runIf (okPort p) fun k d =>
    if d.link p = lkTRAINING ∧ d.on Rg.UP_ORIGIN p ∧ d.n Rg.UP_ORIGIN p + 999999 ≤ k.tick then
      (d.bump Od.PORT_LINK_DOWN_COUNT p).bringUp k p
    else d

/-- R70: loss of signal or lock takes a port in UP to DOWN at the next boundary. -/
def execLinkLoss (p : Nat) (st : State) : Host.Outcome State Fault Refusal :=
  st.runIf (okPort p) fun _ d => if d.receives p then d.later (.portDown p) else d.put Rg.LOCK_HELD p 0

/-- R70: 1 ms (2,000 ticks) after its fall the port starts again from step 1. -/
def execLinkRestart (p : Nat) (st : State) : Host.Outcome State Fault Refusal :=
  st.runIf (okPort p) fun k d =>
    if d.link p = lkDOWN ∧ d.on Rg.DOWN_TICK p ∧ d.n Rg.DOWN_TICK p + 1999 ≤ k.tick then (d.put Rg.DOWN_TICK p 0).bringUp k p else d

/-- R72: the eye of an active lane; falling below the guard raises one event per crossing. -/
def execEyeScan (l height width : Nat) (st : State) : Host.Outcome State Fault Refusal :=
  st.runIf (okPort l) fun k d =>
    if d.n Od.LANE_STATE l = 2 then
      let d := (d.put Od.LANE_EYE_HEIGHT l height).put Od.LANE_EYE_WIDTH l width
      let d := d.when (!d.on Rg.AGE_LANE l) fun d => d.put Rg.AGE_LANE l (height + 1)
      let g := d.n Od.LANE_EQ_GUARD l
      if d.n Od.LANE_EYE_HEIGHT l < g then
        if d.on Rg.BELOW_GUARD l then d
        else (d.put Rg.BELOW_GUARD l 1).event k 0x0102 l (d.get Od.LANE_EYE_HEIGHT l) (bytesLE 2 g)
      else d.put Rg.BELOW_GUARD l 0
    else d

/-- R62, R63: the receive FEC decodes a codeword; the eighth uncorrectable one in succession takes the port down (R70). -/
def execFecCodewordDecoded (p : Nat) (symbols : List (Nat × Nat)) (bad : Bool) (st : State) : Host.Outcome State Fault Refusal :=
  st.runIf (okPort p && symbols.all fun x => okPort x.1) fun _ d =>
    if d.receives p && d.on Od.PORT_FEC_ACTIVE p then
      if bad then
        let d := d.bump Od.PORT_FEC_UNCORRECTED p
        let d := { d with rx := d.rx.map fun (f : RxFrame) => if f.port == p then { f with errs := f.errs ||| 8 } else f }
        let n := d.n Rg.BAD_CODEWORDS p + 1
        let d := d.put Rg.BAD_CODEWORDS p n
        if n = 8 then d.later (.portDown p) else d
      else
        let d := d.put Rg.BAD_CODEWORDS p 0
        if symbols.all (·.2 == 0) then d
        else
          let d := d.bump Od.PORT_FEC_CORRECTED p
          if d.n Od.PORT_FEC_ACTIVE p = 2 then d.each symbols fun d x => d.bump Od.LANE_SYMBOL_ERRORS x.1 x.2 else d
    else d

/-- R85: a write of PORT.PARK 1. -/
def execPortPark (p : Nat) (st : State) : Host.Outcome State Fault Refusal :=
  st.rowD (okPort p) (wr1 Od.PORT_PARK p) fun k d => if d.portExists p then d.park k p else d

/-- R86: a write of PORT.PARK 0. -/
def execPortUnpark (p : Nat) (st : State) : Host.Outcome State Fault Refusal :=
  st.rowD (okPort p) (wr0 Od.PORT_PARK p) fun k d => if d.portExists p then d.unpark k p false else d

/-- R27: a die-to-die transfer fails its CRC; the third failure in succession is a link fault of the sorus. -/
def execSorusLinkCrcError (s attempt : Nat) (st : State) : Host.Outcome State Fault Refusal :=
  st.runIf (decide (s < 8)) fun _ d =>
    let d := (d.bump Od.DEVICE_SORUS_LINK_CRC_ERRORS s).put Rg.LINK_PASSES s 0
    let d := if d.n Od.DEVICE_SORUS_LINK_STATE s = 2 then d.put Od.DEVICE_SORUS_LINK_STATE s 3 else d
    if attempt < 3 then d else (d.bump Od.DEVICE_SORUS_LINK_FAULTS s).fault 3 s s

end Sys2Proof.Machine
end

