-- ==== Sys2Proof/Machine/Recorder.lean ====
section
/-! DEFINITION. The meanings of the commands of the event recorder (R499 to R509) and of the perturbation engine (R536 to R546). -/
namespace Sys2Proof.Machine

/-- R499, R502: an accumulator whose hold has passed closes, after those due that opened before it. -/
def execAccumulatorClose (code : Nat) (st : State) : Host.Outcome State Fault Refusal :=
  st.run fun k d => d.closeDue k code

/-- R502, R503: the writer's turn, every two ticks. -/
def execRecordWrite (st : State) : Host.Outcome State Fault Refusal := st.run fun k d => d.recordWrite k

/-- R504: a write of REC.CLEAR 1. -/
def execRecClear (st : State) : Host.Outcome State Fault Refusal := 
  st.rowD true (wr1 Od.REC_CLEAR 0) fun k d => d.recClear k

/-- R504: the last mark is wiped. -/
def execRecClearDone (st : State) : Host.Outcome State Fault Refusal := st.run fun k d => d.recCleared k

/-- R509: a read of REC.WINDOW. -/
def execRecWindow (st : State) : Host.Outcome State Fault Refusal :=
  st.run fun k d => d.emit { kind := .response, vals := [0x8800], bytes := d.recWindow k }

/-- R536: a write of PERTURB.LOCK 1. -/
def execPerturbLock (st : State) : Host.Outcome State Fault Refusal := 
  st.rowD true (wr1 Od.PERTURB_LOCK 0) fun _ d => d.put Od.PERTURB_LOCK 0 1

/-- R546: a write of PERTURB.CLEAR 1. -/
def execPerturbClear (st : State) : Host.Outcome State Fault Refusal := 
  st.rowD true (wr1 Od.PERTURB_CLEAR 0) fun k d => d.perturbClear (d.rk k)

/-- R539: a pulse entry starts a pulse in this tick, at its clock. -/
def execPulseStart (entry : Nat) (st : State) : Host.Outcome State Fault Refusal :=
  st.runIf (decide (entry < 64)) fun k d =>
    if d.pulseDue (d.rk k) entry && k.c == d.n Od.PERTURB_PULSE_OFFSET entry then d.pulseStart (d.rk k) entry else d

/-- R539: a pulse's length has passed. -/
def execPulseEnd (entry : Nat) (st : State) : Host.Outcome State Fault Refusal :=
  st.runIf (decide (entry < 64)) fun k d => d.pulseEnd (d.rk k) entry

/-- R542: a stall entry holds its pipelines from clock 0 of this tick. -/
def execEpochStall (entry : Nat) (st : State) : Host.Outcome State Fault Refusal :=
  st.runIf (decide (entry < 8)) fun k d => if d.stallDue (d.rk k) entry && k.c == 0 then d.stallStart (d.rk k) entry else d

end Sys2Proof.Machine
end

