-- ==== Sys2Proof/Machine/Resets.lean ====
section
/-! DEFINITION. The meanings of the commands of chapter 24 that reset and start the whole device, with the loss of its oscillator (R640) and the resets of its
PCIe interface (R601, R656). -/
namespace Sys2Proof.Machine

/-- The timebase as a cold start begins it (R361, R603). -/
def coldClk : Clk := {}

/-- R603: a power-on reset. Nothing is written out; the recorder's write under way is cut after `cut` bytes. -/
def execPowerOnReset (cut : Nat) (st : State) : Host.Outcome State Fault Refusal :=
  st.runAll fun k _ d => (coldClk, [], ((d.recCut k cut).coldClear 1 1).put Rg.HALT 0 0)

/-- R603: a cold reset by RESET_N; it waits for the recorder (R506) unless the pin's pulse is too long or the hub stands still. TB_OSC still absent holds
the dies further (R640). -/
def execColdReset (waited : Bool) (cut : Nat) (st : State) : Host.Outcome State Fault Refusal :=
  st.runAll fun k m d =>
    let halt := d.n Rg.HALT 0
    let d := if waited && halt == 0 then (d.closeAllAccs.recFlush.journalStop k 4 m).2 else d.recCut k cut
    (coldClk, [], (d.coldClear 2 2).put Rg.HALT 0 (if halt = 1 then 1 else 0))

/-- R640: TB_OSC is lost. -/
def execOscLoss (cut : Nat) (st : State) : Host.Outcome State Fault Refusal :=
  st.runAll fun k m d =>
    if d.n Rg.HALT 0 = 1 then (k, m, d) else (coldClk, [], ((d.recCut k cut).coldClear 2 7).put Rg.HALT 0 1)

/-- R640: TB_OSC has run again for 2 µs. -/
def execOscRestored (st : State) : Host.Outcome State Fault Refusal :=
  st.runCrust fun _ d => if d.n Rg.HALT 0 = 1 then d.put Rg.HALT 0 0 else d

/-- R616, R604 step 4: the device starts with the flash's two copies, and what the regulator answers for VOUT_MODE. -/
def execStartUp (copyA copyB : List Byte) (voutMode : Option Nat) (st : State) : Host.Outcome State Fault Refusal :=
  st.runM true fun k m d => if d.n Od.RESET_STATE 0 = 1 then (m, d) else d.startUp k copyA copyB voutMode m

/-- R604: a warm reset of a cause of R601, 3 to 6, at the boundary that opened the tick now open. -/
def execWarmReset (cause : Nat) (st : State) : Host.Outcome State Fault Refusal :=
  if cause = 3 then st.row true (wr1 Od.RESET_WARM 0) fun k m d => d.warmBegin k 3 m
  else st.runM true fun k m d => if 4 ≤ cause ∧ cause ≤ 6 then d.warmBegin k cause m else (m, d)

/-- The host interface alone is reset (R601): every ring is disabled. -/
def Dev.hostReset (d : Dev) : Dev := d.each ((List.range 16).filter fun r => d.on Od.HOST_RING_ENABLE r) fun d r => d.ringOff r

/-- R601: a PCIe Hot Reset or Function Level Reset. -/
def execPcieHotReset (st : State) : Host.Outcome State Fault Refusal :=
  st.runM true fun k m d => if d.on Od.RESET_PCIE_WARM 0 then d.warmBegin k 4 m else (m, d.hostReset)

/-- R656: PCIE_PERST_N goes low or high; while it is low the host interface is in reset and its link down. -/
def execPciePerst (low : Bool) (st : State) : Host.Outcome State Fault Refusal :=
  st.run fun k d =>
    if low then (((d.hostReset.put Rg.PERST 0 1).put Rg.BME 0 0).put Od.HOST_LINK_STATE 0 0).linkLost k else d.put Rg.PERST 0 0

end Sys2Proof.Machine
end

