-- ==== Sys2Proof/Machine/SorusCmds.lean ====
section
/-! DEFINITION. The meanings of the commands on one sorus or pipeline of chapter 24. -/
namespace Sys2Proof.Machine

/-- R605: a write of RESET.SORUS 1. -/
def execSorusResetLogic (sorus : Nat) (st : State) : Host.Outcome State Fault Refusal :=
  st.rowD (decide (sorus < 8)) [wrN Od.RESET_SORUS sorus 1] fun k d => d.sorusReset k sorus false false

/-- R605: a write of RESET.SORUS 2. -/
def execSorusResetLanes (sorus : Nat) (st : State) : Host.Outcome State Fault Refusal :=
  st.rowD (decide (sorus < 8)) [wrN Od.RESET_SORUS sorus 2] fun k d => d.sorusReset k sorus true false

/-- R605: boundary B + 2,000. -/
def execSorusResetEnd (sorus : Nat) (st : State) : Host.Outcome State Fault Refusal :=
  st.runIf (decide (sorus < 8)) fun k d => d.sorusEnd k sorus

/-- R606: a write of RESET.FLUSH. -/
def execPipelineFlush (pipeline : Nat) (st : State) : Host.Outcome State Fault Refusal :=
  st.rowD (decide (pipeline < 64)) (wr1 Od.RESET_FLUSH pipeline) fun k d => d.flushPipe k pipeline

/-- R618: a write of POWER.SORUS.PARK 1; refused unless every existing port of the sorus reads PARKED or DISABLED. -/
def execSorusPark (sorus : Nat) (st : State) : Host.Outcome State Fault Refusal :=
  st.rowD (decide (sorus < 8)) (wr1 Od.POWER_SORUS_PARK sorus) fun k d => if d.parkOk sorus then d.sorusPark k sorus else d

/-- R619: a write of POWER.SORUS.PARK 0. -/
def execSorusWake (sorus : Nat) (st : State) : Host.Outcome State Fault Refusal :=
  st.rowD (decide (sorus < 8)) (wr0 Od.POWER_SORUS_PARK sorus) fun k d => d.sorusWake k sorus none

/-- R620: the hub has left idle. -/
def execIdleExit (st : State) : Host.Outcome State Fault Refusal := st.run fun k d => d.idleExit k

end Sys2Proof.Machine
end

