-- ==== Sys2Proof/Machine/TickOps.lean ====
section
/-! DEFINITION. The boundary of a tick (R42): what ends with the old tick, the actions in their order, and the length of the new tick. -/
namespace Sys2Proof.Machine

/-- The clocks of the tick that ends go to the counts of each running pipeline (R485, R486): what no entry or hold took was starved at the front. -/
def Dev.slotsEnd (k : Clk) (d : Dev) : Dev :=
  d.each ((List.range 64).filter fun i => d.n Od.RESET_STATE 0 == 1 && d.sorusRuns (i / 8)) fun d i =>
    let d := d.holdCount k i
    let used := d.n Rg.SLOT_USED i
    ((d.bump Od.SLOT_COUNTS i (max k.len used) 0).bump Od.SLOT_COUNTS i (k.len - used) 3).put Rg.SLOT_USED i 0

/-- The average depths of the queues that have a RED profile (R273), from their depths in the last clock. -/
def Dev.redAverages (d : Dev) : Dev :=
  let qs := (d.insts Od.FAB_QUEUE_RED_AVG ++ d.copies.map (·.queue)).dedup
  d.each (qs.filter fun q => decide (d.n Od.FAB_QUEUE_RED_PROFILE q < 64)) fun d q =>
    let a := d.get Od.FAB_QUEUE_RED_AVG q
    let w := d.n Od.FAB_RED_WEIGHT (d.n Od.FAB_QUEUE_RED_PROFILE q)
    d.set Od.FAB_QUEUE_RED_AVG q (a + (256 * (d.depth q : Int) - a).fdiv (2 ^ w))

/-- The windows of the ports end with the tick before tick t (R487). -/
def Dev.windowEnd (t : Nat) (d : Dev) : Dev :=
  let d := (d.clearObj Rg.WIN_END).each (d.insts Rg.WIN ++ d.insts Rg.WIN_CAP).dedup fun d p =>
    d.each ((d.elems Rg.WIN p 4 ++ [d.n Rg.WIN_CAP p]).zipIdx) fun d x => d.put Rg.WIN_END p x.1 x.2
  ((d.clearObj Rg.WIN).clearObj Rg.WIN_CAP).put Rg.WIN_LAST 0 (t + 1)

/-- What the ports could have carried in the tick that ends joins their windows, which end where the next tick's number is a multiple of WINDOW (R487). -/
def Dev.windowRates (k : Clk) (d : Dev) : Dev :=
  let w := d.n Od.CTR_PORT_WINDOW 0
  if w = 0 then d
  else
    let d := d.each d.ports fun d p => d.put Rg.WIN_CAP p (d.n Rg.WIN_CAP p + d.portRate p)
    if (k.tick + 1) % w = 0 then d.windowEnd (k.tick + 1) else d

/-- The grant of a dump to HBM (R46, R481). -/
def Dev.dumpGrant (d : Dev) : Dev :=
  match d.dump with
  | some x => if x.host then d else d.put Rg.DUMP_SENT 0 (d.n Rg.DUMP_SENT 0 + d.n Od.TICK_PLAN_HBM 0 1)
  | none => d

/-- The end of the old tick, its last clock over; k stands at its end. -/
def Dev.tickEnd (k : Clk) (m : Memory) (d : Dev) : Memory × Dev :=
  let d := (((d.slotsEnd k).redAverages.creditWaits (d.rk k)).windowRates (d.rk k)).dumpGrant
  let d := d.each (d.insts Od.PORT_ACTIVE_LANES) fun d p => d.queueRestore (d.rk k) p
  let r := ((d.learnAll (d.rk k)).sweepResolve (d.rk k)).journalTick m
  let d := r.2.when r.2.replaying (Dev.replayClose r.1 r.2.journalRoom)
  (r.1, d.emCommit (k.tick + 1))

/-- Step 1 of R42: the marker reaches the running sori, which compare their replicas with it (R32). -/
def Dev.marker (slips : List (Nat × Int)) (d : Dev) : Dev :=
  d.each ((List.range 8).filter d.sorusRuns) fun d s =>
    let n := ((slips.find? fun x => x.1 == s).map fun x => x.2.natAbs).getD 0
    if n = 0 then d else if n ≤ 63 then d.bump Od.TIME_REPLICA_SLIPS s else d.fault 4 s s

/-- Transfers that passed on a sorus link since the last boundary; the millionth in succession ends DEGRADED (R27). -/
def Dev.linkPassed (passed : List (Nat × Nat)) (d : Dev) : Dev :=
  d.each ((passed.filter fun x => decide (x.1 < 8 ∧ 0 < x.2))) fun d x =>
    let d := d.put Rg.LINK_FAILS x.1 0
    if d.n Od.DEVICE_SORUS_LINK_STATE x.1 = 3 then
      let n := d.n Rg.LINK_PASSES x.1 + x.2
      if 1000000 ≤ n then (d.put Rg.LINK_PASSES x.1 0).put Od.DEVICE_SORUS_LINK_STATE x.1 2 else d.put Rg.LINK_PASSES x.1 n
    else d

/-- The replay goes on to its next tick (R526): the actions that its records ask of the boundary. -/
def Dev.replayAdvance (m : Memory) (d : Dev) : List JAct × Dev :=
  if d.replaying then
    let d := (d.put Rg.REPLAY_RAW 0 ((d.n Rg.REPLAY_RAW 0 + 64 * d.n Rg.REPLAY_LEN 0) % 2 ^ 72)).put Od.REPLAY_TICK 0 (d.n Od.REPLAY_TICK 0 + 1)
    let d := d.put Rg.REPLAY_LEN 0 800
    if d.replayEnds m (d.n Od.REPLAY_TICK 0) then ([], d) else Dev.replayOpen m d.journalRoom [] d
  else ([], d)

/-- No tick-aligned action applies to the replayed state any more (R530). -/
def Dev.replayOver (m : Memory) (d : Dev) : Bool := d.replayed || (d.replaying && d.replayEnds m (d.n Od.REPLAY_TICK 0))

/-- A wake by pattern (R86, R619): `barred` where a write parks the port at the same boundary. -/
def Dev.wakeNow (k : Clk) (barred : Nat → Nat → Bool) (p : Nat) (d : Dev) : Dev :=
  if d.n Od.POWER_SORUS_STATE (sorusOf p) = 2 then
    if barred 0xC01002 (sorusOf p) then d else d.sorusWake k (sorusOf p) (if barred 0x20800A p then none else some p)
  else if d.on Od.PORT_PARK p then
    let d := d.bump Od.PORT_WAKES p
    if barred 0x20800A p then d else d.unpark k p true
  else d

/-- A port that was to come up still may: its PCS is locked, or it has left PORT.PARK with its lanes on (R69, R86). -/
def Dev.upStands (d : Dev) (p : Nat) : Bool :=
  (d.link p == lkTRAINING && bit (d.n Rg.UP_STEPS p) 3) || (d.link p == lkPARKED && !d.on Od.PORT_PARK p && d.sorusRuns (sorusOf p))

/-- What waits for this boundary takes place. -/
def Dev.dueNow (k : Clk) (barred : Nat → Nat → Bool) (d : Dev) (x : Due) : Dev :=
  match x with
  | .portUp p => if d.upStands p then d.portUp k p else d
  | .portDown p => d.portDown k p true
  | .peerCapable p v => if d.receives p then d.put Od.PORT_SHED_PEER_CAPABLE p v else d
  | .shedAnswer p type target seq => d.shedAnswer k p type target seq
  | .shedAgree p target => d.agree k p target
  | .restoreNow p => d.restoreNow k p
  | .wake p => d.wakeNow k barred p
  | .noRefclk s => d.noRefclk k s
  | .repair sorus slot line => d.treeRepair k sorus slot line
  | .leaseHeld => d.leaseHeld k
  | .resynced => d.resynced

/-- Poisoned working words of RW objects are rewritten from the dictionary engine's copy (R457). -/
def Dev.wordsRestored (d : Dev) : Dev :=
  let rw := fun (tagged : Nat) =>
    let key := tagged % 2 ^ 64
    !d.dictPoison.contains (key / 65536) &&
      (match objOf (keyObj key / 256) (keyObj key % 256) with | some o => o.acc == .rw && !o.ctr | none => false)
  { d with poison := d.poison.filter fun key => !rw key }

/-- Words of 64 bits that a staged write or group takes (R44). -/
def Staged.words (s : Staged) : Nat := (s.ops.map fun w => max 1 (ceilDiv w.data.length 8)).sum

/-- The writes that fit the words left at a boundary, and those that move to the next, the first that does not fit and every later one (R44). -/
def fitting : Nat → List Staged → List Staged × List Staged
  | _, [] => ([], [])
  | room, s :: t =>
    if s.words ≤ room then
      let r := fitting (room - s.words) t
      (s :: r.1, r.2)
    else ([], s :: t)

/-- The writes whose boundary this is leave the staging, those that do not fit stay for the next (R43, R44), where they go ahead of the writes already
staged for it: the spec does not order the two (DESIGN CHOICE, log entry 39). -/
def Dev.takeStaged (tick : Nat) (d : Dev) : List Staged × Dev :=
  let r := fitting 4096 (d.staged.filter fun s => decide (s.tick ≤ tick))
  let moved := r.2.map fun (s : Staged) => { s with tick := tick + 1 }
  let d : Dev := { d with staged := moved ++ d.staged.filter fun s => decide (tick < s.tick) }
  (r.1, d.bump Od.TICK_DEFERRED 0 ((r.2.map fun s => s.ops.length).sum))

/-- A staged write or group applies (R33, R572); kk is the clock rules go by. -/
def Dev.applyStaged (k kk : Clk) (r : Memory × Dev) (s : Staged) : Memory × Dev :=
  let r := Dev.applyOps kk s.ops s.session (s.entry == 1100) s.ops r.1 r.2
  (r.1, r.2.writeApplied k s)

/-- An action of a journal's record (R528). -/
def Dev.replayAct (kk : Clk) (r : Memory × Dev) (a : JAct) : Memory × Dev :=
  match a with
  | .write w => r.2.applyWrite kk w [w] [] 0 false r.1
  | .link p st lanes => (r.1, r.2.replayLink kk p st lanes)

/-- The phase error at a boundary, in 2⁻¹⁶ ns (R39). -/
def Dev.phaseError (k : Clk) (d : Dev) : Int :=
  let t := (d.viewSet (d.n Od.TICK_ALIGN_VIEW 0)).at k.raw
  (t : Int) - roundHalfEven t (500 * 65536) * (500 * 65536)

/-- The length that R39 gives a tick. -/
def lengthFor (aligned : Bool) (e : Int) : Nat :=
  if !aligned then 800 else if 20480 ≤ e then 799 else if e ≤ -20480 then 801 else 800

/-- Step 5 of R42 (R39, R40): the length of the new tick, with what it reports. -/
def Dev.decideLength (k : Clk) (d : Dev) : Nat × Dev :=
  let e := d.phaseError k
  let n := lengthFor (d.on Od.TICK_ALIGN_ENABLE 0) e
  let d := (d.set Od.TICK_PHASE_ERROR 0 e).put Od.TICK_LOCKED 0 (if e.natAbs ≤ 65536 then 1 else 0)
  (n, (d.when (n == 801) fun d => d.bump Od.TICK_LONG_COUNT 0).when (n == 799) fun d => d.bump Od.TICK_SHORT_COUNT 0)

/-- Step 6 of R42: meters and shapers refill (R220, R331), reset timers fall (R234); a meter at rest is full. In idle the hub's memory is in
retention (R620). -/
def Dev.refills (d : Dev) : Dev :=
  let ms := (d.insts Od.METER_TOKENS ++ d.insts Od.METER_CBS ++ d.insts Od.METER_EBS).dedup
  (if d.idle then d else (d.each ms Dev.meterRefill).each (d.insts Rg.FRER_TIMER) Dev.frerFall).shaperRefill

/-- The grants of the new tick are whole (R46), and every LFSR loads anew (R54). -/
def Dev.freshTick (d : Dev) : Dev :=
  let d : Dev := ({ d with lfsr := [] } : Dev).each
    [Rg.EM_SPENT, Rg.LEARN_SPENT, Rg.SWEEP_SPENT, Rg.SHADOW_SPENT, Rg.SCRUB_SPENT, Rg.WB_SPENT, Rg.EM_SERVED] Dev.clearObj
  ((((d.put Rg.SPILL_DRAWN 0 0).put Rg.XFER_USED 0 0).put Rg.XFER_HBM 0 0).put Rg.DMA_USED 0 0).put Rg.SPORE_USED 0 0

/-- The tick that follows, before its length is fixed. -/
def Clk.next (k : Clk) : Clk := { tick := k.tick + 1, len := 800, c := 0, raw := (k.raw + 64 * k.len) % 2 ^ 72 }

/-- Steps 1 and 2 of R42: the writes that applied, HBM and the device. What waited for the boundary comes before them, but for the repairs of R168, which a write
of the line makes void (R472). -/
def Dev.boundaryWrites (k : Clk) (slips : List (Nat × Int)) (passed : List (Nat × Nat)) (m : Memory) (d : Dev) : List WriteOp × Memory × Dev :=
  let a := ((d.marker slips).linkPassed passed).causes.replayAdvance m
  let kk := a.2.rk k
  let t := a.2.takeStaged k.tick
  let mine := t.1.flatMap (·.ops)
  let barred := fun (o i : Nat) => lastOf o (mine.filter fun w => w.inst == i) == some 1
  let later := fun (x : Due) => match x with | .repair _ _ _ => true | _ => false
  let dues := t.2.dues.filter fun x => !later x
  let repairs := t.2.dues.filter later
  let d := (({ t.2 with dues := [] } : Dev).wordsRestored.each dues (Dev.dueNow k barred))
  let r := a.1.foldl (Dev.replayAct kk) (m, d)
  let r := t.1.foldl (Dev.applyStaged k kk) r
  let r := (r.1, r.2.each repairs (Dev.dueNow k barred))
  ((a.1.filterMap fun x => match x with | .write w => some w | .link _ _ _ => none) ++ mine, r.1, r.2)

/-- The boundary that ends the tick of k (R42): the new tick, HBM and the device. -/
def Dev.boundary (slips : List (Nat × Int)) (passed : List (Nat × Nat)) (k : Clk) (m : Memory) (d : Dev) : Clk × Memory × Dev :=
  let e := (d.tickClocks k).tickEnd { k with c := k.len } m
  let k := k.next
  let w := e.2.boundaryWrites k slips passed e.1
  let d := w.2.2
  if d.replayOver w.2.1 then
    let r := (d.startsOf k w.1).resetsOf k w.1 w.2.1
    (k, r.1, r.2.tickOpen)
  else
    let kk := d.rk k
    let d := ((d.swapsOf kk w.1).applyViewWrites kk).gateFix kk
    let l := if d.replaying then (tickLength (d.n Rg.REPLAY_LEN 0), d) else d.decideLength k
    let k := { k with len := l.1 }
    let d := ((l.2.refills.freshTick).planRefill (d.rk k).tick).splitTest k
    let r := (d.startsOf k w.1).resetsOf k w.1 w.2.1
    (k, r.1, (r.2.journalOpen k).tickOpen)

end Sys2Proof.Machine
end

