-- ==== Sys2Proof/Machine/Tick.lean ====
section
/-! DEFINITION. The meaning of the command of chapter 2: the boundary. -/
namespace Sys2Proof.Machine

/-- R42: the tick now open runs to its end, and the boundary takes place. While every die but the crust stands still there is none (R640, R652). -/
def execTickBoundary (slips : List (Nat × Int)) (passed : List (Nat × Nat)) (st : State) : Host.Outcome State Fault Refusal :=
  if st.halted then .next st.quiet else st.runAll (Dev.boundary slips passed)

end Sys2Proof.Machine
end

