-- ==== Sys2Proof/Machine/Time.lean ====
section
/-! DEFINITION. The commands of "Timebase". -/
namespace Sys2Proof.Machine

/-- R367: a write of TIME.VIEW.SET, a TIME80 value; nanoseconds above 999,999,999 are refused, as is a write to a frozen view or an isolated device. -/
def Dev.timeBarred (d : Dev) (v : Nat) : Bool :=
  d.on Od.FAULT_ISOLATED 0 || (d.on Od.TIME_VOTE_FROZEN 0 && d.n Od.TIME_VOTE_VIEW 0 == v)

/-- The signed numbers of 64 bits. -/
def fits64 (n : Int) : Bool := decide (-(2 : Int) ^ 63 ≤ n ∧ n < (2 : Int) ^ 63)

/-- R367, R376. -/
def execTimeViewSet (v t : Nat) (st : State) : Host.Outcome State Fault Refusal :=
  st.rowD (decide (v < 4 ∧ t / 2 ^ 48 < 1000000000)) [wrN Od.TIME_VIEW_SET v t] fun k d =>
    if d.timeBarred v then d else d.viewSetTo k v t (d.n Od.TIME_VIEW_SET_SUB v)

/-- R367, R376: a signed step in 2⁻¹⁶ ns. -/
def execTimeViewStep (v : Nat) (n : Int) (st : State) : Host.Outcome State Fault Refusal :=
  st.rowD (decide (v < 4) && fits64 n) [wrN Od.TIME_VIEW_STEP v (ofSigned 64 n)] fun k d => if d.timeBarred v then d else d.viewStep k v n

/-- R366, R367, R376. -/
def execTimeViewIncrement (v n : Nat) (st : State) : Host.Outcome State Fault Refusal :=
  st.rowD (decide (v < 4) && incOk n) [wrN Od.TIME_VIEW_INCREMENT v n] fun k d => if d.timeBarred v then d else d.viewIncrement k v n

/-- R369. -/
def execHoldoverEntry (v : Nat) (st : State) : Host.Outcome State Fault Refusal :=
  st.runIf (decide (v < 4)) fun k d => if d.holdoverDue k v then d.holdover k v else d

/-- R372: reference A. -/
def execRefAWrite (off : Int) (st : State) : Host.Outcome State Fault Refusal :=
  st.rowD (fits64 off) [wrN Od.TIME_REF_A_OFFSET 0 (ofSigned 64 off)] fun k d => d.refA k off

/-- R372, R375: an edge of reference B on a pin (0 PPS_IN, 1 to 8 TIO0 to TIO7), `sub` raw units into this clock. -/
def execRefBEdge (pin : Nat) (rising : Bool) (sub : Nat) (st : State) : Host.Outcome State Fault Refusal :=
  st.runIf (decide (pin ≤ 8 ∧ sub < 64)) fun k d =>
    let src := d.n Od.TIME_REF_B_SOURCE 0 == pin && (pin == 0 || d.n Od.TIO_MODE (pin - 1) == 3)
    if d.on Od.TIME_REF_B_ENABLE 0 && src && rising == (d.n Od.TIME_REF_B_EDGE 0 == 0) then
      let raw := (k.now + sub) % 2 ^ 72
      let c := d.convert (d.n Od.TIME_VOTE_VIEW 0) raw
      if c.2.todPin.isSome then (c.2.put Rg.EDGE_RAW 0 (raw + 1)).put Rg.EDGE_VIEW 0 c.1
      else c.2.refB k c.1 none
    else d

/-- R375: 990 ms without a label. -/
def execRefBLabelTimeout (st : State) : Host.Outcome State Fault Refusal :=
  st.run fun k d =>
    let e := d.n Rg.EDGE_RAW 0
    if e ≠ 0 ∧ labelWait ≤ (k.now + 2 ^ 72 - (e - 1)) % 2 ^ 72 then (d.put Rg.EDGE_RAW 0 0).refB k (d.n Rg.EDGE_VIEW 0) none else d

/-- R375, R381: a message on a pin in TOD_IN. -/
def execTodInMessage (pin : Nat) (bs : List Byte) (st : State) : Host.Outcome State Fault Refusal :=
  st.runIf (decide (pin < 8)) fun k d =>
    if d.n Od.TIO_MODE pin ≠ 4 then d
    else if !(bs.take 2 == [0xA7, 0x3C] && (bs.getD 2 0).toNat / 16 == 1 && crc16 (sliceZ bs 0 14) == be16 bs 14 && bs.length == 16) then
      d.bump Od.TIO_TOD_BAD pin
    else
      let e := d.n Rg.EDGE_RAW 0
      if d.todPin = some pin ∧ e ≠ 0 ∧ (k.now + 2 ^ 72 - (e - 1)) % 2 ^ 72 ≤ labelWait then
        (d.put Rg.EDGE_RAW 0 0).refB k (d.n Rg.EDGE_VIEW 0) (some (ofBytesBE (sliceZ bs 4 6)))
      else d

/-- R374: the vote in a tick whose previous tick brought a measurement, once. -/
def execReferenceVote (st : State) : Host.Outcome State Fault Refusal :=
  st.run fun k d => if d.voteDue k then d.vote k else d

/-- R376. -/
def execVoteRelease (st : State) : Host.Outcome State Fault Refusal :=
  st.rowD true (wr1 Od.TIME_VOTE_RELEASE 0) fun _ d => d.put Od.TIME_VOTE_FROZEN 0 0

/-- R380, R383: the pin rises at the whole second the view reaches in this clock. -/
def execPpsOutPulse (pin : Nat) (st : State) : Host.Outcome State Fault Refusal :=
  st.runIf (decide (pin < 8)) fun k d =>
    if d.n Od.TIO_MODE pin = 1 ∧ !d.muted pin then
      match d.secondReached k (d.n Od.TIO_VIEW pin) (d.get Od.TIO_OUT_DELAY pin) with
      | some s => d.emit { kind := .pin, unit := pin, vals := [1, s, d.n Od.TIO_PULSE_WIDTH pin] }
      | none => d
    else d

/-- R381, R383: 10 ms after the whole second. -/
def execTodOutMessage (pin : Nat) (st : State) : Host.Outcome State Fault Refusal :=
  st.runIf (decide (pin < 8)) fun k d =>
    if d.n Od.TIO_MODE pin = 2 ∧ !d.muted pin then
      match d.secondReached k (d.n Od.TIO_VIEW pin) (-(10000000 * 65536)) with
      | some s => d.emit { kind := .pin, unit := pin, vals := [2, s], bytes := d.todMessage pin s }
      | none => d
    else d

/-- R382: an edge on a pin in EVENT_IN. -/
def execTioEventEdge (pin : Nat) (rising : Bool) (sub : Nat) (st : State) : Host.Outcome State Fault Refusal :=
  st.runIf (decide (pin < 8 ∧ sub < 64)) fun k d =>
    let m := d.n Od.TIO_EDGE pin
    if d.n Od.TIO_MODE pin = 5 ∧ (m = 2 ∨ (m = 0) = (rising = true)) then
      let raw := (k.now + sub) % 2 ^ 72
      let last := d.n Rg.TIO_LAST pin
      if last ≠ 0 ∧ (raw + 2 ^ 72 - (last - 1)) % 2 ^ 72 < 10240 then d.bump Od.TIO_EVENT_TOO_CLOSE pin
      else if 64 ≤ (d.tioFifo pin).length then d.bump Od.TIO_EVENT_LOST pin
      else
        let c := d.convert (d.n Od.TIO_VIEW pin) raw
        let u := c.1
        let w := [raw % 2 ^ 64, 2 ^ 63 + (if rising then 0 else 256) + raw / 2 ^ 64, u / secU, u % secU / 65536 * 2 ^ 32 + u % 65536 * 65536]
        ({ c.2 with tio := c.2.tio ++ [(pin, w)] }.put Rg.TIO_LAST pin (raw + 1)).put Od.TIO_EVENT_COUNT pin ((d.tioFifo pin).length + 1)
          |>.when (d.tioFifo pin).isEmpty (Dev.cause 36)
    else d

/-- R382: a read of TIO.EVENT.NEXT. -/
def execTioEventNext (pin : Nat) (st : State) : Host.Outcome State Fault Refusal :=
  st.runIf (decide (pin < 8)) fun _ d =>
    let r := d.tioNext pin
    r.2.emit { kind := .response, unit := pin, vals := r.1, bytes := r.1.flatMap (bytesLE 8) }

end Sys2Proof.Machine
end

