-- ==== Sys2Proof/Machine/Dispatch.lean ====
section
/-! DEFINITION. What each command does: one arm per constructor of Instr. -/
namespace Sys2Proof.Machine

def exec (i : Instr) (s : State) : Host.Outcome State Fault Refusal :=
  match i with
  | .tickBoundary slips passed => Sys2Proof.Machine.execTickBoundary slips passed s
  | .refclkComparison sorus present ppm => Sys2Proof.Machine.execRefclkComparison sorus present ppm s
  | .portEnable port => Sys2Proof.Machine.execPortEnable port s
  | .octetConfigChange octet mode rate channel => Sys2Proof.Machine.execOctetConfigChange octet mode rate channel s
  | .autoNegotiationComplete port baseR => Sys2Proof.Machine.execAutoNegotiationComplete port baseR s
  | .linkTrainingComplete port => Sys2Proof.Machine.execLinkTrainingComplete port s
  | .pcsLock port => Sys2Proof.Machine.execPcsLock port s
  | .bringUpTimeout port => Sys2Proof.Machine.execBringUpTimeout port s
  | .linkLoss port => Sys2Proof.Machine.execLinkLoss port s
  | .linkRestart port => Sys2Proof.Machine.execLinkRestart port s
  | .eyeScan lane height width => Sys2Proof.Machine.execEyeScan lane height width s
  | .shedHelloSend port => Sys2Proof.Machine.execShedHelloSend port s
  | .peerCapableTimeout port => Sys2Proof.Machine.execPeerCapableTimeout port s
  | .shedWindowEnd port => Sys2Proof.Machine.execShedWindowEnd port s
  | .restoreWindowEnd port => Sys2Proof.Machine.execRestoreWindowEnd port s
  | .shedHelloReceived port width => Sys2Proof.Machine.execShedHelloReceived port width s
  | .shedRequestReceived port target seq => Sys2Proof.Machine.execShedRequestReceived port target seq s
  | .shedAcceptReceived port target seq => Sys2Proof.Machine.execShedAcceptReceived port target seq s
  | .shedRefuseReceived port seq reason => Sys2Proof.Machine.execShedRefuseReceived port seq reason s
  | .shedSwitchedReceived port count => Sys2Proof.Machine.execShedSwitchedReceived port count s
  | .restoreNowReceived port target seq => Sys2Proof.Machine.execRestoreNowReceived port target seq s
  | .shedBadFrame port => Sys2Proof.Machine.execShedBadFrame port s
  | .shedRequestTimeout port => Sys2Proof.Machine.execShedRequestTimeout port s
  | .changeoverHoldStart port => Sys2Proof.Machine.execChangeoverHoldStart port s
  | .changeoverHoldEnd port => Sys2Proof.Machine.execChangeoverHoldEnd port s
  | .laneWakeEnd port => Sys2Proof.Machine.execLaneWakeEnd port s
  | .portPark port => Sys2Proof.Machine.execPortPark port s
  | .portUnpark port => Sys2Proof.Machine.execPortUnpark port s
  | .frameReception port bytes frags codeError fecError sub => Sys2Proof.Machine.execFrameReception port bytes frags codeError fecError sub s
  | .frameHandOff port pre => Sys2Proof.Machine.execFrameHandOff port pre s
  | .flowControlRefresh port => Sys2Proof.Machine.execFlowControlRefresh port s
  | .frameEnd port pre => Sys2Proof.Machine.execFrameEnd port pre s
  | .tailCheck port => Sys2Proof.Machine.execTailCheck port s
  | .pauseFrameReceived port quanta => Sys2Proof.Machine.execPauseFrameReceived port quanta s
  | .pfcFrameReceived port enables quanta => Sys2Proof.Machine.execPfcFrameReceived port enables quanta s
  | .macControlOther port length => Sys2Proof.Machine.execMacControlOther port length s
  | .pauseTimerExpiry port cls => Sys2Proof.Machine.execPauseTimerExpiry port cls s
  | .preemptionVerification port peer => Sys2Proof.Machine.execPreemptionVerification port peer s
  | .schedulerChoice port path sub => Sys2Proof.Machine.execSchedulerChoice port path sub s
  | .gateClosePreemption port => Sys2Proof.Machine.execGateClosePreemption port s
  | .copyLastByte port path => Sys2Proof.Machine.execCopyLastByte port path s
  | .recirculationPass sorus => Sys2Proof.Machine.execRecirculationPass sorus s
  | .captureJob => Sys2Proof.Machine.execCaptureJob s
  | .refillComplete addr fails => Sys2Proof.Machine.execRefillComplete addr fails s
  | .creditFrameSend port => Sys2Proof.Machine.execCreditFrameSend port s
  | .creditFrameReceived port grants => Sys2Proof.Machine.execCreditFrameReceived port grants s
  | .creditStall queue => Sys2Proof.Machine.execCreditStall queue s
  | .holdExpiry port => Sys2Proof.Machine.execHoldExpiry port s
  | .stash handle => Sys2Proof.Machine.execStash handle s
  | .poolQuarantine cell => Sys2Proof.Machine.execPoolQuarantine cell s
  | .poolUnquarantine cell => Sys2Proof.Machine.execPoolUnquarantine cell s
  | .gateConfigInstall port => Sys2Proof.Machine.execGateConfigInstall port s
  | .gateConfigCancel port => Sys2Proof.Machine.execGateConfigCancel port s
  | .gateListChange port => Sys2Proof.Machine.execGateListChange port s
  | .streamGateListChange gate => Sys2Proof.Machine.execStreamGateListChange gate s
  | .timeViewSet view t => Sys2Proof.Machine.execTimeViewSet view t s
  | .timeViewStep view step => Sys2Proof.Machine.execTimeViewStep view step s
  | .timeViewIncrement view increment => Sys2Proof.Machine.execTimeViewIncrement view increment s
  | .holdoverEntry view => Sys2Proof.Machine.execHoldoverEntry view s
  | .refAWrite offset => Sys2Proof.Machine.execRefAWrite offset s
  | .refBEdge pin rising sub => Sys2Proof.Machine.execRefBEdge pin rising sub s
  | .refBLabelTimeout => Sys2Proof.Machine.execRefBLabelTimeout s
  | .todInMessage pin message => Sys2Proof.Machine.execTodInMessage pin message s
  | .referenceVote => Sys2Proof.Machine.execReferenceVote s
  | .voteRelease => Sys2Proof.Machine.execVoteRelease s
  | .ppsOutPulse pin => Sys2Proof.Machine.execPpsOutPulse pin s
  | .todOutMessage pin => Sys2Proof.Machine.execTodOutMessage pin s
  | .tioEventEdge pin rising sub => Sys2Proof.Machine.execTioEventEdge pin rising sub s
  | .tioEventNext pin => Sys2Proof.Machine.execTioEventNext pin s
  | .captureNext => Sys2Proof.Machine.execCaptureNext s
  | .watchClear stream => Sys2Proof.Machine.execWatchClear stream s
  | .watchReport stream => Sys2Proof.Machine.execWatchReport stream s
  | .matEnable => Sys2Proof.Machine.execMatEnable s
  | .matDataFrame port pre => Sys2Proof.Machine.execMatDataFrame port pre s
  | .heartbeatSend => Sys2Proof.Machine.execHeartbeatSend s
  | .heartbeat path message => Sys2Proof.Machine.execHeartbeat path message s
  | .heartbeatTimeout device path => Sys2Proof.Machine.execHeartbeatTimeout device path s
  | .leaseRequest path message => Sys2Proof.Machine.execLeaseRequest path message s
  | .leaseCollectEnd => Sys2Proof.Machine.execLeaseCollectEnd s
  | .leaseGrant path message => Sys2Proof.Machine.execLeaseGrant path message s
  | .leaseRefuse path message => Sys2Proof.Machine.execLeaseRefuse path message s
  | .leaseRenewalSend => Sys2Proof.Machine.execLeaseRenewalSend s
  | .leaseEnd => Sys2Proof.Machine.execLeaseEnd s
  | .leaseClaim => Sys2Proof.Machine.execLeaseClaim s
  | .masterlessTimeout => Sys2Proof.Machine.execMasterlessTimeout s
  | .tableUpdate path message => Sys2Proof.Machine.execTableUpdate path message s
  | .syncRecordApply => Sys2Proof.Machine.execSyncRecordApply s
  | .tableAck path message => Sys2Proof.Machine.execTableAck path message s
  | .signatureSend => Sys2Proof.Machine.execSignatureSend s
  | .signature path message => Sys2Proof.Machine.execSignature path message s
  | .resyncRequest path message => Sys2Proof.Machine.execResyncRequest path message s
  | .resyncDone path message => Sys2Proof.Machine.execResyncDone path message s
  | .matRejoin => Sys2Proof.Machine.execMatRejoin s
  | .timeReqSend => Sys2Proof.Machine.execTimeReqSend s
  | .timeReq port seq sub => Sys2Proof.Machine.execTimeReq port seq sub s
  | .timeResp port seq t2 t3 sub => Sys2Proof.Machine.execTimeResp port seq t2 t3 sub s
  | .timeRespTimeout => Sys2Proof.Machine.execTimeRespTimeout s
  | .learningExecute => Sys2Proof.Machine.execLearningExecute s
  | .sweepPassStart => Sys2Proof.Machine.execSweepPassStart s
  | .sweepVisit bank => Sys2Proof.Machine.execSweepVisit bank s
  | .emInsert => Sys2Proof.Machine.execEmInsert s
  | .emDelete => Sys2Proof.Machine.execEmDelete s
  | .emRead => Sys2Proof.Machine.execEmRead s
  | .emReplace => Sys2Proof.Machine.execEmReplace s
  | .emSearch => Sys2Proof.Machine.execEmSearch s
  | .emFlush => Sys2Proof.Machine.execEmFlush s
  | .emBatchDone => Sys2Proof.Machine.execEmBatchDone s
  | .shadowDataWrite data => Sys2Proof.Machine.execShadowDataWrite data s
  | .shadowCompareRange bank => Sys2Proof.Machine.execShadowCompareRange bank s
  | .frerResetTimer stream => Sys2Proof.Machine.execFrerResetTimer stream s
  | .classSwap slot => Sys2Proof.Machine.execClassSwap slot s
  | .slotDataWrite slot data => Sys2Proof.Machine.execSlotDataWrite slot data s
  | .slotSeal slot rules lines crc => Sys2Proof.Machine.execSlotSeal slot rules lines crc s
  | .sealCheckEnd slot => Sys2Proof.Machine.execSealCheckEnd slot s
  | .writeBack mem die raced => Sys2Proof.Machine.execWriteBack mem die raced s
  | .scrubAccess mem die requested words => Sys2Proof.Machine.execScrubAccess mem die requested words s
  | .hbmCorrectionCollect counts bad => Sys2Proof.Machine.execHbmCorrectionCollect counts bad s
  | .flipArm => Sys2Proof.Machine.execFlipArm s
  | .flipDisarm => Sys2Proof.Machine.execFlipDisarm s
  | .logClear entry => Sys2Proof.Machine.execLogClear entry s
  | .ueLogClear entry => Sys2Proof.Machine.execUeLogClear entry s
  | .emRetire position => Sys2Proof.Machine.execEmRetire position s
  | .emUnretire position => Sys2Proof.Machine.execEmUnretire position s
  | .counterWrite idx sub inst words => Sys2Proof.Machine.execCounterWrite idx sub inst words s
  | .dumpDue => Sys2Proof.Machine.execDumpDue s
  | .dumpComplete => Sys2Proof.Machine.execDumpComplete s
  | .hbmReadData => Sys2Proof.Machine.execHbmReadData s
  | .windowClose port => Sys2Proof.Machine.execWindowClose port s
  | .sporeRingReset base records mode => Sys2Proof.Machine.execSporeRingReset base records mode s
  | .accumulatorClose code => Sys2Proof.Machine.execAccumulatorClose code s
  | .recordWrite => Sys2Proof.Machine.execRecordWrite s
  | .recClear => Sys2Proof.Machine.execRecClear s
  | .recClearDone => Sys2Proof.Machine.execRecClearDone s
  | .recWindow => Sys2Proof.Machine.execRecWindow s
  | .journalStart => Sys2Proof.Machine.execJournalStart s
  | .journalStartWhenClean => Sys2Proof.Machine.execJournalStartWhenClean s
  | .journalCleanStart => Sys2Proof.Machine.execJournalCleanStart s
  | .checkpointDone => Sys2Proof.Machine.execCheckpointDone s
  | .journalStop => Sys2Proof.Machine.execJournalStop s
  | .journalFull => Sys2Proof.Machine.execJournalFull s
  | .journalTrigger => Sys2Proof.Machine.execJournalTrigger s
  | .replayStart => Sys2Proof.Machine.execReplayStart s
  | .replayLoadEnd => Sys2Proof.Machine.execReplayLoadEnd s
  | .replayFrameEntry => Sys2Proof.Machine.execReplayFrameEntry s
  | .replayEnd => Sys2Proof.Machine.execReplayEnd s
  | .journalHbmDataWrite data => Sys2Proof.Machine.execJournalHbmDataWrite data s
  | .journalHbmDataRead => Sys2Proof.Machine.execJournalHbmDataRead s
  | .perturbLock => Sys2Proof.Machine.execPerturbLock s
  | .perturbClear => Sys2Proof.Machine.execPerturbClear s
  | .pulseStart entry => Sys2Proof.Machine.execPulseStart entry s
  | .pulseEnd entry => Sys2Proof.Machine.execPulseEnd entry s
  | .epochStall entry => Sys2Proof.Machine.execEpochStall entry s
  | .bluntoakHello entry source message => Sys2Proof.Machine.execBluntoakHello entry source message s
  | .bluntoakOpen entry source message => Sys2Proof.Machine.execBluntoakOpen entry source message s
  | .bluntoakClose entry source message => Sys2Proof.Machine.execBluntoakClose entry source message s
  | .opRead entry source message => Sys2Proof.Machine.execOpRead entry source message s
  | .opWrite entry source message => Sys2Proof.Machine.execOpWrite entry source message s
  | .opWriteSeg entry source message => Sys2Proof.Machine.execOpWriteSeg entry source message s
  | .opReadSeg entry source message => Sys2Proof.Machine.execOpReadSeg entry source message s
  | .groupBegin entry source message => Sys2Proof.Machine.execGroupBegin entry source message s
  | .groupCommit entry source message => Sys2Proof.Machine.execGroupCommit entry source message s
  | .groupAbort entry source message => Sys2Proof.Machine.execGroupAbort entry source message s
  | .opDescribe entry source message => Sys2Proof.Machine.execOpDescribe entry source message s
  | .challengeTimeout slot => Sys2Proof.Machine.execChallengeTimeout slot s
  | .sessionIdleTimeout slot => Sys2Proof.Machine.execSessionIdleTimeout slot s
  | .helloLockoutEnd address => Sys2Proof.Machine.execHelloLockoutEnd address s
  | .snapshotTimeout slot handle => Sys2Proof.Machine.execSnapshotTimeout slot handle s
  | .dictKeyWrite role key => Sys2Proof.Machine.execDictKeyWrite role key s
  | .windowDoorbell value message => Sys2Proof.Machine.execWindowDoorbell value message s
  | .windowAck value => Sys2Proof.Machine.execWindowAck value s
  | .arpRequest port frame => Sys2Proof.Machine.execArpRequest port frame s
  | .neighbourSolicitation port frame => Sys2Proof.Machine.execNeighbourSolicitation port frame s
  | .echoRequest port frame => Sys2Proof.Machine.execEchoRequest port frame s
  | .ringEnable ring => Sys2Proof.Machine.execRingEnable ring s
  | .ringDisable ring => Sys2Proof.Machine.execRingDisable ring s
  | .sqTail ring value => Sys2Proof.Machine.execSqTail ring value s
  | .cqHead ring value => Sys2Proof.Machine.execCqHead ring value s
  | .fetch ring entry => Sys2Proof.Machine.execFetch ring entry s
  | .free ring entry => Sys2Proof.Machine.execFree ring entry s
  | .hand ring entry => Sys2Proof.Machine.execHand ring entry s
  | .inject ring entry frame readOk => Sys2Proof.Machine.execInject ring entry frame readOk s
  | .injectedFrameEntry pipeline => Sys2Proof.Machine.execInjectedFrameEntry pipeline s
  | .deliveryComplete ring => Sys2Proof.Machine.execDeliveryComplete ring s
  | .coalesceTimeout ring => Sys2Proof.Machine.execCoalesceTimeout ring s
  | .hostLinkDown => Sys2Proof.Machine.execHostLinkDown s
  | .pcieHotReset => Sys2Proof.Machine.execPcieHotReset s
  | .pciePerst low => Sys2Proof.Machine.execPciePerst low s
  | .powerOnReset cut => Sys2Proof.Machine.execPowerOnReset cut s
  | .coldReset waited cut => Sys2Proof.Machine.execColdReset waited cut s
  | .oscLoss cut => Sys2Proof.Machine.execOscLoss cut s
  | .startUp copyA copyB voutMode => Sys2Proof.Machine.execStartUp copyA copyB voutMode s
  | .warmReset cause => Sys2Proof.Machine.execWarmReset cause s
  | .sorusResetLogic sorus => Sys2Proof.Machine.execSorusResetLogic sorus s
  | .sorusResetLanes sorus => Sys2Proof.Machine.execSorusResetLanes sorus s
  | .sorusResetEnd sorus => Sys2Proof.Machine.execSorusResetEnd sorus s
  | .pipelineFlush pipeline => Sys2Proof.Machine.execPipelineFlush pipeline s
  | .sorusPark sorus => Sys2Proof.Machine.execSorusPark sorus s
  | .sorusWake sorus => Sys2Proof.Machine.execSorusWake sorus s
  | .idleExit => Sys2Proof.Machine.execIdleExit s
  | .recoveryStart => Sys2Proof.Machine.execRecoveryStart s
  | .recoveryWindowEnd => Sys2Proof.Machine.execRecoveryWindowEnd s
  | .isolationEntry => Sys2Proof.Machine.execIsolationEntry s
  | .temperatureSample readings => Sys2Proof.Machine.execTemperatureSample readings s
  | .pmbAlert status => Sys2Proof.Machine.execPmbAlert status s
  | .avsStep ack vout iout => Sys2Proof.Machine.execAvsStep ack vout iout s
  | .avsRetry ack vout iout => Sys2Proof.Machine.execAvsRetry ack vout iout s
  | .avsReadback vout iout => Sys2Proof.Machine.execAvsReadback vout iout s
  | .operatingSecond => Sys2Proof.Machine.execOperatingSecond s
  | .ageSampleStart => Sys2Proof.Machine.execAgeSampleStart s
  | .ageSampleEnd shifts slacks => Sys2Proof.Machine.execAgeSampleEnd shifts slacks s
  | .vminTest steps => Sys2Proof.Machine.execVminTest steps s
  | .plannerDecision => Sys2Proof.Machine.execPlannerDecision s
  | .planRelearn => Sys2Proof.Machine.execPlanRelearn s
  | .replaceMaintain => Sys2Proof.Machine.execReplaceMaintain s
  | .replaceAdopt => Sys2Proof.Machine.execReplaceAdopt s
  | .rcRead idx inst sub first count => Sys2Proof.Machine.execRcRead idx inst sub first count s
  | .objectWrite idx inst sub off data => Sys2Proof.Machine.execObjectWrite idx inst sub off data s
  | .sorusLinkCrcError sorus attempt => Sys2Proof.Machine.execSorusLinkCrcError sorus attempt s
  | .signalDetect port => Sys2Proof.Machine.execSignalDetect port s
  | .fecCodewordDecoded port symbols uncorrectable => Sys2Proof.Machine.execFecCodewordDecoded port symbols uncorrectable s
  | .hostLinkUp speed width => Sys2Proof.Machine.execHostLinkUp speed width s
  | .busMasterEnableChange enable => Sys2Proof.Machine.execBusMasterEnableChange enable s
  | .msixUnmask vector => Sys2Proof.Machine.execMsixUnmask vector s
  | .oscRestored => Sys2Proof.Machine.execOscRestored s
  | .replayFlowRecord => Sys2Proof.Machine.execReplayFlowRecord s
  | .stashDone handle => Sys2Proof.Machine.execStashDone handle s
  | .fetchDone ring ok => Sys2Proof.Machine.execFetchDone ring ok s
  | .claimRetry => Sys2Proof.Machine.execClaimRetry s

end Sys2Proof.Machine
end

