-- ==== Sys2Proof/Safety.lean ====
section
/-! DEFINITION. What a safe state and a safe run are, and what a step leaves unchanged, in the terms the statements use. -/
namespace Sys2Proof.Safety

open Sys2Proof.Machine

/-- The timebase is as R38, R39 and R361 leave it: a tick of 799, 800 or 801 clocks, the clock within it, a raw counter of 72 bits. -/
def clkOk (k : Clk) : Bool := (k.len == 799 || k.len == 800 || k.len == 801) && decide (k.c < k.len) && decide (k.raw < 2 ^ 72)

/-- The state is well formed: its timebase, the form of HBM. -/
def stateOk (s : State) : Bool := clkOk s.clk && s.mem.wf

/-- The dies run (R640, R652). -/
def ready (s : State) : Bool := !s.halted

/-- A step went on: neither a fault nor a refusal. -/
def goesOn (o : Host.Outcome State Fault Refusal) : Bool := match o with | .next _ => true | _ => false

/-- A run of n steps went on throughout. -/
def runs : Nat → State → Bool
  | 0, _ => true
  | n + 1, s => match step s with | .next t => runs n t | _ => false

/-- The device after an operation on it, with what left it in that step alone. -/
def after (s : State) (f : Dev → Dev) : State := { s with dev := f s.dev.silent }

/-- The timebase, HBM and the queue of commands stay as they were. -/
def outsideKept (s t : State) : Prop := t.clk = s.clk ∧ t.mem = s.mem ∧ t.pending = s.pending

/-- The same of a command that is a write at a boundary: its values are what the reads of the clock find. -/
def afterRow (s : State) (f : Dev → Dev) : State := after s fun d => (f d).atOpen

/-- The notes of an instant without what it keeps for the reads of its clock. -/
def notes (i : Instant) : Instant :=
  { i with was := [], frames := [], copies := [], tx := [], bufs := [], jobs := [], em := [], views := [], recQ := [], backlog := [], sess := [] }

/-- The device without its objects, what the reads of its clock find, and what has just left it. -/
def bare (d : Dev) : Dev := { d with objs := [], out := [], now := notes d.now }

/-- The frame of a command that writes objects alone: every element but those listed reads as before, and of the device nothing else changes but what
has just left it. -/
def onlyWrites (keys : List Nat) (s t : State) : Prop :=
  outsideKept s t ∧ bare t.dev = bare s.dev ∧ ∀ (o : Obj) (i e : Nat), o.key i e ∉ keys → t.dev.get o i e = s.dev.get o i e

/-- The same for a command that also leaves an effect to the next boundary. -/
def writesAndWaits (keys : List Nat) (x : Due) (s t : State) : Prop :=
  outsideKept s t ∧ bare t.dev = bare (s.dev.later x) ∧
    ∀ (o : Obj) (i e : Nat), o.key i e ∉ keys → t.dev.get o i e = s.dev.get o i e

/-- No stored word is in error and no flip is armed: every count is made as it stands. -/
def plainWords (d : Dev) : Bool := d.poison.isEmpty && d.flipped.isEmpty && !d.on Od.INTEG_FLIP_ARM 0

/-- A counter pair counted one frame of n bytes (R118). -/
def countedPair (o : Obj) (i n : Nat) (s t : State) : Prop :=
  t.dev.n o i 0 = wrap48 (s.dev.n o i 0) 1 ∧ t.dev.n o i 1 = wrap48 (s.dev.n o i 1) n

/-- A port that can begin bring-up once it is enabled (R67, R60, R607): it exists, its sorus runs, its reference runs, no replay is running. -/
def canBringUp (d : Dev) (p : Nat) : Prop :=
  d.portExists p = true ∧ d.sorusRuns (sorusOf p) = true ∧ d.on Rg.REF_FAULT (sorusOf p) = false ∧ d.replaying = false

/-- A shedding frame of a port's own is sent: it leaves in this clock where it may, else it waits last among the frames of the MACs (R75, R83); the port's window
counts it as it leaves (R487). Of objects only those listed change besides. -/
def shedSent (keys : List Nat) (o : Out) (s t : State) : Prop :=
  outsideKept s t ∧ bare t.dev = bare { s.dev with ctl := t.dev.ctl } ∧
    (if s.dev.mayLeave s.clk o then t.dev.out = [o] ∧ t.dev.ctl = s.dev.ctl else t.dev.out = [] ∧ t.dev.ctl = s.dev.ctl ++ [o]) ∧
    ∀ (q : Obj) (i e : Nat), q.key i e ∉ keys ++ [Rg.WIN.key o.unit 2, Rg.WIN.key o.unit 3] → t.dev.get q i e = s.dev.get q i e

/-- A port stands at the first step of bring-up (R67 to R69); objects alone have changed, and no frame of its MAC waits to leave. -/
def bringingUp (s t : State) (p : Nat) : Prop :=
  outsideKept s t ∧ bare t.dev = bare (s.dev.dropCtl p) ∧ t.dev.link p = lkTRAINING ∧ t.dev.n Rg.UP_ORIGIN p = s.clk.tick + 1 ∧ t.dev.n Rg.UP_STEPS p = 0 ∧
    t.dev.n Od.PORT_ACTIVE_LANES p = 0

/-- A mat message of a code comes by a trunk (path 0) or a relay (2) to a device that takes part, with a term that is not stale (R427, R431). -/
def matComes (s : State) (code path : Nat) (bs : List Byte) : Prop :=
  s.dev.on Od.MAT_ENABLE 0 = true ∧ (path = 0 ∨ path = 2) ∧ (bs.getD 0 0).toNat = code ∧ s.dev.n Od.MAT_TERM 0 ≤ ofBytesBE (sliceZ bs 4 8)

/-- The member that a message names as its sender. -/
def matFrom (bs : List Byte) : Nat := (bs.getD 1 0).toNat % 8

/-- The elements that the arrival of any message writes: the highest SEQ of its sender, MAT.TERM. -/
def matKeys (bs : List Byte) : List Nat := [Rg.MAT_SEQ_IN.key (matFrom bs) 0, Od.MAT_TERM.key 0 0]

/-- A device asks for a lease of a term from this tick on (R431, R432). -/
def asksLease (t : State) (term tick claim : Nat) : Prop :=
  t.dev.n Rg.O_TERM 0 = term ∧ t.dev.n Rg.O_TICK 0 = tick ∧ t.dev.n Rg.O_CLAIM 0 = claim

/-- The next record of the batch is record i, with opcode op, and bank b has n slots left for it, learning and the sweeper not yet served (R200, R201, R204). -/
def recordNext (s : State) (op i b n : Nat) : Prop :=
  s.dev.n Od.EM_CMD_STATUS 0 0 = 1 ∧ s.dev.n Rg.EM_NEXT 0 = i ∧ i < s.dev.n Rg.EM_RUN 0 ∧ i < 512 ∧ ((s.dev.batchRec i).getD 32 0).toNat = op ∧
    b < 256 ∧ s.dev.n Rg.EM_SPENT b + n ≤ s.dev.emGrant s.clk 0 ∧ s.dev.on Rg.EM_SERVED b = false

/-- Record i of the batch completed with a status (R202, R204). -/
def recordDone (i st : Nat) (s t : State) : Prop :=
  outsideKept s t ∧ t.dev.n Rg.EM_NEXT 0 = i + 1 ∧ t.dev.n Od.EM_CMD_BATCH 0 (48 * i + 34) = st ∧
    t.dev.get Od.EM_CMD_STATUS 0 1 = Od.EM_CMD_STATUS.ty.norm (s.dev.n Od.EM_CMD_STATUS 0 1 + 1 : Nat) ∧ t.dev.em = s.dev.em

/-- No effect of a write is left half made: no write of a view waits, every pending gate list has its change time. -/
def calm (s : State) : Prop := s.dev.viewWrites = [] ∧ ∀ g ∈ s.dev.gpend, g.ct ≠ 0

/-- A REQUEST of one record comes by a management port that is open, in the order of SEQ, rightly tagged, from the one session there is, with none of its
requests unanswered, and none of its clock came by a later entry (R33, R554, R556, R557, R561). -/
def requestComes (s : State) (x : Sess) (bs : List Byte) (r : OpReq) : Prop :=
  s.dev.now.entry ≤ x.entry ∧ s.dev.sess = [x] ∧ x.opened = true ∧ x.pends = [] ∧ (x.entry = 1 ∨ x.entry = 2) ∧ s.dev.entryOpen x.entry = true ∧ 32 ≤ bs.length ∧
    bs.length ≤ 8960 ∧ be bs 2 2 = bs.length ∧ be bs 0 1 = 0x15 ∧ be bs 4 4 = x.num ∧ be bs 8 4 = x.seq + 1 ∧ s.dev.tagGood x.entry x.key bs = true ∧
    be bs 12 2 = 1 ∧ parseRecs 1 ((bs.drop 16).take (bs.length - 32)) = some [r] ∧ firstOp bs = r.op

/-- The device as the record of such a request finds it: the request counted, the session's SEQ and time moved on, its answer begun. -/
def asked (s : State) (x : Sess) (source : Nat) : Dev :=
  ((s.dev.silent.updSess x.num fun y => { y with source := source, via := ([], []) }).bump Od.DICT_REQUESTS 0).updSess x.num fun y =>
    { y with seq := x.seq + 1, since := s.clk.tick, pends := [{ seq := x.seq + 1, recs := [] }] }

/-- The request is answered at once by a response with this record, which leaves by the session's entry (R561, R563). -/
def answered (s t : State) (x : Sess) (source : Nat) (a : OpRec) : Prop :=
  let m := message 6 x.num (x.seq + 1) 1 a.bytes (s.dev.tagKey x.entry x.key)
  outsideKept s t ∧ t.dev.out = [{ kind := .response, unit := x.entry, vals := [source], bytes := m }] ∧
    (t.dev.sess.map fun y => (y.num, y.seq)) = [(x.num, x.seq + 1)]

/-- The request waits: its answer goes out at a later boundary (R572). -/
def waits (s t : State) (x : Sess) : Prop :=
  outsideKept s t ∧ t.dev.out = [] ∧ (t.dev.sess.map fun y => (y.num, y.seq)) = [(x.num, x.seq + 1)]

/-- Nothing is under way in the device: no frame, copy, table entry, staged write or session. -/
def emptied (d : Dev) : Prop :=
  d.rx = [] ∧ d.frames = [] ∧ d.copies = [] ∧ d.tx = [] ∧ d.em = [] ∧ d.emPend = [] ∧ d.bufs = [] ∧ d.dues = [] ∧ d.staged = [] ∧ d.sess = [] ∧
    d.gpend = [] ∧ d.flt = [] ∧ d.fltDue = [] ∧ d.fltQ = []

/-- The device has just been reset by a power-on (kind 1) or cold reset (2) with a cause (R601, R603). -/
def coldStarted (kind cause : Nat) (s t : State) : Prop :=
  t.clk = coldClk ∧ t.mem = [] ∧ t.pending = s.pending ∧ emptied t.dev ∧ t.dev.views = [] ∧ t.dev.accs = [] ∧
    t.dev.n Od.RESET_LAST_KIND 0 = kind ∧ t.dev.n Od.RESET_LAST_CAUSE 0 = cause ∧
    (∀ o i e, resetKeeps kind cause (o.key i e) = false →
      o.key i e ∉ [Od.RESET_LAST_KIND.key 0 0, Od.RESET_LAST_CAUSE.key 0 0, Od.DEVICE_BEHAVIOUR_LEVEL.key 0 0, Rg.HALT.key 0 0] →
      t.dev.get o i e = o.default i e)

/-- A sorus is in reset from this boundary on (R605). -/
def sorusInReset (x : Nat) (s t : State) : Prop :=
  outsideKept s t ∧ t.dev.n Od.POWER_SORUS_STATE x = 1 ∧ t.dev.n Rg.SORUS_UNTIL x = s.clk.tick + 2001 ∧
    t.dev.n Od.RESET_COUNTS 0 3 = satAdd Od.RESET_COUNTS.ty.top (s.dev.n Od.RESET_COUNTS 0 3) 1 ∧
    (∀ p ∈ s.dev.sorusPorts x, s.dev.link p ≠ lkDISABLED → s.dev.link p ≠ lkNO_REFCLK → t.dev.link p = lkDOWN) ∧
    ∀ p, p < 1024 → sorusOf p ≠ x → t.dev.link p = s.dev.link p

/-- A recovery as it stands from the boundary at which it starts (R625, R627). -/
def started (k : Clk) (d : Dev) (r : Recov) : Recov :=
  { r with start := k.tick, actEnd := k.tick + rungTicks r.rung, winEnd := k.tick + max (d.n Od.FAULT_WINDOW 0 (faultSub r.kind - 1)) (rungTicks r.rung) }

/-- The commands of the crust, and the resets, which act also while every other die stands still (R507, R601, R640, R652). -/
def ofCrust (c : Instr) : Bool :=
  match c with
  | .powerOnReset _ => true
  | .coldReset _ _ => true
  | .oscLoss _ => true
  | .oscRestored => true
  | .operatingSecond => true
  | _ => false

end Sys2Proof.Safety
end

