-- ==== Sys2Proof/Certificates/Slice0/Obligations.lean ====
section
/-! DEFINITION. The statements for the provers. Unless a statement says otherwise it speaks of every state whose dies run
(`ready`); `exec` acts on everything but the queue. -/


open Sys2Proof Sys2Proof.Machine Sys2Proof.Safety

/-- For every command and state: a step of the state with that command at the front of its queue answers what exec answers of the command on the state
with the rest of the queue. That a step on an empty queue lets one clock pass is the model's choice (log entry 1). (00_scope.md,
95_what_each_step_holds.md) -/
def Obligations.StepRunsTheFrontCommand : Prop :=
  ∀ (c : Instr) (s : State) (rest : List Instr), step { s with pending := c :: rest } = exec c { s with pending := rest }

/-- State.reset: no command waits; the tick is 0, its first clock, raw counter 0; HBM lists nothing; every element of every object reads its default;
the device is STARTING; the four views hold offset 0 from anchor 0 at the nominal increment and are FREE. It is a state of the invariant, whose dies
run. That HBM not yet written reads 0, and the defaults of live objects without one, are the model's choices (log entries 3, 10). (R19, R361, R365,
R603) -/
def Obligations.ResetState : Prop :=
  State.reset.pending = [] ∧ State.reset.clk.tick = 0 ∧ State.reset.clk.c = 0 ∧ State.reset.clk.raw = 0 ∧ State.reset.mem = [] ∧
    (∀ (o : Obj) (i e : Nat), State.reset.dev.get o i e = o.default i e) ∧ State.reset.dev.n Od.RESET_STATE 0 = 0 ∧
    (∀ v, v < 4 → (State.reset.dev.viewSet v).offset = 0 ∧ (State.reset.dev.viewSet v).anchor = 0 ∧ (State.reset.dev.viewSet v).inc = 2748779069440 ∧
      State.reset.dev.n Od.TIME_VIEW_STATE v = 0) ∧
    stateOk State.reset = true ∧ ready State.reset = true

/-- For every state in which the tick is 799, 800 or 801 clocks long, its clock within it, the raw counter below 2⁷² and HBM in its canonical form
(addresses rising, no byte listed that reads 0 anyway): if a step answers a next state, whatever command it ran, the same holds there. (R38, R39,
R361) -/
def Obligations.StepKeepsStateOk : Prop :=
  ∀ (s t : State), stateOk s = true → step s = .next t → stateOk t = true

/-- For every command and every state: if every HBM address the command names exists, exec answers a next state with the rest of the queue untouched,
and if one does not, exec faults with noSuchAddress; no command is refused. A command that names a port, lane, queue, memory or other unit the
device has not leaves the whole state but its output as it was: that is the model's choice (log entry 20). (R5) -/
def Obligations.CommandsGoOnExactlyWhereAddressed : Prop :=
  ∀ (c : Instr) (s : State),
    (c.addressed = true → ∃ t, exec c s = .next t ∧ t.pending = s.pending) ∧ (c.addressed = false → exec c s = .fault .noSuchAddress) ∧
    (c.addressed = true → c.wf = false → exec c s = .next s.quiet)

/-- A view in HOLDOVER, its writes not barred, is TRACKING after an increment write that the range admits applies, at a boundary. A step of a view, of
whatever size, leaves its state as it is. A view that is FREE does not enter HOLDOVER by time: nothing changes. (R370) -/
def Obligations.HoldoverEndsByAnIncrement : Prop :=
  ∀ (s : State) (v : Nat), ready s = true → v < 4 →
    (∀ n, s.clk.c = 0 → s.dev.n Od.TIME_VIEW_STATE v = 2 → s.dev.timeBarred v = false → incOk n = true →
      ∃ t, exec (.timeViewIncrement v n) s = .next t ∧ t.dev.n Od.TIME_VIEW_STATE v = 1) ∧
    (∀ n : Int, ∃ t, exec (.timeViewStep v n) s = .next t ∧ ∀ w, w < 4 → t.dev.get Od.TIME_VIEW_STATE w = s.dev.get Od.TIME_VIEW_STATE w) ∧
    (s.dev.n Od.TIME_VIEW_STATE v = 0 → ∃ t, exec (.holdoverEntry v) s = .next t ∧ onlyWrites [] s t)

/-- At a boundary, for an existing port, no effect of a write half made, no journal being recorded, no stored word in error: a write of one or both
words of CLASS.DEFAULT_ACTION whose ACTION is 5 or above changes nothing; one whose ACTION is below 5 makes the two words the object's A0 and A1,
their reserved bits zero, and changes nothing else. (R158) -/
def Obligations.DefaultActionWrites : Prop :=
  ∀ (s : State) (p : Nat), ready s = true → s.clk.c = 0 → plainWords s.dev = true → s.dev.dictPoison = [] → calm s → s.dev.n Od.JOURNAL_STATE 0 ≠ 2 → p < 1024 →
    s.dev.portExists p = true →
    (∀ data : List Byte, data.length = 8 ∨ data.length = 16 → 5 ≤ bits (ofBytesLE (data.take 8)) 63 60 →
      ∃ t, exec (.objectWrite 0x3480 p 1 0 data) s = .next t ∧ onlyWrites [] s t) ∧
    (∀ a0 a1, a0 < 2 ^ 64 → a1 < 2 ^ 64 → bits a0 63 60 < 5 →
      ∃ t, exec (.objectWrite 0x3480 p 1 0 (bytesLE 8 a0 ++ bytesLE 8 a1)) s = .next t ∧
        onlyWrites [Od.CLASS_DEFAULT_ACTION.key p 0, Od.CLASS_DEFAULT_ACTION.key p 1] s t ∧ t.dev.n Od.CLASS_DEFAULT_ACTION p 0 = maskOut a0 6 0 ∧
        t.dev.n Od.CLASS_DEFAULT_ACTION p 1 = maskOut a1 9 0)

/-- A port in TRAINING: signal detect, auto-negotiation (where the channel needs it), training (where it is needed) and PCS lock, once the steps needed
before it are made, each record their step and nothing else; PCS lock leaves the coming up to the next boundary. (R67, R678) -/
def Obligations.LinkStepsRecorded : Prop :=
  ∀ (s : State) (p : Nat), ready s = true → p < 1024 → s.dev.link p = lkTRAINING →
    (∃ t, exec (.signalDetect p) s = .next t ∧ onlyWrites [Rg.UP_STEPS.key p 0] s t ∧
      t.dev.n Rg.UP_STEPS p = s.dev.n Rg.UP_STEPS p ||| 1) ∧
    (∀ baseR : Bool, bit (s.dev.n Rg.UP_STEPS p) 0 = true → bit (s.dev.stepsNeeded p) 1 = true →
      ∃ t, exec (.autoNegotiationComplete p baseR) s = .next t ∧ onlyWrites [Rg.UP_STEPS.key p 0, Rg.AN_FEC.key p 0] s t ∧
        t.dev.n Rg.UP_STEPS p = s.dev.n Rg.UP_STEPS p ||| 2 ∧ t.dev.n Rg.AN_FEC p = if baseR then 1 else 0) ∧
    (bit (s.dev.stepsNeeded p) 2 = true → s.dev.n Rg.UP_STEPS p &&& 3 = s.dev.stepsNeeded p &&& 3 →
      ∃ t, exec (.linkTrainingComplete p) s = .next t ∧ onlyWrites [Rg.UP_STEPS.key p 0] s t ∧
        t.dev.n Rg.UP_STEPS p = s.dev.n Rg.UP_STEPS p ||| 4) ∧
    (s.dev.n Rg.UP_STEPS p &&& 7 = s.dev.stepsNeeded p →
      ∃ t, exec (.pcsLock p) s = .next t ∧ writesAndWaits [Rg.UP_STEPS.key p 0] (.portUp p) s t ∧
        t.dev.n Rg.UP_STEPS p = s.dev.n Rg.UP_STEPS p ||| 8)

/-- A port that exists, whose sorus and reference run, in no replay: PORT.ENABLE on a DISABLED port, at a boundary, 1,000,000 ticks of bring-up without
lock, and 2,000 ticks after a counted loss each put it in TRAINING with no step made, no lane active and the new origin; of the device nothing but
objects changes. (R67, R69, R70) -/
def Obligations.LinkBringUpRestarts : Prop :=
  ∀ (s : State) (p : Nat), ready s = true → p < 1024 → canBringUp s.dev p →
    (s.clk.c = 0 → s.dev.link p = lkDISABLED → ∃ t, exec (.portEnable p) s = .next t ∧ bringingUp s t p ∧ t.dev.n Od.PORT_ENABLE p = 1) ∧
    (s.dev.on Od.PORT_ENABLE p = true → s.dev.link p = lkTRAINING → s.dev.on Rg.UP_ORIGIN p = true →
      s.dev.n Rg.UP_ORIGIN p + 999999 ≤ s.clk.tick → ∃ t, exec (.bringUpTimeout p) s = .next t ∧ bringingUp s t p) ∧
    (s.dev.on Od.PORT_ENABLE p = true → s.dev.link p = lkDOWN → s.dev.on Rg.DOWN_TICK p = true →
      s.dev.n Rg.DOWN_TICK p + 1999 ≤ s.clk.tick → ∃ t, exec (.linkRestart p) s = .next t ∧ bringingUp s t p)

/-- A port that receives goes down at the next boundary after its loss. A comparison within 200 ppm in a fault counts one good comparison while fewer
than nine stand; a bad one in a fault sets the count to 0; a good one with no fault changes nothing. Nothing else changes. (R60, R70) -/
def Obligations.LinkLossAndReferences : Prop :=
  ∀ (s : State), ready s = true →
    (∀ p, p < 1024 → s.dev.receives p = true → ∃ t, exec (.linkLoss p) s = .next t ∧ writesAndWaits [] (.portDown p) s t) ∧
    (∀ (x : Nat) (ppm : Int), x < 8 →
      (ppm.natAbs ≤ 200 → s.dev.on Rg.REF_FAULT x = true → s.dev.n Rg.REF_GOOD x < 9 →
        ∃ t, exec (.refclkComparison x true ppm) s = .next t ∧ onlyWrites [Rg.REF_GOOD.key x 0] s t ∧
          t.dev.n Rg.REF_GOOD x = s.dev.n Rg.REF_GOOD x + 1) ∧
      (200 < ppm.natAbs → s.dev.on Rg.REF_FAULT x = true →
        ∃ t, exec (.refclkComparison x true ppm) s = .next t ∧ onlyWrites [Rg.REF_GOOD.key x 0] s t ∧ t.dev.n Rg.REF_GOOD x = 0) ∧
      (ppm.natAbs ≤ 200 → s.dev.on Rg.REF_FAULT x = false →
        ∃ t, exec (.refclkComparison x true ppm) s = .next t ∧ onlyWrites [] s t))

/-- An eye scan of an active lane that has a baseline, at or above its guard, sets the eye height and width and clears the below-guard mark. On a port
with FEC that receives, a codeword without errors clears the run of bad ones; an uncorrectable one is counted, lengthens the run, and marks every
frame the port is receiving. (R72, R70, R96) -/
def Obligations.LaneMeasurements : Prop :=
  ∀ (s : State), ready s = true →
    (∀ l height width, l < 1024 → height < 65536 → width < 65536 → s.dev.n Od.LANE_STATE l = 2 → s.dev.on Rg.AGE_LANE l = true →
      s.dev.n Od.LANE_EQ_GUARD l ≤ height →
      ∃ t, exec (.eyeScan l height width) s = .next t ∧
        onlyWrites [Od.LANE_EYE_HEIGHT.key l 0, Od.LANE_EYE_WIDTH.key l 0, Rg.BELOW_GUARD.key l 0] s t ∧
        t.dev.n Od.LANE_EYE_HEIGHT l = height ∧ t.dev.n Od.LANE_EYE_WIDTH l = width ∧ t.dev.n Rg.BELOW_GUARD l = 0) ∧
    (∀ p, p < 1024 → s.dev.receives p = true → s.dev.on Od.PORT_FEC_ACTIVE p = true →
      (∃ t, exec (.fecCodewordDecoded p [] false) s = .next t ∧ onlyWrites [Rg.BAD_CODEWORDS.key p 0] s t ∧ t.dev.n Rg.BAD_CODEWORDS p = 0) ∧
      (s.dev.n Rg.BAD_CODEWORDS p ≠ 7 →
        ∃ t, exec (.fecCodewordDecoded p [] true) s = .next t ∧ outsideKept s t ∧ t.dev.n Rg.BAD_CODEWORDS p = s.dev.n Rg.BAD_CODEWORDS p + 1 ∧
          t.dev.n Od.PORT_FEC_UNCORRECTED p = satAdd (2 ^ 64 - 1) (s.dev.n Od.PORT_FEC_UNCORRECTED p) 1 ∧
          bare t.dev = bare { s.dev with rx := s.dev.rx.map fun (f : RxFrame) => if f.port == p then { f with errs := f.errs ||| 8 } else f }))

/-- At a boundary, PORT.PARK 1 on an existing UP port with hold time set and no changeover records PARK and the state PARKED and begins its hold, its
own waiting frames other than shedding frames gone, its credit void; one that can shed and has a request neither outstanding nor barred by its gates
asks for one lane. PORT.PARK 0 on one that is PARKED with all its lanes, of a sorus that runs, clears PARK and leaves the return to the next
boundary. A link CRC error of a sorus link counts. (R85, R86, R292, R27) -/
def Obligations.ParkingPorts : Prop :=
  ∀ (s : State), ready s = true →
    (∀ p, s.clk.c = 0 → p < 1024 → s.dev.portExists p = true → s.dev.link p = lkUP → s.dev.n Rg.CHG_PHASE p = 0 → s.dev.n Od.PORT_HOLD_TIME p ≠ 0 →
      s.dev.replaying = false →
      ∃ t, exec (.portPark p) s = .next t ∧ outsideKept s t ∧ t.dev.n Od.PORT_PARK p = 1 ∧ t.dev.link p = lkPARKED ∧
        t.dev.n Od.PORT_HOLD_STATE p = 1 ∧ t.dev.n Rg.HOLD_START p = s.clk.tick ∧ t.dev.copies = s.dev.copies ∧
        (s.dev.canShed p = false → t.dev.out = [] ∧
          bare t.dev = bare { s.dev with tx := (s.dev.leaveUp p).tx, ctl := s.dev.ctl.filter fun o => o.unit != p || o.kind == .shed }) ∧
        (s.dev.canShed p = true → 1 < s.dev.n Od.PORT_ACTIVE_LANES p → s.dev.n Rg.REQ_TYPE p = 0 → (s.dev.operList p).hasGap 4000 = true →
          t.dev.n Rg.REQ_TYPE p = 2 ∧ t.dev.n Rg.REQ_TARGET p = 1 ∧ t.dev.n Rg.REQ_TICK p = s.clk.tick ∧ t.dev.n Rg.REQ_TRIES p = 1)) ∧
    (∀ p, s.clk.c = 0 → p < 1024 → s.dev.portExists p = true → s.dev.sorusRuns (sorusOf p) = true → s.dev.link p = lkPARKED → s.dev.portWidth p ≤ s.dev.n Od.PORT_ACTIVE_LANES p →
      ∃ t, exec (.portUnpark p) s = .next t ∧ writesAndWaits [Od.PORT_PARK.key p 0] (.portUp p) s t ∧ t.dev.n Od.PORT_PARK p = 0) ∧
    (∀ x attempt, x < 8 → attempt < 3 → s.dev.n Od.DEVICE_SORUS_LINK_STATE x ≠ 2 →
      ∃ t, exec (.sorusLinkCrcError x attempt) s = .next t ∧
        onlyWrites [Od.DEVICE_SORUS_LINK_CRC_ERRORS.key x 0, Rg.LINK_PASSES.key x 0] s t ∧ t.dev.n Rg.LINK_PASSES x = 0)

/-- OCTET_CONFIG_CHANGE on an octet whose mode is OFF (4), in no replay, sets its three objects, at a boundary, to a combination that R66 admits; of the
device nothing but objects changes, and frames that waited at the MACs of its ports may go. (R65, R66, R67) -/
def Obligations.OctetFromOff : Prop :=
  ∀ (s : State) (o mode rate chan : Nat), ready s = true → s.clk.c = 0 → o < 128 → s.dev.n Od.OCTET_MODE o = 4 → s.dev.replaying = false → octetOk mode rate chan = true →
    (∀ p, p / 8 = o → s.dev.inService p = false) →
    ∃ t, exec (.octetConfigChange o mode rate chan) s = .next t ∧ outsideKept s t ∧ bare t.dev = bare { s.dev with ctl := t.dev.ctl } ∧
      (∀ x ∈ t.dev.ctl, x ∈ s.dev.ctl) ∧ (∀ x ∈ s.dev.ctl, x.unit / 8 ≠ o → x ∈ t.dev.ctl) ∧
      t.dev.n Od.OCTET_MODE o = mode ∧ t.dev.n Od.OCTET_RATE o = rate ∧ t.dev.n Od.OCTET_CHANNEL o = chan

/-- At a port that receives: a HELLO of its own width is noted and makes the peer capable from the next boundary; a REQUEST with none outstanding, and a
RESTORE_NOW, wait for their answer at the next boundary; a RESTORE_NOW above the own target ends the own request; SWITCHED sets the receiver's
lanes; a bad frame is counted. An ACCEPT or REFUSE of the request outstanding ends it: agreed from the next boundary, or counted. (R74, R76, R80,
R81) -/
def Obligations.ShedFramesTaken : Prop :=
  ∀ (s : State) (p : Nat), ready s = true → p < 1024 →
    (s.dev.receives p = true →
      (∃ t, exec (.shedHelloReceived p (s.dev.portWidth p)) s = .next t ∧ writesAndWaits [Rg.HELLO_SEEN.key p 0] (.peerCapable p 1) s t ∧
        t.dev.n Rg.HELLO_SEEN p = s.clk.tick + 1) ∧
      (∀ target seq, s.dev.on Rg.REQ_TYPE p = false →
        ∃ t, exec (.shedRequestReceived p target seq) s = .next t ∧ writesAndWaits [] (.shedAnswer p 2 target seq) s t) ∧
      (∀ target seq, ∃ t, exec (.restoreNowReceived p target seq) s = .next t ∧ writesAndWaits [Rg.REQ_TYPE.key p 0] (.shedAnswer p 6 target seq) s t ∧
          t.dev.n Rg.REQ_TYPE p = if s.dev.n Rg.REQ_TARGET p < target then 0 else s.dev.n Rg.REQ_TYPE p) ∧
      (∀ count, ∃ t, exec (.shedSwitchedReceived p count) s = .next t ∧ onlyWrites [Rg.RX_LANES.key p 0] s t ∧ t.dev.n Rg.RX_LANES p = count) ∧
      (∃ t, exec (.shedBadFrame p) s = .next t ∧ onlyWrites [Od.PORT_SHED_BAD_FRAMES.key p 0] s t ∧
        t.dev.n Od.PORT_SHED_BAD_FRAMES p = satAdd Od.PORT_SHED_BAD_FRAMES.ty.top (s.dev.n Od.PORT_SHED_BAD_FRAMES p) 1)) ∧
    (s.dev.on Rg.REQ_TYPE p = true →
      (∃ t, exec (.shedAcceptReceived p (s.dev.n Rg.REQ_TARGET p) (s.dev.n Rg.REQ_SEQ p)) s = .next t ∧
        writesAndWaits [Rg.REQ_TYPE.key p 0] (.shedAgree p (s.dev.n Rg.REQ_TARGET p)) s t ∧ t.dev.n Rg.REQ_TYPE p = 0) ∧
      (∀ reason, ∃ t, exec (.shedRefuseReceived p (s.dev.n Rg.REQ_SEQ p) reason) s = .next t ∧
        onlyWrites [Rg.REQ_TYPE.key p 0, Od.PORT_SHED_REFUSED.key p 0] s t ∧ t.dev.n Rg.REQ_TYPE p = 0 ∧
        t.dev.n Od.PORT_SHED_REFUSED p = satAdd Od.PORT_SHED_REFUSED.ty.top (s.dev.n Od.PORT_SHED_REFUSED p) 1))

/-- A HELLO that is due is sent, as soon as a gap of its port lets it, and noted; after 6,000,000 ticks without one the peer is no longer capable; a
request without answer for 2,000 ticks is sent again up to three times, after which a shed is given up and counted with no new one for a shed
window, and a restore takes the port down at the next boundary; lanes that woke for 32 ticks end their phase. (R76, R80, R82) -/
def Obligations.ShedTimers : Prop :=
  ∀ (s : State) (p : Nat), ready s = true → p < 1024 →
    (s.dev.on Od.PORT_SHED_ENABLE p = true → s.dev.link p = lkUP → s.dev.n Rg.HELLO_SENT p = 0 ∨ s.dev.n Rg.HELLO_SENT p + 1999999 ≤ s.clk.tick →
      ∃ t, exec (.shedHelloSend p) s = .next t ∧ shedSent [Rg.HELLO_SENT.key p 0] (s.dev.shedFrame p 1 0 0 0) s t ∧
        t.dev.n Rg.HELLO_SENT p = s.clk.tick + 1) ∧
    (s.dev.n Rg.HELLO_SEEN p + 5999999 ≤ s.clk.tick →
      ∃ t, exec (.peerCapableTimeout p) s = .next t ∧ onlyWrites [Od.PORT_SHED_PEER_CAPABLE.key p 0] s t ∧ t.dev.n Od.PORT_SHED_PEER_CAPABLE p = 0) ∧
    (s.dev.on Rg.REQ_TYPE p = true → s.dev.n Rg.REQ_TICK p + 2000 ≤ s.clk.tick →
      (s.dev.n Rg.REQ_TRIES p ≤ 3 →
        ∃ t, exec (.shedRequestTimeout p) s = .next t ∧ shedSent [Rg.REQ_TICK.key p 0, Rg.REQ_TRIES.key p 0]
            (s.dev.shedFrame p (s.dev.n Rg.REQ_TYPE p) (s.dev.n Rg.REQ_SEQ p) (s.dev.n Rg.REQ_TARGET p) 0) s t ∧
          t.dev.n Rg.REQ_TICK p = s.clk.tick ∧ t.dev.n Rg.REQ_TRIES p = s.dev.n Rg.REQ_TRIES p + 1) ∧
      (3 < s.dev.n Rg.REQ_TRIES p → s.dev.n Od.PORT_ACTIVE_LANES p < s.dev.n Rg.REQ_TARGET p →
        ∃ t, exec (.shedRequestTimeout p) s = .next t ∧ writesAndWaits [Rg.REQ_TYPE.key p 0] (.portDown p) s t ∧ t.dev.n Rg.REQ_TYPE p = 0) ∧
      (3 < s.dev.n Rg.REQ_TRIES p → s.dev.n Rg.REQ_TARGET p ≤ s.dev.n Od.PORT_ACTIVE_LANES p →
        ∃ t, exec (.shedRequestTimeout p) s = .next t ∧
          onlyWrites [Rg.REQ_TYPE.key p 0, Od.PORT_SHED_REFUSED.key p 0, Rg.SHED_AFTER.key p 0] s t ∧ t.dev.n Rg.REQ_TYPE p = 0 ∧
          t.dev.n Rg.SHED_AFTER p = s.clk.tick + s.dev.n Od.PORT_SHED_WINDOW p)) ∧
    (s.dev.n Rg.CHG_PHASE p = 2 → s.dev.n Rg.CHG_TICK p + 32 ≤ s.clk.tick →
      ∃ t, exec (.laneWakeEnd p) s = .next t ∧ onlyWrites [Rg.CHG_PHASE.key p 0] s t ∧ t.dev.n Rg.CHG_PHASE p = 1)

/-- The end of a shed window sets PORT.SHED.LOAD to the larger load in thousandths of the full capacity and starts the window anew; an UP port that can
shed, above its fewest lanes, with a gap in its list, asks for half its lanes when its load is below the threshold and nothing bars it. That of a
restore window keeps its sent bits as the latest load and starts anew. A hold that may begin on an UP port sends SWITCHED and takes it to
CHANGEOVER, its credit void; the end of a hold, with PORT.PARK 0, gives transmitter and receiver the agreed count and returns the port to UP. (R77,
R81, R84) -/
def Obligations.ShedWindowsAndHolds : Prop :=
  ∀ (s : State) (p : Nat), ready s = true → p < 1024 →
    (s.dev.n Rg.SHED_START p + s.dev.n Od.PORT_SHED_WINDOW p ≤ s.clk.tick → 0 < s.dev.n Od.PORT_ACTIVE_LANES p →
      ∃ t, exec (.shedWindowEnd p) s = .next t ∧ outsideKept s t ∧ bare t.dev = bare { s.dev with ctl := t.dev.ctl } ∧ t.dev.n Rg.SHED_START p = s.clk.tick ∧
        t.dev.n Rg.SHED_RX p = 0 ∧ t.dev.n Rg.SHED_TX p = 0 ∧
        t.dev.get Od.PORT_SHED_LOAD p = Od.PORT_SHED_LOAD.ty.norm ((max (s.dev.n Rg.SHED_RX p) (s.dev.n Rg.SHED_TX p) * 1000 /
          (s.dev.portWidth p * s.dev.portLane p * s.dev.n Od.PORT_SHED_WINDOW p) : Nat) : Int) ∧
        (s.dev.link p = lkUP → s.dev.canShed p = true → s.dev.n Od.PORT_SHED_MIN_LANES p < s.dev.n Od.PORT_ACTIVE_LANES p →
          max (s.dev.n Rg.SHED_RX p) (s.dev.n Rg.SHED_TX p) * 1000 <
            s.dev.n Od.PORT_SHED_BELOW p * (s.dev.n Od.PORT_ACTIVE_LANES p / 2 * s.dev.portLane p * s.dev.n Od.PORT_SHED_WINDOW p) →
          restoreWanted s.clk s.dev p = false → s.dev.dues.contains (.restoreNow p) = false → s.dev.n Rg.REQ_TYPE p = 0 → s.dev.n Rg.CHG_PHASE p = 0 →
          s.dev.n Rg.SHED_AFTER p ≤ s.clk.tick → (s.dev.operList p).hasGap 4000 = true →
          t.dev.n Rg.REQ_TYPE p = 2 ∧ t.dev.n Rg.REQ_TARGET p = s.dev.n Od.PORT_ACTIVE_LANES p / 2 ∧ t.dev.n Rg.REQ_TICK p = s.clk.tick)) ∧
    (s.dev.n Rg.RESTORE_START p + s.dev.n Od.PORT_SHED_RESTORE_WINDOW p ≤ s.clk.tick →
      ∃ t, exec (.restoreWindowEnd p) s = .next t ∧ outsideKept s t ∧ bare t.dev = bare { s.dev with ctl := t.dev.ctl } ∧ t.dev.n Rg.RESTORE_START p = s.clk.tick ∧
        t.dev.n Rg.LAST_TX p = s.dev.n Rg.RESTORE_TX p ∧ t.dev.n Rg.RESTORE_RX p = 0 ∧ t.dev.n Rg.RESTORE_TX p = 0) ∧
    (s.dev.n Rg.CHG_PHASE p = 1 → s.dev.link p = lkUP → (∀ x ∈ s.dev.tx, x.port = p → 1 < x.path) → s.dev.inGap s.clk p 4000 = true →
      (s.dev.operList p).hasGap 4000 = true → s.dev.laterGap s.clk p = false →
      ∃ t, exec (.changeoverHoldStart p) s = .next t ∧ outsideKept s t ∧ bare t.dev = bare { s.dev with tx := (s.dev.leaveUp p).tx } ∧ t.dev.link p = lkCHANGEOVER ∧
        t.dev.n Rg.CHG_PHASE p = 3 ∧ t.dev.n Rg.CHG_TICK p = s.clk.tick ∧ t.dev.out = [s.dev.shedFrame p 5 0 (s.dev.n Rg.CHG_TARGET p) 0]) ∧
    (s.dev.n Rg.CHG_PHASE p = 3 → s.dev.n Rg.CHG_TICK p + 8 ≤ s.clk.tick → s.dev.link p = lkCHANGEOVER → s.dev.on Od.PORT_PARK p = false →
      s.dev.n Rg.CHG_TARGET p ≤ s.dev.portWidth p →
      ∃ t, exec (.changeoverHoldEnd p) s = .next t ∧ outsideKept s t ∧ bare t.dev = bare s.dev ∧ t.dev.link p = lkUP ∧ t.dev.n Rg.CHG_PHASE p = 0 ∧
        t.dev.n Od.PORT_ACTIVE_LANES p = s.dev.n Rg.CHG_TARGET p ∧ t.dev.n Rg.RX_LANES p = s.dev.n Rg.CHG_TARGET p)

/-- At a port that receives, is not PARKED, tests no wake pattern and meets no frame fault, with no frame of that path under way: a frame joins the MAC
last. MAC control and shedding frames are marked as such; another, at a port that is no trunk, outside maintenance, carries the settings captured at
its start, its length and its ingress stamp, and the tags of R99. No object changes. (R88, R90, R93, R388) -/
def Obligations.FramesReachTheMac : Prop :=
  ∀ (s : State) (p : Nat) (bytes : List Byte) (sub : Nat), ready s = true → p < 1024 → s.dev.receives p = true → s.dev.link p ≠ lkPARKED →
    s.dev.n Od.PORT_WAKE_ENABLE p = 0 → s.dev.faultEntries s.clk p 0 = [] → (∀ f ∈ s.dev.rx, f.port = p → f.pre = false → 2 ≤ f.phase) →
    (be16 bytes 12 = 0x8808 ∨ be16 bytes 12 = 0x88B5 ∨ (s.dev.maint = false ∧ s.dev.matMode p = false)) →
    ∃ (t : State) (f : RxFrame), exec (.frameReception p bytes [] false false sub) s = .next t ∧ outsideKept s t ∧
      bare t.dev = bare { s.dev with rx := s.dev.rx ++ [f] } ∧ (∀ (o : Obj) (i e : Nat), t.dev.get o i e = s.dev.get o i e) ∧
      (be16 bytes 12 = 0x8808 → f.port = p ∧ f.kind = 1 ∧ f.phase = 0 ∧ f.bytes = bytes) ∧
      (be16 bytes 12 = 0x88B5 → f.port = p ∧ f.kind = 2 ∧ f.phase = 0 ∧ f.bytes = bytes) ∧
      (be16 bytes 12 ≠ 0x8808 → be16 bytes 12 ≠ 0x88B5 →
        f.port = p ∧ f.kind = 0 ∧ f.phase = 0 ∧ f.pre = false ∧ f.errs = 0 ∧ f.bytes = bytes ∧ f.mtu = s.dev.n Od.PORT_MTU p ∧
        f.keepBad = s.dev.on Od.PORT_KEEP_BAD p ∧ f.desc.stamp = s.dev.rxStamp s.clk p sub ∧ f.desc.rxLength = min bytes.length 16383 ∧
        f.desc.srcPort = p ∧ f.desc.tagCount = (tagsOf (s.dev.n Od.PORT_RX_TPID_S p) bytes).1)

/-- With no frame for the dictionary engine and no stored error: the end of the first of the MAC's frames, when right and not handed over, counts it in
PORT.RX.GOOD and leaves it ended and handed over, its bytes as they were; a whole bad one on a port that neither keeps bad frames nor is journalled
leaves the MAC, counted in the counter of its first flag. The tail check of a frame with no record, no delivery and no late error removes it and
changes nothing else. (R88, R93, R96, R97, R135) -/
def Obligations.FramesEnd : Prop :=
  ∀ (s : State) (f : RxFrame) (l : List RxFrame), ready s = true → plainWords s.dev = true → s.dev.mgmtIn = [] → s.dev.rx = f :: l → f.port < 1024 →
    f.desc.replay = false → f.kind = 0 →
    (f.phase = 0 → f.endErrors = 0 →
      ∃ t g, exec (.frameEnd f.port f.pre) s = .next t ∧ outsideKept s t ∧ countedPair Od.PORT_RX_GOOD f.port f.wire.length s t ∧
        bare t.dev = bare { s.dev with rx := g :: l } ∧ g.walk.isSome = true ∧
        { g with walk := f.walk, malAction := f.malAction, hostRing := f.hostRing, slowRing := f.slowRing } =
          { f with errs := 0, phase := 2, entry := s.clk.clock }) ∧
    (f.phase = 0 → f.whole = true → f.keepBad = false → f.creditCls = 8 → s.dev.journalled f.port = false →
      ∀ x, errCounters.find? (fun y => bit f.endErrors y.1) = some x →
        ∃ t, exec (.frameEnd f.port f.pre) s = .next t ∧ outsideKept s t ∧ countedPair x.2 f.port f.wire.length s t ∧
          bare t.dev = bare { s.dev with rx := l }) ∧
    (f.phase = 3 → f.fr = none → f.host = [] → f.mgmt = false → (f.desc.malformed = true ∨ tailReason f.spans f.lastEnd (f.bytes.length - 4) = 0) →
      ∃ t, exec (.tailCheck f.port) s = .next t ∧ onlyWrites [] { s with dev := { s.dev with rx := l } } t)

/-- At a port in service with no pending gate list, no class immune and its requests obeyed, no stored error, not journalled: a PAUSE frame of quanta
not 0 sets the hold of every class and is counted; a PFC frame that names one priority sets its class's; another control frame is counted. A timer
that has run out is cleared. An answer to verification succeeds; a third attempt without one fails. The peer's own verify, where preemption is
enabled, is answered by a respond mPacket as soon as a frame of the MAC may leave, and changes nothing else. (R104, R105, R106, R110) -/
def Obligations.MacControlFrames : Prop :=
  ∀ (s : State) (p : Nat), ready s = true → plainWords s.dev = true → p < 1024 → s.dev.inService p = true → s.dev.journalled p = false →
    s.dev.gatePend false p = none →
    (∀ q, 0 < q → q < 65536 → s.dev.n Od.PORT_FLOW_MODE p = 1 → s.dev.on Od.PORT_FLOW_RX_ENABLE p = true → s.dev.maint = false →
      (∀ c, c < 8 → s.dev.immune p c = false) →
      ∃ t, exec (.pauseFrameReceived p q) s = .next t ∧ outsideKept s t ∧ bare t.dev = bare s.dev ∧ countedPair Od.PORT_RX_PAUSE p 64 s t ∧
        ∀ c, c < 8 → t.dev.n Rg.PAUSE_UNTIL p c = s.clk.clock + s.dev.holdClocks p q) ∧
    (∀ i q qs, i < 8 → qs[i]? = some q → 0 < q → q < 65536 → s.dev.n Od.PORT_PFC_CLASS_MAP p i < 8 → s.dev.n Od.PORT_FLOW_MODE p = 2 →
      s.dev.on Od.PORT_FLOW_RX_ENABLE p = true → s.dev.maint = false → (∀ c, c < 8 → s.dev.immune p c = false) →
      ∃ t, exec (.pfcFrameReceived p (2 ^ i) qs) s = .next t ∧ outsideKept s t ∧ bare t.dev = bare s.dev ∧ countedPair Od.PORT_RX_PFC p 64 s t ∧
        t.dev.n Rg.PAUSE_UNTIL p (s.dev.n Od.PORT_PFC_CLASS_MAP p i) = s.clk.clock + s.dev.holdClocks p q) ∧
    (∀ n, ∃ t, exec (.macControlOther p n) s = .next t ∧ outsideKept s t ∧ bare t.dev = bare s.dev ∧
      countedPair Od.PORT_RX_MAC_CONTROL_OTHER p n s t) ∧
    (∀ c, c < 8 → s.dev.replaying = false → s.dev.n Rg.PAUSE_UNTIL p c ≤ s.clk.clock →
      ∃ t, exec (.pauseTimerExpiry p c) s = .next t ∧ onlyWrites [Rg.PAUSE_UNTIL.key p c] s t ∧ t.dev.n Rg.PAUSE_UNTIL p c = 0) ∧
    (s.dev.n Od.PORT_PREEMPT_STATUS p = 1 →
      (∃ t, exec (.preemptionVerification p .respond) s = .next t ∧ onlyWrites [Od.PORT_PREEMPT_STATUS.key p 0] s t ∧
        t.dev.n Od.PORT_PREEMPT_STATUS p = 2) ∧
      (s.dev.n Rg.VERIFY_TICK p + 2000 * s.dev.n Od.PORT_PREEMPT_VERIFY_TIME p ≤ s.clk.tick + 1 → s.dev.n Rg.VERIFY_TRIES p = 2 →
        ∃ t, exec (.preemptionVerification p .none) s = .next t ∧
          onlyWrites [Rg.VERIFY_TRIES.key p 0, Rg.VERIFY_TICK.key p 0, Od.PORT_PREEMPT_STATUS.key p 0] s t ∧
          t.dev.n Rg.VERIFY_TRIES p = 3 ∧ t.dev.n Od.PORT_PREEMPT_STATUS p = 3)) ∧
    (∀ o : Out, o = { kind := .control, unit := p, vals := [16, 1] } → s.dev.on Od.PORT_PREEMPT_ENABLE p = true → s.dev.maint = false →
      s.dev.mayLeave s.clk o = true →
      ∃ t, exec (.preemptionVerification p .verify) s = .next t ∧ onlyWrites [] s t ∧ o ∈ t.dev.out)

/-- The first frame of a port that is ready enters the ingress half of its pipeline as `Dev.handOff` says, where holds counted up to now leave the
pipeline free, the device is not in maintenance and the pipeline has served none in this clock at or behind its place in the rotation: of a front
port (FRAME_HAND_OFF) and of a trunk (MAT_DATA_FRAME) alike; so does the first injected frame of a pipeline. HBM, the timebase and the queue stay as
they were. A frame that waits at a pipeline held by now is handed over at the MAC and waits on. (R25, R51, R92, R121, R424, R591) -/
def Obligations.FramesEnterTheirPipelines : Prop :=
  ∀ (s : State), ready s = true →
    (∀ p pre i f, p < 1024 → s.dev.waitingAt p pre false = some (i, f) → s.dev.pipeLate s.clk (pipeOf p) = false →
      (s.dev.silent.holdCount s.clk (pipeOf p)).maint = false →
      ((s.dev.silent.holdCount s.clk (pipeOf p)).pipeHeld s.clk (pipeOf p) = false →
        exec (.frameHandOff p pre) s = .next (after s fun d => ((d.holdCount s.clk (pipeOf p)).handOff s.clk i f).takeMgmt s.clk s.mem)) ∧
      ((s.dev.silent.holdCount s.clk (pipeOf p)).pipeHeld s.clk (pipeOf p) = true →
        exec (.frameHandOff p pre) s = .next (after s fun d => let e := d.holdCount s.clk (pipeOf p); e.setRx i (e.handed f)))) ∧
    (∀ p pre i f, p < 1024 → s.dev.waitingAt p pre true = some (i, f) → s.dev.pipeLate s.clk (pipeOf p) = false →
      (s.dev.silent.holdCount s.clk (pipeOf p)).pipeHeld s.clk (pipeOf p) = false → (s.dev.silent.holdCount s.clk (pipeOf p)).maint = false →
      exec (.matDataFrame p pre) s = .next (after s fun d => ((d.holdCount s.clk (pipeOf p)).handOff s.clk i f).takeMgmt s.clk s.mem)) ∧
    (∀ u j, u < 64 → s.dev.injectHead u = some j → s.dev.pipeLate s.clk u = false →
      (s.dev.silent.holdCount s.clk u).pipeHeld s.clk u = false → (s.dev.silent.holdCount s.clk u).maint = false →
      exec (.injectedFrameEntry u) s = .next (after s fun d => ((d.holdCount s.clk u).injectEntry s.clk j).takeMgmt s.clk s.mem))

/-- A preemptible-path copy whose MAC is done, whole, right, uncut and without credit debit, of a STRICT level, on an ungated queue of a port with no
pending gate list: it leaves the list of copies in transmission; its frame goes out with its FCS; it counts in PORT.TX.GOOD and SCHED.QUEUE.SENT;
the queue's and port's four buckets fall by the charge of R330; the record loses a reference and names the owner, of one clock's releases the
highest. (R89, R262, R330) -/
def Obligations.CopiesLeave : Prop :=
  ∀ (s : State) (x : TxCopy) (f : FrameRec), ready s = true → plainWords s.dev = true → s.dev.replaying = false → x.port < 1024 →
    x.copy.queue < 16384 → x.copy.queue / 16 = x.port → s.dev.txOn x.port 1 = some x → x.path = 1 → s.dev.ended s.clk x = true →
    s.dev.frame x.copy.fr = some f → f.complete = true → f.refs ≠ 0 → x.cut = none → f.tailMark = false → x.giant = false → x.stomp = false →
    x.xors = [] → x.debit = 0 → x.header = [] → x.committed = false → s.dev.maint = false → s.dev.gatePend false x.port = none →
    s.dev.n Od.SCHED_LEVEL_MODE x.port (s.dev.n Od.SCHED_LEVEL x.copy.queue) = 0 → (s.dev.operList x.port).gated (x.copy.queue % 16) = false →
    ∃ t, exec (.copyLastByte x.port 1) s = .next t ∧ outsideKept s t ∧
      bare t.dev = bare (({ s.dev with tx := s.dev.tx.erase x, now := { s.dev.now with ended := s.dev.now.ended ++ [(x.port, 1)] } } : Dev).updFrame
        x.copy.fr fun f => { f with refs := f.refs - 1, relClock := s.clk.clock + 1,
                                    lastOwner := if f.relClock = s.clk.clock + 1 then max x.copy.queue f.lastOwner else x.copy.queue }) ∧
      t.dev.out = [{ kind := .frame, unit := x.port, vals := [1], bytes := x.frame ++ fcsBytes x.frame }] ∧
      countedPair Od.PORT_TX_GOOD x.port (x.frame.length + 4) s t ∧ countedPair Od.SCHED_QUEUE_SENT x.copy.queue (x.frame.length + 4) s t ∧
      ∀ e, e < 2 →
        t.dev.get Od.SHAPER_TOKENS x.copy.queue e = Od.SHAPER_TOKENS.ty.norm (s.dev.get Od.SHAPER_TOKENS x.copy.queue e -
          ((x.frame.length + 4 + s.dev.n Od.SCHED_OVERHEAD x.port) * 65536 : Nat)) ∧
        t.dev.get Od.PSHAPER_TOKENS x.port e = Od.PSHAPER_TOKENS.ty.norm (s.dev.get Od.PSHAPER_TOKENS x.port e -
          ((x.frame.length + 4 + s.dev.n Od.SCHED_OVERHEAD x.port) * 65536 : Nat))

/-- A free path that has had neither a choice nor a last byte in this clock takes the copy that `Dev.choice` picks among the eligible queues and
dequeues it. A copy preempted at its gate's close, no gate list pending, goes on in the clock in which its gate lets the rest pass. The whole head
of a recirculation queue, right in every cell, with a buffer to be had, its port done and its pipeline free in this clock, makes its second pass
from that buffer, its reference released, the port taken for the bits of its bytes. (R160, R265, R322, R324, R355) -/
def Obligations.CopiesAreChosen : Prop :=
  ∀ (s : State), ready s = true → s.dev.replaying = false → s.dev.replayed = false →
    (∀ p path sub r d, p < 1024 → s.dev.pathFree s.clk p path = true → s.dev.egressTaken s.clk p path = false →
      ((s.dev.silent.gateDue s.clk p).schedHeal p).dropTooLong s.clk p path = d →
      d.choice s.clk p ((d.pathOffsets p path).filterMap (d.candidate s.clk p path)) = some r →
      exec (.schedulerChoice p path sub) s = .next (after s fun _ =>
        ({ r.2 with now := { r.2.now with sent := r.2.now.sent ++ [(p, path)] } } : Dev).dequeue s.clk p path sub r.1)) ∧
    (∀ p x, p < 1024 → s.dev.txOn p 1 = some x → x.run = 2 → s.dev.inService p = true → s.dev.n Rg.CHG_PHASE p ≠ 3 → (s.dev.txOn p 0).isSome = false →
      s.dev.gatePend false p = none →
      ∀ g, s.dev.gateSays s.clk p (x.copy.queue % 16) (x.ltx - x.sent) (s.dev.leaveTime s.clk p 1) = g → g.pass = true →
      ∃ t, exec (.gateClosePreemption p) s = .next t ∧ outsideKept s t ∧ (∀ (o : Obj) (i e : Nat), t.dev.get o i e = s.dev.get o i e) ∧
        bare t.dev = bare (s.dev.updTx p 1 fun y => { y with run := 0, mark := s.clk.clock, closes := g.closes })) ∧
    (∀ u c f b d, u < 8 → s.dev.recircHead s.clk u = some (c, f) → f.tailMark = false → f.poisoned = [] → s.dev.recircLate s.clk u = false →
      s.dev.silent.holdCount s.clk (pipeOf c.desc.srcPort) = d → d.pipeHeld s.clk (pipeOf c.desc.srcPort) = false →
      (d.unqueue c).alloc u (recircLen c f) false = b → b.1 = 0 →
      exec (.recirculationPass u) s = .next (after s fun _ =>
        ((b.2.2.dropCopy s.clk c).put Rg.RECIRC_FREE u (s.clk.clock + ceilDiv (8 * recircLen c f) 1000)).secondPass s.clk c f b.2.1))

/-- A trunk port that is UP with a credit-controlled class sends its credit frame when it is due, or lets it wait at its MAC while it may not leave; one
received sets the grants of the controlled classes (port receives, is no longer PARKED, not journalled, no stored error) and is counted with its 82
bytes; a head copy that lacks credit for STALL_TICKS is counted once, with its event; a hold that runs out on empty queues leaves HOLD.STATE
FLUSHED; the oldest refill read whose 96 clocks have passed ends and its cell comes back to its record. (R281, R287, R288, R290, R293) -/
def Obligations.FabricTimers : Prop :=
  ∀ (s : State), ready s = true → plainWords s.dev = true →
    (∀ p, p < 1024 → s.dev.link p = lkUP → ((List.range 8).filter fun c => s.dev.creditClass p c) ≠ [] →
      s.dev.n Rg.CREDIT_SENT p + s.dev.n Od.FAB_CREDIT_INTERVAL 0 ≤ s.clk.tick + 1 →
      ∃ t, exec (.creditFrameSend p) s = .next t ∧ outsideKept s t ∧ bare t.dev = bare { s.dev with ctl := t.dev.ctl } ∧ t.dev.n Rg.CREDIT_SENT p = s.clk.tick + 1 ∧
        t.dev.n Od.FAB_CREDIT_FRAMES 0 = satAdd Od.FAB_CREDIT_FRAMES.ty.top (s.dev.n Od.FAB_CREDIT_FRAMES 0) 1 ∧
        t.dev.out.length + t.dev.ctl.length = s.dev.ctl.length + 1) ∧
    (∀ p (grants : List Nat), p < 1024 → s.dev.receives p = true → s.dev.matMode p = true → s.dev.link p ≠ lkPARKED → s.dev.maint = false → s.dev.journalled p = false →
      (∀ g ∈ grants, g < 2 ^ 32) →
      ∃ t, exec (.creditFrameReceived p grants) s = .next t ∧ outsideKept s t ∧ bare t.dev = bare s.dev ∧ countedPair Od.PORT_RX_GOOD p 82 s t ∧
        ∀ c, c < 8 → t.dev.n Rg.CREDIT_G p c = if s.dev.creditClass p c then grants.getD c 0 else s.dev.n Rg.CREDIT_G p c) ∧
    (∀ q, q < 16384 → s.dev.n Od.FAB_CREDIT_STALL_TICKS 0 ≠ 0 → s.dev.n Rg.CREDIT_WAIT q ≠ 0 → s.dev.on Rg.CREDIT_WAIT q 1 = false →
      s.dev.n Rg.CREDIT_WAIT q + s.dev.n Od.FAB_CREDIT_STALL_TICKS 0 ≤ (s.dev.rk s.clk).tick + 1 →
      ∃ t, exec (.creditStall q) s = .next t ∧ outsideKept s t ∧ t.dev.n Rg.CREDIT_WAIT q 1 = 1 ∧
        t.dev.n Od.FAB_CREDIT_STALLS 0 = satAdd Od.FAB_CREDIT_STALLS.ty.top (s.dev.n Od.FAB_CREDIT_STALLS 0) 1 ∧ t.dev.copies = s.dev.copies) ∧
    (∀ p, p < 1024 → s.dev.n Od.PORT_HOLD_STATE p = 1 → s.dev.n Rg.HOLD_START p + s.dev.n Od.PORT_HOLD_TIME p ≤ (s.dev.rk s.clk).tick → s.dev.copies = [] →
      ∃ t, exec (.holdExpiry p) s = .next t ∧ outsideKept s t ∧ t.dev.n Od.PORT_HOLD_STATE p = 2 ∧ t.dev.copies = [] ∧ t.dev.frames = s.dev.frames) ∧
    (∀ a id due l, a < 0x800000000 → s.dev.flight = (id, due) :: l → due ≤ (s.dev.rk s.clk).clock → s.dev.hbmPoison = [] →
      ∃ t, exec (.refillComplete a 0) s = .next t ∧ outsideKept s t ∧
        (∀ (o : Obj) (i e : Nat), o.key i e ≠ Od.INTEG_HBM_LINK_CRC_ERRORS.key (hbmStack (a / 32 * 32)) 0 → t.dev.get o i e = s.dev.get o i e) ∧
        bare { t.dev with now := { t.dev.now with pages := s.dev.now.pages } } = bare (({ s.dev with flight := l } : Dev).updFrame id fun f =>
          { f with home := f.home.drop 1, placed := f.placed + 1 }))

/-- The first capture job, with grants left, writes 192 bytes at its place in HBM, advances WRITE and RECORD_NUMBER and counts. A buffer due for its
stash, the first of its age, with no slot free leaves its ring, counted. A stash that is done lies in HBM. At a boundary, a cell that is not on the
quarantine list joins it at its end, pending or not; UNQUARANTINE of the one cell on the list empties it. (R266, R314, R316, R489, R490) -/
def Obligations.CapturesAndBuffers : Prop :=
  ∀ (s : State), ready s = true →
    (∀ j l f, s.dev.jobs = j :: l → 192 * (s.dev.n Rg.SPORE_USED 0 + 1) ≤ s.dev.n Od.TICK_PLAN_HBM 0 0 →
      s.dev.n Rg.SPORE_USED 0 < 256 * s.dev.bufGrant s.clk 2 → s.dev.frame j.fr = some f → f.poisoned = [] → f.refs ≠ 0 →
      s.dev.n Od.SPORE_RING_MODE 0 = 0 → s.dev.n Od.SPORE_RECORD_NUMBER 0 + 1 < 2 ^ 64 →
      ∃ t, exec .captureJob s = .next t ∧ t.clk = s.clk ∧ t.pending = s.pending ∧
        t.mem = s.mem.wrBytes (s.dev.n Od.SPORE_RING_BASE 0 + 192 * (s.dev.n Od.SPORE_RECORD_NUMBER 0 % s.dev.n Od.SPORE_RING_RECORDS 0))
          (j.meta f (s.dev.n Od.SPORE_RECORD_NUMBER 0) ++ sliceZ f.stored 0 160) ∧
        t.dev.jobs = l ∧ t.dev.n Od.SPORE_RECORD_NUMBER 0 = s.dev.n Od.SPORE_RECORD_NUMBER 0 + 1 ∧
        t.dev.n Od.SPORE_WRITTEN 0 = satAdd Od.SPORE_WRITTEN.ty.top (s.dev.n Od.SPORE_WRITTEN 0) 1) ∧
    (∀ b, s.dev.buf b.handle = some b → b.ring.isSome = true → b.slot = none → s.dev.n Od.POOL_STASH_AFTER 0 ≠ 0 →
      b.since + s.dev.n Od.POOL_STASH_AFTER 0 ≤ s.clk.tick → s.dev.stashSlot b.pool = none →
      (∀ x ∈ s.dev.bufs, x.since = b.since → b.handle ≤ x.handle) →
      ∃ t, exec (.stash b.handle) s = .next t ∧ outsideKept s t ∧ onlyWrites [Od.POOL_NO_STASH.key b.pool 0]
        { s with dev := s.dev.updBuf b.handle fun b => { b with ring := none } } t) ∧
    (∀ b j, s.dev.buf b.handle = some b → b.slot = some j → b.stashing = true → s.dev.hcmds = [] → s.dev.n Od.POOL_QUARANTINE_COUNT 0 = 0 →
      ∃ t, exec (.stashDone b.handle) s = .next t ∧ t.clk = s.clk ∧ t.pending = s.pending ∧ t.mem = s.mem.wrBytes (s.dev.stashAddr b.pool j) b.bytes ∧
        bare t.dev = bare ((s.dev.bufCellsGone b).updBuf b.handle fun b => { b with stashing := false, ring := none })) ∧
    (∀ c, c < 1048576 → s.clk.c = 0 → s.dev.n Od.POOL_QUARANTINE_COUNT 0 < 4096 →
      (∀ e, e < s.dev.n Od.POOL_QUARANTINE_COUNT 0 → bits (s.dev.n Od.POOL_QUARANTINE_LIST 0 e) 19 0 ≠ c) →
      ∃ t, exec (.poolQuarantine c) s = .next t ∧ onlyWrites [Od.POOL_QUARANTINE_LIST.key 0 (s.dev.n Od.POOL_QUARANTINE_COUNT 0),
          Od.POOL_QUARANTINE_COUNT.key 0 0] { s with dev := { s.dev with freeCtr := s.dev.freeCtr + 1 } } t ∧
        t.dev.n Od.POOL_QUARANTINE_COUNT 0 = s.dev.n Od.POOL_QUARANTINE_COUNT 0 + 1 ∧
        t.dev.n Od.POOL_QUARANTINE_LIST 0 (s.dev.n Od.POOL_QUARANTINE_COUNT 0) = if s.dev.cellInUse c then 2 ^ 31 + c else c) ∧
    (∀ c, c < 1048576 → s.clk.c = 0 → s.dev.n Od.POOL_QUARANTINE_COUNT 0 = 1 → bits (s.dev.n Od.POOL_QUARANTINE_LIST 0 0) 19 0 = c →
      ∃ t, exec (.poolUnquarantine c) s = .next t ∧ outsideKept s t ∧ bare t.dev = bare s.dev ∧ t.dev.n Od.POOL_QUARANTINE_COUNT 0 = 0)

/-- At a boundary GATE.CONFIG_CHANGE on a port at full width, nothing pending anywhere, copies the administrative list with the change time of R346 and
marks it pending; a cancel before that time removes it; at the time the list becomes the operational one, entry by entry, no longer pending. A
stream gate's pending list becomes its list in force. (R346, R347, R348, R349) -/
def Obligations.GateListsChange : Prop :=
  ∀ (s : State), ready s = true →
    (∀ p, p < 1024 → s.clk.c = 0 → s.dev.gpend = [] → s.dev.portWidth p ≤ s.dev.n Od.PORT_ACTIVE_LANES p →
      ∃ t, exec (.gateConfigInstall p) s = .next t ∧ outsideKept s t ∧ t.dev.n Od.GATE_CONFIG_PENDING p = 1 ∧
        bare t.dev = bare { s.dev with gpend := [⟨false, p,
          changeTime (s.dev.adminList p) ((s.dev.viewSet (s.dev.adminList p).view).at s.clk.raw), s.dev.adminList p⟩] }) ∧
    (∀ p g, p < 1024 → s.clk.c = 0 → s.dev.gatePend false p = some g → (s.dev.viewSet g.list.view).at s.clk.raw < g.ct * 65536 →
      ∃ t, exec (.gateConfigCancel p) s = .next t ∧ outsideKept s t ∧ t.dev.n Od.GATE_CONFIG_PENDING p = 0 ∧
        bare t.dev = bare { s.dev with gpend := s.dev.gpend.filter fun x => !(!x.stream && x.unit == p) }) ∧
    (∀ p g, p < 1024 → s.dev.replaying = false → s.dev.gatePend false p = some g → g.ct ≠ 0 → g.list.entries.length ≤ 1024 →
      g.ct * 65536 ≤ s.dev.viewNow s.clk g.list.view + 70 * 65536 →
      ∃ t, exec (.gateListChange p) s = .next t ∧ outsideKept s t ∧ t.dev.n Od.GATE_CONFIG_PENDING p = 0 ∧
        t.dev.get Od.GATE_OPER_ENTRIES p = Od.GATE_OPER_ENTRIES.ty.norm (g.list.entries.length : Nat) ∧
        t.dev.get Od.GATE_OPER_CYCLE p = Od.GATE_OPER_CYCLE.ty.norm (g.list.cycle : Nat) ∧
        (∀ e x, g.list.entries[e]? = some x → t.dev.get Od.GATE_OPER_LIST p e = Od.GATE_OPER_LIST.ty.norm (x : Nat)) ∧
        bare t.dev = bare { s.dev with gpend := s.dev.gpend.filter fun x => !(!x.stream && x.unit == p) }) ∧
    (∀ u g, u < 256 → s.dev.replaying = false → s.dev.gatePend true u = some g → g.ct * 65536 ≤ s.dev.viewNow s.clk g.list.view →
      ∃ t, exec (.streamGateListChange u) s = .next t ∧ onlyWrites []
        { s with dev := { s.dev with gpend := s.dev.gpend.filter fun x => !(x.stream && x.unit == u),
                                      sgate := (s.dev.sgate.filter (·.1 != u)) ++ [(u, g.list)],
                                      sgateOld := (s.dev.sgateOld.filter (·.1 != u)) ++ [(u, g.ct, s.dev.streamOper u)] } } t ∧ t.dev.streamOper u = g.list)

/-- At a boundary, of a view that may be written: after TIME.VIEW.SET it reads at the boundary that opened the tick the time written with its sub-
nanosecond part; after a STEP by n it reads n units of 2⁻¹⁶ ns more; after an increment it reads there as before, runs at the new increment and is
TRACKING with the tick noted. A view due for holdover is in HOLDOVER. Only that view's parameters change. (R363, R366, R367, R369) -/
def Obligations.ViewsAreWritten : Prop :=
  ∀ (s : State) (v : Nat), ready s = true → v < 4 →
    (∀ x, s.clk.c = 0 → s.dev.timeBarred v = false → x / 2 ^ 48 < 1000000000 → x < 2 ^ 80 →
      ∃ t, exec (.timeViewSet v x) s = .next t ∧ outsideKept s t ∧
        (t.dev.viewSet v).at s.clk.raw = (time80Ns x * 65536 + s.dev.n Od.TIME_VIEW_SET_SUB v) % viewCircle ∧
        (∀ w, w ≠ v → t.dev.viewSets w = s.dev.viewSets w)) ∧
    (∀ n : Int, n ≠ 0 → fits64 n = true → s.clk.c = 0 → s.dev.timeBarred v = false →
      ∃ t, exec (.timeViewStep v n) s = .next t ∧ outsideKept s t ∧
        (((t.dev.viewSet v).at s.clk.raw : Int) - ((s.dev.viewSet v).at s.clk.raw : Int) - n) % (viewCircle : Int) = 0 ∧
        (∀ w, w ≠ v → t.dev.viewSets w = s.dev.viewSets w)) ∧
    (∀ n, s.clk.c = 0 → s.dev.timeBarred v = false → incOk n = true →
      ∃ t, exec (.timeViewIncrement v n) s = .next t ∧ outsideKept s t ∧ (t.dev.viewSet v).inc = n ∧
        (t.dev.viewSet v).at s.clk.raw = (s.dev.viewSet v).at s.clk.raw ∧ t.dev.n Od.TIME_VIEW_STATE v = 1 ∧
        t.dev.n Od.TIME_VIEW_INCREMENT v = n ∧ (∀ w, w ≠ v → t.dev.viewSets w = s.dev.viewSets w)) ∧
    (s.dev.holdoverDue s.clk v = true →
      ∃ t, exec (.holdoverEntry v) s = .next t ∧ outsideKept s t ∧ t.dev.n Od.TIME_VIEW_STATE v = 2 ∧
        (s.dev.n Od.TIME_VIEW_HOLDOVER_INCREMENT v = 0 → t.dev.views = s.dev.views) ∧
        (s.dev.n Od.TIME_VIEW_HOLDOVER_INCREMENT v ≠ 0 → (t.dev.viewSet v).inc = s.dev.n Od.TIME_VIEW_HOLDOVER_INCREMENT v))

/-- An offset of reference A, once enabled, written at a boundary, is its latest with the tick and calls for a vote. An edge of reference B is measured
at once, or waits for its label where a pin is in TOD_IN; a right label from that pin within 990 ms measures it from the second it names, and the
wait running out measures it unlabelled, while reference B is enabled. A bad message is counted. A vote that is called for sets the outcome of R374
from the references that count. TIME.VOTE.RELEASE at a boundary clears FROZEN. (R372, R373, R374, R375, R376) -/
def Obligations.ReferencesAndVotes : Prop :=
  ∀ (s : State), ready s = true →
    (∀ off : Int, -(2 ^ 63) ≤ off → off < 2 ^ 63 → s.clk.c = 0 → s.dev.on Od.TIME_REF_A_ENABLE 0 = true →
      ∃ t, exec (.refAWrite off) s = .next t ∧
        onlyWrites [Od.TIME_REF_LAST.key 0 0, Od.TIME_REF_LAST_TICK.key 0 0, Rg.VOTE_NEW.key 0 0, Rg.VOTE_NEW.key 0 1] s t ∧
        t.dev.get Od.TIME_REF_LAST 0 0 = off ∧ t.dev.n Rg.VOTE_NEW 0 = s.clk.tick + 1) ∧
    (∀ pin sub, 1 ≤ pin → pin ≤ 8 → sub < 64 → s.dev.on Od.TIME_REF_B_ENABLE 0 = true → s.dev.n Od.TIME_REF_B_SOURCE 0 = pin →
      s.dev.n Od.TIO_MODE (pin - 1) = 3 → s.dev.n Od.TIME_REF_B_EDGE 0 = 0 → s.dev.n Od.TIME_VOTE_VIEW 0 < 4 →
      ∃ t, exec (.refBEdge pin true sub) s = .next t ∧ outsideKept s t ∧ bare t.dev = bare s.dev ∧
        (s.dev.todPin = none → t.dev.n Rg.VOTE_NEW 0 = s.clk.tick + 1 ∧ t.dev.get Od.TIME_REF_LAST_TICK 0 1 = Od.TIME_REF_LAST_TICK.ty.norm (s.clk.tick : Nat)) ∧
        (s.dev.todPin.isSome = true → t.dev.n Rg.EDGE_RAW 0 = (s.clk.now + sub) % 2 ^ 72 + 1)) ∧
    (s.dev.n Rg.EDGE_RAW 0 ≠ 0 → labelWait ≤ (s.clk.now + 2 ^ 72 - (s.dev.n Rg.EDGE_RAW 0 - 1)) % 2 ^ 72 →
      ∃ t, exec .refBLabelTimeout s = .next t ∧ outsideKept s t ∧ bare t.dev = bare s.dev ∧ t.dev.n Rg.EDGE_RAW 0 = 0 ∧
        (s.dev.on Od.TIME_REF_B_ENABLE 0 = true → t.dev.n Rg.VOTE_NEW 0 = s.clk.tick + 1)) ∧
    (∀ pin (bs : List Byte), pin < 8 → s.dev.n Od.TIO_MODE pin = 4 →
      (bs.length ≠ 16 → ∃ t, exec (.todInMessage pin bs) s = .next t ∧ onlyWrites [Od.TIO_TOD_BAD.key pin 0] s t) ∧
      (bs.length = 16 → bs.take 2 = [0xA7, 0x3C] → (bs.getD 2 0).toNat / 16 = 1 → crc16 (sliceZ bs 0 14) = be16 bs 14 → s.dev.todPin = some pin →
        s.dev.n Rg.EDGE_RAW 0 ≠ 0 → (s.clk.now + 2 ^ 72 - (s.dev.n Rg.EDGE_RAW 0 - 1)) % 2 ^ 72 ≤ labelWait →
        ∃ t, exec (.todInMessage pin bs) s = .next t ∧ outsideKept s t ∧ bare t.dev = bare s.dev ∧ t.dev.n Rg.EDGE_RAW 0 = 0 ∧
          (s.dev.on Od.TIME_REF_B_ENABLE 0 = true → t.dev.get Od.TIME_REF_LAST 0 1 = Od.TIME_REF_LAST.ty.norm ((ofBytesBE (sliceZ bs 4 6) : Int) * secU +
            s.dev.get Od.TIME_REF_B_DELAY 0 - s.dev.n Rg.EDGE_VIEW 0)))) ∧
    (s.dev.n Rg.VOTE_NEW 0 = s.clk.tick ∨ s.dev.n Rg.VOTE_NEW 0 1 = s.clk.tick → s.clk.tick ≠ 0 → s.dev.n Rg.VOTE_TICK 0 ≠ s.clk.tick + 1 →
      ∃ t, exec .referenceVote s = .next t ∧ outsideKept s t ∧ t.dev.n Od.TIME_VOTE_OUTCOME 0 = s.dev.voteOutcome (s.dev.voters s.clk) ∧
        t.dev.n Rg.VOTE_TICK 0 = s.clk.tick + 1 ∧ t.dev.views = s.dev.views) ∧
    (s.clk.c = 0 → ∃ t, exec .voteRelease s = .next t ∧ onlyWrites [Od.TIME_VOTE_FROZEN.key 0 0] s t ∧ t.dev.n Od.TIME_VOTE_FROZEN 0 = 0)

/-- A pin that is not muted, in mode PPS_OUT or TOD_OUT, sends its pulse or message for the second its view reaches in this clock, and nothing else
changes. An edge of a pin in mode EVENT_IN, far enough from its last and with room in its FIFO, joins the FIFO with its raw stamp. A read of
TIO.EVENT.NEXT answers the oldest entry and removes it. (R380, R381, R382, R383) -/
def Obligations.TimePins : Prop :=
  ∀ (s : State) (pin : Nat), ready s = true → pin < 8 →
    (∀ x, s.dev.n Od.TIO_MODE pin = 1 → s.dev.muted pin = false →
      s.dev.secondReached s.clk (s.dev.n Od.TIO_VIEW pin) (s.dev.get Od.TIO_OUT_DELAY pin) = some x →
      ∃ t, exec (.ppsOutPulse pin) s = .next t ∧ onlyWrites [] s t ∧
        t.dev.out = [{ kind := .pin, unit := pin, vals := [1, x, s.dev.n Od.TIO_PULSE_WIDTH pin] }]) ∧
    (∀ x, s.dev.n Od.TIO_MODE pin = 2 → s.dev.muted pin = false →
      s.dev.secondReached s.clk (s.dev.n Od.TIO_VIEW pin) (-(10000000 * 65536)) = some x →
      ∃ t, exec (.todOutMessage pin) s = .next t ∧ onlyWrites [] s t ∧
        t.dev.out = [{ kind := .pin, unit := pin, vals := [2, x], bytes := s.dev.todMessage pin x }]) ∧
    (∀ sub, sub < 64 → s.dev.n Od.TIO_MODE pin = 5 → s.dev.n Od.TIO_EDGE pin = 2 → s.dev.n Rg.TIO_LAST pin = 0 → (s.dev.tioFifo pin).length < 64 →
      ∃ (t : State) (w : List Nat), exec (.tioEventEdge pin true sub) s = .next t ∧ outsideKept s t ∧
        bare t.dev = bare { s.dev with tio := s.dev.tio ++ [(pin, w)] } ∧ w.length = 4 ∧ w.head? = some ((s.clk.now + sub) % 2 ^ 72 % 2 ^ 64) ∧
        t.dev.n Rg.TIO_LAST pin = (s.clk.now + sub) % 2 ^ 72 + 1 ∧ t.dev.n Od.TIO_EVENT_COUNT pin = (s.dev.tioFifo pin).length + 1) ∧
    (∀ e l, s.dev.tioFifo pin = e :: l → l.length < 256 →
      ∃ t, exec (.tioEventNext pin) s = .next t ∧ outsideKept s t ∧ bare t.dev = bare { s.dev with tio := s.dev.tio.erase e } ∧
        t.dev.n Od.TIO_EVENT_COUNT pin = l.length ∧
        t.dev.out = [{ kind := .response, unit := pin, vals := e.2, bytes := e.2.flatMap (bytesLE 8) }])

/-- A read of STAMP.CAPTURE.NEXT answers the oldest record and removes it. WATCH.CLEAR at a boundary returns every result of its stream to zero and,
where no period of it is unreported, leaves all else as it was. A report that falls due with neither late frames nor gaps nor a deviation closes the
period without a record. A recovery function whose timer has run out is reset, counted. (R399, R408, R409, R234) -/
def Obligations.StampsAndWatches : Prop :=
  ∀ (s : State), ready s = true →
    (∀ r l, s.dev.capFifo = r :: l → l.length < 65536 →
      ∃ t, exec .captureNext s = .next t ∧ outsideKept s t ∧ bare t.dev = bare { s.dev with capFifo := l } ∧
        t.dev.n Od.STAMP_CAPTURE_COUNT 0 = l.length ∧ t.dev.out = [{ kind := .response, vals := [0x6800], bytes := r }]) ∧
    (∀ x, x < 65536 → s.clk.c = 0 →
      ∃ t, exec (.watchClear x) s = .next t ∧ outsideKept s t ∧
        (∀ e, e < 65536 → t.dev.get Od.WATCH_HIST x e = 0 ∧ t.dev.n Rg.W_PERIOD x e = 0) ∧ t.dev.get Od.WATCH_FRAMES x = 0 ∧
        (s.dev.n Od.WATCH_REPORT_PERIOD x = 0 ∨ s.dev.n Rg.W_PERIOD x 7 = 0 → bare t.dev = bare s.dev ∧
          ∀ (o : Obj) (i e : Nat), i < 65536 → e < 65536 → i ≠ x → t.dev.get o i e = s.dev.get o i e)) ∧
    (∀ x, x < 65536 → s.dev.replaying = false → s.dev.n Od.WATCH_REPORT_PERIOD x ≠ 0 → s.dev.n Rg.W_PERIOD x 7 ≠ 0 →
      (s.dev.n Rg.W_PERIOD x 7 - 1) / s.dev.n Od.WATCH_REPORT_PERIOD x ≠ s.clk.tick / s.dev.n Od.WATCH_REPORT_PERIOD x →
      s.dev.on Od.WATCH_ENABLE x = true → s.dev.get Rg.W_PERIOD x 1 = 0 → s.dev.get Rg.W_PERIOD x 2 = 0 → s.dev.on Od.WATCH_RECORD_ABOVE x = false →
      ∃ t, exec (.watchReport x) s = .next t ∧ outsideKept s t ∧ bare t.dev = bare s.dev ∧ ∀ e, e < 65536 → t.dev.n Rg.W_PERIOD x e = 0) ∧
    (∀ x, x < 65536 → s.dev.n Rg.FRER_TIMER x = 1 → s.dev.on Od.FRER_REC_ENABLE x = true →
      ∃ t, exec (.frerResetTimer x) s = .next t ∧ outsideKept s t ∧ t.dev.n Rg.FRER_TIMER x = 0 ∧
        t.dev.n Od.FRER_REC_RESETS x = satAdd Od.FRER_REC_RESETS.ty.top (s.dev.n Od.FRER_REC_RESETS x) 1)

/-- A message by a trunk or a relay, its term not below MAT.TERM, to a device of the mat. HEARTBEAT: the path is alive and its tick noted; one from a
master makes its sender the master. LEASE_REQUEST from a candidate that a voter may grant is collected. LEASE_GRANT of the own request adds its
voter, and enough of them give the lease at the next boundary; LEASE_REFUSE is noted. TABLE_UPDATE, of 1 to 16 records, gathers with its sender, and
as the clock ends a record of the master at a member joins those to apply; TABLE_ACK from the master ends the resending of what it acknowledges.
(R427, R428, R430, R432, R433, R434, R441) -/
def Obligations.MatMessages : Prop :=
  ∀ (s : State) (path : Nat) (bs : List Byte), ready s = true →
    (matComes s 1 path bs → s.dev.matOwn = [] → (s.dev.n Od.MAT_STATE 0 = 2 ∨ s.dev.n Od.MAT_STATE 0 = 3 ∨ s.dev.n Od.MAT_STATE 0 = 4) →
      ∃ t, exec (.heartbeat path bs) s = .next t ∧ outsideKept s t ∧ bare t.dev = bare s.dev ∧
        t.dev.n Rg.MAT_HEARD (matFrom bs) path = s.clk.tick + 1 ∧ bit (t.dev.n Od.MAT_REACH 0 (matFrom bs)) path = true ∧
        t.dev.n Od.MAT_TERM 0 = ofBytesBE (sliceZ bs 4 8) ∧
        ((bs.getD 24 0).toNat = 4 → t.dev.n Od.MAT_MASTER 0 = matFrom bs ∧ t.dev.n Rg.MASTER_SEEN 0 = s.clk.tick + 1)) ∧
    (matComes s 2 path bs → s.dev.votes = true → bit (s.dev.n Od.MAT_CANDIDATES 0) (matFrom bs) = true → (bs.getD 32 0).toNat ≠ 1 →
      s.dev.n Rg.V_TERM 0 < ofBytesBE (sliceZ (bs.drop 24) 0 8) → s.dev.n Rg.V_END 0 ≤ s.clk.tick → s.dev.matReqs = [] →
      ∃ t, exec (.leaseRequest path bs) s = .next t ∧ outsideKept s t ∧
        bare t.dev = bare { s.dev with matReqs := [{ dev := matFrom bs, term := ofBytesBE (sliceZ (bs.drop 24) 0 8) }] } ∧
        t.dev.n Rg.V_COLLECT 0 = s.clk.tick + 1) ∧
    (matComes s 3 path bs → s.dev.n Rg.O_TERM 0 ≠ 0 → ofBytesBE (sliceZ (bs.drop 24) 0 8) = s.dev.n Rg.O_TERM 0 → (bs.getD 32 0).toNat = s.dev.me →
      ∃ t, exec (.leaseGrant path bs) s = .next t ∧ outsideKept s t ∧ t.dev.n Rg.O_GRANTS 0 = setBit (s.dev.n Rg.O_GRANTS 0) (matFrom bs) ∧
        (t.dev.leaseWon = true → Due.leaseHeld ∈ t.dev.dues) ∧
        ∀ (o : Obj) (i e : Nat), o.key i e ∉ Rg.O_GRANTS.key 0 0 :: matKeys bs → t.dev.get o i e = s.dev.get o i e) ∧
    (matComes s 4 path bs → s.dev.n Rg.O_TERM 0 ≠ 0 → ofBytesBE (sliceZ (bs.drop 24) 0 8) = s.dev.n Rg.O_TERM 0 →
      ∃ t, exec (.leaseRefuse path bs) s = .next t ∧ onlyWrites (Rg.O_REFUSED.key 0 0 :: matKeys bs) s t ∧
        t.dev.n Rg.O_REFUSED 0 = setBit (s.dev.n Rg.O_REFUSED 0) (matFrom bs)) ∧
    (∀ n, matComes s 5 path bs → (bs.getD 24 0).toNat = n → 0 < n → n ≤ 16 →
      ∃ t, exec (.tableUpdate path bs) s = .next t ∧ onlyWrites (matKeys bs) { s with dev := { s.dev with
        now := { s.dev.now with upds := s.dev.now.upds ++ (updatesOf n (bs.drop 28)).map fun u => (matFrom bs, u) } } } t) ∧
    (∀ m u, s.dev.now.upds = [(m, u)] → s.dev.n Od.MAT_STATE 0 = 2 → s.dev.n Od.MAT_MASTER 0 = m → s.dev.matShadow = [] →
      s.dev.updJoin s.clk = { s.dev with matApply := s.dev.matApply ++ [u]
                                         matOwn := s.dev.matOwn.filter fun v => !(u.origin == s.dev.me && v.num == u.num) }) ∧
    (matComes s 6 path bs → s.dev.n Od.MAT_MASTER 0 = matFrom bs → s.dev.me < 8 →
      ∃ t, exec (.tableAck path bs) s = .next t ∧ onlyWrites (matKeys bs) { s with dev := { s.dev with
        matOwn := s.dev.matOwn.filter fun u => decide (ofBytesBE (sliceZ (bs.drop 24) (4 * s.dev.me) 4) < u.num) } } t)

/-- At a standby that checks, a SIGNATURE equal to its own returns its run of mismatches to 0 and begins a new period; a RESYNC_REQUEST to a master
without learned entries is answered by one message, sent or waiting at its MAC; RESYNC_DONE to a JOINING device takes effect at the next boundary;
MAT.REJOIN at a boundary, of a device that is not isolated, clears UNFIT. A removal of a key the table lacks, and a record for a static entry
(refused, counted), change no entry; each is noted as applied and takes two learning slots of its bank. No stored word is in error. (R439, R442,
R444) -/
def Obligations.MatSelfChecks : Prop :=
  ∀ (s : State) (path : Nat) (bs : List Byte), ready s = true → plainWords s.dev = true →
    (matComes s 7 path bs → s.dev.n Od.MAT_STATE 0 = 3 → s.dev.n Od.MAT_CHECK_SAMPLE 0 ≠ 0 → s.dev.n Od.MAT_CHECK_STATE 0 ≠ 1 →
      ofBytesBE (sliceZ (bs.drop 24) 12 4) = s.dev.n Rg.SIG_CRC 0 ^^^ 0xFFFFFFFF →
      ∃ t, exec (.signature path bs) s = .next t ∧
        onlyWrites ([Rg.SIG_RUN.key 0 0, Rg.SIG_COUNT.key 0 0, Rg.SIG_CRC.key 0 0, Rg.SIG_FIRST.key 0 0] ++ matKeys bs) s t ∧
        t.dev.n Rg.SIG_RUN 0 = 0 ∧ t.dev.n Rg.SIG_COUNT 0 = 0 ∧ t.dev.n Rg.SIG_CRC 0 = 0xFFFFFFFF ∧ t.dev.n Rg.SIG_FIRST 0 = s.clk.tick) ∧
    (matComes s 8 path bs → s.dev.n Od.MAT_STATE 0 = 4 → s.dev.em = [] →
      ∃ t, exec (.resyncRequest path bs) s = .next t ∧ outsideKept s t ∧ t.dev.out.length + t.dev.ctl.length = s.dev.ctl.length + 1 ∧ t.dev.em = s.dev.em) ∧
    (matComes s 9 path bs → s.dev.n Od.MAT_STATE 0 = 1 →
      ∃ t, exec (.resyncDone path bs) s = .next t ∧ writesAndWaits (matKeys bs) .resynced s t) ∧
    (s.clk.c = 0 → s.dev.on Od.FAULT_ISOLATED 0 = false →
      ∃ t, exec .matRejoin s = .next t ∧ outsideKept s t ∧ bare t.dev = bare s.dev ∧ t.dev.n Od.MAT_CHECK_STATE 0 = 0 ∧ t.dev.n Rg.SIG_RUN 0 = 0) ∧
    (∀ u l b, s.dev.matApply = u :: l → u.origin < 8 → s.dev.isolated = false → s.dev.emBase u.key / 16384 = b →
      s.dev.n Rg.LEARN_SPENT b + 2 ≤ s.dev.emGrant s.clk 1 → s.dev.n Rg.EM_SERVED b < 2 →
      (u.op = 2 → s.dev.emWay u.key = none →
        ∃ t, exec .syncRecordApply s = .next t ∧ outsideKept s t ∧ t.dev.matApply = l ∧
          t.dev.n Rg.UPD_DONE u.origin = max u.num (s.dev.n Rg.UPD_DONE u.origin) ∧ t.dev.n Rg.LEARN_SPENT b = s.dev.n Rg.LEARN_SPENT b + 2 ∧ t.dev.em = s.dev.em ∧ t.dev.emPend = s.dev.emPend) ∧
      (∀ p, u.op = 1 → s.dev.emWay u.key = some p → bit (s.dev.emKey p) 60 = true →
        ∃ t, exec .syncRecordApply s = .next t ∧ outsideKept s t ∧ t.dev.matApply = l ∧
          t.dev.n Rg.UPD_DONE u.origin = max u.num (s.dev.n Rg.UPD_DONE u.origin) ∧ t.dev.emPend = s.dev.emPend ∧
          t.dev.n Od.MAT_SYNC_REFUSED_STATIC 0 = satAdd Od.MAT_SYNC_REFUSED_STATIC.ty.top (s.dev.n Od.MAT_SYNC_REFUSED_STATIC 0) 1))

/-- MAT.ENABLE of a member at a boundary starts it JOINING, or isolated. A heartbeat that is due goes at least to every other member and the witness. A
path without heartbeats for the timeout is lost, and with the last path of the master the master; where the lost member has no lease, nothing
isolates. A collection that ends with one request grants it, by one message, sent or waiting at its MAC. A signature that is due begins a new
period. A time request that was not answered counts as lost. No stored word is in error. (R415, R429, R430, R433, R444, R445) -/
def Obligations.MatTimers : Prop :=
  ∀ (s : State), ready s = true → plainWords s.dev = true →
    (s.clk.c = 0 → bit (s.dev.n Od.MAT_MEMBERS 0) s.dev.me = true → s.dev.on Od.MAT_ENABLE 0 = false →
      ∃ t, exec .matEnable s = .next t ∧ outsideKept s t ∧ bare t.dev = bare s.dev ∧ t.dev.n Od.MAT_ENABLE 0 = 1 ∧
        t.dev.n Od.MAT_STATE 0 = (if s.dev.on Od.FAULT_ISOLATED 0 then 5 else 1) ∧ t.dev.n Rg.MASTER_SEEN 0 = s.clk.tick + 1) ∧
    (s.dev.n Od.MAT_STATE 0 ≠ 0 → s.dev.n Rg.HB_SENT 0 = 0 ∨ s.dev.n Rg.HB_SENT 0 - 1 + s.dev.n Od.MAT_HEARTBEAT_INTERVAL 0 ≤ s.clk.tick →
      ∃ t, exec .heartbeatSend s = .next t ∧ outsideKept s t ∧ t.dev.n Rg.HB_SENT 0 = s.clk.tick + 1 ∧
        s.dev.others.length + 1 ≤ t.dev.out.length) ∧
    (∀ m path, m < 8 → path < 3 → bit (s.dev.n Od.MAT_REACH 0 m) path = true →
      s.dev.n Rg.MAT_HEARD m path - 1 + s.dev.n Od.MAT_HEARTBEAT_TIMEOUT 0 ≤ s.clk.tick → s.dev.n Rg.V_GRANTEE 0 ≠ m + 1 →
      ∃ t, exec (.heartbeatTimeout m path) s = .next t ∧ outsideKept s t ∧ bare t.dev = bare s.dev ∧
        bit (t.dev.n Od.MAT_REACH 0 m) path = false ∧
        (t.dev.n Od.MAT_REACH 0 m = 0 → s.dev.n Od.MAT_MASTER 0 = m → t.dev.n Od.MAT_MASTER 0 = 0xFF)) ∧
    (∀ x term, s.dev.n Rg.V_COLLECT 0 ≠ 0 → s.dev.n Rg.V_COLLECT 0 - 1 + s.dev.n Od.MAT_LEASE_COLLECT 0 ≤ s.clk.tick → x < 8 →
      s.dev.matReqs = [{ dev := x, term := term }] →
      ∃ t, exec .leaseCollectEnd s = .next t ∧ outsideKept s t ∧ bare t.dev = bare { s.dev with matReqs := [], ctl := t.dev.ctl } ∧ t.dev.n Rg.V_COLLECT 0 = 0 ∧
        t.dev.n Rg.V_TERM 0 = term ∧ t.dev.n Rg.V_GRANTEE 0 = x + 1 ∧ t.dev.n Rg.V_END 0 = s.clk.tick + s.dev.n Od.MAT_LEASE_DURATION 0 ∧
        t.dev.n Od.MAT_LAST_HOLDER 0 = x ∧ t.dev.out.length + t.dev.ctl.length = s.dev.ctl.length + 1) ∧
    (s.dev.n Od.MAT_STATE 0 = 4 → s.dev.n Od.MAT_CHECK_SAMPLE 0 ≠ 0 → s.dev.n Rg.SIG_FIRST 0 + 2000000 ≤ s.clk.tick →
      ∃ t, exec .signatureSend s = .next t ∧ outsideKept s t ∧ bare t.dev = bare { s.dev with ctl := t.dev.ctl } ∧ t.dev.n Rg.SIG_FIRST 0 = s.clk.tick ∧
        t.dev.n Rg.SIG_COUNT 0 = 0 ∧ t.dev.n Rg.SIG_CRC 0 = 0xFFFFFFFF) ∧
    (s.dev.on Rg.TQ_SEQ 0 = true → s.dev.n Rg.TIME_SENT 0 - 1 + s.dev.n Od.MAT_TIME_INTERVAL 0 ≤ s.clk.tick →
      ∃ t, exec .timeRespTimeout s = .next t ∧ onlyWrites [Rg.TQ_SEQ.key 0 0, Od.MAT_TIME_LOST.key 0 0] s t ∧ t.dev.n Rg.TQ_SEQ 0 = 0 ∧
        t.dev.n Od.MAT_TIME_LOST 0 = satAdd Od.MAT_TIME_LOST.ty.top (s.dev.n Od.MAT_TIME_LOST 0) 1)

/-- The master asks to renew the term it holds when its renewal is due; the standby claims the next term once the lease it knows is over by the guard
and the master renews it no more; a masterless candidate without a standby claims it too, and one that is no candidate isolates; a claim without
enough grants is made again with the next term. A master whose lease has run out is isolated, counted, a fault of its mat. No stored word is in
error. (R431, R434, R435, R437, R632) -/
def Obligations.LeaseAsked : Prop :=
  ∀ (s : State), ready s = true → plainWords s.dev = true →
    (s.dev.n Od.MAT_STATE 0 = 4 → s.dev.n Rg.RENEW_SENT 0 - 1 + s.dev.n Od.MAT_LEASE_RENEW 0 ≤ s.clk.tick →
      ∃ t, exec .leaseRenewalSend s = .next t ∧ outsideKept s t ∧ asksLease t (s.dev.n Rg.H_TERM 0) s.clk.tick 0 ∧
        t.dev.n Rg.RENEW_SENT 0 = s.clk.tick + 1) ∧
    (s.dev.n Od.MAT_STATE 0 = 3 → s.dev.claiming = false → s.dev.renewing s.clk = false →
      s.dev.n Rg.V_END 0 + s.dev.n Od.MAT_LEASE_GUARD 0 ≤ s.clk.tick →
      ∃ t, exec .leaseClaim s = .next t ∧ outsideKept s t ∧ asksLease t (s.dev.n Od.MAT_TERM 0 + 1) s.clk.tick 1) ∧
    ((s.dev.n Od.MAT_STATE 0 = 1 ∨ s.dev.n Od.MAT_STATE 0 = 2) → s.dev.claiming = false →
      s.dev.n Rg.MASTER_SEEN 0 - 1 + (s.dev.n Od.MAT_LEASE_DURATION 0 + s.dev.n Od.MAT_LEASE_GUARD 0) ≤ s.clk.tick →
      (bit (s.dev.n Od.MAT_CANDIDATES 0) s.dev.me = true →
        s.dev.n Rg.STANDBY_SEEN 0 - 1 + (s.dev.n Od.MAT_LEASE_DURATION 0 + s.dev.n Od.MAT_LEASE_GUARD 0) ≤ s.clk.tick →
        ∃ t, exec .masterlessTimeout s = .next t ∧ outsideKept s t ∧ asksLease t (s.dev.n Od.MAT_TERM 0 + 1) s.clk.tick 1) ∧
      (bit (s.dev.n Od.MAT_CANDIDATES 0) s.dev.me = false → s.dev.on Od.FAULT_ISOLATED 0 = false →
        ∃ t, exec .masterlessTimeout s = .next t ∧ outsideKept s t ∧ t.dev.n Od.FAULT_ISOLATED 0 = 1 ∧ t.dev.n Od.FAULT_CAUSE 0 = 6)) ∧
    (s.dev.claiming = true → s.dev.leaseWon = false → s.dev.isolated = false → s.dev.renewing s.clk = false →
      s.dev.n Rg.O_TICK 0 + 2 * s.dev.n Od.MAT_LEASE_COLLECT 0 + 1000 * s.dev.me ≤ s.clk.tick →
      ∃ t, exec .claimRetry s = .next t ∧ outsideKept s t ∧ asksLease t (s.dev.n Od.MAT_TERM 0 + 1) s.clk.tick 1) ∧
    (s.dev.n Od.MAT_STATE 0 = 4 → s.dev.n Rg.H_END 0 ≤ s.clk.tick → s.dev.on Od.FAULT_ISOLATED 0 = false →
      ∃ t, exec .leaseEnd s = .next t ∧ outsideKept s t ∧ t.dev.n Od.FAULT_ISOLATED 0 = 1 ∧
        t.dev.n Od.MAT_LEASE_LOST 0 = satAdd Od.MAT_LEASE_LOST.ty.top (s.dev.n Od.MAT_LEASE_LOST 0) 1 ∧
        t.dev.now.faults = s.dev.now.faults ++ [(13, 8, 0)])

/-- A member whose request is due and that has a trunk to its master sends one TIME_REQ of 82 bytes and notes its number, where no changeover holds the
port. A TIME_REQ on a trunk port in service, outside maintenance, is counted with its 82 bytes, in the load and window too, and by the master
answered by one frame. A TIME_RESP of the number outstanding, with reference C enabled and the device neither master nor isolated, ends the request
and calls for a vote. No stored word is in error. (R372, R445) -/
def Obligations.MatTime : Prop :=
  ∀ (s : State), ready s = true → plainWords s.dev = true →
    (∀ p, s.dev.n Od.MAT_MASTER 0 < 8 → s.dev.n Od.MAT_MASTER 0 ≠ s.dev.me → s.dev.n Od.MAT_STATE 0 = 2 →
      s.dev.n Rg.TIME_SENT 0 = 0 ∨ s.dev.n Rg.TIME_SENT 0 - 1 + s.dev.n Od.MAT_TIME_INTERVAL 0 ≤ s.clk.tick → s.dev.trunkLow (s.dev.n Od.MAT_MASTER 0) = some p →
      s.dev.n Rg.MAT_SEQ 0 < 2 ^ 32 - 1 → s.dev.n Rg.CHG_PHASE p ≠ 3 →
      ∃ t, exec .timeReqSend s = .next t ∧ outsideKept s t ∧ t.dev.n Rg.TQ_SEQ 0 = s.dev.n Rg.MAT_SEQ 0 + 2 ∧ t.dev.n Rg.TIME_SENT 0 = s.clk.tick + 1 ∧
        t.dev.out.length = 1 ∧ countedPair Od.PORT_TX_GOOD p 82 s t) ∧
    (∀ p seq sub, p < 1024 → sub < 64 → s.dev.matMode p = true → s.dev.inService p = true → s.dev.maint = false →
      (s.dev.n Od.MAT_STATE 0 ≠ 4 →
        ∃ t, exec (.timeReq p seq sub) s = .next t ∧ onlyWrites [Od.PORT_RX_GOOD.key p 0, Od.PORT_RX_GOOD.key p 1,
          Rg.SHED_RX.key p 0, Rg.RESTORE_RX.key p 0, Rg.WIN.key p 0, Rg.WIN.key p 1] s t ∧ countedPair Od.PORT_RX_GOOD p 82 s t) ∧
      (s.dev.n Od.MAT_STATE 0 = 4 → s.dev.n Od.MAT_VIEW 0 < 4 → s.dev.n Rg.CHG_PHASE p ≠ 3 →
        ∃ t, exec (.timeReq p seq sub) s = .next t ∧ outsideKept s t ∧ t.dev.out.length = 1 ∧ countedPair Od.PORT_RX_GOOD p 82 s t) ∧
      (∀ t2 t3, s.dev.n Rg.TQ_SEQ 0 = seq + 1 → s.dev.n Od.TIME_VOTE_VIEW 0 < 4 → s.dev.isolated = false → s.dev.n Od.MAT_STATE 0 ≠ 4 → s.dev.on Od.TIME_REF_C_ENABLE 0 = true →
        ∃ t, exec (.timeResp p seq t2 t3 sub) s = .next t ∧ outsideKept s t ∧ bare t.dev = bare s.dev ∧ t.dev.n Rg.TQ_SEQ 0 = 0 ∧
          t.dev.n Rg.VOTE_NEW 0 = s.clk.tick + 1))

/-- The batch's next record, its key and result admitted and its bank with slots left, no stored word in error: INSERT of a key that its readable bucket
lacks changes the lowest free way; DELETE of a key removes its entry; REPLACE changes it in place; READ changes nothing; DELETE, READ and REPLACE of
a key that a readable bucket lacks complete NOT_FOUND. Changes wait for the next tick. A SEARCH or FLUSH that has visited every bank completes. A
batch whose records are done ends once its changes are visible. (R188, R192, R200, R201, R202, R204) -/
def Obligations.TableBatches : Prop :=
  ∀ (s : State) (i : Nat), ready s = true → plainWords s.dev = true →
    (∀ key res p, key = recKey (s.dev.batchRec i) → res = recResult (s.dev.batchRec i) → keyOk key = true → resultOk res = true →
      recAt (s.dev.batchRec i) = false →
      (recordNext s 1 i (s.dev.emBase key / 16384) 2 → s.dev.emWay key = none → s.dev.emBucketBad key = false →
        (ways (s.dev.emBase key)).find? s.dev.emFree = some p →
        ∃ t, exec .emInsert s = .next t ∧ recordDone i 1 s t ∧
          t.dev.emPend = s.dev.emPend ++ [{ pos := p, key := setBit key 63, result := res / 2 ^ 17 * 2 ^ 17 }]) ∧
      (recordNext s 2 i (s.dev.emBase key / 16384) 2 →
        (s.dev.emWay key = some p →
          ∃ t, exec .emDelete s = .next t ∧ recordDone i 1 s t ∧ t.dev.emPend = s.dev.emPend ++ [{ pos := p, key := 0, result := 0 }]) ∧
        (s.dev.emWay key = none → s.dev.emBucketBad key = false →
          ∃ t, exec .emDelete s = .next t ∧ recordDone i 2 s t ∧ t.dev.emPend = s.dev.emPend)) ∧
      (recordNext s 3 i (s.dev.emBase key / 16384) 1 →
        (s.dev.emWay key = some p →
          ∃ t, exec .emRead s = .next t ∧ recordDone i 1 s t ∧ t.dev.emPend = s.dev.emPend ∧ t.dev.n Od.EM_CMD_BATCH 0 (48 * i + 36) = p % 256) ∧
        (s.dev.emWay key = none → s.dev.emBucketBad key = false →
          ∃ t, exec .emRead s = .next t ∧ recordDone i 2 s t ∧ t.dev.emPend = s.dev.emPend)) ∧
      (recordNext s 4 i (s.dev.emBase key / 16384) 2 →
        (s.dev.emWay key = some p →
          ∃ t, exec .emReplace s = .next t ∧ recordDone i 1 s t ∧ t.dev.emPend = s.dev.emPend ++ 
            [⟨p, if bit key 60 then setBit (s.dev.emKey p) 60 else clearBit (s.dev.emKey p) 60, res / 2 ^ 17 * 2 ^ 17, 2, 0, []⟩]) ∧
        (s.dev.emWay key = none → s.dev.emBucketBad key = false →
          ∃ t, exec .emReplace s = .next t ∧ recordDone i 2 s t ∧ t.dev.emPend = s.dev.emPend))) ∧
    ((∀ b, b < 256 → s.dev.n Rg.EM_SCAN b = 2048) →
      (recordNext s 5 i 0 0 → scanBad (recKey (s.dev.batchRec i)) (recResult (s.dev.batchRec i)) (recPos (s.dev.batchRec i)) = false →
        (s.dev.n Rg.EM_BEST 0 = 0 → ∃ t, exec .emSearch s = .next t ∧ recordDone i 2 s t ∧ t.dev.emPend = s.dev.emPend) ∧
        (∀ p, s.dev.n Rg.EM_BEST 0 = p + 1 →
          ∃ t, exec .emSearch s = .next t ∧ recordDone i 1 s t ∧ t.dev.emPend = s.dev.emPend ∧ t.dev.n Od.EM_CMD_BATCH 0 (48 * i + 36) = p % 256)) ∧
      (recordNext s 6 i 0 0 → scanBad (recKey (s.dev.batchRec i)) (recResult (s.dev.batchRec i)) 0 = false →
        ∃ t, exec .emFlush s = .next t ∧ recordDone i 1 s t ∧ t.dev.emPend = s.dev.emPend ∧
          t.dev.n Od.EM_CMD_BATCH 0 (48 * i + 40) = s.dev.n Rg.EM_REMOVED 0 % 256)) ∧
    (s.dev.n Od.EM_CMD_STATUS 0 0 = 1 → s.dev.n Rg.EM_NEXT 0 = s.dev.n Rg.EM_RUN 0 → s.dev.n Rg.EM_CHANGED 0 ≤ s.clk.tick →
      ∃ t, exec .emBatchDone s = .next t ∧ onlyWrites [Od.EM_CMD_STATUS.key 0 0, Od.EM_CMD_DONE_TICK.key 0 0] s t ∧
        t.dev.n Od.EM_CMD_STATUS 0 0 = 0 ∧ t.dev.get Od.EM_CMD_DONE_TICK 0 = Od.EM_CMD_DONE_TICK.ty.norm (s.clk.tick : Nat))

/-- Outside maintenance, replay and mats, no stored word in error: the one request, of the tick before and no move, takes the lowest free way of its
readable bucket, learned, hit, and is counted; with no slots left it overflows, counted. A pass that is due with none under way puts every bank at
its first bucket; a visit of a bucket without valid entries, nothing waiting to be learned, moves to the next bucket and costs one slot. (R191,
R192, R197, R198) -/
def Obligations.TableLearnsAndAges : Prop :=
  ∀ (s : State), ready s = true → plainWords s.dev = true → s.dev.replaying = false →
    (∀ r b, s.dev.learn = [r] → r.tick + 1 = s.clk.tick → s.dev.maint = false → s.dev.matApply = [] → s.dev.emBase r.key / 16384 = b →
      (∀ p, s.dev.n Rg.LEARN_SPENT b + 2 ≤ s.dev.emGrant s.clk 1 → r.move = false → s.dev.on Od.MAT_ENABLE 0 = false → s.dev.emWay r.key = none → s.dev.emBucketBad r.key = false →
        (ways (s.dev.emBase r.key)).find? s.dev.emFree = some p →
        ∃ t, exec .learningExecute s = .next t ∧ outsideKept s t ∧ t.dev.learn = [] ∧ t.dev.em = s.dev.em ∧ t.dev.n Rg.LEARN_SPENT b = s.dev.n Rg.LEARN_SPENT b + 2 ∧
          t.dev.emPend = s.dev.emPend ++ [{ pos := p, key := r.key, result := s.dev.learnedResult r.port, hit := 1 }] ∧
          t.dev.n Od.EM_LEARN_INSERTS 0 = satAdd Od.EM_LEARN_INSERTS.ty.top (s.dev.n Od.EM_LEARN_INSERTS 0) 1) ∧
      (s.dev.emGrant s.clk 1 < s.dev.n Rg.LEARN_SPENT b + 2 →
        ∃ t, exec .learningExecute s = .next t ∧ onlyWrites [Od.EM_LEARN_OVERFLOW.key 0 0] { s with dev := { s.dev with learn := [] } } t ∧
          t.dev.n Od.EM_LEARN_OVERFLOW 0 = satAdd Od.EM_LEARN_OVERFLOW.ty.top (s.dev.n Od.EM_LEARN_OVERFLOW 0) 1)) ∧
    (s.dev.sweeping = false → s.dev.on Rg.SWEEP_LATE 0 = false → s.dev.n Od.EM_AGE_INTERVAL 0 ≠ 0 → s.clk.tick % s.dev.n Od.EM_AGE_INTERVAL 0 = 0 →
      ∃ t, exec .sweepPassStart s = .next t ∧ outsideKept s t ∧ bare t.dev = bare s.dev ∧ ∀ b, b < 256 → t.dev.n Rg.SWEEP b = 1) ∧
    (∀ b n, b < 256 → s.dev.n Rg.SWEEP b = n + 1 → n < 2047 → s.dev.idle = false → s.dev.learn = [] → s.dev.matApply = [] → s.dev.n Rg.SWEEP_SPENT b < s.dev.emGrant s.clk 2 →
      (∀ p ∈ ways (b * 16384 + n * 8), bit (s.dev.emKey p) 63 = false) →
      ∃ t, exec (.sweepVisit b) s = .next t ∧ onlyWrites [Rg.SWEEP.key b 0, Rg.SWEEP_SPENT.key b 0, Rg.EM_SERVED.key b 0, Od.EM_LEARN_OVERFLOW.key 0 0] s t ∧ t.dev.n Rg.SWEEP b = n + 2 ∧ t.dev.n Rg.EM_SERVED b = 3 ∧
        t.dev.n Rg.SWEEP_SPENT b = s.dev.n Rg.SWEEP_SPENT b + 1)

/-- Data of 16·n bytes that the shadow has room for, written at a boundary, goes to HBM at the base plus 16 times the offset, the units it covers whole
again, and the offset grows by n. The compare of a bank goes on by as many entries as its grant has slots left in the tick. Where that ends its
range, which nothing has changed or spoiled since the compare of it began, it moves to the next; where the CRCs of table and shadow agree nothing
else changes, where they differ the range is marked. (R206, R207, R208, R210) -/
def Obligations.TableShadow : Prop :=
  ∀ (s : State), ready s = true →
    (∀ (bs : List Byte) (n : Nat), s.clk.c = 0 → bs.length = 16 * n → 0 < n → n ≤ 2048 → s.dev.n Od.EM_SHADOW_OFFSET 0 + n ≤ 4194304 →
      ∃ t, exec (.shadowDataWrite bs) s = .next t ∧ t.clk = s.clk ∧ t.pending = s.pending ∧
        bare t.dev = bare (s.dev.hbmWrite (s.dev.n Od.EM_SHADOW_BASE 0 + 16 * s.dev.n Od.EM_SHADOW_OFFSET 0) bs.length) ∧
        t.mem = s.mem.wrBytes (s.dev.n Od.EM_SHADOW_BASE 0 + 16 * s.dev.n Od.EM_SHADOW_OFFSET 0) bs ∧
        t.dev.n Od.EM_SHADOW_OFFSET 0 = s.dev.n Od.EM_SHADOW_OFFSET 0 + n) ∧
    (∀ b r p n, b < 256 → s.dev.n Rg.SHADOW_NEXT b = r → r < 31 → s.dev.on Od.EM_SHADOW_ENABLE 0 = true → s.dev.n Rg.SHADOW_POS b = p →
      min (512 - p) (s.dev.emGrant s.clk 3 - s.dev.n Rg.SHADOW_SPENT b) = n → n ≠ 0 →
      (p + n < 512 →
        ∃ t, exec (.shadowCompareRange b) s = .next t ∧ onlyWrites [Rg.SHADOW_BEGAN.key b 0, Rg.SHADOW_SPENT.key b 0, Rg.SHADOW_POS.key b 0] s t ∧
          t.dev.n Rg.SHADOW_POS b = p + n ∧ t.dev.n Rg.SHADOW_SPENT b = s.dev.n Rg.SHADOW_SPENT b + n) ∧
      (p + n = 512 → s.dev.n Rg.SHADOW_CHANGED b r < (if p = 0 then s.clk.tick + 1 else s.dev.n Rg.SHADOW_BEGAN b) →
        s.dev.emPend = [] → s.dev.flipped = [] → s.dev.emPoison = [] → s.dev.hbmPoison = [] →
        (crc32 ((List.range 512).flatMap fun i => s.dev.shadowEntry (b * 16384 + r * 512 + i)) =
            crc32 (s.mem.rdBytes (s.dev.n Od.EM_SHADOW_BASE 0 + 16 * (b * 16384 + r * 512)) 8192) →
          ∃ t, exec (.shadowCompareRange b) s = .next t ∧
            onlyWrites [Rg.SHADOW_NEXT.key b 0, Rg.SHADOW_BEGAN.key b 0, Rg.SHADOW_SPENT.key b 0, Rg.SHADOW_POS.key b 0] s t ∧
            t.dev.n Rg.SHADOW_NEXT b = r + 1 ∧ t.dev.n Rg.SHADOW_POS b = 0) ∧
        (crc32 ((List.range 512).flatMap fun i => s.dev.shadowEntry (b * 16384 + r * 512 + i)) ≠
            crc32 (s.mem.rdBytes (s.dev.n Od.EM_SHADOW_BASE 0 + 16 * (b * 16384 + r * 512)) 8192) →
          ∃ t, exec (.shadowCompareRange b) s = .next t ∧ outsideKept s t ∧ bare t.dev = bare s.dev ∧
            bit (t.dev.n Od.EM_SHADOW_MISMATCH 0 ((32 * b + r) / 64)) ((32 * b + r) % 64) = true ∧ t.dev.n Rg.SHADOW_NEXT b = r + 1)))

/-- Outside idle: a swap to a READY or CURRENT slot joins the staged writes of the boundary two ticks on. At a boundary: data of whole words that the
slot has room for go to its words from the offset on, which grows, and leave it LOADING; a seal that passes starts the check; data for a barred slot
only set the reason. A check whose words have all passed puts the CRC it found, and READY where that is the sealed one, else FAILED. (R162, R163,
R164, R165) -/
def Obligations.TreeSlotsLoad : Prop :=
  ∀ (s : State) (x : Nat), ready s = true → plainWords s.dev = true → s.dev.treePoison = [] → x < 2 →
    (s.dev.swapOk x = true → s.dev.idle = false →
      ∃ t, exec (.classSwap x) s = .next t ∧ onlyWrites [] { s with
        dev := s.dev.stage { tick := s.clk.tick + 2, ops := [{ idx := 0x3400, inst := 0, sub := 2, data := bytesLE 1 x }] } } t) ∧
    (∀ (bs : List Byte) (n : Nat), s.clk.c = 0 → bs.length = 8 * n → 0 < n → s.dev.idle = false → s.dev.slotBar x = 0 →
      s.dev.n Od.CLASS_SLOT_OFFSET x + n ≤ slotWords →
      ∃ t, exec (.slotDataWrite x bs) s = .next t ∧ outsideKept s t ∧ t.dev.n Od.CLASS_SLOT_OFFSET x = s.dev.n Od.CLASS_SLOT_OFFSET x + n ∧
        t.dev.n Od.CLASS_SLOT_STATE x = slLOADING ∧
        (∀ j, j < n → t.dev.treeWord x (s.dev.n Od.CLASS_SLOT_OFFSET x + j) = ofBytesLE ((bs.drop (8 * j)).take 8)) ∧
        ∀ w, w < slotWords → t.dev.treeWord (1 - x) w = s.dev.treeWord (1 - x) w) ∧
    (∀ bs, s.clk.c = 0 → s.dev.idle = false → s.dev.slotBar x ≠ 0 →
      ∃ t, exec (.slotDataWrite x bs) s = .next t ∧ onlyWrites [Od.CLASS_SLOT_LAST_REFUSAL.key x 0] s t ∧
        t.dev.n Od.CLASS_SLOT_LAST_REFUSAL x = s.dev.slotBar x) ∧
    (∀ rules lines crc, s.clk.c = 0 → s.dev.idle = false → s.dev.slotBar x = 0 → sealOk rules lines crc = true → crc < 2 ^ 32 →
      ∃ t, exec (.slotSeal x rules lines crc) s = .next t ∧ outsideKept s t ∧ t.dev.n Od.CLASS_SLOT_STATE x = slCHECKING ∧
        t.dev.n Od.CLASS_SLOT_SEAL x 0 = rules ∧ t.dev.n Od.CLASS_SLOT_SEAL x 1 = lines ∧ t.dev.n Od.CLASS_SLOT_SEAL x 2 = crc ∧
        t.dev.n Rg.SEAL_CLOCK x = s.clk.raw / 64 + 1 ∧ t.dev.tree = s.dev.tree) ∧
    (s.dev.sealChecked s.clk x = true →
      ∃ t, exec (.sealCheckEnd x) s = .next t ∧ onlyWrites [Od.CLASS_SLOT_COMPUTED_CRC.key x 0, Od.CLASS_SLOT_STATE.key x 0] s t ∧
        t.dev.get Od.CLASS_SLOT_COMPUTED_CRC x = Od.CLASS_SLOT_COMPUTED_CRC.ty.norm (s.dev.slotCrc x : Nat) ∧
        t.dev.n Od.CLASS_SLOT_STATE x = if s.dev.slotCrc x = s.dev.n Od.CLASS_SLOT_SEAL x 2 then slREADY else slFAILED)

/-- A consumer's read that finds one corrected word is a finding of its clock, which as the clock ends is counted and lists its write-back; a read that
finds nothing changes nothing. The oldest write-back of a memory, in a later tick with a slot to make it in, is made and leaves the list; one raced
by another write leaves it too, counted. A scrub access that finds nothing goes on to the next unit, or ends its pass, counted. Collected HBM
corrections are counted stack by stack, and bad units noted. (R459, R460, R465, R466, R467) -/
def Obligations.StoredWordsChecked : Prop :=
  ∀ (s : State), ready s = true →
    (∀ mem die word bits, memOk mem die = true → bits = 1 ∨ bits = 2 → word < 2 ^ 36 →
      ∃ t, exec (.scrubAccess mem die true [{ word := word, bits := bits }]) s = .next t ∧
        onlyWrites [] { s with dev := { s.dev with found := s.dev.found ++ [{ mem := mem, die := die, addr := word, bits := bits }] } } t ∧
        (s.dev.found = [] → s.dev.wb = [] → s.dev.flipUsed = false →
          ((t.dev.settle t.clk).wb.map fun w => (w.mem, w.die, w.addr, w.tick)) = [(mem, die, word, s.clk.tick)] ∧
          (t.dev.settle t.clk).n Od.INTEG_MEM_CORRECTED (mem * 16 + die) =
            satAdd Od.INTEG_MEM_CORRECTED.ty.top (s.dev.n Od.INTEG_MEM_CORRECTED (mem * 16 + die)) 1)) ∧
    (∀ mem die, memOk mem die = true → ∃ t, exec (.scrubAccess mem die true []) s = .next t ∧ onlyWrites [] s t) ∧
    (∀ mem die, memOk mem die = true → s.dev.wb = [] → s.dev.flipped = [] → (s.dev.scrubSlot s.clk mem die).isSome = true →
      (s.dev.n Rg.SCRUB_NEXT (mem * 16 + die) + 1 < (scrubUnit mem).2 →
        ∃ t, exec (.scrubAccess mem die false []) s = .next t ∧ outsideKept s t ∧ bare t.dev = bare s.dev ∧
          t.dev.n Rg.SCRUB_NEXT (mem * 16 + die) = s.dev.n Rg.SCRUB_NEXT (mem * 16 + die) + 1) ∧
      ((scrubUnit mem).2 ≤ s.dev.n Rg.SCRUB_NEXT (mem * 16 + die) + 1 →
        ∃ t, exec (.scrubAccess mem die false []) s = .next t ∧ outsideKept s t ∧ bare t.dev = bare s.dev ∧
          t.dev.n Rg.SCRUB_NEXT (mem * 16 + die) = 0 ∧ t.dev.n Od.INTEG_MEM_SCRUB_PASSES (mem * 16 + die) =
            satAdd Od.INTEG_MEM_SCRUB_PASSES.ty.top (s.dev.n Od.INTEG_MEM_SCRUB_PASSES (mem * 16 + die)) 1)) ∧
    (∀ mem die w, memOk mem die = true → (s.dev.wb.find? fun w => w.mem == mem && w.die == die) = some w →
      (∃ t, exec (.writeBack mem die true) s = .next t ∧ outsideKept s t ∧ t.dev.wb = s.dev.wb.erase w ∧
        t.dev.n Od.INTEG_SCRUB_RACES 0 = satAdd Od.INTEG_SCRUB_RACES.ty.top (s.dev.n Od.INTEG_SCRUB_RACES 0) 1) ∧
      (w.own = false → w.tick < s.clk.tick → s.dev.wbMay s.clk w = true → (s.dev.scrubSlot s.clk mem die).isSome = true →
        ∃ t, exec (.writeBack mem die false) s = .next t ∧ outsideKept s t ∧ t.dev.wb = s.dev.wb.erase w ∧
          t.dev.flipped = s.dev.flipped.filter fun f => !(f.mem == mem && f.die == die && f.addr == w.addr))) ∧
    (∀ a b c e (bad : List Nat), (∀ x ∈ bad, x < hbmBytes) →
      ∃ t, exec (.hbmCorrectionCollect [a, b, c, e] bad) s = .next t ∧ outsideKept s t ∧
        t.dev.hbmPoison = (s.dev.hbmPoison ++ bad.map fun x => x / 32 * 32).dedup ∧
        ∀ i, i < 4 → t.dev.n Od.INTEG_HBM_CORRECTED i = satAdd Od.INTEG_HBM_CORRECTED.ty.top (s.dev.n Od.INTEG_HBM_CORRECTED i) ([a, b, c, e].getD i 0))

/-- At a boundary: INTEG.FLIP.ARM 1 and 0 arm and disarm the flip and change nothing else. Clearing one entry of a log returns its two words to zero and
no other. A way without an entry is retired at once; one with an entry that another way of its bucket can take moves it there, both changes of the
tick; unretiring the only retired position leaves none. (R462, R463, R469, R471) -/
def Obligations.FlipsLogsAndRetirement : Prop :=
  ∀ (s : State), ready s = true → s.clk.c = 0 →
    (∃ t, exec .flipArm s = .next t ∧ onlyWrites [Od.INTEG_FLIP_ARM.key 0 0] s t ∧ t.dev.n Od.INTEG_FLIP_ARM 0 = 1) ∧
    (∃ t, exec .flipDisarm s = .next t ∧ onlyWrites [Od.INTEG_FLIP_ARM.key 0 0] s t ∧ t.dev.n Od.INTEG_FLIP_ARM 0 = 0) ∧
    (∀ e, e < 32 → ∃ t, exec (.logClear e) s = .next t ∧ onlyWrites [Od.INTEG_LOG.key 0 (2 * e), Od.INTEG_LOG.key 0 (2 * e + 1)] s t ∧
      t.dev.n Od.INTEG_LOG 0 (2 * e) = 0 ∧ t.dev.n Od.INTEG_LOG 0 (2 * e + 1) = 0) ∧
    (∃ t, exec (.logClear 0xFF) s = .next t ∧ outsideKept s t ∧ bare t.dev = bare s.dev ∧ ∀ e, e < 64 → t.dev.n Od.INTEG_LOG 0 e = 0) ∧
    (∀ e, e < 16 → ∃ t, exec (.ueLogClear e) s = .next t ∧ onlyWrites [Od.INTEG_UE_LOG.key 0 (2 * e), Od.INTEG_UE_LOG.key 0 (2 * e + 1)] s t ∧
      t.dev.n Od.INTEG_UE_LOG 0 (2 * e) = 0 ∧ t.dev.n Od.INTEG_UE_LOG 0 (2 * e + 1) = 0) ∧
    (∃ t, exec (.ueLogClear 0xFF) s = .next t ∧ outsideKept s t ∧ bare t.dev = bare s.dev ∧ ∀ e, e < 32 → t.dev.n Od.INTEG_UE_LOG 0 e = 0) ∧
    (∀ pos, pos < 4194304 → s.dev.retireListed pos = false → s.dev.n Od.INTEG_EM_RETIRED_COUNT 0 < 4096 →
      (bit (s.dev.emKey pos) 63 = false →
        ∃ t, exec (.emRetire pos) s = .next t ∧
          onlyWrites [Od.INTEG_EM_RETIRED_LIST.key 0 (s.dev.n Od.INTEG_EM_RETIRED_COUNT 0), Od.INTEG_EM_RETIRED_COUNT.key 0 0] s t ∧
          t.dev.n Od.INTEG_EM_RETIRED_LIST 0 (s.dev.n Od.INTEG_EM_RETIRED_COUNT 0) = pos ∧
          t.dev.n Od.INTEG_EM_RETIRED_COUNT 0 = s.dev.n Od.INTEG_EM_RETIRED_COUNT 0 + 1) ∧
      (∀ p, plainWords s.dev = true → bit (s.dev.emKey pos) 63 = true →
        ((ways (pos / 8 * 8)).find? fun p => p != pos && s.dev.emFree p) = some p →
        ∃ t, exec (.emRetire pos) s = .next t ∧ outsideKept s t ∧ t.dev.em = s.dev.em ∧
          t.dev.emPend = s.dev.emPend ++ [⟨p, s.dev.emKey pos, s.dev.emResult pos / 2 ^ 17 * 2 ^ 17, s.dev.emHitNow pos, s.dev.emSeenNow pos, []⟩,
            ⟨pos, 0, 0, 0, 0, []⟩] ∧
          t.dev.n Od.INTEG_EM_RETIRED_COUNT 0 = s.dev.n Od.INTEG_EM_RETIRED_COUNT 0 + 1)) ∧
    (∀ pos, s.dev.n Od.INTEG_EM_RETIRED_COUNT 0 = 1 → s.dev.n Od.INTEG_EM_RETIRED_LIST 0 0 % 2 ^ 31 = pos →
      ∃ t, exec (.emUnretire pos) s = .next t ∧ outsideKept s t ∧ bare t.dev = bare s.dev ∧ t.dev.n Od.INTEG_EM_RETIRED_COUNT 0 = 0)

/-- With no stored word in error, outside replays. A write of a counter at a boundary sets its words. A window that has ended puts its tick, its four
counts and its loads. A reset of the spore ring at a boundary that its area admits sets base, size and mode and zeroes its indices. A read of an HBM
ring answers its bytes. A dump due to HBM with none under way takes its number and tick and writes its header; a whole one is completed and ends.
(R479, R480, R482, R483, R484, R487, R490) -/
def Obligations.CountersAreKept : Prop :=
  ∀ (s : State), ready s = true → plainWords s.dev = true → s.dev.replaying = false →
    (∀ idx sub inst words o, s.clk.c = 0 → objOf idx sub = some o → o.ctr = true → inst ≤ o.insts → counterWordsOk o words = true →
      ∃ t, exec (.counterWrite idx sub inst words) s = .next t ∧ outsideKept s t ∧ bare t.dev = bare s.dev ∧
        ∀ e v, words[e]? = some v → t.dev.get o inst e = o.ty.norm (v : Nat)) ∧
    (∀ p, p < 1024 → s.dev.on Rg.WIN_LAST 0 = true →
      ∃ t, exec (.windowClose p) s = .next t ∧ onlyWrites ((List.range 7).map (Od.CTR_PORT_WINDOW_RESULT.key p)) s t ∧
        t.dev.get Od.CTR_PORT_WINDOW_RESULT p 0 = Od.CTR_PORT_WINDOW_RESULT.ty.norm (s.dev.n Rg.WIN_LAST 0 - 1 : Nat) ∧
        (∀ e, e < 4 → t.dev.get Od.CTR_PORT_WINDOW_RESULT p (e + 1) = Od.CTR_PORT_WINDOW_RESULT.ty.norm (s.dev.n Rg.WIN_END p e : Nat)) ∧
        ∀ e, e < 2 → t.dev.get Od.CTR_PORT_WINDOW_RESULT p (e + 5) = Od.CTR_PORT_WINDOW_RESULT.ty.norm
          (perMille (s.dev.n Rg.WIN_END p (2 * e)) (s.dev.n Rg.WIN_END p (2 * e + 1)) (s.dev.n Rg.WIN_END p 4) : Nat)) ∧
    (∀ base records mode, s.clk.c = 0 → base < 2 ^ 64 → 2 ≤ records → records ≤ 5592405 → mode ≤ 1 →
      (((s.dev.put Od.SPORE_RING_BASE 0 base).put Od.SPORE_RING_RECORDS 0 records).put Od.SPORE_RING_MODE 0 mode).areaOk 1 = true →
      ∃ t, exec (.sporeRingReset base records mode) s = .next t ∧ outsideKept s t ∧ bare t.dev = bare s.dev ∧
        t.dev.n Od.SPORE_RING_BASE 0 = base ∧ t.dev.n Od.SPORE_RING_RECORDS 0 = records ∧ t.dev.n Od.SPORE_RING_MODE 0 = mode ∧
        t.dev.n Od.SPORE_RING_WRITE 0 = 0 ∧ t.dev.n Od.SPORE_RING_READ 0 = 0 ∧ t.dev.n Od.SPORE_RECORD_NUMBER 0 = 0) ∧
    (∀ a, s.dev.n Od.CTR_HBM_READ_ADDR 0 = a → inArea s.dev.dumpArea a 1 = true → s.dev.hbmPoison = [] →
      ∃ t, exec .hbmReadData s = .next t ∧ onlyWrites [Od.CTR_HBM_READ_POISONED.key 0 0] s t ∧ t.dev.out =
        [{ kind := .response, vals := [0x8000], bytes := s.mem.rdBytes a (min 32768 (s.dev.dumpArea.1 + s.dev.dumpArea.2 - a)) }]) ∧
    (s.dev.dumpDue s.clk = true → s.clk.c = 0 → s.dev.n Od.CTR_DUMP_TARGET 0 = 0 → s.dev.idle = false →
      (s.dev.dump = none →
        ∃ (t : State) (x : Dump), exec .dumpDue s = .next t ∧ t.dev.dump = some x ∧ x.seq = s.dev.n Od.CTR_DUMP_SEQ 0 ∧ x.tick = s.clk.tick ∧
          x.host = false ∧ x.slot = s.dev.n Od.CTR_DUMP_SEQ 0 % s.dev.n Od.CTR_DUMP_SLOTS 0 ∧ x.words = s.dev.past.snapshot ∧
          t.mem = s.mem.wrBytes (s.dev.n Od.CTR_DUMP_RING_BASE 0 + 64 * x.slot) (x.header none) ∧ t.dev.n Od.CTR_DUMP_STATE 0 = 1 ∧
          t.dev.get Od.CTR_DUMP_SEQ 0 = Od.CTR_DUMP_SEQ.ty.norm (s.dev.n Od.CTR_DUMP_SEQ 0 + 1 : Nat)) ∧
      (s.dev.dump.isSome = true →
        ∃ t, exec .dumpDue s = .next t ∧ onlyWrites [Od.CTR_DUMP_SKIPPED.key 0 0] s t ∧
          t.dev.n Od.CTR_DUMP_SKIPPED 0 = satAdd Od.CTR_DUMP_SKIPPED.ty.top (s.dev.n Od.CTR_DUMP_SKIPPED 0) 1)) ∧
    (∀ x, s.dev.dump = some x → x.host = false → storeBytes ≤ s.dev.n Rg.DUMP_SENT 0 →
      ∃ t, exec .dumpComplete s = .next t ∧ t.clk = s.clk ∧ t.pending = s.pending ∧ t.dev.dump = none ∧ t.dev.n Od.CTR_DUMP_STATE 0 = 0 ∧
        t.dev.get Od.CTR_DUMP_LAST_COMPLETE 0 = Od.CTR_DUMP_LAST_COMPLETE.ty.norm (x.seq : Nat) ∧
        t.mem = (((x.words.foldl (fun (m : Memory) w => m.wrBytes (x.base + bodyAt x.slot + 8 * w.1) (bytesLE 8 w.2.toNat))
          (s.mem.clear (x.base + bodyAt x.slot) (x.base + bodyAt x.slot + storeBytes))).wrBytes
          (x.base + 64 * x.slot) ((x.header (some x.crc)).take 32)).wrBytes (x.base + (64 * x.slot + 32)) ((x.header (some x.crc)).drop 32)))

/-- The one open accumulator closes once its hold has passed, and its record joins a write queue with room. The writer's turn puts the oldest record at
the write index, which advances, and with the last index the store is full; in a full store the record is lost, counted. A clear of a boundary
begins; once it has wiped every record the store is empty. A read of REC.WINDOW answers its records and changes nothing. (R499, R502, R503, R504,
R509) -/
def Obligations.EventsAreRecorded : Prop :=
  ∀ (s : State), ready s = true →
    (∀ a, s.dev.accs = [a] → a.first + max 1 (s.dev.n Od.REC_CODE_HOLD a.code) ≤ s.clk.tick → s.dev.recQ.length < 64 →
      ∃ t, exec (.accumulatorClose a.code) s = .next t ∧
        onlyWrites [] { s with dev := { s.dev with accs := [], recQ := s.dev.recQ ++ [a.bytes] } } t) ∧
    (∀ r l, s.dev.recQ = r :: l → s.dev.on Rg.REC_CLEARING 0 = false → s.dev.n Rg.REC_LAST 0 = 0 ∨ s.dev.n Rg.REC_LAST 0 < s.clk.tick →
      (s.dev.on Od.REC_FULL 0 = false → s.dev.n Od.REC_WRITE_INDEX 0 < 131072 →
        ∃ t, exec .recordWrite s = .next t ∧ outsideKept s t ∧ t.dev.recQ = l ∧
          t.dev.mram[s.dev.n Od.REC_WRITE_INDEX 0]? = some r ∧ t.dev.n Od.REC_WRITE_INDEX 0 = s.dev.n Od.REC_WRITE_INDEX 0 + 1 ∧
          t.dev.n Od.REC_FULL 0 = (if s.dev.n Od.REC_WRITE_INDEX 0 = 131071 then 1 else 0) ∧ t.dev.n Rg.REC_LAST 0 = s.clk.tick + 1) ∧
      (s.dev.on Od.REC_FULL 0 = true →
        ∃ t, exec .recordWrite s = .next t ∧ onlyWrites [Od.REC_LOST_FULL.key 0 0, Rg.REC_LAST.key 0 0] { s with dev := { s.dev with recQ := l } } t ∧
          t.dev.n Od.REC_LOST_FULL 0 = satAdd Od.REC_LOST_FULL.ty.top (s.dev.n Od.REC_LOST_FULL 0) 1)) ∧
    (s.clk.c = 0 → s.dev.on Rg.REC_CLEARING 0 = false →
      ∃ t, exec .recClear s = .next t ∧ onlyWrites [Rg.REC_CLEARING.key 0 0, Od.REC_STATE.key 0 0] s t ∧ t.dev.n Rg.REC_CLEARING 0 = s.clk.tick + 1 ∧
        t.dev.n Od.REC_STATE 0 = 2) ∧
    (s.dev.on Rg.REC_CLEARING 0 = true → s.dev.recWiped s.clk = s.dev.n Od.REC_WRITE_INDEX 0 →
      ∃ t, exec .recClearDone s = .next t ∧ onlyWrites [Od.REC_WRITE_INDEX.key 0 0, Od.REC_FULL.key 0 0, Od.REC_STATE.key 0 0, Rg.REC_CLEARING.key 0 0]
          { s with dev := { s.dev with mram := s.dev.recStore s.clk } } t ∧
        t.dev.n Od.REC_WRITE_INDEX 0 = 0 ∧ t.dev.n Od.REC_FULL 0 = 0 ∧ t.dev.n Od.REC_STATE 0 = 0 ∧ t.dev.n Rg.REC_CLEARING 0 = 0) ∧
    (∃ t, exec .recWindow s = .next t ∧ onlyWrites [] s t ∧
      t.dev.out = [{ kind := .response, vals := [0x8800], bytes := s.dev.recWindow s.clk }])

/-- At a boundary PERTURB.LOCK is set and nothing else, and a clear returns every object of the engine's entries to its default and the release clocks
of queued copies to 0. A pulse that falls due in this clock on a port holds it at least to its end; one on a pipeline, and an epoch stall, hold
their pipelines so; the end of a port's pulse clears it. (R539, R542, R546) -/
def Obligations.PerturbationRuns : Prop :=
  ∀ (s : State), ready s = true → s.dev.replaying = false →
    (s.clk.c = 0 → ∃ t, exec .perturbLock s = .next t ∧ onlyWrites [Od.PERTURB_LOCK.key 0 0] s t ∧ t.dev.n Od.PERTURB_LOCK 0 = 1) ∧
    (s.clk.c = 0 → ∃ t, exec .perturbClear s = .next t ∧ outsideKept s t ∧
      bare t.dev = bare { s.dev with copies := s.dev.copies.map fun (c : Copy) => { c with release := 0 } } ∧
      ∀ o ∈ perturbObjs, ∀ i e, i < 65536 → e < 65536 → t.dev.get o i e = o.default i e) ∧
    (∀ e u, e < 64 → s.dev.pulseDue s.clk e = true → s.clk.c = s.dev.n Od.PERTURB_PULSE_OFFSET e → s.dev.n Od.PERTURB_PULSE_UNIT e = u →
      (s.dev.n Od.PERTURB_PULSE_TARGET e = 1 → u < 1024 →
        ∃ t, exec (.pulseStart e) s = .next t ∧ onlyWrites [Rg.PULSE_UNIT.key e 0, Rg.PULSE_UNTIL.key e 0, Rg.PORT_PULSE.key u 0] s t ∧
          t.dev.n Rg.PULSE_UNIT e = 65536 + u + 1 ∧ t.dev.n Rg.PULSE_UNTIL e = s.clk.clock + s.dev.n Od.PERTURB_PULSE_LENGTH e ∧
          t.dev.n Rg.PORT_PULSE u = max (s.clk.clock + s.dev.n Od.PERTURB_PULSE_LENGTH e) (s.dev.n Rg.PORT_PULSE u)) ∧
      (s.dev.n Od.PERTURB_PULSE_TARGET e = 0 → u < 64 →
        ∃ t, exec (.pulseStart e) s = .next t ∧ outsideKept s t ∧ bare t.dev = bare s.dev ∧ t.dev.n Rg.PULSE_UNIT e = u + 1 ∧
          s.clk.clock + s.dev.n Od.PERTURB_PULSE_LENGTH e ≤ t.dev.n Rg.HOLD_PULSE u)) ∧
    (∀ e, e < 64 → 65536 < s.dev.n Rg.PULSE_UNIT e → s.dev.n Rg.PULSE_UNTIL e ≤ s.clk.clock →
      ∃ t, exec (.pulseEnd e) s = .next t ∧ outsideKept s t ∧ bare t.dev = bare s.dev ∧ t.dev.n Rg.PULSE_UNIT e = 0 ∧ t.dev.n Rg.PULSE_UNTIL e = 0) ∧
    (∀ e p, e < 8 → p < 64 → s.dev.stallDue s.clk e = true → s.clk.c = 0 → bit (s.dev.n Od.PERTURB_STALL_PIPELINES e) p = true →
      ∃ t, exec (.epochStall e) s = .next t ∧ outsideKept s t ∧ bare t.dev = bare s.dev ∧
        s.clk.clock + s.dev.n Od.PERTURB_STALL_LENGTH e ≤ t.dev.n Rg.HOLD_STALL p)

/-- At a boundary, outside maintenance, with a journal length and no journal under way, JOURNAL.START 1 starts it: RECORDING from this tick, no records,
no losses, a checkpoint taken; 2 waits for a clean fabric, at which it starts clean. The copy of the checkpoint ends DONE. There a write of STOP,
the full area and the trigger each stop a recording journal with their reason and tick, its staging empty. (R513, R521, R523, R524) -/
def Obligations.JournalStartsAndStops : Prop :=
  ∀ (s : State), ready s = true →
    (calm s → s.clk.c = 0 → s.dev.n Od.JOURNAL_STATE 0 ≠ 1 → s.dev.n Od.JOURNAL_STATE 0 ≠ 2 → s.dev.maint = false → s.dev.on Od.JOURNAL_LENGTH 0 = true →
      (∃ t, exec .journalStart s = .next t ∧ outsideKept s t ∧ t.dev.n Od.JOURNAL_STATE 0 = 2 ∧ t.dev.n Od.JOURNAL_RECORDS 0 = 0 ∧
        t.dev.n Od.JOURNAL_LOST 0 = 0 ∧ t.dev.get Od.JOURNAL_START_TICK 0 = Od.JOURNAL_START_TICK.ty.norm (s.clk.tick : Nat) ∧
        t.dev.jstage = [] ∧ t.dev.ckpt.map (·.tick) = some s.clk.tick) ∧
      (∃ t, exec .journalStartWhenClean s = .next t ∧ outsideKept s t ∧ t.dev.n Od.JOURNAL_STATE 0 = 1)) ∧
    (s.clk.c = 0 → s.dev.n Od.JOURNAL_STATE 0 = 1 → s.dev.clean = true →
      ∃ t, exec .journalCleanStart s = .next t ∧ outsideKept s t ∧ t.dev.n Od.JOURNAL_STATE 0 = 2 ∧ t.dev.n Od.JOURNAL_CLEAN_START 0 = 1 ∧
        t.dev.get Od.JOURNAL_START_TICK 0 = Od.JOURNAL_START_TICK.ty.norm (s.clk.tick : Nat)) ∧
    (∀ c, s.dev.ckpt = some c → s.dev.on Od.JOURNAL_CHECKPOINT_DONE 0 = false → 0x7400000 ≤ s.dev.n Rg.J_COPIED 0 →
      ∃ t, exec .checkpointDone s = .next t ∧ t.clk = s.clk ∧ t.pending = s.pending ∧ t.mem = s.dev.checkpointWrite c s.mem ∧
        t.dev.n Od.JOURNAL_CHECKPOINT_DONE 0 = 1) ∧
    (s.clk.c = 0 → s.dev.n Od.JOURNAL_STATE 0 = 2 →
      (calm s →
        ∃ t, exec .journalStop s = .next t ∧ t.clk = s.clk ∧ t.pending = s.pending ∧ t.dev.n Od.JOURNAL_STATE 0 = 3 ∧
          t.dev.n Od.JOURNAL_STOP_REASON 0 = 1 ∧ t.dev.jstage = [] ∧
          t.dev.get Od.JOURNAL_STOP_TICK 0 = Od.JOURNAL_STOP_TICK.ty.norm (s.clk.tick : Nat)) ∧
      (s.dev.journalFull = true →
        ∃ t, exec .journalFull s = .next t ∧ t.clk = s.clk ∧ t.pending = s.pending ∧ t.dev.n Od.JOURNAL_STATE 0 = 3 ∧
          t.dev.n Od.JOURNAL_STOP_REASON 0 = 2 ∧ t.dev.jstage = []) ∧
      (s.dev.journalFull = false → s.dev.journalTriggered s.clk = true →
        ∃ t, exec .journalTrigger s = .next t ∧ t.clk = s.clk ∧ t.pending = s.pending ∧ t.dev.n Od.JOURNAL_STATE 0 = 3 ∧
          t.dev.n Od.JOURNAL_STOP_REASON 0 = 3 ∧ t.dev.jstage = []))

/-- At a boundary in maintenance and no replay, data of at most 32,768 bytes that lie in the journal area go to HBM at JOURNAL.HBM.ADDR. A read there
answers the bytes up to the area's end, at most 32,768, and with no bad unit changes nothing. REPLAY.START at a boundary with a stopped journal, its
checkpoint complete and of the device's level, outside mats, puts the device in maintenance and the replay in LOADING with no frames. (R525, R534) -/
def Obligations.JournalAreasAreReached : Prop :=
  ∀ (s : State), ready s = true →
    (∀ data, calm s → s.clk.c = 0 → s.dev.maint = true → s.dev.replaying = false → data.length ≤ 32768 →
      inArea (s.dev.n Od.JOURNAL_BASE 0, s.dev.n Od.JOURNAL_LENGTH 0) (s.dev.n Od.JOURNAL_HBM_ADDR 0) data.length = true →
      inArea (s.dev.areas.getD 4 (0, 0)) (s.dev.n Od.JOURNAL_HBM_ADDR 0) data.length = false →
      ∃ t, exec (.journalHbmDataWrite data) s = .next t ∧ t.clk = s.clk ∧ t.pending = s.pending ∧
        t.mem = s.mem.wrBytes (s.dev.n Od.JOURNAL_HBM_ADDR 0) data) ∧
    (∀ a, s.dev.n Od.JOURNAL_HBM_ADDR 0 = a → inArea (s.dev.n Od.JOURNAL_BASE 0, s.dev.n Od.JOURNAL_LENGTH 0) a 1 = true → s.dev.hbmPoison = [] →
      s.dev.ckpt = none →
      ∃ t, exec .journalHbmDataRead s = .next t ∧ onlyWrites [] s t ∧ t.dev.out =
        [{ kind := .response, vals := [0x9000], bytes := s.mem.rdBytes a (min 32768 (s.dev.n Od.JOURNAL_BASE 0 + s.dev.n Od.JOURNAL_LENGTH 0 - a)) }]) ∧
    (calm s → s.clk.c = 0 → s.dev.n Od.JOURNAL_STATE 0 = 3 → s.dev.on Od.JOURNAL_CHECKPOINT_DONE 0 = true → s.dev.n Od.MAT_STATE 0 = 0 →
      (s.mem.rd (s.dev.n Od.JOURNAL_CHECKPOINT_BASE 0 + 4)).toNat = s.dev.n Od.DEVICE_BEHAVIOUR_LEVEL 0 →
      s.dev.tx = [] → s.dev.copies = [] → s.dev.jobs = [] → s.dev.bufs = [] →
      ∃ t, exec .replayStart s = .next t ∧ outsideKept s t ∧ t.dev.n Od.REPLAY_STATE 0 = 1 ∧ t.dev.n Od.REPLAY_FRAMES 0 = 0 ∧ t.dev.n Rg.MAINT 0 = 1 ∧
        (∀ f ∈ t.dev.rx, f.kind = 0 → f.phase ≠ 0 ∧ f.phase ≠ 2))

/-- At clock 0 a LOADING replay whose checkpoint is good runs from the checkpoint's tick, with a bad one it has FAILED; HBM stays. While one runs, a
FLOW record of the clock passes, and one of pause sets the timers of its classes by the replay's clock; an END or the stop tick at its boundary
leaves it DONE; nothing but its state and its vector changes then. (R525, R526, R528, R530) -/
def Obligations.ReplayRuns : Prop :=
  ∀ (s : State), ready s = true →
    (s.dev.n Od.REPLAY_STATE 0 = 1 → s.clk.c = 0 →
      (s.dev.checkpointGood s.mem = true →
        ∃ t, exec .replayLoadEnd s = .next t ∧ t.mem = s.mem ∧ t.pending = s.pending ∧ t.clk.tick = s.clk.tick ∧ t.clk.raw = s.clk.raw ∧
          t.dev.n Od.REPLAY_STATE 0 = 2 ∧ t.dev.get Od.REPLAY_TICK 0 =
            Od.REPLAY_TICK.ty.norm (ofBytesLE (s.mem.rdBytes (s.dev.n Od.JOURNAL_CHECKPOINT_BASE 0 + 8) 8) : Nat) ∧
          t.clk.len = tickLength (t.dev.n Rg.REPLAY_LEN 0)) ∧
      (s.dev.checkpointGood s.mem = false →
        ∃ t, exec .replayLoadEnd s = .next t ∧ outsideKept s t ∧ t.dev.n Od.REPLAY_STATE 0 = 4)) ∧
    (∀ r, s.dev.replayHere (s.dev.rk s.clk) s.mem 5 = some r → jnum r 18 1 = 1 →
      ∃ t, exec .replayFlowRecord s = .next t ∧ outsideKept s t ∧ bare t.dev = bare s.dev ∧ t.dev.n Rg.R_NEXT 0 = s.dev.n Rg.R_NEXT 0 + 1 ∧
        ∀ c, c < 8 → bit (jnum r 19 1) c = true → t.dev.n Rg.PAUSE_UNTIL (jnum r 16 2 % 1024) c =
          if jnum r 20 2 = 0 then min (s.dev.n Rg.PAUSE_UNTIL (jnum r 16 2 % 1024) c) ((s.dev.rk s.clk).clock + 1)
            else (s.dev.rk s.clk).clock + s.dev.holdClocks (jnum r 16 2 % 1024) (jnum r 20 2)) ∧
    (∀ r, s.dev.replayHere (s.dev.rk s.clk) s.mem 0 = some r →
      ∃ (t : State) (o : PipeOut) (e : Dev), exec .replayFrameEntry s = .next t ∧ t.clk = s.clk ∧ t.pending = s.pending ∧
        (o, e) = (if bit (jnum r 9 1) 5 then Dev.replayInject else Dev.replayFrame) (s.dev.rk s.clk) r
          (((((s.dev.silent.put Rg.R_NEXT 0 (s.dev.n Rg.R_NEXT 0 + 1)).bump Od.REPLAY_FRAMES 0).when (bit (jnum r 9 1) 4)
            fun d => d.bump Od.REPLAY_DEEP 0)).put Rg.R_MIXED 0 0) ∧
        t.mem = s.mem.wrBytes (e.n Od.REPLAY_RESULT_BASE 0 + 32 * jnum r 28 4)
          (replayResult r (s.dev.rk s.clk).tick s.clk.c (e.on Rg.R_MIXED 0) o)) ∧
    (s.dev.replaying = true → s.dev.replayEnds s.mem (s.dev.n Od.REPLAY_TICK 0) = true →
      ∃ t, exec .replayEnd s = .next t ∧ onlyWrites [Od.REPLAY_STATE.key 0 0, Rg.MSIX_CAUSE.key 0 0] s t ∧ t.dev.n Od.REPLAY_STATE 0 = 3)

/-- A REQUEST of one record by a management port, in order, rightly tagged and no later than its clock's others by its entry, no stored word in error.
READ of a scalar object answers its value with the tick; READ_SEG a part of a snapshot; DESCRIBE the descriptor. WRITE that passes its checks is
staged for the first boundary it may name and waits; in a group it joins the group. A first segment is kept. GROUP_BEGIN opens a group, GROUP_ABORT
ends it, GROUP_COMMIT of members that pass stages them together and waits. (R43, R561, R564, R566, R567, R569, R570, R571, R572) -/
def Obligations.DictionaryOperations : Prop :=
  ∀ (s : State) (x : Sess) (source : Nat) (bs : List Byte) (r : OpReq), ready s = true → plainWords s.dev = true → s.dev.dictPoison = [] →
    requestComes s x bs r →
    (∀ o, r.op = 1 → objOf r.idx r.sub = some o → o.isBytes = false → o.arr = false → (o.acc = .ro ∨ o.acc = .rw) →
      o.hasInst r.inst = true → (o.ofPort = false ∨ s.dev.portExists r.inst = true) → r.off = 0 → r.len = 0 → 1024 ≤ x.most →
      ∃ t, exec (.opRead x.entry source bs) s = .next t ∧
        answered s t x source { r.answer with value := o.ty.encode ((asked s x source).past.value s.clk o r.inst 0), tick := s.clk.tick }) ∧
    (r.op = 2 →
      (x.group = none → (WriteOp.mk r.idx r.inst r.sub r.off r.value).pre x.role = 0 → tickFar s.clk r.tick = false →
        ((asked s x source).checkOne (applyTick s.clk r.tick) ⟨r.idx, r.inst, r.sub, r.off, r.value⟩ false s.mem).1 = 0 →
        ∃ t, exec (.opWrite x.entry source bs) s = .next t ∧ waits s t x ∧ t.dev.staged = (s.dev.stage
          { tick := applyTick s.clk r.tick
            ops := [⟨r.idx, r.inst, r.sub, r.off, r.value⟩], entry := x.entry, session := x.num, seq := x.seq + 1, op := 0, role := x.role }).staged) ∧
      (∀ g, x.group = some g → (WriteOp.mk r.idx r.inst r.sub r.off r.value).pre x.role = 0 →
        ∃ t, exec (.opWrite x.entry source bs) s = .next t ∧ waits s t x ∧ t.dev.staged = s.dev.staged ∧
          (t.dev.sess.map fun y => y.group) = [some (g.1 ++ [⟨r.idx, r.inst, r.sub, r.off, r.value⟩], g.2)])) ∧
    (r.op = 3 → x.seg = none → r.off = 0 → r.len ≤ r.total → bit r.flags 0 = false →
      ∃ t, exec (.opWriteSeg x.entry source bs) s = .next t ∧ answered s t x source { r.answer with flags := 4 } ∧ t.dev.staged = s.dev.staged ∧
        (t.dev.sess.map fun y => y.seg) = [some { idx := r.idx, inst := r.inst, sub := r.sub, total := r.total, data := r.value }]) ∧
    (∀ h, r.op = 4 → x.snaps.find? (fun y => y.handle == r.handle) = some h → r.off + r.len ≤ h.bytes.length → padded r.len ≤ x.most - 64 →
      ∃ t, exec (.opReadSeg x.entry source bs) s = .next t ∧
        answered s t x source { r.answer with value := sliceZ h.bytes r.off r.len, total := h.bytes.length, tick := s.clk.tick }) ∧
    (r.op = 5 → x.group = none →
      ∃ t, exec (.groupBegin x.entry source bs) s = .next t ∧ answered s t x source r.answer ∧
        (t.dev.sess.map fun y => y.group) = [some ([], false)]) ∧
    (∀ ws, r.op = 6 → x.group = some (ws, false) → tickFar s.clk r.tick = false → ws.length ≤ 1024 → (ws.map (·.data.length)).sum ≤ 65536 →
      (ws.map WriteOp.words).sum ≤ 4096 →
      (Dev.checkGroup s.mem (((asked s x source).asOf (applyTick s.clk r.tick)).each ws fun d w => d.stands w) [] ws
        ((asked s x source).asOf (applyTick s.clk r.tick)) (asked s x source)).1 = 0 →
      ∃ t, exec (.groupCommit x.entry source bs) s = .next t ∧ waits s t x ∧ (t.dev.sess.map fun y => y.group) = [none] ∧
        t.dev.staged = (s.dev.stage
          { tick := applyTick s.clk r.tick, ops := ws, group := true, entry := x.entry, session := x.num, seq := x.seq + 1, op := 0, role := x.role }).staged) ∧
    (∀ g, r.op = 7 → x.group = some g →
      ∃ t, exec (.groupAbort x.entry source bs) s = .next t ∧ answered s t x source r.answer ∧ (t.dev.sess.map fun y => y.group) = [none]) ∧
    (∀ o, r.op = 8 → bit r.flags 1 = false → objOf r.idx r.sub = some o → o.hasInst r.inst = true →
      ∃ t, exec (.opDescribe x.entry source bs) s = .next t ∧ answered s t x source { r.answer with value := o.descriptor })

/-- By an open management port: a HELLO of a role whose key is set, rightly tagged, with no session there yet, takes a slot and is answered; an OPEN
with the right tag opens it, answered; a CLOSE of the only session leaves none, answered. A challenge unanswered for 2,000,000 ticks, and a session
idle too long, end; a lockout whose tick has come is lifted; a snapshot too long unread is freed. (R558, R559, R562, R569) -/
def Obligations.SessionsOpenAndClose : Prop :=
  ∀ (s : State) (entry source : Nat) (bs : List Byte), ready s = true →
    (1 ≤ entry → entry ≤ 2 → s.dev.entryOpen entry = true → be bs 2 2 = bs.length →
      (∀ role, bs.length = 56 → be bs 0 1 = 0x11 → be bs 16 1 = role → role < 3 → bit (s.dev.n Od.DICT_KEY_SET 0) role = true → s.dev.fails = [] →
        s.dev.tagGood entry (s.dev.blob Od.DICT_KEY role) bs = true → 1024 ≤ be bs 36 2 → be bs 36 2 ≤ 8960 → s.dev.sess = [] →
        ∃ t, exec (.bluntoakHello entry source bs) s = .next t ∧ outsideKept s t ∧ t.dev.out.length = 1 ∧
          (t.dev.sess.map fun y => (y.role, y.entry, y.source, y.opened, y.since, y.most)) = [(role, entry, source, false, s.clk.tick, be bs 36 2)]) ∧
      (∀ x, bs.length = 32 → be bs 0 1 = 0x13 → s.dev.sess = [x] → x.entry = entry → x.num = be bs 4 4 → be bs 8 4 = 0 →
        s.dev.tagGood entry x.key bs = true →
        ∃ t, exec (.bluntoakOpen entry source bs) s = .next t ∧ outsideKept s t ∧ t.dev.out.length = 1 ∧
          (t.dev.sess.map fun y => (y.num, y.opened, y.since)) = [(x.num, true, s.clk.tick)]) ∧
      (∀ x, bs.length = 32 → be bs 0 1 = 0x17 → s.dev.sess = [x] → x.entry = entry → x.num = be bs 4 4 → x.opened = true →
        s.dev.tagGood entry x.key bs = true →
        ∃ t, exec (.bluntoakClose entry source bs) s = .next t ∧ outsideKept s t ∧ t.dev.out.length = 1 ∧ t.dev.sess = [])) ∧
    (∀ x, s.dev.sess = [x] → x.opened = false → x.since + 2000000 ≤ s.clk.tick →
      ∃ t, exec (.challengeTimeout (x.num % 16)) s = .next t ∧ onlyWrites [] { s with dev := { s.dev with sess := [] } } t) ∧
    (∀ x, s.dev.sess = [x] → x.opened = true → x.entry = 1 ∨ x.entry = 2 →
      x.since + 2000000 * s.dev.n Od.DICT_SESSION_IDLE 0 ≤ s.clk.tick →
      ∃ t, exec (.sessionIdleTimeout (x.num % 16)) s = .next t ∧ outsideKept s t ∧ t.dev.sess = [] ∧ t.dev.out.length = 1) ∧
    (∀ a n u, s.dev.fails = [(a, n, u)] → u ≠ 0 → u ≤ s.clk.tick →
      ∃ t, exec (.helloLockoutEnd a) s = .next t ∧ onlyWrites [] { s with dev := { s.dev with fails := [] } } t) ∧
    (∀ x y, s.dev.sess = [x] → x.snaps = [y] → y.handle < 8 → y.tick + 2000000 ≤ s.clk.tick →
      ∃ t, exec (.snapshotTimeout (x.num % 16) y.handle) s = .next t ∧ onlyWrites [] { s with dev := { s.dev with sess := [{ x with snaps := [] }] } } t)

/-- With tags not asked for, a HELLO by the window's doorbell with no session and no response under way is not discarded and its answer is shown; the
acknowledgement brings the next response or none. A key written at a boundary is the role's and marked set. DET.SEED takes a value there; a read-
only object refuses it. A read of an RC scalar answers its value at the clock's start and leaves its default with what the clock has added. Requests
to a management port's own address are answered by one frame. (R14, R555, R560, R566, R573, R577) -/
def Obligations.WindowKeysAndReads : Prop :=
  ∀ (s : State), ready s = true →
    (∀ (bs : List Byte) role, s.dev.entryOpen 0 = true → s.dev.on Od.DICT_PCIE_AUTH 0 = false → s.dev.now.entry = 0 → bs.length = 56 → be bs 2 2 = 56 → be bs 0 1 = 0x11 →
      be bs 16 1 = role → role < 3 → 1024 ≤ be bs 36 2 → be bs 36 2 ≤ 8960 → s.dev.sess = [] → s.dev.windowQ = [] → s.dev.on Rg.WINDOW 0 0 = false →
      ∃ t, exec (.windowDoorbell 1 bs) s = .next t ∧ outsideKept s t ∧ t.dev.n Rg.WINDOW 0 0 = 1 ∧ t.dev.n Rg.WINDOW 0 1 = 0 ∧
        t.dev.windowResp ≠ [] ∧ t.dev.windowQ = [] ∧ (t.dev.sess.map fun y => (y.role, y.entry, y.opened)) = [(role, 0, false)]) ∧
    (s.dev.windowQ = [] → ∃ t, exec (.windowAck 1) s = .next t ∧ onlyWrites [Rg.WINDOW.key 0 0] s t ∧ t.dev.n Rg.WINDOW 0 0 = 0) ∧
    (∀ r l, s.dev.windowQ = r :: l →
      ∃ t, exec (.windowAck 1) s = .next t ∧ outsideKept s t ∧ t.dev.windowResp = r ∧ t.dev.windowQ = l ∧ t.dev.n Rg.WINDOW 0 0 = 1) ∧
    (∀ role (key : List Byte), s.clk.c = 0 → role < 3 → key.length = 32 → s.dev.sess = [] → calm s →
      ∃ t, exec (.dictKeyWrite role key) s = .next t ∧ outsideKept s t ∧ t.dev.blob Od.DICT_KEY role = key ∧
        bit (t.dev.n Od.DICT_KEY_SET 0) role = true) ∧
    (∀ (data : List Byte), data.length = 8 → calm s → plainWords s.dev = true →
      (s.clk.c = 0 → ∃ t, exec (.objectWrite 0x1100 0 0x20 0 data) s = .next t ∧ outsideKept s t ∧ t.dev.n Od.DET_SEED 0 = ofBytesLE data) ∧
      (∃ t, exec (.objectWrite 0x1100 0 1 0 data) s = .next t ∧ onlyWrites [] s t)) ∧
    (∀ idx inst sub o, objOf idx sub = some o → o.acc = .rc → o.arr = false → o.count = 1 → o.hasInst inst = true → plainWords s.dev = true →
      s.dev.dictPoison = [] → (o.ofPort = false ∨ s.dev.portExists inst = true) →
      ∃ t, exec (.rcRead idx inst sub 0 1) s = .next t ∧ onlyWrites [o.key inst 0] s t ∧ t.dev.get o inst 0 = o.ty.norm (o.default inst 0 + max 0 (s.dev.get o inst 0 - s.dev.now.was.rd o inst 0)) ∧
        t.dev.out = [{ kind := .response, vals := [idx, 0], bytes := o.ty.encode (s.dev.past.value s.clk o inst 0) }]) ∧
    (∀ e f (frame : List Byte), e < 2 → s.dev.mgmtFrame e frame = some f →
      (sliceZ f 12 10 = [0x08, 0x06, 0, 1, 8, 0, 6, 4, 0, 1] → sliceZ f 38 4 = s.dev.mgmtV4 e → s.dev.mgmtV4 e ≠ [0, 0, 0, 0] →
        ∃ t, exec (.arpRequest e frame) s = .next t ∧ onlyWrites [] s t ∧ (t.dev.out.map fun y => (y.unit, sliceZ y.bytes 0 6, sliceZ y.bytes 28 4)) =
          [(1 + e, sliceZ f 22 6, s.dev.mgmtV4 e)]) ∧
      (∀ b, v6Payload f 58 = some b → icmp6Ok f b = true → s.dev.mgmtV6 e ≠ List.replicate 16 0 →
        (24 ≤ b.length → be b 0 2 = 0x8700 → be f 21 1 = 255 → sliceZ b 8 16 = s.dev.mgmtV6 e →
          ∃ t, exec (.neighbourSolicitation e frame) s = .next t ∧ onlyWrites [] s t ∧ t.dev.out.map (·.unit) = [1 + e]) ∧
        (8 ≤ b.length → be b 0 2 = 0x8000 → sliceZ f 38 16 = s.dev.mgmtV6 e →
          ∃ t, exec (.echoRequest e frame) s = .next t ∧ onlyWrites [] s t ∧ (t.dev.out.map fun y => (y.unit, sliceZ y.bytes 0 6)) =
            [(1 + e, sliceZ f 6 6)])))

/-- At a boundary a ring with both bases set is enabled with every index 0; disabled, it loses what waits in it but copies under way, which end
unreported (no buffer of its own left). An SQ or CQ doorbell within the queue's size sets the index; one beyond it is counted and changes nothing
else. A coalescing time that has run out raises the ring's vector where the link is up and the vector unmasked. (R582, R583, R584, R595, R597) -/
def Obligations.HostRings : Prop :=
  ∀ (s : State) (r : Nat), ready s = true → r < 16 →
    (s.clk.c = 0 → s.dev.on Od.HOST_RING_ENABLE r = false → s.dev.on Od.HOST_RING_SQ_BASE r = true → s.dev.on Od.HOST_RING_CQ_BASE r = true → s.dev.hcmds = [] →
      s.dev.backlog = [] →
      ∃ t, exec (.ringEnable r) s = .next t ∧ outsideKept s t ∧ bare t.dev = bare s.dev ∧ t.dev.n Od.HOST_RING_ENABLE r = 1 ∧
        ∀ o ∈ [Rg.SQ_HEAD, Rg.SQ_TAIL, Rg.CQ_HEAD, Rg.CQ_TAIL, Rg.CQ_PASS, Rg.CQ_UNSIGNALLED, Rg.CQ_OLDEST], t.dev.n o r = 0) ∧
    (s.clk.c = 0 → s.dev.bufs = [] →
      ∃ t, exec (.ringDisable r) s = .next t ∧ onlyWrites [Od.HOST_RING_CQ_DROPS.key r 0, Od.HOST_RING_ENABLE.key r 0]
          { s with dev := { s.dev with backlog := s.dev.backlog.filter (·.ring != r), deliv := s.dev.deliv.filter (·.ring != r),
                                        hcmds := (s.dev.hcmds.filter fun (c : HostCmd) => c.ring != r || c.phase == 1).map fun (c : HostCmd) =>
                                          { c with mute := c.mute || c.ring == r } } } t ∧
        t.dev.n Od.HOST_RING_ENABLE r = 0 ∧ t.dev.n Od.HOST_RING_CQ_DROPS r =
          satAdd Od.HOST_RING_CQ_DROPS.ty.top (s.dev.n Od.HOST_RING_CQ_DROPS r) (s.dev.backlog.filter (·.ring == r)).length) ∧
    (∀ v, (v < s.dev.n Od.HOST_RING_SQ_ENTRIES r → ∃ t, exec (.sqTail r v) s = .next t ∧ onlyWrites [Rg.SQ_TAIL.key r 0] s t ∧ t.dev.n Rg.SQ_TAIL r = v) ∧
      (s.dev.n Od.HOST_RING_SQ_ENTRIES r ≤ v → ∃ t, exec (.sqTail r v) s = .next t ∧ onlyWrites [Od.HOST_RING_BAD_DOORBELL.key r 0] s t ∧
        t.dev.n Od.HOST_RING_BAD_DOORBELL r = satAdd Od.HOST_RING_BAD_DOORBELL.ty.top (s.dev.n Od.HOST_RING_BAD_DOORBELL r) 1) ∧
      (v < s.dev.n Od.HOST_RING_CQ_ENTRIES r → s.dev.backlog = [] → s.dev.hcmds = [] →
        ∃ t, exec (.cqHead r v) s = .next t ∧ onlyWrites [Rg.CQ_HEAD.key r 0] s t ∧ t.dev.n Rg.CQ_HEAD r = v) ∧
      (s.dev.n Od.HOST_RING_CQ_ENTRIES r ≤ v → ∃ t, exec (.cqHead r v) s = .next t ∧ onlyWrites [Od.HOST_RING_BAD_DOORBELL.key r 0] s t ∧
        t.dev.n Od.HOST_RING_BAD_DOORBELL r = satAdd Od.HOST_RING_BAD_DOORBELL.ty.top (s.dev.n Od.HOST_RING_BAD_DOORBELL r) 1)) ∧
    (s.dev.on Rg.CQ_OLDEST r = true → s.dev.n Rg.CQ_OLDEST r - 1 + s.dev.n Od.HOST_RING_COALESCE_TICKS r ≤ s.clk.tick → s.dev.linkOk = true →
      bit (s.dev.n Rg.MSIX_MASK 0) r = false →
      ∃ t, exec (.coalesceTimeout r) s = .next t ∧ onlyWrites [Rg.CQ_UNSIGNALLED.key r 0, Rg.CQ_OLDEST.key r 0] s t ∧
        t.dev.n Rg.CQ_UNSIGNALLED r = 0 ∧ t.dev.n Rg.CQ_OLDEST r = 0 ∧ t.dev.out = [{ kind := .msix, unit := r }])

/-- With no command under way and nothing waiting: the link's loss leaves it DOWN; its return, PERST high, UP with its speed and width; Bus Master
Enable takes its value; PERST low takes link and Bus Master Enable with it, high lets them return. Unmasking a pending vector of a usable link
raises it. A hot reset that is no warm reset disables every ring. (R594, R595, R596, R601, R656) -/
def Obligations.HostLinkEvents : Prop :=
  ∀ (s : State), ready s = true → s.dev.hcmds = [] → s.dev.backlog = [] →
    (∃ t, exec .hostLinkDown s = .next t ∧ onlyWrites [Od.HOST_LINK_STATE.key 0 0] s t ∧ t.dev.n Od.HOST_LINK_STATE 0 = 0) ∧
    (∀ speed width, 1 ≤ speed → speed ≤ 5 → (width = 1 ∨ width = 2 ∨ width = 4) → s.dev.on Rg.PERST 0 = false →
      ∃ t, exec (.hostLinkUp speed width) s = .next t ∧
        onlyWrites [Od.HOST_LINK_STATE.key 0 0, Od.HOST_LINK_SPEED.key 0 0, Od.HOST_LINK_WIDTH.key 0 0] s t ∧
        t.dev.n Od.HOST_LINK_STATE 0 = 2 ∧ t.dev.n Od.HOST_LINK_SPEED 0 = speed ∧ t.dev.n Od.HOST_LINK_WIDTH 0 = width) ∧
    (∀ on : Bool, ∃ t, exec (.busMasterEnableChange on) s = .next t ∧ onlyWrites [Rg.BME.key 0 0] s t ∧ t.dev.n Rg.BME 0 = if on then 1 else 0) ∧
    (∀ v, v < 64 → s.dev.linkOk = true → bit (s.dev.n Rg.MSIX_PENDING 0) v = true →
      ∃ t, exec (.msixUnmask v) s = .next t ∧ onlyWrites [Rg.MSIX_MASK.key 0 0, Rg.MSIX_PENDING.key 0 0] s t ∧
        bit (t.dev.n Rg.MSIX_MASK 0) v = false ∧ bit (t.dev.n Rg.MSIX_PENDING 0) v = false ∧ t.dev.out = [{ kind := .msix, unit := v }]) ∧
    (s.dev.bufs = [] → s.dev.on Od.RESET_PCIE_WARM 0 = false →
      ∃ t, exec .pcieHotReset s = .next t ∧ outsideKept s t ∧ t.dev.bufs = [] ∧ ∀ r, r < 16 → t.dev.on Od.HOST_RING_ENABLE r = false) ∧
    (s.dev.bufs = [] →
      ∃ t, exec (.pciePerst true) s = .next t ∧ outsideKept s t ∧ t.dev.n Rg.PERST 0 = 1 ∧ t.dev.n Rg.BME 0 = 0 ∧ t.dev.n Od.HOST_LINK_STATE 0 = 0 ∧
        ∀ r, r < 16 → t.dev.on Od.HOST_RING_ENABLE r = false) ∧
    (∃ t, exec (.pciePerst false) s = .next t ∧ onlyWrites [Rg.PERST.key 0 0] s t ∧ t.dev.n Rg.PERST 0 = 0)

/-- The next entry of an enabled ring with room for its completion and a usable link, nothing else of the ring under way and no contender of its clock
served that comes behind it, naming a buffer of the ring without stash: FREE frees it, HAND gives it to the other ring, both completed at once;
FETCH has its bytes copied and completes when the grants have moved them; INJECT from the buffer queues its frame for its pipeline. A whole delivery
whose transfer the grants admit is reported. Each read moves SQ_HEAD on. (R583, R585, R586, R589, R590) -/
def Obligations.HostCommandsAct : Prop :=
  ∀ (s : State) (r : Nat), ready s = true → r < 16 → s.dev.on Od.HOST_RING_ENABLE r = true → s.dev.linkOk = true → 0 < s.dev.cqFree r → s.dev.backlog = [] →
    s.dev.n Od.POOL_QUARANTINE_COUNT 0 ≤ 4096 →
    (∀ (entry : List Byte) h b, s.dev.hcmds = [] → entry.length = 64 → cmdOk entry = true → s.dev.n Rg.SQ_HEAD r ≠ s.dev.n Rg.SQ_TAIL r →
      h = ofBytesLE (sliceZ entry 4 4) → bits h 23 18 = 0 → s.dev.buf h = some b → b.owner = 8 + r → b.slot = none → b.stashing = false → s.dev.bufLate h (8 + r) = false →
      ((entry.getD 0 0).toNat = 2 →
        ∃ t, exec (.free r entry) s = .next t ∧ outsideKept s t ∧ t.dev.hcmds = [] ∧ t.dev.buf h = none ∧ 2 ≤ t.dev.out.length ∧
          t.dev.n Rg.SQ_HEAD r = (s.dev.n Rg.SQ_HEAD r + 1) % s.dev.n Od.HOST_RING_SQ_ENTRIES r) ∧
      ((entry.getD 0 0).toNat = 3 → s.dev.on Od.HOST_RING_ENABLE (entry.getD 2 0).toNat = true →
        ∃ t, exec (.hand r entry) s = .next t ∧ outsideKept s t ∧ t.dev.hcmds = [] ∧ 2 ≤ t.dev.out.length ∧
          t.dev.buf h = some { b with ring := none, owner := 8 + (entry.getD 2 0).toNat } ∧
          t.dev.n Rg.SQ_HEAD r = (s.dev.n Rg.SQ_HEAD r + 1) % s.dev.n Od.HOST_RING_SQ_ENTRIES r) ∧
      ((entry.getD 0 0).toNat = 1 → ofBytesLE (sliceZ entry 16 2) ≠ 0 → ofBytesLE (sliceZ entry 18 2) + ofBytesLE (sliceZ entry 16 2) ≤ b.bytes.length →
        ∃ t, exec (.fetch r entry) s = .next t ∧ outsideKept s t ∧ t.dev.n Rg.SQ_HEAD r = (s.dev.n Rg.SQ_HEAD r + 1) % s.dev.n Od.HOST_RING_SQ_ENTRIES r ∧
          (t.dev.hcmds.map fun c => (c.ring, c.phase, c.len, c.data)) =
            [(r, 1, ofBytesLE (sliceZ entry 16 2), b.view (ofBytesLE (sliceZ entry 18 2)) (ofBytesLE (sliceZ entry 16 2)))]) ∧
      (∀ p n data ok, (entry.getD 0 0).toNat = 4 → bit (entry.getD 1 0).toNat 1 = true → p = ofBytesLE (sliceZ entry 20 2) % 1024 →
        n = ofBytesLE (sliceZ entry 16 2) → s.dev.portExists p = true → 14 ≤ n → n + 4 ≤ s.dev.n Od.PORT_MTU p → n ≤ b.bytes.length →
        s.dev.inject.length < 64 → s.dev.poolLate s.clk (8 + r) n = false →
        ∃ t, exec (.inject r entry data ok) s = .next t ∧ outsideKept s t ∧
          t.dev.n Rg.SQ_HEAD r = (s.dev.n Rg.SQ_HEAD r + 1) % s.dev.n Od.HOST_RING_SQ_ENTRIES r ∧
          (t.dev.inject.map fun j => (j.port, j.bytes, j.handle, j.ring)) =
            (s.dev.inject.map fun j => (j.port, j.bytes, j.handle, j.ring)) ++ [(p, b.bytes.take n, h, r)])) ∧
    (∀ c, s.dev.hcmds = [c] → c.ring = r → c.phase = 1 → c.status = 0 → c.flag 0 = false → c.mute = false →
      (s.dev.dmaOf s.clk (c.num 18 2) c.len c.stashed).isSome = true →
      ∃ t, exec (.fetchDone r true) s = .next t ∧ outsideKept s t ∧ t.dev.hcmds = [] ∧
        t.dev.out.head? = some { kind := .host, unit := r, vals := [c.num 8 8], bytes := c.data } ∧
        t.dev.n Od.HOST_RING_FETCHED r = satAdd Od.HOST_RING_FETCHED.ty.top (s.dev.n Od.HOST_RING_FETCHED r) 1) ∧
    (∀ v, s.dev.hcmds = [] → (s.dev.deliv.find? fun v => v.whole) = some v → v.ring = r →
      (s.dev.xfer s.clk (ceilDiv v.len 256 * if v.egress then 2 else 1) 0).isSome = true →
      ∃ t, exec (.deliveryComplete r) s = .next t ∧ outsideKept s t ∧ t.dev.deliv = s.dev.deliv.erase v ∧ t.dev.backlog = [] ∧ 2 ≤ t.dev.out.length ∧
        t.dev.n Od.HOST_RING_DELIVERED r = satAdd Od.HOST_RING_DELIVERED.ty.top (s.dev.n Od.HOST_RING_DELIVERED r) 1)

/-- In every state, also with the dies standing still: after POWER_ON_RESET, COLD_RESET and OSC_LOSS the timebase stands at tick 0, clock 0 with its raw
counter at 0, the HBM lists nothing, and no frame, copy, entry, staged write or session is left. The kind and cause are noted, POWER_ON_RESET lets
the dies run, OSC_LOSS stops them and COLD_RESET leaves them stopped if the oscillator is still absent. Every element that the reset does not keep
and does not itself write reads its default. (R17, R361, R601, R603, R640) -/
def Obligations.PowerOnAndColdResets : Prop :=
  ∀ (s : State) (cut : Nat) (waited : Bool),
    (∃ t, exec (.powerOnReset cut) s = .next t ∧ coldStarted 1 1 s t ∧ t.halted = false) ∧
    (∃ t, exec (.coldReset waited cut) s = .next t ∧ coldStarted 2 2 s t ∧ (t.halted = true ↔ s.dev.n Rg.HALT 0 = 1)) ∧
    (s.dev.n Rg.HALT 0 ≠ 1 → ∃ t, exec (.oscLoss cut) s = .next t ∧ coldStarted 2 7 s t ∧ t.dev.n Rg.HALT 0 = 1) ∧
    (s.dev.n Rg.HALT 0 = 1 → ∃ t, exec (.oscLoss cut) s = .next t ∧ onlyWrites [] s t) ∧
    (s.dev.n Rg.HALT 0 = 1 →
      ∃ t, exec .oscRestored s = .next t ∧ onlyWrites [Rg.HALT.key 0 0] s t ∧ t.halted = false)

/-- A warm reset of a cause of R601, by its object at a boundary, leaves RESET.STATE at 2 with no frame, copy, entry or session, the timebase running
on; with no session, ring, accumulator or journal open it adopts RESET.LEVEL.NEXT, notes kind 3 and its cause, and leaves HBM alone. START_UP with
two copies too short to be images reports NONE and COPY 255; with a usable copy of this level that holds no record it reports the copy and its
sequence number; both end in RUN with every sorus link UP. A copy of another level causes a warm reset. (R604, R609, R613, R614, R616) -/
def Obligations.WarmResetAndStart : Prop :=
  ∀ (s : State), ready s = true →
    (∀ cause, 3 ≤ cause → cause ≤ 6 → cause ≠ 3 ∨ s.clk.c = 0 →
      ∃ t, exec (.warmReset cause) s = .next t ∧ t.clk = s.clk ∧ t.pending = s.pending ∧ emptied t.dev ∧ t.dev.n Od.RESET_STATE 0 = 2 ∧
        (s.dev.accs = [] → s.dev.recQ = [] → s.dev.n Od.JOURNAL_STATE 0 = 0 → s.dev.sess = [] →
          (∀ r, r < 16 → s.dev.on Od.HOST_RING_ENABLE r = false) →
          t.mem = s.mem ∧ t.dev.get Od.DEVICE_BEHAVIOUR_LEVEL 0 = Od.DEVICE_BEHAVIOUR_LEVEL.ty.norm (s.dev.n Od.RESET_LEVEL_NEXT 0 : Nat) ∧
            t.dev.n Od.RESET_LAST_KIND 0 = 3 ∧ t.dev.n Od.RESET_LAST_CAUSE 0 = cause)) ∧
    (∀ (a b : List Byte) (vout : Option Nat), s.dev.n Od.RESET_STATE 0 ≠ 1 → a.length < 64 → b.length < 64 →
      ∃ t, exec (.startUp a b vout) s = .next t ∧ outsideKept s t ∧ t.dev.n Od.SEED_STATUS 0 = 3 ∧ t.dev.n Od.SEED_COPY 0 = 255 ∧
        t.dev.n Od.SEED_FAILED_COPIES 0 = 3 ∧ t.dev.n Od.RESET_STATE 0 = 1 ∧ ∀ i, i < 8 → t.dev.n Od.DEVICE_SORUS_LINK_STATE i = 2) ∧
    (∀ (a b : List Byte) (vout : Option Nat) (n : Nat) (x : List Byte), s.dev.n Od.RESET_STATE 0 ≠ 1 →
      (s.dev.seedChoice (seedOrder a b)).1 = some (n, x, []) →
      (le x 6 1 = s.dev.n Od.DEVICE_BEHAVIOUR_LEVEL 0 → s.dev.n Od.SEED_REFUSED 0 = 0 →
        ∃ t, exec (.startUp a b vout) s = .next t ∧ outsideKept s t ∧ t.dev.n Od.SEED_STATUS 0 = 1 ∧ t.dev.n Od.SEED_COPY 0 = n ∧
          t.dev.n Od.SEED_SEQUENCE 0 = le x 16 8 ∧ t.dev.n Od.RESET_STATE 0 = 1 ∧ ∀ i, i < 8 → t.dev.n Od.DEVICE_SORUS_LINK_STATE i = 2) ∧
      (le x 6 1 ≠ s.dev.n Od.DEVICE_BEHAVIOUR_LEVEL 0 →
        ∃ t, exec (.startUp a b vout) s = .next t ∧ t.clk = s.clk ∧ emptied t.dev ∧ t.dev.n Od.RESET_STATE 0 = 2))

/-- At a boundary, with no frame in reception and no copy in transmission: a reset of a running sorus, form LOGIC or LANES, counts itself, leaves the
sorus in reset until 2,000 ticks on, its ports that were neither DISABLED nor without a reference DOWN, the ports of other sori as they were; under
LANES no port keeps its lock. At that boundary the reset ends: the sorus runs and its link is UP. A flush of a running sorus counts itself, holds
the pipeline for 64 clocks from the boundary, and leaves what has been admitted in the queues. (R601, R605, R606, R622) -/
def Obligations.SorusResetsAndFlushes : Prop :=
  ∀ (s : State) (x : Nat), ready s = true → plainWords s.dev = true → s.dev.tx = [] →
    (x < 8 → s.clk.c = 0 → s.dev.now.resets = [] → s.dev.rx = [] → s.dev.sorusRuns x = true → s.dev.replaying = false →
      (∃ t, exec (.sorusResetLogic x) s = .next t ∧ sorusInReset x s t) ∧
      (∃ t, exec (.sorusResetLanes x) s = .next t ∧ sorusInReset x s t ∧
        ∀ p ∈ s.dev.sorusPorts x, s.dev.link p ≠ lkDISABLED → s.dev.link p ≠ lkNO_REFCLK → t.dev.on Rg.LOCK_HELD p = false)) ∧
    (x < 8 → s.dev.n Rg.SORUS_UNTIL x ≠ 0 →
      (s.dev.n Rg.SORUS_UNTIL x ≤ s.clk.tick + 1 →
        ∃ t, exec (.sorusResetEnd x) s = .next t ∧ outsideKept s t ∧ t.dev.sorusRuns x = true ∧ t.dev.n Od.DEVICE_SORUS_LINK_STATE x = 2 ∧
          t.dev.n Rg.SORUS_UNTIL x = 0 ∧ t.dev.n Rg.WAKE_PORT x = 0) ∧
      (s.clk.tick + 1 < s.dev.n Rg.SORUS_UNTIL x → ∃ t, exec (.sorusResetEnd x) s = .next t ∧ onlyWrites [] s t)) ∧
    (x < 64 → s.clk.c = 0 → s.dev.sorusRuns (x / 8) = true →
      ∃ t, exec (.pipelineFlush x) s = .next t ∧ outsideKept s t ∧ s.clk.raw / 64 + 64 ≤ t.dev.n Rg.HOLD_FLUSH x ∧
        t.dev.n Od.RESET_COUNTS 0 4 = satAdd Od.RESET_COUNTS.ty.top (s.dev.n Od.RESET_COUNTS 0 4) 1 ∧ t.dev.copies = s.dev.copies ∧
        t.dev.frames = s.dev.frames)

/-- At a boundary: a running sorus whose ports all read PARKED or DISABLED, and that may park, is parked with its link down; the last one not parked,
POWER.IDLE_ENABLE standing, takes the device into idle. A park that may not stand, or of a sorus that does not run, changes nothing. A wake of a
parked sorus is a reset of it, or in idle waits 200 ticks for the hub; of another it changes nothing. When that time has come and no wake waits, the
hub has left idle. (R618, R619, R620) -/
def Obligations.SoriParkAndWake : Prop :=
  ∀ (s : State) (x : Nat), ready s = true → x < 8 →
    (s.clk.c = 0 → s.dev.parkOk x = true → s.dev.sorusRuns x = true → plainWords s.dev = true →
      ∃ t, exec (.sorusPark x) s = .next t ∧ outsideKept s t ∧ t.dev.n Od.POWER_SORUS_STATE x = 2 ∧ t.dev.n Od.POWER_SORUS_PARK x = 1 ∧
        t.dev.n Od.DEVICE_SORUS_LINK_STATE x = 0 ∧
        (s.dev.on Od.POWER_IDLE_ENABLE 0 = true → (∀ o, o < 8 → o ≠ x → s.dev.n Od.POWER_SORUS_STATE o = 2) → t.dev.idle = true)) ∧
    (s.clk.c = 0 → s.dev.parkOk x = false ∨ s.dev.sorusRuns x = false → ∃ t, exec (.sorusPark x) s = .next t ∧ onlyWrites [] s t) ∧
    (s.clk.c = 0 → s.dev.n Od.POWER_SORUS_STATE x ≠ 2 → ∃ t, exec (.sorusWake x) s = .next t ∧ onlyWrites [] s t) ∧
    (s.clk.c = 0 → s.dev.n Od.POWER_SORUS_STATE x = 2 → s.dev.idle = true → s.dev.n Rg.IDLE_UNTIL 0 = 0 →
      ∃ t, exec (.sorusWake x) s = .next t ∧
        onlyWrites [Od.POWER_SORUS_PARK.key x 0, Rg.WAKE_PORT.key x 0, Od.POWER_SORUS_STATE.key x 0, Rg.IDLE_UNTIL.key 0 0] s t ∧
        t.dev.n Od.POWER_SORUS_STATE x = 3 ∧ t.dev.n Rg.IDLE_UNTIL 0 = s.clk.tick + 201) ∧
    (s.clk.c = 0 → s.dev.n Od.POWER_SORUS_STATE x = 2 → s.dev.idle = false → plainWords s.dev = true → s.dev.tx = [] → s.dev.rx = [] →
      ∃ t, exec (.sorusWake x) s = .next t ∧ outsideKept s t ∧ t.dev.n Od.POWER_SORUS_STATE x = 3 ∧
        t.dev.n Rg.SORUS_UNTIL x = s.clk.tick + 2001) ∧
    (s.dev.n Rg.IDLE_UNTIL 0 ≠ 0 → s.dev.n Rg.IDLE_UNTIL 0 ≤ s.clk.tick + 1 → (∀ o, o < 8 → s.dev.n Od.POWER_SORUS_STATE o ≠ 3) →
      ∃ t, exec .idleExit s = .next t ∧ onlyWrites [Rg.IDLE_UNTIL.key 0 0, Od.POWER_STATE.key 0 0] s t ∧ t.dev.idle = false)

/-- The first recovery due leaves the list and stands under way from this boundary, its window of FAULT.WINDOW open; at rungs DETECT and ISOLATE nothing
else follows, at CONTAIN its ring is disabled, at FLUSH a running sorus's pipeline is held and the flush counted. Windows that have run out end; the
oldest of that subsystem's queue starts then. A device whose boundary for isolation has come, and is not yet isolated, is isolated for that cause,
each TRACKING view in HOLDOVER, no mat lease held or asked for. (R625, R627, R629, R632) -/
def Obligations.RecoveriesAndIsolation : Prop :=
  ∀ (s : State), ready s = true →
    ((s.dev.fltDue.find? fun r => decide (r.start ≤ s.clk.tick)) = none → ∃ t, exec .recoveryStart s = .next t ∧ onlyWrites [] s t) ∧
    (∀ r, (s.dev.fltDue.find? fun r => decide (r.start ≤ s.clk.tick)) = some r → r.via = 0 →
      (r.rung = 0 ∨ r.rung = 5 → ∃ t, exec .recoveryStart s = .next t ∧
        onlyWrites [] { s with dev := { s.dev with fltDue := s.dev.fltDue.erase r, flt := (s.dev.flt.filter fun w => !r.same w) ++ [started s.clk s.dev r] } } t) ∧
      (r.rung = 4 → r.unit < 16 → s.dev.bufs = [] → ∃ t, exec .recoveryStart s = .next t ∧ outsideKept s t ∧ t.dev.on Od.HOST_RING_ENABLE r.unit = false ∧
        t.dev.fltDue = s.dev.fltDue.erase r ∧ t.dev.flt = (s.dev.flt.filter fun w => !r.same w) ++ [started s.clk s.dev r]) ∧
      (r.rung = 1 → r.unit < 64 → plainWords s.dev = true → s.dev.tx = [] →
        ({ s.dev with fltDue := s.dev.fltDue.erase r } : Dev).covered s.clk r = false →
        ∃ t, exec .recoveryStart s = .next t ∧ outsideKept s t ∧ s.clk.raw / 64 + 64 ≤ t.dev.n Rg.HOLD_FLUSH r.unit ∧
          t.dev.n Od.RESET_COUNTS 0 4 = satAdd Od.RESET_COUNTS.ty.top (s.dev.n Od.RESET_COUNTS 0 4) 1)) ∧
    (s.dev.fltQ = [] → ∃ t, exec .recoveryWindowEnd s = .next t ∧
      onlyWrites [] { s with dev := { s.dev with flt := s.dev.flt.filter fun r => !r.over s.clk } } t) ∧
    (∀ r q, s.dev.flt = [r] → r.over s.clk = true → r.rung ≠ 0 → s.dev.fltDue = [] → s.dev.fltQ = [q] → faultSub q.kind = faultSub r.kind →
      q.rung = 4 → q.unit < 16 → s.dev.bufs = [] → s.dev.n Od.FAULT_LOG_NEXT 0 < 32 →
      ∃ t, exec .recoveryWindowEnd s = .next t ∧ outsideKept s t ∧ t.dev.fltQ = [] ∧ t.dev.flt = [started s.clk s.dev q] ∧
        t.dev.n Od.FAULT_PENDING 0 (faultSub r.kind - 1) = 0 ∧ t.dev.on Od.HOST_RING_ENABLE q.unit = false) ∧
    (s.dev.isoDue = none → ∃ t, exec .isolationEntry s = .next t ∧ onlyWrites [] s t) ∧
    (∀ c at_, s.dev.isoDue = some (c, at_) → c < 256 →
      (s.clk.tick < at_ → ∃ t, exec .isolationEntry s = .next t ∧ onlyWrites [] s t) ∧
      (at_ ≤ s.clk.tick → s.dev.on Od.FAULT_ISOLATED 0 = true → ∃ t, exec .isolationEntry s = .next t ∧
        onlyWrites [] { s with dev := { s.dev with isoDue := none } } t) ∧
      (at_ ≤ s.clk.tick → s.dev.on Od.FAULT_ISOLATED 0 = false → ∃ t, exec .isolationEntry s = .next t ∧ outsideKept s t ∧ t.dev.isoDue = none ∧
        t.dev.on Od.FAULT_ISOLATED 0 = true ∧ t.dev.n Od.FAULT_CAUSE 0 = c ∧
        (∀ v, v < 4 → s.dev.n Od.TIME_VIEW_STATE v = 1 → t.dev.n Od.TIME_VIEW_STATE v = 2) ∧
        (s.dev.on Od.MAT_ENABLE 0 = true → t.dev.n Rg.O_TERM 0 = 0 ∧ t.dev.n Rg.H_TERM 0 = 0)))

/-- Thirteen readings that are due become POWER.TEMP, with the peaks; a die at 115 degrees or more stops every die but the crust, drops the host link
and leaves RUN. A PMBus alert is counted with its status. A step that is due is sent to the regulator: acknowledged it is the setpoint,
unacknowledged its tries begin; a retry sends the same step again, and after the third the failure is counted. A read-back that is due keeps what
was read. None of these acts before it is due. (R644, R652) -/
def Obligations.TemperatureAndSupply : Prop :=
  ∀ (s : State), ready s = true →
    (∀ l : List Int, l.length = 13 → (∀ x ∈ l, -(2 ^ 31) ≤ x ∧ x < 2 ^ 31) → s.dev.n Rg.TEMP_LAST 0 = 0 ∨ s.dev.n Rg.TEMP_LAST 0 + 1999 ≤ s.clk.tick →
      ∃ t, exec (.temperatureSample l) s = .next t ∧ outsideKept s t ∧ bare t.dev = bare s.dev ∧
        (∀ i, i < 13 → t.dev.get Od.POWER_TEMP 0 i = l.getD i 0 ∧
          t.dev.get Od.POWER_TEMP_PEAK 0 i = Od.POWER_TEMP_PEAK.ty.norm (max (l.getD i 0) (s.dev.get Od.POWER_TEMP_PEAK 0 i))) ∧
        (t.halted = true ↔ ∃ i, i < 9 ∧ 1840 ≤ l.getD i 0) ∧
        (t.halted = true → t.dev.n Rg.HALT 0 = 2 ∧ t.dev.n Od.RESET_STATE 0 = 0 ∧ t.dev.n Od.HOST_LINK_STATE 0 = 0) ∧
        (t.dev.on Rg.TEMP_LOW 0 = true ↔ ∃ i, i < 13 ∧ (s.dev.n Od.POWER_TEMP_ALERT 0 * 16 : Nat) < l.getD i 0)) ∧
    (∀ l, s.dev.n Rg.TEMP_LAST 0 ≠ 0 → s.clk.tick < s.dev.n Rg.TEMP_LAST 0 + 1999 →
      ∃ t, exec (.temperatureSample l) s = .next t ∧ onlyWrites [] s t) ∧
    (∀ x, ∃ t, exec (.pmbAlert x) s = .next t ∧ onlyWrites [Od.POWER_AVS_ALERTS.key 0 0, Od.POWER_AVS_STATUS.key 0 0] s t ∧
      t.dev.n Od.POWER_AVS_STATUS 0 = x % 65536 ∧
      t.dev.n Od.POWER_AVS_ALERTS 0 = satAdd Od.POWER_AVS_ALERTS.ty.top (s.dev.n Od.POWER_AVS_ALERTS 0) 1) ∧
    (∀ (ack : Bool) (v i : Nat),
      (s.dev.avsDue s.clk = false → ∃ t, exec (.avsStep ack v i) s = .next t ∧ onlyWrites [] s t) ∧
      (s.dev.avsDue s.clk = true → ∃ t, exec (.avsStep ack v i) s = .next t ∧ outsideKept s t ∧ bare t.dev = bare s.dev ∧
        t.dev.out.map (·.vals) = [[0x21, voutWord s.dev.avsNext ((s.dev.n Rg.AVS_EXP 0 : Int) - 100)]] ∧ t.dev.n Rg.AVS_LAST 0 = s.clk.tick + 1 ∧
        (ack = true → t.dev.get Od.POWER_AVS_SETPOINT 0 = Od.POWER_AVS_SETPOINT.ty.norm (s.dev.avsNext : Nat)) ∧
        (ack = false → t.dev.get Od.POWER_AVS_SETPOINT 0 = s.dev.get Od.POWER_AVS_SETPOINT 0 ∧ t.dev.n Rg.AVS_TRIES 0 = 1 ∧
          t.dev.n Rg.AVS_STEP 0 = s.dev.avsNext)) ∧
      (s.dev.on Od.POWER_AVS_ENABLE 0 = true → s.dev.on Rg.AVS_TRIES 0 = true → s.dev.n Rg.AVS_TRY_TICK 0 + 200 ≤ s.clk.tick →
        ∃ t, exec (.avsRetry ack v i) s = .next t ∧ outsideKept s t ∧ bare t.dev = bare s.dev ∧
          t.dev.out.map (·.vals) = [[0x21, voutWord (s.dev.n Rg.AVS_STEP 0) ((s.dev.n Rg.AVS_EXP 0 : Int) - 100)]] ∧
          (ack = true → t.dev.n Rg.AVS_TRIES 0 = 0 ∧
            t.dev.get Od.POWER_AVS_SETPOINT 0 = Od.POWER_AVS_SETPOINT.ty.norm (s.dev.n Rg.AVS_STEP 0 : Nat)) ∧
          (ack = false → t.dev.get Od.POWER_AVS_SETPOINT 0 = s.dev.get Od.POWER_AVS_SETPOINT 0) ∧
          (ack = false → s.dev.n Rg.AVS_TRIES 0 = 3 → t.dev.n Rg.AVS_TRIES 0 = 0 ∧
            t.dev.n Od.POWER_AVS_FAILURES 0 = satAdd Od.POWER_AVS_FAILURES.ty.top (s.dev.n Od.POWER_AVS_FAILURES 0) 1)) ∧
      (s.dev.on Od.POWER_AVS_ENABLE 0 = true → s.dev.n Rg.AVS_READ 0 = 0 ∨ s.dev.n Rg.AVS_READ 0 + 19999 ≤ s.clk.tick →
        ∃ t, exec (.avsReadback v i) s = .next t ∧
          onlyWrites [Od.POWER_AVS_READ_VOUT.key 0 0, Od.POWER_AVS_READ_IOUT.key 0 0, Rg.AVS_READ.key 0 0] s t ∧
          t.dev.get Od.POWER_AVS_READ_VOUT 0 = Od.POWER_AVS_READ_VOUT.ty.norm (v : Nat) ∧
          t.dev.get Od.POWER_AVS_READ_IOUT 0 = Od.POWER_AVS_READ_IOUT.ty.norm (i : Nat)))

/-- A second of operation is counted also while the dies stand still, the hour after 3,600, the bin of the hottest die, the rating consumed. A sample
begins at a multiple of its period in RUN, with the dies that count, and ends 2,000 ticks later with the shifts and slacks read and the margin from
the least slack. The voltage test keeps the lowest pass, with 5 mV, of each die. After a sample the planner raises the target by 5 mV where a margin
is below its floor, counts a ceiling, or leaves it. (R507, R661, R662, R663, R664, R668) -/
def Obligations.ServiceLife : Prop :=
  ∀ (s : State),
    (∃ (t : State) (b : Nat), exec .operatingSecond s = .next t ∧ b < 7 ∧
      onlyWrites [Od.DEVICE_OP_SECONDS.key 0 0, Od.DEVICE_OP_HOURS.key 0 0, Od.AGE_TJ_SECONDS.key 0 b, Od.AGE_RATING_CONSUMED.key 0 0] s t ∧
      (s.dev.n Od.DEVICE_OP_SECONDS 0 < 3599 → t.dev.n Od.DEVICE_OP_SECONDS 0 = s.dev.n Od.DEVICE_OP_SECONDS 0 + 1) ∧
      (3599 ≤ s.dev.n Od.DEVICE_OP_SECONDS 0 → t.dev.n Od.DEVICE_OP_SECONDS 0 = 0 ∧
        t.dev.n Od.DEVICE_OP_HOURS 0 = satAdd Od.DEVICE_OP_HOURS.ty.top (s.dev.n Od.DEVICE_OP_HOURS 0) 1) ∧
      t.dev.n Od.AGE_TJ_SECONDS 0 b = satAdd Od.AGE_TJ_SECONDS.ty.top (s.dev.n Od.AGE_TJ_SECONDS 0 b) 1) ∧
    (ready s = true →
      (s.dev.n Od.RESET_STATE 0 = 1 → s.clk.tick % (s.dev.n Od.AGE_SAMPLE_PERIOD 0 * 2000000) = 0 →
        ∃ t, exec .ageSampleStart s = .next t ∧ onlyWrites [Rg.AGE_START.key 0 0, Rg.AGE_START.key 0 1] s t ∧
          t.dev.n Rg.AGE_START 0 = s.clk.tick + 1 ∧ ∀ i, i < 9 → bit (t.dev.n Rg.AGE_START 0 1) i = s.dev.dieRuns i) ∧
      (s.dev.n Od.RESET_STATE 0 ≠ 1 → ∃ t, exec .ageSampleStart s = .next t ∧ onlyWrites [] s t) ∧
      (∀ a b : List (List Int), s.dev.n Rg.AGE_START 0 ≠ 0 → s.dev.n Rg.AGE_START 0 + 2000 ≤ s.clk.tick + 1 →
        ∃ t, exec (.ageSampleEnd a b) s = .next t ∧ outsideKept s t ∧ bare t.dev = bare s.dev ∧ t.dev.n Rg.AGE_START 0 = 0 ∧
          t.dev.n Rg.AGE_READY 0 = s.clk.tick + 1 ∧
          (∀ i e x, i < 9 → e < 16 → bit (s.dev.n Rg.AGE_START 0 1) i = true → (b.getD i [])[e]? = some x →
            t.dev.get Od.AGE_PATH_SLACK i e = Od.AGE_PATH_SLACK.ty.norm x) ∧
          (∀ i e x, i < 9 → e < 64 → bit (s.dev.n Rg.AGE_START 0 1) i = true → (a.getD i [])[e]? = some x →
            t.dev.get Od.AGE_RO_SHIFT i e = Od.AGE_RO_SHIFT.ty.norm x) ∧
          t.dev.get Od.AGE_MARGIN_TIMING 0 = Od.AGE_MARGIN_TIMING.ty.norm ((least (((List.range 9).filter (bit (s.dev.n Rg.AGE_START 0 1))).flatMap
            fun i => (List.range 16).map fun e => t.dev.get Od.AGE_PATH_SLACK i e)).getD 0)) ∧
      (∀ a b : List (List Int), s.dev.n Rg.AGE_START 0 = 0 ∨ s.clk.tick + 1 < s.dev.n Rg.AGE_START 0 + 2000 →
        ∃ t, exec (.ageSampleEnd a b) s = .next t ∧ onlyWrites [] s t) ∧
      (∀ l : List Nat, s.dev.n Rg.AGE_VMIN_LAST 0 = 0 → (∀ x ∈ l, x ≤ 1000) →
        ∃ t, exec (.vminTest l) s = .next t ∧ outsideKept s t ∧ bare t.dev = bare s.dev ∧
          t.dev.n Rg.AGE_VMIN_LAST 0 = s.dev.n Od.DEVICE_OP_HOURS 0 + 1 ∧
          ∀ i x, i < 9 → s.dev.dieRuns i = true → l[i]? = some x → t.dev.n Od.AGE_VMIN i = max 550 x + 5) ∧
      (s.dev.n Rg.AGE_READY 0 = 0 → ∃ t, exec .plannerDecision s = .next t ∧ onlyWrites [] s t) ∧
      (s.dev.n Rg.AGE_READY 0 ≠ 0 → s.dev.on Od.AGE_PLAN_ENABLE 0 = true → s.dev.maint = false → s.dev.isolated = false →
        s.dev.n Od.RESET_STATE 0 = 1 → s.dev.on Od.AGE_PLAN_LANES 0 = false → s.dev.n Od.AGE_PLAN_SCRUB_RAISE 0 = 0 →
        ∃ t, exec .plannerDecision s = .next t ∧ outsideKept s t ∧ bare t.dev = bare s.dev ∧ t.dev.n Rg.AGE_READY 0 = 0 ∧
          (s.dev.get Od.AGE_MARGIN_TIMING 0 < s.dev.get Od.AGE_PLAN_TIMING_FLOOR 0 → s.dev.n Od.POWER_AVS_TARGET 0 < 800 → s.dev.n Rg.AGE_RAISED 0 = 0 →
            t.dev.n Od.POWER_AVS_TARGET 0 = s.dev.n Od.POWER_AVS_TARGET 0 + 5 ∧ t.dev.n Od.AGE_PLAN_LEARNED_TARGET 0 = s.dev.n Od.POWER_AVS_TARGET 0 + 5) ∧
          (s.dev.get Od.AGE_MARGIN_TIMING 0 < s.dev.get Od.AGE_PLAN_TIMING_FLOOR 0 → 800 ≤ s.dev.n Od.POWER_AVS_TARGET 0 →
            t.dev.n Od.AGE_PLAN_AT_CEILING 0 = satAdd Od.AGE_PLAN_AT_CEILING.ty.top (s.dev.n Od.AGE_PLAN_AT_CEILING 0) 1) ∧
          (s.dev.get Od.AGE_PLAN_TIMING_FLOOR 0 ≤ s.dev.get Od.AGE_MARGIN_TIMING 0 → s.dev.get Od.AGE_PLAN_VMIN_FLOOR 0 ≤ s.dev.get Od.AGE_MARGIN_VMIN 0 →
            t.dev.get Od.POWER_AVS_TARGET 0 = s.dev.get Od.POWER_AVS_TARGET 0)))

/-- At a boundary, no journal being recorded, no stored word in error, no effect of a write half made: RELEARN sets the learned target and the target to
POWER.AVS.BOOT. MAINTAIN, with the mat off and the journal idle or stopped, enters maintenance mode with no copy left to capture; otherwise it
changes nothing. ADOPT of a checkpoint of another version, with a wrong CRC, of another level or of a journal without END sets only the status that
says so; of a good one it takes the journal as stopped. (R664, R674) -/
def Obligations.ReplacementAndRelearning : Prop :=
  ∀ (s : State), ready s = true → s.clk.c = 0 → plainWords s.dev = true → s.dev.dictPoison = [] → calm s → s.dev.n Od.JOURNAL_STATE 0 ≠ 2 →
    (∃ t, exec .planRelearn s = .next t ∧ onlyWrites [Od.AGE_PLAN_LEARNED_TARGET.key 0 0, Od.POWER_AVS_TARGET.key 0 0] s t ∧
      t.dev.get Od.POWER_AVS_TARGET 0 = Od.POWER_AVS_TARGET.ty.norm (s.dev.n Od.POWER_AVS_BOOT 0 : Nat) ∧
      t.dev.get Od.AGE_PLAN_LEARNED_TARGET 0 = Od.AGE_PLAN_LEARNED_TARGET.ty.norm (s.dev.n Od.POWER_AVS_BOOT 0 : Nat)) ∧
    (s.dev.n Od.JOURNAL_STATE 0 = 0 ∨ s.dev.n Od.JOURNAL_STATE 0 = 3 → s.dev.n Od.MAT_STATE 0 = 0 →
      ∃ t, exec .replaceMaintain s = .next t ∧ outsideKept s t ∧ t.dev.n Rg.MAINT 0 = 2 ∧ t.dev.jobs = []) ∧
    (s.dev.n Od.MAT_STATE 0 ≠ 0 ∨ s.dev.n Od.JOURNAL_STATE 0 = 1 → ∃ t, exec .replaceMaintain s = .next t ∧ onlyWrites [] s t) ∧
    (ofBytesLE (s.mem.rdBytes (s.dev.n Od.JOURNAL_CHECKPOINT_BASE 0) 4) ≠ 1 →
      ∃ t, exec .replaceAdopt s = .next t ∧ onlyWrites [Od.AGE_REPLACE_STATUS.key 0 0] s t ∧ t.dev.n Od.AGE_REPLACE_STATUS 0 = 2) ∧
    (ofBytesLE (s.mem.rdBytes (s.dev.n Od.JOURNAL_CHECKPOINT_BASE 0) 4) = 1 →
      (s.dev.checkpointGood s.mem = false →
        ∃ t, exec .replaceAdopt s = .next t ∧ onlyWrites [Od.AGE_REPLACE_STATUS.key 0 0] s t ∧ t.dev.n Od.AGE_REPLACE_STATUS 0 = 3) ∧
      (s.dev.checkpointGood s.mem = true → (s.mem.rd (s.dev.n Od.JOURNAL_CHECKPOINT_BASE 0 + 4)).toNat ≠ s.dev.n Od.DEVICE_BEHAVIOUR_LEVEL 0 →
        ∃ t, exec .replaceAdopt s = .next t ∧ onlyWrites [Od.AGE_REPLACE_STATUS.key 0 0] s t ∧ t.dev.n Od.AGE_REPLACE_STATUS 0 = 4) ∧
      (s.dev.checkpointGood s.mem = true → (s.mem.rd (s.dev.n Od.JOURNAL_CHECKPOINT_BASE 0 + 4)).toNat = s.dev.n Od.DEVICE_BEHAVIOUR_LEVEL 0 →
        (((List.range s.dev.journalRoom).filterMap (s.dev.jrec s.mem)).getLast? = none →
          ∃ t, exec .replaceAdopt s = .next t ∧ onlyWrites [Od.AGE_REPLACE_STATUS.key 0 0] s t ∧ t.dev.n Od.AGE_REPLACE_STATUS 0 = 5) ∧
        (∀ r, ((List.range s.dev.journalRoom).filterMap (s.dev.jrec s.mem)).getLast? = some r → jtype r = 6 →
          ∃ t, exec .replaceAdopt s = .next t ∧ outsideKept s t ∧ bare t.dev = bare s.dev ∧ t.dev.n Od.AGE_REPLACE_STATUS 0 = 1 ∧
            t.dev.n Od.JOURNAL_STATE 0 = 3 ∧ t.dev.n Od.JOURNAL_CHECKPOINT_DONE 0 = 1 ∧ t.dev.n Od.JOURNAL_STOP_TICK 0 = jnum r 0 8 ∧
            t.dev.n Od.JOURNAL_STOP_REASON 0 = jnum r 16 1 ∧
            t.dev.n Od.JOURNAL_START_TICK 0 = ofBytesLE (s.mem.rdBytes (s.dev.n Od.JOURNAL_CHECKPOINT_BASE 0 + 8) 8))))

/-- While the dies run, TICK_BOUNDARY answers a state whose tick is the next one at its first clock, 799, 800 or 801 clocks long, the raw counter moved
on by 64 for each clock of the old tick, the queue as it was. While the dies stand still every command that is neither a reset nor the crust's own
changes nothing. Where the interval of an asserted class of a port in service has passed, the refresh notes it for every such class and sends one
PAUSE frame of the port's quanta, which is counted as it leaves, at once or after the frames that hold it up; where none is due it changes nothing.
(R38, R39, R42, R109, R361, R640, R652) -/
def Obligations.BoundariesPass : Prop :=
  ∀ (s : State) (slips : List (Nat × Int)) (passed : List (Nat × Nat)),
    (s.halted = false →
      ∃ t, exec (.tickBoundary slips passed) s = .next t ∧ t.clk.tick = s.clk.tick + 1 ∧ t.clk.c = 0 ∧ t.pending = s.pending ∧
        t.clk.raw = (s.clk.raw + 64 * s.clk.len) % 2 ^ 72 ∧ (t.clk.len = 799 ∨ t.clk.len = 800 ∨ t.clk.len = 801)) ∧
    (s.halted = true → ∀ c : Instr, c.wf = true → ofCrust c = false → exec c s = .next s.quiet) ∧
    (∀ p, ready s = true → p < 1024 →
      let due := (s.dev.flowClasses p).filter fun c => bit (s.dev.n Rg.ASSERTED p) c &&
        decide (s.dev.n Rg.FLOW_LAST p c + s.dev.n Od.PORT_FLOW_TX_REFRESH p ≤ s.clk.tick + 1)
      (due = [] → ∃ t, exec (.flowControlRefresh p) s = .next t ∧ onlyWrites [] s t) ∧
      (due ≠ [] → s.dev.inService p = true → s.dev.maint = false → s.dev.n Od.PORT_FLOW_MODE p = 1 → plainWords s.dev = true →
        ∃ (t : State) (o : Out), exec (.flowControlRefresh p) s = .next t ∧ outsideKept s t ∧ bare t.dev = bare { s.dev with ctl := t.dev.ctl } ∧
          o.kind = .control ∧ o.unit = p ∧ o.vals = [1, s.dev.n Od.PORT_FLOW_TX_QUANTA p] ∧ o.bytes.length = 64 ∧
          (∀ c ∈ due, t.dev.n Rg.FLOW_LAST p c = s.clk.tick + 1) ∧
          (s.dev.mayLeave s.clk o = true → t.dev.out = [o] ∧ t.dev.ctl = s.dev.ctl ∧ countedPair Od.PORT_TX_PAUSE p 64 s t) ∧
          (s.dev.mayLeave s.clk o = false → t.dev.out = [] ∧ t.dev.ctl = s.dev.ctl ++ [o]) ∧
          ∀ (q : Obj) (i e : Nat), q.key i e ∉ (due.map fun c => Rg.FLOW_LAST.key p c) ++ [Od.PORT_TX_PAUSE.key p 0, Od.PORT_TX_PAUSE.key p 1,
            Rg.WIN.key p 2, Rg.WIN.key p 3, Rg.SHED_TX.key p 0, Rg.RESTORE_TX.key p 0] → t.dev.get q i e = s.dev.get q i e))
end

