-- ==== Sys2Proof/Laws/Check.lean ====
section
/-! SUPPORT. The CRC-32 keeps two different remainders different, whatever bytes follow. -/
namespace Sys2Proof.Machine

theorem crc32Bit_lt {c : Nat} (h : c < 2 ^ 32) : crc32Bit c < 2 ^ 32 := by
  have : c / 2 < 2 ^ 32 := by omega
  unfold crc32Bit
  split
  · exact Nat.xor_lt_two_pow this (by decide)
  · exact this

theorem crc32Bit_ne {a b : Nat} (ha : a < 2 ^ 32) (hb : b < 2 ^ 32) (h : a ≠ b) : crc32Bit a ≠ crc32Bit b := by
  have top (x : Nat) (hx : x < 2 ^ 32) : (x / 2).testBit 31 = false := Nat.testBit_lt_two_pow (by omega)
  have high (x : Nat) (hx : x < 2 ^ 32) : (x / 2 ^^^ 0xEDB88320).testBit 31 = true := by
    rw [Nat.testBit_xor, top x hx]; decide
  unfold crc32Bit
  split <;> split
  · intro e; have := Nat.xor_left_injective e; omega
  · intro e; have := high a ha; rw [e, top b hb] at this; cases this
  · intro e; have := high b hb; rw [← e, top a ha] at this; cases this
  · omega

theorem crc32Byte_lt {c : Nat} (h : c < 2 ^ 32) (b : Byte) : crc32Byte c b < 2 ^ 32 := by
  unfold crc32Byte
  have : c ^^^ b.toNat < 2 ^ 32 := Nat.xor_lt_two_pow h (by omega)
  repeat (first | exact this | apply crc32Bit_lt)

theorem crc32Byte_ne {x y : Nat} (hx : x < 2 ^ 32) (hy : y < 2 ^ 32) (h : x ≠ y) (b : Byte) : crc32Byte x b ≠ crc32Byte y b := by
  have step (u v : Nat) (w : u < 2 ^ 32 ∧ v < 2 ^ 32 ∧ u ≠ v) : crc32Bit u < 2 ^ 32 ∧ crc32Bit v < 2 ^ 32 ∧ crc32Bit u ≠ crc32Bit v :=
    ⟨crc32Bit_lt w.1, crc32Bit_lt w.2.1, crc32Bit_ne w.1 w.2.1 w.2.2⟩
  have hb : b.toNat < 2 ^ 32 := by omega
  have first : x ^^^ b.toNat < 2 ^ 32 ∧ y ^^^ b.toNat < 2 ^ 32 ∧ x ^^^ b.toNat ≠ y ^^^ b.toNat :=
    ⟨Nat.xor_lt_two_pow hx hb, Nat.xor_lt_two_pow hy hb, fun e => h (Nat.xor_left_injective e)⟩
  exact (step _ _ (step _ _ (step _ _ (step _ _ (step _ _ (step _ _ (step _ _ (step _ _ first)))))))).2.2

theorem crc32_fold_ne (bs : List Byte) : ∀ {x y : Nat}, x < 2 ^ 32 → y < 2 ^ 32 → x ≠ y → bs.foldl crc32Byte x ≠ bs.foldl crc32Byte y := by
  induction bs with
  | nil => intro x y _ _ h; exact h
  | cons b t ih => intro x y hx hy h; exact ih (crc32Byte_lt hx b) (crc32Byte_lt hy b) (crc32Byte_ne hx hy h b)

/-- Two byte strings that differ in their first byte alone have different CRCs where the first step tells the bytes apart. -/
theorem crc32_head_ne (a b : Byte) (t : List Byte) (h : crc32Byte 0xFFFFFFFF a ≠ crc32Byte 0xFFFFFFFF b) : crc32 (a :: t) ≠ crc32 (b :: t) := by
  intro e
  exact crc32_fold_ne t (crc32Byte_lt (by decide) a) (crc32Byte_lt (by decide) b) h (Nat.xor_left_injective e)

end Sys2Proof.Machine
end

