-- ==== Sys2Proof/Laws/Store.lean ====
section
/-! SUPPORT. Reading the store after a write: what each of its operations leaves under every key. -/
namespace Sys2Proof.Machine

@[simp] theorem Store.find_nil (k : Nat) : Store.find [] k = none := rfl

theorem Store.find_put_same (st : Store) (k : Nat) (v : Int) : (Store.put st k v).find k = some v := by
  induction st with
  | nil => simp [Store.put, Store.find]
  | cons x t ih =>
    obtain ⟨a, w⟩ := x
    unfold Store.put
    split
    · simp [Store.find]
    · split
      · simp [Store.find]
      · rename_i h; simp [Store.find, Ne.symm h, ih]

theorem Store.find_put_other (st : Store) {k j : Nat} (v : Int) (h : k ≠ j) : (Store.put st k v).find j = st.find j := by
  induction st with
  | nil => simp [Store.put, Store.find, h]
  | cons x t ih =>
    obtain ⟨a, w⟩ := x
    unfold Store.put
    split
    · simp [Store.find, h]
    · split
      · rename_i e; subst e; simp [Store.find, h]
      · simp [Store.find, ih]

theorem Store.find_del_same (st : Store) (k : Nat) : (Store.del st k).find k = none := by
  induction st with
  | nil => rfl
  | cons x t ih =>
    obtain ⟨a, w⟩ := x
    unfold Store.del
    split
    · exact ih
    · rename_i h; simp [Store.find, h, ih]

theorem Store.find_del_other (st : Store) {k j : Nat} (h : k ≠ j) : (Store.del st k).find j = st.find j := by
  induction st with
  | nil => rfl
  | cons x t ih =>
    obtain ⟨a, w⟩ := x
    unfold Store.del
    split
    · rename_i e; subst e; simp [Store.find, h, ih]
    · simp [Store.find, ih]

/-- What is written reads back, as a value of its type. -/
theorem Store.rd_wr_same (st : Store) (o : Obj) (i e : Nat) (v : Int) : (st.wr o i e v).rd o i e = o.ty.norm v := by
  unfold Store.wr Store.rd
  split
  · rename_i h; rw [Store.find_del_same, h]; rfl
  · rw [Store.find_put_same]; rfl

/-- A write leaves every other key as it was. -/
theorem Store.rd_wr_other (st : Store) (o q : Obj) (i e j f : Nat) (v : Int) (h : o.key i e ≠ q.key j f) :
    (st.wr o i e v).rd q j f = st.rd q j f := by
  unfold Store.wr Store.rd
  split
  · rw [Store.find_del_other st h]
  · rw [Store.find_put_other st _ h]

theorem Store.sorted_tail {x : Nat × Int} {t : Store} (h : Store.sorted (x :: t) = true) : Store.sorted t = true := by
  cases t with
  | nil => rfl
  | cons y u => simp [Store.sorted] at h ⊢; exact h.2

theorem Store.sorted_cons {a : Nat} {v : Int} {t : Store} :
    Store.sorted ((a, v) :: t) = true ↔ (∀ x ∈ t, a < x.1) ∧ Store.sorted t = true := by
  induction t generalizing a v with
  | nil => simp [Store.sorted]
  | cons y u ih =>
    obtain ⟨b, w⟩ := y
    simp only [Store.sorted, Bool.and_eq_true, decide_eq_true_eq, List.mem_cons, forall_eq_or_imp]
    constructor
    · rintro ⟨h, k⟩
      exact ⟨⟨h, fun x hx => Nat.lt_trans h ((ih.mp k).1 x hx)⟩, k⟩
    · rintro ⟨⟨h, -⟩, k⟩
      exact ⟨h, k⟩

theorem Store.mem_put {st : Store} {k : Nat} {v : Int} {x : Nat × Int} (h : x ∈ Store.put st k v) : x = (k, v) ∨ x ∈ st := by
  induction st with
  | nil => simpa [Store.put] using h
  | cons y t ih =>
    obtain ⟨a, w⟩ := y
    unfold Store.put at h
    split at h
    · simpa using h
    · split at h
      · simp only [List.mem_cons] at h ⊢; tauto
      · simp only [List.mem_cons] at h ⊢
        rcases h with h | h
        · exact .inr (.inl h)
        · rcases ih h with h | h
          · exact .inl h
          · exact .inr (.inr h)

theorem Store.mem_del {st : Store} {k : Nat} {x : Nat × Int} (h : x ∈ Store.del st k) : x ∈ st := by
  induction st with
  | nil => exact h
  | cons y t ih =>
    obtain ⟨a, w⟩ := y
    unfold Store.del at h
    split at h
    · exact List.mem_cons_of_mem _ (ih h)
    · simp only [List.mem_cons] at h ⊢; exact h.imp id ih

/-- Putting a value keeps the keys rising. -/
theorem Store.put_sorted {st : Store} (k : Nat) (v : Int) (h : st.sorted = true) : (Store.put st k v).sorted = true := by
  induction st with
  | nil => rfl
  | cons x t ih =>
    obtain ⟨a, w⟩ := x
    obtain ⟨ha, ht⟩ := Store.sorted_cons.mp h
    unfold Store.put
    split
    · rename_i hk
      exact Store.sorted_cons.mpr ⟨by
        intro y hy
        rcases List.mem_cons.mp hy with rfl | hy
        · exact hk
        · exact Nat.lt_trans hk (ha y hy), h⟩
    · split
      · rename_i e; subst e; exact Store.sorted_cons.mpr ⟨ha, ht⟩
      · rename_i h1 h2
        refine Store.sorted_cons.mpr ⟨fun y hy => ?_, ih ht⟩
        rcases Store.mem_put hy with rfl | hy
        · show a < k; omega
        · exact ha y hy

/-- Removing a key keeps the keys rising. -/
theorem Store.del_sorted {st : Store} (k : Nat) (h : st.sorted = true) : (Store.del st k).sorted = true := by
  induction st with
  | nil => rfl
  | cons x t ih =>
    obtain ⟨a, w⟩ := x
    obtain ⟨ha, ht⟩ := Store.sorted_cons.mp h
    unfold Store.del
    split
    · exact ih ht
    · exact Store.sorted_cons.mpr ⟨fun y hy => ha y (Store.mem_del hy), ih ht⟩

/-- A write of an object's element keeps the store's form. -/
theorem Store.wr_sorted {st : Store} (o : Obj) (i e : Nat) (v : Int) (h : st.sorted = true) : (st.wr o i e v).sorted = true := by
  unfold Store.wr
  split
  · exact Store.del_sorted _ h
  · exact Store.put_sorted _ _ h

end Sys2Proof.Machine
end

