-- ==== Sys2Proof/Laws/State.lean ====
section
/-! SUPPORT. The fields of the device after each of its plainest updates, and the objects read after a write. -/
namespace Sys2Proof.Machine

/-- What is written reads back, as a value of its type. -/
@[simp] theorem Dev.get_set_same (d : Dev) (o : Obj) (i e : Nat) (v : Int) : (d.set o i v e).get o i e = o.ty.norm v :=
  Store.rd_wr_same _ o i e v

/-- A write leaves every other key as it was. -/
theorem Dev.get_set_other (d : Dev) (o q : Obj) (i e j f : Nat) (v : Int) (h : o.key i e ≠ q.key j f) :
    (d.set o i v e).get q j f = d.get q j f := Store.rd_wr_other _ o q i e j f v h

theorem Dev.get_put_same (d : Dev) (o : Obj) (i e v : Nat) : (d.put o i v e).get o i e = o.ty.norm v := Store.rd_wr_same _ o i e v

theorem Dev.get_put_other (d : Dev) (o q : Obj) (i e j f v : Nat) (h : o.key i e ≠ q.key j f) :
    (d.put o i v e).get q j f = d.get q j f := Store.rd_wr_other _ o q i e j f v h

/-- A number that fits its type reads back. -/
theorem Dev.n_put_same (d : Dev) (o : Obj) (i e v : Nat) (h : o.ty.norm (v : Int) = v) : (d.put o i v e).n o i e = v := by
  unfold Dev.n; rw [Dev.get_put_same, h]; rfl

theorem Dev.n_put_other (d : Dev) (o q : Obj) (i e j f v : Nat) (h : o.key i e ≠ q.key j f) :
    (d.put o i v e).n q j f = d.n q j f := by unfold Dev.n; rw [Dev.get_put_other d o q i e j f v h]

theorem Dev.on_put_other (d : Dev) (o q : Obj) (i e j f v : Nat) (h : o.key i e ≠ q.key j f) :
    (d.put o i v e).on q j f = d.on q j f := by unfold Dev.on; rw [Dev.n_put_other d o q i e j f v h]

theorem Dev.get_bump_other (d : Dev) (o q : Obj) (i e j f v : Nat) (h : o.key i e ≠ q.key j f) :
    (d.bump o i v e).get q j f = d.get q j f := Dev.get_put_other _ _ _ _ _ _ _ _ h

@[simp] theorem Dev.when_true (d : Dev) (f : Dev → Dev) : d.when true f = f d := rfl
@[simp] theorem Dev.when_false (d : Dev) (f : Dev → Dev) : d.when false f = d := rfl
@[simp] theorem Dev.each_nil {α : Type} (d : Dev) (f : Dev → α → Dev) : d.each [] f = d := rfl
@[simp] theorem Dev.each_cons {α : Type} (d : Dev) (x : α) (l : List α) (f : Dev → α → Dev) : d.each (x :: l) f = (f d x).each l f := rfl
@[simp] theorem Dev.get_emit (d : Dev) (x : Out) (o : Obj) (i e : Nat) : (d.emit x).get o i e = d.get o i e := rfl
@[simp] theorem Dev.n_emit (d : Dev) (x : Out) (o : Obj) (i e : Nat) : (d.emit x).n o i e = d.n o i e := rfl
@[simp] theorem Dev.emit_out (d : Dev) (x : Out) : (d.emit x).out = d.out ++ [x] := rfl

@[simp] theorem Dev.set_now (d : Dev) (o : Obj) (i e : Nat) (v : Int) : (d.set o i v e).now = d.now := rfl
@[simp] theorem Dev.set_freeCtr (d : Dev) (o : Obj) (i e : Nat) (v : Int) : (d.set o i v e).freeCtr = d.freeCtr := rfl
@[simp] theorem Dev.set_rx (d : Dev) (o : Obj) (i e : Nat) (v : Int) : (d.set o i v e).rx = d.rx := rfl
@[simp] theorem Dev.set_frames (d : Dev) (o : Obj) (i e : Nat) (v : Int) : (d.set o i v e).frames = d.frames := rfl
@[simp] theorem Dev.set_nextRec (d : Dev) (o : Obj) (i e : Nat) (v : Int) : (d.set o i v e).nextRec = d.nextRec := rfl
@[simp] theorem Dev.set_copies (d : Dev) (o : Obj) (i e : Nat) (v : Int) : (d.set o i v e).copies = d.copies := rfl
@[simp] theorem Dev.set_tx (d : Dev) (o : Obj) (i e : Nat) (v : Int) : (d.set o i v e).tx = d.tx := rfl
@[simp] theorem Dev.set_ctl (d : Dev) (o : Obj) (i e : Nat) (v : Int) : (d.set o i v e).ctl = d.ctl := rfl
@[simp] theorem Dev.set_bufs (d : Dev) (o : Obj) (i e : Nat) (v : Int) : (d.set o i v e).bufs = d.bufs := rfl
@[simp] theorem Dev.set_jobs (d : Dev) (o : Obj) (i e : Nat) (v : Int) : (d.set o i v e).jobs = d.jobs := rfl
@[simp] theorem Dev.set_plan (d : Dev) (o : Obj) (i e : Nat) (v : Int) : (d.set o i v e).plan = d.plan := rfl
@[simp] theorem Dev.set_flight (d : Dev) (o : Obj) (i e : Nat) (v : Int) : (d.set o i v e).flight = d.flight := rfl
@[simp] theorem Dev.set_dues (d : Dev) (o : Obj) (i e : Nat) (v : Int) : (d.set o i v e).dues = d.dues := rfl
@[simp] theorem Dev.set_staged (d : Dev) (o : Obj) (i e : Nat) (v : Int) : (d.set o i v e).staged = d.staged := rfl
@[simp] theorem Dev.set_lfsr (d : Dev) (o : Obj) (i e : Nat) (v : Int) : (d.set o i v e).lfsr = d.lfsr := rfl
@[simp] theorem Dev.set_tree (d : Dev) (o : Obj) (i e : Nat) (v : Int) : (d.set o i v e).tree = d.tree := rfl
@[simp] theorem Dev.set_treePoison (d : Dev) (o : Obj) (i e : Nat) (v : Int) : (d.set o i v e).treePoison = d.treePoison := rfl
@[simp] theorem Dev.set_poison (d : Dev) (o : Obj) (i e : Nat) (v : Int) : (d.set o i v e).poison = d.poison := rfl
@[simp] theorem Dev.set_emPoison (d : Dev) (o : Obj) (i e : Nat) (v : Int) : (d.set o i v e).emPoison = d.emPoison := rfl
@[simp] theorem Dev.set_emPend (d : Dev) (o : Obj) (i e : Nat) (v : Int) : (d.set o i v e).emPend = d.emPend := rfl
@[simp] theorem Dev.set_emStaged (d : Dev) (o : Obj) (i e : Nat) (v : Int) : (d.set o i v e).emStaged = d.emStaged := rfl
@[simp] theorem Dev.set_emReads (d : Dev) (o : Obj) (i e : Nat) (v : Int) : (d.set o i v e).emReads = d.emReads := rfl
@[simp] theorem Dev.set_learn (d : Dev) (o : Obj) (i e : Nat) (v : Int) : (d.set o i v e).learn = d.learn := rfl
@[simp] theorem Dev.set_views (d : Dev) (o : Obj) (i e : Nat) (v : Int) : (d.set o i v e).views = d.views := rfl
@[simp] theorem Dev.set_gpend (d : Dev) (o : Obj) (i e : Nat) (v : Int) : (d.set o i v e).gpend = d.gpend := rfl
@[simp] theorem Dev.set_sgate (d : Dev) (o : Obj) (i e : Nat) (v : Int) : (d.set o i v e).sgate = d.sgate := rfl
@[simp] theorem Dev.set_sgateOld (d : Dev) (o : Obj) (i e : Nat) (v : Int) : (d.set o i v e).sgateOld = d.sgateOld := rfl
@[simp] theorem Dev.set_accs (d : Dev) (o : Obj) (i e : Nat) (v : Int) : (d.set o i v e).accs = d.accs := rfl
@[simp] theorem Dev.set_recQ (d : Dev) (o : Obj) (i e : Nat) (v : Int) : (d.set o i v e).recQ = d.recQ := rfl
@[simp] theorem Dev.set_mram (d : Dev) (o : Obj) (i e : Nat) (v : Int) : (d.set o i v e).mram = d.mram := rfl
@[simp] theorem Dev.set_flt (d : Dev) (o : Obj) (i e : Nat) (v : Int) : (d.set o i v e).flt = d.flt := rfl
@[simp] theorem Dev.set_fltDue (d : Dev) (o : Obj) (i e : Nat) (v : Int) : (d.set o i v e).fltDue = d.fltDue := rfl
@[simp] theorem Dev.set_fltQ (d : Dev) (o : Obj) (i e : Nat) (v : Int) : (d.set o i v e).fltQ = d.fltQ := rfl
@[simp] theorem Dev.set_isoDue (d : Dev) (o : Obj) (i e : Nat) (v : Int) : (d.set o i v e).isoDue = d.isoDue := rfl
@[simp] theorem Dev.set_jstage (d : Dev) (o : Obj) (i e : Nat) (v : Int) : (d.set o i v e).jstage = d.jstage := rfl
@[simp] theorem Dev.set_jtab (d : Dev) (o : Obj) (i e : Nat) (v : Int) : (d.set o i v e).jtab = d.jtab := rfl
@[simp] theorem Dev.set_capFifo (d : Dev) (o : Obj) (i e : Nat) (v : Int) : (d.set o i v e).capFifo = d.capFifo := rfl
@[simp] theorem Dev.set_em (d : Dev) (o : Obj) (i e : Nat) (v : Int) : (d.set o i v e).em = d.em := rfl
@[simp] theorem Dev.set_hbmPoison (d : Dev) (o : Obj) (i e : Nat) (v : Int) : (d.set o i v e).hbmPoison = d.hbmPoison := rfl
@[simp] theorem Dev.set_matReqs (d : Dev) (o : Obj) (i e : Nat) (v : Int) : (d.set o i v e).matReqs = d.matReqs := rfl
@[simp] theorem Dev.set_matApply (d : Dev) (o : Obj) (i e : Nat) (v : Int) : (d.set o i v e).matApply = d.matApply := rfl
@[simp] theorem Dev.set_matOwn (d : Dev) (o : Obj) (i e : Nat) (v : Int) : (d.set o i v e).matOwn = d.matOwn := rfl
@[simp] theorem Dev.set_matShadow (d : Dev) (o : Obj) (i e : Nat) (v : Int) : (d.set o i v e).matShadow = d.matShadow := rfl
@[simp] theorem Dev.set_matSets (d : Dev) (o : Obj) (i e : Nat) (v : Int) : (d.set o i v e).matSets = d.matSets := rfl
@[simp] theorem Dev.set_viewWrites (d : Dev) (o : Obj) (i e : Nat) (v : Int) : (d.set o i v e).viewWrites = d.viewWrites := rfl
@[simp] theorem Dev.set_deliv (d : Dev) (o : Obj) (i e : Nat) (v : Int) : (d.set o i v e).deliv = d.deliv := rfl
@[simp] theorem Dev.set_backlog (d : Dev) (o : Obj) (i e : Nat) (v : Int) : (d.set o i v e).backlog = d.backlog := rfl
@[simp] theorem Dev.set_hcmds (d : Dev) (o : Obj) (i e : Nat) (v : Int) : (d.set o i v e).hcmds = d.hcmds := rfl
@[simp] theorem Dev.set_inject (d : Dev) (o : Obj) (i e : Nat) (v : Int) : (d.set o i v e).inject = d.inject := rfl
@[simp] theorem Dev.set_tio (d : Dev) (o : Obj) (i e : Nat) (v : Int) : (d.set o i v e).tio = d.tio := rfl
@[simp] theorem Dev.set_mgmtIn (d : Dev) (o : Obj) (i e : Nat) (v : Int) : (d.set o i v e).mgmtIn = d.mgmtIn := rfl
@[simp] theorem Dev.set_out (d : Dev) (o : Obj) (i e : Nat) (v : Int) : (d.set o i v e).out = d.out := rfl
@[simp] theorem Dev.set_found (d : Dev) (o : Obj) (i e : Nat) (v : Int) : (d.set o i v e).found = d.found := rfl
@[simp] theorem Dev.set_wb (d : Dev) (o : Obj) (i e : Nat) (v : Int) : (d.set o i v e).wb = d.wb := rfl
@[simp] theorem Dev.set_flipped (d : Dev) (o : Obj) (i e : Nat) (v : Int) : (d.set o i v e).flipped = d.flipped := rfl
@[simp] theorem Dev.set_flipUsed (d : Dev) (o : Obj) (i e : Nat) (v : Int) : (d.set o i v e).flipUsed = d.flipUsed := rfl
@[simp] theorem Dev.set_dictPoison (d : Dev) (o : Obj) (i e : Nat) (v : Int) : (d.set o i v e).dictPoison = d.dictPoison := rfl
@[simp] theorem Dev.set_dump (d : Dev) (o : Obj) (i e : Nat) (v : Int) : (d.set o i v e).dump = d.dump := rfl
@[simp] theorem Dev.set_sess (d : Dev) (o : Obj) (i e : Nat) (v : Int) : (d.set o i v e).sess = d.sess := rfl
@[simp] theorem Dev.set_fails (d : Dev) (o : Obj) (i e : Nat) (v : Int) : (d.set o i v e).fails = d.fails := rfl
@[simp] theorem Dev.set_windowQ (d : Dev) (o : Obj) (i e : Nat) (v : Int) : (d.set o i v e).windowQ = d.windowQ := rfl
@[simp] theorem Dev.set_windowResp (d : Dev) (o : Obj) (i e : Nat) (v : Int) : (d.set o i v e).windowResp = d.windowResp := rfl
@[simp] theorem Dev.set_ckpt (d : Dev) (o : Obj) (i e : Nat) (v : Int) : (d.set o i v e).ckpt = d.ckpt := rfl
@[simp] theorem Dev.set_mgmtVia (d : Dev) (o : Obj) (i e : Nat) (v : Int) : (d.set o i v e).mgmtVia = d.mgmtVia := rfl

@[simp] theorem Dev.put_now (d : Dev) (o : Obj) (i v e : Nat) : (d.put o i v e).now = d.now := rfl
@[simp] theorem Dev.put_freeCtr (d : Dev) (o : Obj) (i v e : Nat) : (d.put o i v e).freeCtr = d.freeCtr := rfl
@[simp] theorem Dev.put_rx (d : Dev) (o : Obj) (i v e : Nat) : (d.put o i v e).rx = d.rx := rfl
@[simp] theorem Dev.put_frames (d : Dev) (o : Obj) (i v e : Nat) : (d.put o i v e).frames = d.frames := rfl
@[simp] theorem Dev.put_nextRec (d : Dev) (o : Obj) (i v e : Nat) : (d.put o i v e).nextRec = d.nextRec := rfl
@[simp] theorem Dev.put_copies (d : Dev) (o : Obj) (i v e : Nat) : (d.put o i v e).copies = d.copies := rfl
@[simp] theorem Dev.put_tx (d : Dev) (o : Obj) (i v e : Nat) : (d.put o i v e).tx = d.tx := rfl
@[simp] theorem Dev.put_ctl (d : Dev) (o : Obj) (i v e : Nat) : (d.put o i v e).ctl = d.ctl := rfl
@[simp] theorem Dev.put_bufs (d : Dev) (o : Obj) (i v e : Nat) : (d.put o i v e).bufs = d.bufs := rfl
@[simp] theorem Dev.put_jobs (d : Dev) (o : Obj) (i v e : Nat) : (d.put o i v e).jobs = d.jobs := rfl
@[simp] theorem Dev.put_plan (d : Dev) (o : Obj) (i v e : Nat) : (d.put o i v e).plan = d.plan := rfl
@[simp] theorem Dev.put_flight (d : Dev) (o : Obj) (i v e : Nat) : (d.put o i v e).flight = d.flight := rfl
@[simp] theorem Dev.put_dues (d : Dev) (o : Obj) (i v e : Nat) : (d.put o i v e).dues = d.dues := rfl
@[simp] theorem Dev.put_staged (d : Dev) (o : Obj) (i v e : Nat) : (d.put o i v e).staged = d.staged := rfl
@[simp] theorem Dev.put_lfsr (d : Dev) (o : Obj) (i v e : Nat) : (d.put o i v e).lfsr = d.lfsr := rfl
@[simp] theorem Dev.put_tree (d : Dev) (o : Obj) (i v e : Nat) : (d.put o i v e).tree = d.tree := rfl
@[simp] theorem Dev.put_treePoison (d : Dev) (o : Obj) (i v e : Nat) : (d.put o i v e).treePoison = d.treePoison := rfl
@[simp] theorem Dev.put_poison (d : Dev) (o : Obj) (i v e : Nat) : (d.put o i v e).poison = d.poison := rfl
@[simp] theorem Dev.put_emPoison (d : Dev) (o : Obj) (i v e : Nat) : (d.put o i v e).emPoison = d.emPoison := rfl
@[simp] theorem Dev.put_emPend (d : Dev) (o : Obj) (i v e : Nat) : (d.put o i v e).emPend = d.emPend := rfl
@[simp] theorem Dev.put_emStaged (d : Dev) (o : Obj) (i v e : Nat) : (d.put o i v e).emStaged = d.emStaged := rfl
@[simp] theorem Dev.put_emReads (d : Dev) (o : Obj) (i v e : Nat) : (d.put o i v e).emReads = d.emReads := rfl
@[simp] theorem Dev.put_learn (d : Dev) (o : Obj) (i v e : Nat) : (d.put o i v e).learn = d.learn := rfl
@[simp] theorem Dev.put_views (d : Dev) (o : Obj) (i v e : Nat) : (d.put o i v e).views = d.views := rfl
@[simp] theorem Dev.put_gpend (d : Dev) (o : Obj) (i v e : Nat) : (d.put o i v e).gpend = d.gpend := rfl
@[simp] theorem Dev.put_sgate (d : Dev) (o : Obj) (i v e : Nat) : (d.put o i v e).sgate = d.sgate := rfl
@[simp] theorem Dev.put_sgateOld (d : Dev) (o : Obj) (i v e : Nat) : (d.put o i v e).sgateOld = d.sgateOld := rfl
@[simp] theorem Dev.put_accs (d : Dev) (o : Obj) (i v e : Nat) : (d.put o i v e).accs = d.accs := rfl
@[simp] theorem Dev.put_recQ (d : Dev) (o : Obj) (i v e : Nat) : (d.put o i v e).recQ = d.recQ := rfl
@[simp] theorem Dev.put_mram (d : Dev) (o : Obj) (i v e : Nat) : (d.put o i v e).mram = d.mram := rfl
@[simp] theorem Dev.put_flt (d : Dev) (o : Obj) (i v e : Nat) : (d.put o i v e).flt = d.flt := rfl
@[simp] theorem Dev.put_fltDue (d : Dev) (o : Obj) (i v e : Nat) : (d.put o i v e).fltDue = d.fltDue := rfl
@[simp] theorem Dev.put_fltQ (d : Dev) (o : Obj) (i v e : Nat) : (d.put o i v e).fltQ = d.fltQ := rfl
@[simp] theorem Dev.put_isoDue (d : Dev) (o : Obj) (i v e : Nat) : (d.put o i v e).isoDue = d.isoDue := rfl
@[simp] theorem Dev.put_jstage (d : Dev) (o : Obj) (i v e : Nat) : (d.put o i v e).jstage = d.jstage := rfl
@[simp] theorem Dev.put_jtab (d : Dev) (o : Obj) (i v e : Nat) : (d.put o i v e).jtab = d.jtab := rfl
@[simp] theorem Dev.put_capFifo (d : Dev) (o : Obj) (i v e : Nat) : (d.put o i v e).capFifo = d.capFifo := rfl
@[simp] theorem Dev.put_em (d : Dev) (o : Obj) (i v e : Nat) : (d.put o i v e).em = d.em := rfl
@[simp] theorem Dev.put_hbmPoison (d : Dev) (o : Obj) (i v e : Nat) : (d.put o i v e).hbmPoison = d.hbmPoison := rfl
@[simp] theorem Dev.put_matReqs (d : Dev) (o : Obj) (i v e : Nat) : (d.put o i v e).matReqs = d.matReqs := rfl
@[simp] theorem Dev.put_matApply (d : Dev) (o : Obj) (i v e : Nat) : (d.put o i v e).matApply = d.matApply := rfl
@[simp] theorem Dev.put_matOwn (d : Dev) (o : Obj) (i v e : Nat) : (d.put o i v e).matOwn = d.matOwn := rfl
@[simp] theorem Dev.put_matShadow (d : Dev) (o : Obj) (i v e : Nat) : (d.put o i v e).matShadow = d.matShadow := rfl
@[simp] theorem Dev.put_matSets (d : Dev) (o : Obj) (i v e : Nat) : (d.put o i v e).matSets = d.matSets := rfl
@[simp] theorem Dev.put_viewWrites (d : Dev) (o : Obj) (i v e : Nat) : (d.put o i v e).viewWrites = d.viewWrites := rfl
@[simp] theorem Dev.put_deliv (d : Dev) (o : Obj) (i v e : Nat) : (d.put o i v e).deliv = d.deliv := rfl
@[simp] theorem Dev.put_backlog (d : Dev) (o : Obj) (i v e : Nat) : (d.put o i v e).backlog = d.backlog := rfl
@[simp] theorem Dev.put_hcmds (d : Dev) (o : Obj) (i v e : Nat) : (d.put o i v e).hcmds = d.hcmds := rfl
@[simp] theorem Dev.put_inject (d : Dev) (o : Obj) (i v e : Nat) : (d.put o i v e).inject = d.inject := rfl
@[simp] theorem Dev.put_tio (d : Dev) (o : Obj) (i v e : Nat) : (d.put o i v e).tio = d.tio := rfl
@[simp] theorem Dev.put_mgmtIn (d : Dev) (o : Obj) (i v e : Nat) : (d.put o i v e).mgmtIn = d.mgmtIn := rfl
@[simp] theorem Dev.put_out (d : Dev) (o : Obj) (i v e : Nat) : (d.put o i v e).out = d.out := rfl
@[simp] theorem Dev.put_found (d : Dev) (o : Obj) (i v e : Nat) : (d.put o i v e).found = d.found := rfl
@[simp] theorem Dev.put_wb (d : Dev) (o : Obj) (i v e : Nat) : (d.put o i v e).wb = d.wb := rfl
@[simp] theorem Dev.put_flipped (d : Dev) (o : Obj) (i v e : Nat) : (d.put o i v e).flipped = d.flipped := rfl
@[simp] theorem Dev.put_flipUsed (d : Dev) (o : Obj) (i v e : Nat) : (d.put o i v e).flipUsed = d.flipUsed := rfl
@[simp] theorem Dev.put_dictPoison (d : Dev) (o : Obj) (i v e : Nat) : (d.put o i v e).dictPoison = d.dictPoison := rfl
@[simp] theorem Dev.put_dump (d : Dev) (o : Obj) (i v e : Nat) : (d.put o i v e).dump = d.dump := rfl
@[simp] theorem Dev.put_sess (d : Dev) (o : Obj) (i v e : Nat) : (d.put o i v e).sess = d.sess := rfl
@[simp] theorem Dev.put_fails (d : Dev) (o : Obj) (i v e : Nat) : (d.put o i v e).fails = d.fails := rfl
@[simp] theorem Dev.put_windowQ (d : Dev) (o : Obj) (i v e : Nat) : (d.put o i v e).windowQ = d.windowQ := rfl
@[simp] theorem Dev.put_windowResp (d : Dev) (o : Obj) (i v e : Nat) : (d.put o i v e).windowResp = d.windowResp := rfl
@[simp] theorem Dev.put_ckpt (d : Dev) (o : Obj) (i v e : Nat) : (d.put o i v e).ckpt = d.ckpt := rfl
@[simp] theorem Dev.put_mgmtVia (d : Dev) (o : Obj) (i v e : Nat) : (d.put o i v e).mgmtVia = d.mgmtVia := rfl

@[simp] theorem Dev.bump_now (d : Dev) (o : Obj) (i n e : Nat) : (d.bump o i n e).now = d.now := rfl
@[simp] theorem Dev.bump_freeCtr (d : Dev) (o : Obj) (i n e : Nat) : (d.bump o i n e).freeCtr = d.freeCtr := rfl
@[simp] theorem Dev.bump_rx (d : Dev) (o : Obj) (i n e : Nat) : (d.bump o i n e).rx = d.rx := rfl
@[simp] theorem Dev.bump_frames (d : Dev) (o : Obj) (i n e : Nat) : (d.bump o i n e).frames = d.frames := rfl
@[simp] theorem Dev.bump_nextRec (d : Dev) (o : Obj) (i n e : Nat) : (d.bump o i n e).nextRec = d.nextRec := rfl
@[simp] theorem Dev.bump_copies (d : Dev) (o : Obj) (i n e : Nat) : (d.bump o i n e).copies = d.copies := rfl
@[simp] theorem Dev.bump_tx (d : Dev) (o : Obj) (i n e : Nat) : (d.bump o i n e).tx = d.tx := rfl
@[simp] theorem Dev.bump_ctl (d : Dev) (o : Obj) (i n e : Nat) : (d.bump o i n e).ctl = d.ctl := rfl
@[simp] theorem Dev.bump_bufs (d : Dev) (o : Obj) (i n e : Nat) : (d.bump o i n e).bufs = d.bufs := rfl
@[simp] theorem Dev.bump_jobs (d : Dev) (o : Obj) (i n e : Nat) : (d.bump o i n e).jobs = d.jobs := rfl
@[simp] theorem Dev.bump_plan (d : Dev) (o : Obj) (i n e : Nat) : (d.bump o i n e).plan = d.plan := rfl
@[simp] theorem Dev.bump_flight (d : Dev) (o : Obj) (i n e : Nat) : (d.bump o i n e).flight = d.flight := rfl
@[simp] theorem Dev.bump_dues (d : Dev) (o : Obj) (i n e : Nat) : (d.bump o i n e).dues = d.dues := rfl
@[simp] theorem Dev.bump_staged (d : Dev) (o : Obj) (i n e : Nat) : (d.bump o i n e).staged = d.staged := rfl
@[simp] theorem Dev.bump_lfsr (d : Dev) (o : Obj) (i n e : Nat) : (d.bump o i n e).lfsr = d.lfsr := rfl
@[simp] theorem Dev.bump_tree (d : Dev) (o : Obj) (i n e : Nat) : (d.bump o i n e).tree = d.tree := rfl
@[simp] theorem Dev.bump_treePoison (d : Dev) (o : Obj) (i n e : Nat) : (d.bump o i n e).treePoison = d.treePoison := rfl
@[simp] theorem Dev.bump_poison (d : Dev) (o : Obj) (i n e : Nat) : (d.bump o i n e).poison = d.poison := rfl
@[simp] theorem Dev.bump_emPoison (d : Dev) (o : Obj) (i n e : Nat) : (d.bump o i n e).emPoison = d.emPoison := rfl
@[simp] theorem Dev.bump_emPend (d : Dev) (o : Obj) (i n e : Nat) : (d.bump o i n e).emPend = d.emPend := rfl
@[simp] theorem Dev.bump_emStaged (d : Dev) (o : Obj) (i n e : Nat) : (d.bump o i n e).emStaged = d.emStaged := rfl
@[simp] theorem Dev.bump_emReads (d : Dev) (o : Obj) (i n e : Nat) : (d.bump o i n e).emReads = d.emReads := rfl
@[simp] theorem Dev.bump_learn (d : Dev) (o : Obj) (i n e : Nat) : (d.bump o i n e).learn = d.learn := rfl
@[simp] theorem Dev.bump_views (d : Dev) (o : Obj) (i n e : Nat) : (d.bump o i n e).views = d.views := rfl
@[simp] theorem Dev.bump_gpend (d : Dev) (o : Obj) (i n e : Nat) : (d.bump o i n e).gpend = d.gpend := rfl
@[simp] theorem Dev.bump_sgate (d : Dev) (o : Obj) (i n e : Nat) : (d.bump o i n e).sgate = d.sgate := rfl
@[simp] theorem Dev.bump_sgateOld (d : Dev) (o : Obj) (i n e : Nat) : (d.bump o i n e).sgateOld = d.sgateOld := rfl
@[simp] theorem Dev.bump_accs (d : Dev) (o : Obj) (i n e : Nat) : (d.bump o i n e).accs = d.accs := rfl
@[simp] theorem Dev.bump_recQ (d : Dev) (o : Obj) (i n e : Nat) : (d.bump o i n e).recQ = d.recQ := rfl
@[simp] theorem Dev.bump_mram (d : Dev) (o : Obj) (i n e : Nat) : (d.bump o i n e).mram = d.mram := rfl
@[simp] theorem Dev.bump_flt (d : Dev) (o : Obj) (i n e : Nat) : (d.bump o i n e).flt = d.flt := rfl
@[simp] theorem Dev.bump_fltDue (d : Dev) (o : Obj) (i n e : Nat) : (d.bump o i n e).fltDue = d.fltDue := rfl
@[simp] theorem Dev.bump_fltQ (d : Dev) (o : Obj) (i n e : Nat) : (d.bump o i n e).fltQ = d.fltQ := rfl
@[simp] theorem Dev.bump_isoDue (d : Dev) (o : Obj) (i n e : Nat) : (d.bump o i n e).isoDue = d.isoDue := rfl
@[simp] theorem Dev.bump_jstage (d : Dev) (o : Obj) (i n e : Nat) : (d.bump o i n e).jstage = d.jstage := rfl
@[simp] theorem Dev.bump_jtab (d : Dev) (o : Obj) (i n e : Nat) : (d.bump o i n e).jtab = d.jtab := rfl
@[simp] theorem Dev.bump_capFifo (d : Dev) (o : Obj) (i n e : Nat) : (d.bump o i n e).capFifo = d.capFifo := rfl
@[simp] theorem Dev.bump_em (d : Dev) (o : Obj) (i n e : Nat) : (d.bump o i n e).em = d.em := rfl
@[simp] theorem Dev.bump_hbmPoison (d : Dev) (o : Obj) (i n e : Nat) : (d.bump o i n e).hbmPoison = d.hbmPoison := rfl
@[simp] theorem Dev.bump_matReqs (d : Dev) (o : Obj) (i n e : Nat) : (d.bump o i n e).matReqs = d.matReqs := rfl
@[simp] theorem Dev.bump_matApply (d : Dev) (o : Obj) (i n e : Nat) : (d.bump o i n e).matApply = d.matApply := rfl
@[simp] theorem Dev.bump_matOwn (d : Dev) (o : Obj) (i n e : Nat) : (d.bump o i n e).matOwn = d.matOwn := rfl
@[simp] theorem Dev.bump_matShadow (d : Dev) (o : Obj) (i n e : Nat) : (d.bump o i n e).matShadow = d.matShadow := rfl
@[simp] theorem Dev.bump_matSets (d : Dev) (o : Obj) (i n e : Nat) : (d.bump o i n e).matSets = d.matSets := rfl
@[simp] theorem Dev.bump_viewWrites (d : Dev) (o : Obj) (i n e : Nat) : (d.bump o i n e).viewWrites = d.viewWrites := rfl
@[simp] theorem Dev.bump_deliv (d : Dev) (o : Obj) (i n e : Nat) : (d.bump o i n e).deliv = d.deliv := rfl
@[simp] theorem Dev.bump_backlog (d : Dev) (o : Obj) (i n e : Nat) : (d.bump o i n e).backlog = d.backlog := rfl
@[simp] theorem Dev.bump_hcmds (d : Dev) (o : Obj) (i n e : Nat) : (d.bump o i n e).hcmds = d.hcmds := rfl
@[simp] theorem Dev.bump_inject (d : Dev) (o : Obj) (i n e : Nat) : (d.bump o i n e).inject = d.inject := rfl
@[simp] theorem Dev.bump_tio (d : Dev) (o : Obj) (i n e : Nat) : (d.bump o i n e).tio = d.tio := rfl
@[simp] theorem Dev.bump_mgmtIn (d : Dev) (o : Obj) (i n e : Nat) : (d.bump o i n e).mgmtIn = d.mgmtIn := rfl
@[simp] theorem Dev.bump_out (d : Dev) (o : Obj) (i n e : Nat) : (d.bump o i n e).out = d.out := rfl
@[simp] theorem Dev.bump_found (d : Dev) (o : Obj) (i n e : Nat) : (d.bump o i n e).found = d.found := rfl
@[simp] theorem Dev.bump_wb (d : Dev) (o : Obj) (i n e : Nat) : (d.bump o i n e).wb = d.wb := rfl
@[simp] theorem Dev.bump_flipped (d : Dev) (o : Obj) (i n e : Nat) : (d.bump o i n e).flipped = d.flipped := rfl
@[simp] theorem Dev.bump_flipUsed (d : Dev) (o : Obj) (i n e : Nat) : (d.bump o i n e).flipUsed = d.flipUsed := rfl
@[simp] theorem Dev.bump_dictPoison (d : Dev) (o : Obj) (i n e : Nat) : (d.bump o i n e).dictPoison = d.dictPoison := rfl
@[simp] theorem Dev.bump_dump (d : Dev) (o : Obj) (i n e : Nat) : (d.bump o i n e).dump = d.dump := rfl
@[simp] theorem Dev.bump_sess (d : Dev) (o : Obj) (i n e : Nat) : (d.bump o i n e).sess = d.sess := rfl
@[simp] theorem Dev.bump_fails (d : Dev) (o : Obj) (i n e : Nat) : (d.bump o i n e).fails = d.fails := rfl
@[simp] theorem Dev.bump_windowQ (d : Dev) (o : Obj) (i n e : Nat) : (d.bump o i n e).windowQ = d.windowQ := rfl
@[simp] theorem Dev.bump_windowResp (d : Dev) (o : Obj) (i n e : Nat) : (d.bump o i n e).windowResp = d.windowResp := rfl
@[simp] theorem Dev.bump_ckpt (d : Dev) (o : Obj) (i n e : Nat) : (d.bump o i n e).ckpt = d.ckpt := rfl
@[simp] theorem Dev.bump_mgmtVia (d : Dev) (o : Obj) (i n e : Nat) : (d.bump o i n e).mgmtVia = d.mgmtVia := rfl

@[simp] theorem Dev.emit_objs (d : Dev) (x : Out) : (d.emit x).objs = d.objs := rfl
@[simp] theorem Dev.emit_now (d : Dev) (x : Out) : (d.emit x).now = d.now := rfl
@[simp] theorem Dev.emit_freeCtr (d : Dev) (x : Out) : (d.emit x).freeCtr = d.freeCtr := rfl
@[simp] theorem Dev.emit_rx (d : Dev) (x : Out) : (d.emit x).rx = d.rx := rfl
@[simp] theorem Dev.emit_frames (d : Dev) (x : Out) : (d.emit x).frames = d.frames := rfl
@[simp] theorem Dev.emit_nextRec (d : Dev) (x : Out) : (d.emit x).nextRec = d.nextRec := rfl
@[simp] theorem Dev.emit_copies (d : Dev) (x : Out) : (d.emit x).copies = d.copies := rfl
@[simp] theorem Dev.emit_tx (d : Dev) (x : Out) : (d.emit x).tx = d.tx := rfl
@[simp] theorem Dev.emit_ctl (d : Dev) (x : Out) : (d.emit x).ctl = d.ctl := rfl
@[simp] theorem Dev.emit_bufs (d : Dev) (x : Out) : (d.emit x).bufs = d.bufs := rfl
@[simp] theorem Dev.emit_jobs (d : Dev) (x : Out) : (d.emit x).jobs = d.jobs := rfl
@[simp] theorem Dev.emit_plan (d : Dev) (x : Out) : (d.emit x).plan = d.plan := rfl
@[simp] theorem Dev.emit_flight (d : Dev) (x : Out) : (d.emit x).flight = d.flight := rfl
@[simp] theorem Dev.emit_dues (d : Dev) (x : Out) : (d.emit x).dues = d.dues := rfl
@[simp] theorem Dev.emit_staged (d : Dev) (x : Out) : (d.emit x).staged = d.staged := rfl
@[simp] theorem Dev.emit_lfsr (d : Dev) (x : Out) : (d.emit x).lfsr = d.lfsr := rfl
@[simp] theorem Dev.emit_tree (d : Dev) (x : Out) : (d.emit x).tree = d.tree := rfl
@[simp] theorem Dev.emit_treePoison (d : Dev) (x : Out) : (d.emit x).treePoison = d.treePoison := rfl
@[simp] theorem Dev.emit_poison (d : Dev) (x : Out) : (d.emit x).poison = d.poison := rfl
@[simp] theorem Dev.emit_emPoison (d : Dev) (x : Out) : (d.emit x).emPoison = d.emPoison := rfl
@[simp] theorem Dev.emit_emPend (d : Dev) (x : Out) : (d.emit x).emPend = d.emPend := rfl
@[simp] theorem Dev.emit_emStaged (d : Dev) (x : Out) : (d.emit x).emStaged = d.emStaged := rfl
@[simp] theorem Dev.emit_emReads (d : Dev) (x : Out) : (d.emit x).emReads = d.emReads := rfl
@[simp] theorem Dev.emit_learn (d : Dev) (x : Out) : (d.emit x).learn = d.learn := rfl
@[simp] theorem Dev.emit_views (d : Dev) (x : Out) : (d.emit x).views = d.views := rfl
@[simp] theorem Dev.emit_gpend (d : Dev) (x : Out) : (d.emit x).gpend = d.gpend := rfl
@[simp] theorem Dev.emit_sgate (d : Dev) (x : Out) : (d.emit x).sgate = d.sgate := rfl
@[simp] theorem Dev.emit_sgateOld (d : Dev) (x : Out) : (d.emit x).sgateOld = d.sgateOld := rfl
@[simp] theorem Dev.emit_accs (d : Dev) (x : Out) : (d.emit x).accs = d.accs := rfl
@[simp] theorem Dev.emit_recQ (d : Dev) (x : Out) : (d.emit x).recQ = d.recQ := rfl
@[simp] theorem Dev.emit_mram (d : Dev) (x : Out) : (d.emit x).mram = d.mram := rfl
@[simp] theorem Dev.emit_flt (d : Dev) (x : Out) : (d.emit x).flt = d.flt := rfl
@[simp] theorem Dev.emit_fltDue (d : Dev) (x : Out) : (d.emit x).fltDue = d.fltDue := rfl
@[simp] theorem Dev.emit_fltQ (d : Dev) (x : Out) : (d.emit x).fltQ = d.fltQ := rfl
@[simp] theorem Dev.emit_isoDue (d : Dev) (x : Out) : (d.emit x).isoDue = d.isoDue := rfl
@[simp] theorem Dev.emit_jstage (d : Dev) (x : Out) : (d.emit x).jstage = d.jstage := rfl
@[simp] theorem Dev.emit_jtab (d : Dev) (x : Out) : (d.emit x).jtab = d.jtab := rfl
@[simp] theorem Dev.emit_capFifo (d : Dev) (x : Out) : (d.emit x).capFifo = d.capFifo := rfl
@[simp] theorem Dev.emit_em (d : Dev) (x : Out) : (d.emit x).em = d.em := rfl
@[simp] theorem Dev.emit_hbmPoison (d : Dev) (x : Out) : (d.emit x).hbmPoison = d.hbmPoison := rfl
@[simp] theorem Dev.emit_matReqs (d : Dev) (x : Out) : (d.emit x).matReqs = d.matReqs := rfl
@[simp] theorem Dev.emit_matApply (d : Dev) (x : Out) : (d.emit x).matApply = d.matApply := rfl
@[simp] theorem Dev.emit_matOwn (d : Dev) (x : Out) : (d.emit x).matOwn = d.matOwn := rfl
@[simp] theorem Dev.emit_matShadow (d : Dev) (x : Out) : (d.emit x).matShadow = d.matShadow := rfl
@[simp] theorem Dev.emit_matSets (d : Dev) (x : Out) : (d.emit x).matSets = d.matSets := rfl
@[simp] theorem Dev.emit_viewWrites (d : Dev) (x : Out) : (d.emit x).viewWrites = d.viewWrites := rfl
@[simp] theorem Dev.emit_deliv (d : Dev) (x : Out) : (d.emit x).deliv = d.deliv := rfl
@[simp] theorem Dev.emit_backlog (d : Dev) (x : Out) : (d.emit x).backlog = d.backlog := rfl
@[simp] theorem Dev.emit_hcmds (d : Dev) (x : Out) : (d.emit x).hcmds = d.hcmds := rfl
@[simp] theorem Dev.emit_inject (d : Dev) (x : Out) : (d.emit x).inject = d.inject := rfl
@[simp] theorem Dev.emit_tio (d : Dev) (x : Out) : (d.emit x).tio = d.tio := rfl
@[simp] theorem Dev.emit_mgmtIn (d : Dev) (x : Out) : (d.emit x).mgmtIn = d.mgmtIn := rfl
@[simp] theorem Dev.emit_found (d : Dev) (x : Out) : (d.emit x).found = d.found := rfl
@[simp] theorem Dev.emit_wb (d : Dev) (x : Out) : (d.emit x).wb = d.wb := rfl
@[simp] theorem Dev.emit_flipped (d : Dev) (x : Out) : (d.emit x).flipped = d.flipped := rfl
@[simp] theorem Dev.emit_flipUsed (d : Dev) (x : Out) : (d.emit x).flipUsed = d.flipUsed := rfl
@[simp] theorem Dev.emit_dictPoison (d : Dev) (x : Out) : (d.emit x).dictPoison = d.dictPoison := rfl
@[simp] theorem Dev.emit_dump (d : Dev) (x : Out) : (d.emit x).dump = d.dump := rfl
@[simp] theorem Dev.emit_sess (d : Dev) (x : Out) : (d.emit x).sess = d.sess := rfl
@[simp] theorem Dev.emit_fails (d : Dev) (x : Out) : (d.emit x).fails = d.fails := rfl
@[simp] theorem Dev.emit_windowQ (d : Dev) (x : Out) : (d.emit x).windowQ = d.windowQ := rfl
@[simp] theorem Dev.emit_windowResp (d : Dev) (x : Out) : (d.emit x).windowResp = d.windowResp := rfl
@[simp] theorem Dev.emit_ckpt (d : Dev) (x : Out) : (d.emit x).ckpt = d.ckpt := rfl
@[simp] theorem Dev.emit_mgmtVia (d : Dev) (x : Out) : (d.emit x).mgmtVia = d.mgmtVia := rfl

@[simp] theorem Dev.silent_objs (d : Dev) : d.silent.objs = d.objs := rfl
@[simp] theorem Dev.silent_now (d : Dev) : d.silent.now = d.now := rfl
@[simp] theorem Dev.silent_freeCtr (d : Dev) : d.silent.freeCtr = d.freeCtr := rfl
@[simp] theorem Dev.silent_rx (d : Dev) : d.silent.rx = d.rx := rfl
@[simp] theorem Dev.silent_frames (d : Dev) : d.silent.frames = d.frames := rfl
@[simp] theorem Dev.silent_nextRec (d : Dev) : d.silent.nextRec = d.nextRec := rfl
@[simp] theorem Dev.silent_copies (d : Dev) : d.silent.copies = d.copies := rfl
@[simp] theorem Dev.silent_tx (d : Dev) : d.silent.tx = d.tx := rfl
@[simp] theorem Dev.silent_ctl (d : Dev) : d.silent.ctl = d.ctl := rfl
@[simp] theorem Dev.silent_bufs (d : Dev) : d.silent.bufs = d.bufs := rfl
@[simp] theorem Dev.silent_jobs (d : Dev) : d.silent.jobs = d.jobs := rfl
@[simp] theorem Dev.silent_plan (d : Dev) : d.silent.plan = d.plan := rfl
@[simp] theorem Dev.silent_flight (d : Dev) : d.silent.flight = d.flight := rfl
@[simp] theorem Dev.silent_dues (d : Dev) : d.silent.dues = d.dues := rfl
@[simp] theorem Dev.silent_staged (d : Dev) : d.silent.staged = d.staged := rfl
@[simp] theorem Dev.silent_lfsr (d : Dev) : d.silent.lfsr = d.lfsr := rfl
@[simp] theorem Dev.silent_tree (d : Dev) : d.silent.tree = d.tree := rfl
@[simp] theorem Dev.silent_treePoison (d : Dev) : d.silent.treePoison = d.treePoison := rfl
@[simp] theorem Dev.silent_poison (d : Dev) : d.silent.poison = d.poison := rfl
@[simp] theorem Dev.silent_emPoison (d : Dev) : d.silent.emPoison = d.emPoison := rfl
@[simp] theorem Dev.silent_emPend (d : Dev) : d.silent.emPend = d.emPend := rfl
@[simp] theorem Dev.silent_emStaged (d : Dev) : d.silent.emStaged = d.emStaged := rfl
@[simp] theorem Dev.silent_emReads (d : Dev) : d.silent.emReads = d.emReads := rfl
@[simp] theorem Dev.silent_learn (d : Dev) : d.silent.learn = d.learn := rfl
@[simp] theorem Dev.silent_views (d : Dev) : d.silent.views = d.views := rfl
@[simp] theorem Dev.silent_gpend (d : Dev) : d.silent.gpend = d.gpend := rfl
@[simp] theorem Dev.silent_sgate (d : Dev) : d.silent.sgate = d.sgate := rfl
@[simp] theorem Dev.silent_sgateOld (d : Dev) : d.silent.sgateOld = d.sgateOld := rfl
@[simp] theorem Dev.silent_accs (d : Dev) : d.silent.accs = d.accs := rfl
@[simp] theorem Dev.silent_recQ (d : Dev) : d.silent.recQ = d.recQ := rfl
@[simp] theorem Dev.silent_mram (d : Dev) : d.silent.mram = d.mram := rfl
@[simp] theorem Dev.silent_flt (d : Dev) : d.silent.flt = d.flt := rfl
@[simp] theorem Dev.silent_fltDue (d : Dev) : d.silent.fltDue = d.fltDue := rfl
@[simp] theorem Dev.silent_fltQ (d : Dev) : d.silent.fltQ = d.fltQ := rfl
@[simp] theorem Dev.silent_isoDue (d : Dev) : d.silent.isoDue = d.isoDue := rfl
@[simp] theorem Dev.silent_jstage (d : Dev) : d.silent.jstage = d.jstage := rfl
@[simp] theorem Dev.silent_jtab (d : Dev) : d.silent.jtab = d.jtab := rfl
@[simp] theorem Dev.silent_capFifo (d : Dev) : d.silent.capFifo = d.capFifo := rfl
@[simp] theorem Dev.silent_em (d : Dev) : d.silent.em = d.em := rfl
@[simp] theorem Dev.silent_hbmPoison (d : Dev) : d.silent.hbmPoison = d.hbmPoison := rfl
@[simp] theorem Dev.silent_matReqs (d : Dev) : d.silent.matReqs = d.matReqs := rfl
@[simp] theorem Dev.silent_matApply (d : Dev) : d.silent.matApply = d.matApply := rfl
@[simp] theorem Dev.silent_matOwn (d : Dev) : d.silent.matOwn = d.matOwn := rfl
@[simp] theorem Dev.silent_matShadow (d : Dev) : d.silent.matShadow = d.matShadow := rfl
@[simp] theorem Dev.silent_matSets (d : Dev) : d.silent.matSets = d.matSets := rfl
@[simp] theorem Dev.silent_viewWrites (d : Dev) : d.silent.viewWrites = d.viewWrites := rfl
@[simp] theorem Dev.silent_deliv (d : Dev) : d.silent.deliv = d.deliv := rfl
@[simp] theorem Dev.silent_backlog (d : Dev) : d.silent.backlog = d.backlog := rfl
@[simp] theorem Dev.silent_hcmds (d : Dev) : d.silent.hcmds = d.hcmds := rfl
@[simp] theorem Dev.silent_inject (d : Dev) : d.silent.inject = d.inject := rfl
@[simp] theorem Dev.silent_tio (d : Dev) : d.silent.tio = d.tio := rfl
@[simp] theorem Dev.silent_mgmtIn (d : Dev) : d.silent.mgmtIn = d.mgmtIn := rfl
@[simp] theorem Dev.silent_out (d : Dev) : d.silent.out = [] := rfl
@[simp] theorem Dev.silent_found (d : Dev) : d.silent.found = d.found := rfl
@[simp] theorem Dev.silent_wb (d : Dev) : d.silent.wb = d.wb := rfl
@[simp] theorem Dev.silent_flipped (d : Dev) : d.silent.flipped = d.flipped := rfl
@[simp] theorem Dev.silent_flipUsed (d : Dev) : d.silent.flipUsed = d.flipUsed := rfl
@[simp] theorem Dev.silent_dictPoison (d : Dev) : d.silent.dictPoison = d.dictPoison := rfl
@[simp] theorem Dev.silent_dump (d : Dev) : d.silent.dump = d.dump := rfl
@[simp] theorem Dev.silent_sess (d : Dev) : d.silent.sess = d.sess := rfl
@[simp] theorem Dev.silent_fails (d : Dev) : d.silent.fails = d.fails := rfl
@[simp] theorem Dev.silent_windowQ (d : Dev) : d.silent.windowQ = d.windowQ := rfl
@[simp] theorem Dev.silent_windowResp (d : Dev) : d.silent.windowResp = d.windowResp := rfl
@[simp] theorem Dev.silent_ckpt (d : Dev) : d.silent.ckpt = d.ckpt := rfl
@[simp] theorem Dev.silent_mgmtVia (d : Dev) : d.silent.mgmtVia = d.mgmtVia := rfl
@[simp] theorem Dev.get_silent (d : Dev) (o : Obj) (i e : Nat) : d.silent.get o i e = d.get o i e := rfl
@[simp] theorem Dev.n_silent (d : Dev) (o : Obj) (i e : Nat) : d.silent.n o i e = d.n o i e := rfl
@[simp] theorem Dev.on_silent (d : Dev) (o : Obj) (i e : Nat) : d.silent.on o i e = d.on o i e := rfl

@[simp] theorem State.quiet_clk (s : State) : s.quiet.clk = s.clk := rfl
@[simp] theorem State.quiet_mem (s : State) : s.quiet.mem = s.mem := rfl
@[simp] theorem State.quiet_pending (s : State) : s.quiet.pending = s.pending := rfl

end Sys2Proof.Machine
end

