-- ==== Sys2Proof/Laws/Exec.lean ====
section
/-! SUPPORT. What the forms of a meaning answer, said once: a next state. -/
namespace Sys2Proof.Machine

open Sys2Proof.Safety

theorem ready_halted {s : State} (h : ready s = true) : s.halted = false := by
  simpa [ready] using h

/-- A meaning on the device alone, in a state whose dies run. -/
theorem State.run_next {s : State} (h : s.halted = false) (f : Clk → Dev → Dev) : s.run f = .next (after s (f s.clk)) := by
  simp [State.run, State.runCrust, after, h]

theorem State.runIf_next {s : State} (h : s.halted = false) {ok : Bool} (g : ok = true) (f : Clk → Dev → Dev) :
    s.runIf ok f = .next (after s (f s.clk)) := by simp [State.runIf, g, State.run_next h]

/-- A command that names no unit of the device has no effect. -/
theorem State.runIf_none (s : State) {ok : Bool} (g : ok = false) (f : Clk → Dev → Dev) : s.runIf ok f = .next s.quiet := by
  simp [State.runIf, g]

theorem State.runM_none (s : State) {ok : Bool} (g : ok = false) (f : Clk → Memory → Dev → Memory × Dev) : s.runM ok f = .next s.quiet := by
  simp [State.runM, g]

/-- Where the dies stand still such a command has no effect. -/
theorem State.run_halted {s : State} (h : s.halted = true) (f : Clk → Dev → Dev) : s.run f = .next s.quiet := by
  simp [State.run, h]

theorem State.runM_next {s : State} (h : s.halted = false) {ok : Bool} (g : ok = true) (f : Clk → Memory → Dev → Memory × Dev) :
    s.runM ok f = .next { s with mem := (f s.clk s.mem s.dev.silent).1, dev := (f s.clk s.mem s.dev.silent).2 } := by
  simp [State.runM, g, h]

/-- A meaning on the device alone answers a next state, with the timebase, HBM and the queue as they were. -/
theorem State.runIf_keeps (s : State) (ok : Bool) (f : Clk → Dev → Dev) : ∃ t, s.runIf ok f = .next t ∧ outsideKept s t := by
  cases ok with
  | false => exact ⟨s.quiet, rfl, rfl, rfl, rfl⟩
  | true =>
    cases h : s.halted with
    | true => exact ⟨s.quiet, by simp [State.runIf, State.run_halted h], rfl, rfl, rfl⟩
    | false => exact ⟨_, State.runIf_next h rfl f, rfl, rfl, rfl⟩

/-- A write as a boundary's, in a state whose dies run. -/
theorem State.rowD_next {s : State} (h : s.halted = false) (c : s.clk.c = 0) {ok : Bool} (g : ok = true) (ws : List WriteOp) (f : Clk → Dev → Dev) :
    s.rowD ok ws f = .next (afterRow s (f s.clk)) := by
  simp [State.rowD, State.row, State.runM, h, g, c, afterRow, after]

theorem State.row_next {s : State} (h : s.halted = false) (c : s.clk.c = 0) {ok : Bool} (g : ok = true) (ws : List WriteOp)
    (f : Clk → Memory → Dev → Memory × Dev) :
    s.row ok ws f = .next { s with mem := (f s.clk s.mem s.dev.silent).1, dev := (f s.clk s.mem s.dev.silent).2.atOpen } := by
  simp [State.row, State.runM, h, g, c]

/-- A write within a tick waits: it touches neither HBM nor what a command touches as it applies (R31). -/
theorem State.row_waits {s : State} (h : s.halted = false) (c : s.clk.c ≠ 0) {ok : Bool} (g : ok = true) (ws : List WriteOp)
    (f : Clk → Memory → Dev → Memory × Dev) :
    s.row ok ws f = .next { s with dev := s.dev.silent.rowLater s.clk ws s.mem } := by
  simp [State.row, State.runM, h, g, c]

/-- A command in turn acts in the clock now open. -/
theorem State.inTurn_now {s : State} (h : s.halted = false) {ok : Bool} (g : ok = true) {late : Clk → Dev → Bool} (l : late s.clk s.dev = false)
    (f : Clk → Memory → Dev → Memory × Dev) : s.inTurn ok late f = .next (s.quiet.act f) := by
  simp [State.inTurn, h, g, l]

/-- A request not behind one of a later entry is accepted in the clock now open (R33). -/
theorem State.request_now {s : State} (h : s.halted = false) {entry : Nat} (e : s.dev.now.entry ≤ min entry 3) (f : Clk → Memory → Dev → Dev) :
    s.request entry f =
      .next (s.quiet.act fun k m d => (m, { f k m d with now := { (f k m d).now with entry := max (f k m d).now.entry (min entry 3) } })) := by
  have : ¬ (min entry 3 < s.dev.now.entry) := by omega
  simp [State.request, h, this]

end Sys2Proof.Machine
end

