-- ==== Sys2Proof/Laws/Writes.lean ====
section
/-! SUPPORT. Chains of object writes: which elements they may change, and what a command made of them answers. -/
namespace Sys2Proof.Machine

open Sys2Proof.Safety

theorem key_arith {a b i j e f : Nat} (h : a ≠ b) (hi : i < 65536) (hj : j < 65536) (he : e < 65536) (hf : f < 65536) :
    (a * 65536 + i) * 65536 + e ≠ (b * 65536 + j) * 65536 + f := by omega

theorem key_arith_inst {a i j e f : Nat} (h : i ≠ j) (he : e < 65536) (hf : f < 65536) :
    (a * 65536 + i) * 65536 + e ≠ (a * 65536 + j) * 65536 + f := by omega

/-- Elements of two different objects have different keys. -/
theorem Obj.key_ne {o q : Obj} {i j e f : Nat} (h : o.idx * 256 + o.sub ≠ q.idx * 256 + q.sub) (hi : i < 65536) (hj : j < 65536)
    (he : e < 65536) (hf : f < 65536) : o.key i e ≠ q.key j f := key_arith h hi hj he hf

/-- Elements of two instances of one object have different keys. -/
theorem Obj.key_ne_inst (o : Obj) {i j e f : Nat} (h : i ≠ j) (he : e < 65536) (hf : f < 65536) : o.key i e ≠ o.key j f :=
  key_arith_inst h he hf

/-- Two elements of one instance have different keys. -/
theorem Obj.key_ne_elem (o : Obj) {i e f : Nat} (h : e ≠ f) : o.key i e ≠ o.key i f :=
  fun x => h (Nat.add_left_cancel x)

theorem Store.find_filter (st : Store) (p : Nat × Int → Bool) (k : Nat) (h : ∀ v, p (k, v) = true) : Store.find (st.filter p) k = st.find k := by
  induction st with
  | nil => rfl
  | cons x t ih =>
    obtain ⟨a, w⟩ := x
    rw [List.filter_cons]
    split
    · simp [Store.find, ih]
    · rename_i hx
      have : a ≠ k := by rintro rfl; exact hx (h w)
      simp [Store.find, this, ih]

/-- Clearing an instance leaves every other instance as it was. -/
theorem Dev.get_clearInst_other (d : Dev) (o q : Obj) (i j f : Nat) (h : q.key j f / 65536 ≠ (o.idx * 256 + o.sub) * 65536 + i) :
    (d.clearInst o i).get q j f = d.get q j f := by
  simp only [Dev.get, Store.rd, Dev.clearInst]
  rw [Store.find_filter _ _ _ (by intro v; simpa using h)]

/-- Of the device only objects, and what left it, differ. -/
def Dev.objsOnly (d d' : Dev) : Prop := bare d' = bare d

theorem Dev.objsOnly_refl (d : Dev) : d.objsOnly d := rfl

theorem Dev.objsOnly_trans {a b c : Dev} (h : a.objsOnly b) (g : b.objsOnly c) : a.objsOnly c := Eq.trans g h

theorem Dev.objsOnly_silent (d : Dev) : d.objsOnly d.silent := rfl

theorem Dev.objsOnly_set {d d' : Dev} (h : d.objsOnly d') (o : Obj) (i e : Nat) (v : Int) : d.objsOnly (d'.set o i v e) := h

theorem Dev.objsOnly_put {d d' : Dev} (h : d.objsOnly d') (o : Obj) (i e v : Nat) : d.objsOnly (d'.put o i v e) := h

theorem Dev.objsOnly_bump {d d' : Dev} (h : d.objsOnly d') (o : Obj) (i e n : Nat) : d.objsOnly (d'.bump o i n e) := h

theorem Dev.objsOnly_emit {d d' : Dev} (h : d.objsOnly d') (x : Out) : d.objsOnly (d'.emit x) := h

theorem Dev.objsOnly_clearInst {d d' : Dev} (h : d.objsOnly d') (o : Obj) (i : Nat) : d.objsOnly (d'.clearInst o i) := h

theorem Dev.objsOnly_each {α : Type} (l : List α) (f : Dev → α → Dev) (h : ∀ d x, x ∈ l → Dev.objsOnly d (f d x)) (d : Dev) :
    d.objsOnly (d.each l f) := by
  induction l generalizing d with
  | nil => rfl
  | cons x l ih => exact Dev.objsOnly_trans (h d x (by simp)) (ih (fun d y hy => h d y (by simp [hy])) (f d x))

theorem Dev.objsOnly_found {d d' : Dev} (h : d.objsOnly d') : d'.found = d.found := by
  have e := congrArg Dev.found (show bare d' = bare d from h)
  exact e

theorem Dev.objsOnly_flipUsed {d d' : Dev} (h : d.objsOnly d') : d'.flipUsed = d.flipUsed := by
  have e := congrArg Dev.flipUsed (show bare d' = bare d from h)
  exact e

/-- What every turn of a loop leaves alone, the loop leaves alone. -/
theorem Dev.each_get {α : Type} (l : List α) (f : Dev → α → Dev) (o : Obj) (i e : Nat)
    (h : ∀ d x, x ∈ l → (f d x).get o i e = d.get o i e) (d : Dev) : (d.each l f).get o i e = d.get o i e := by
  induction l generalizing d with
  | nil => rfl
  | cons x l ih => rw [Dev.each_cons, ih (fun d y hy => h d y (by simp [hy])), h d x (by simp)]

/-- The device d' differs from d in the listed elements of objects, and in what left it, alone. -/
def Dev.wrote (keys : List Nat) (d d' : Dev) : Prop :=
  d.objsOnly d' ∧ ∀ (o : Obj) (i e : Nat), o.key i e ∉ keys → d'.get o i e = d.get o i e

theorem Dev.wrote_refl (keys : List Nat) (d : Dev) : d.wrote keys d := ⟨rfl, fun _ _ _ _ => rfl⟩

theorem Dev.wrote_silent (keys : List Nat) (d : Dev) : d.wrote keys d.silent := ⟨rfl, fun _ _ _ _ => rfl⟩

theorem Dev.wrote_set {keys : List Nat} {d d' : Dev} (h : d.wrote keys d') (o : Obj) (i e : Nat) (v : Int) (hk : o.key i e ∈ keys) :
    d.wrote keys (d'.set o i v e) :=
  ⟨h.1, fun q j f hq => by rw [Dev.get_set_other d' o q i e j f v (fun x => hq (x ▸ hk)), h.2 q j f hq]⟩

theorem Dev.wrote_put {keys : List Nat} {d d' : Dev} (h : d.wrote keys d') (o : Obj) (i e v : Nat) (hk : o.key i e ∈ keys) :
    d.wrote keys (d'.put o i v e) := Dev.wrote_set h o i e v hk

theorem Dev.wrote_bump {keys : List Nat} {d d' : Dev} (h : d.wrote keys d') (o : Obj) (i e n : Nat) (hk : o.key i e ∈ keys) :
    d.wrote keys (d'.bump o i n e) := Dev.wrote_set h o i e _ hk

theorem Dev.wrote_emit {keys : List Nat} {d d' : Dev} (h : d.wrote keys d') (x : Out) : d.wrote keys (d'.emit x) :=
  ⟨h.1, fun q j f hq => h.2 q j f hq⟩

theorem Dev.wrote_ite {keys : List Nat} {d a b : Dev} {c : Prop} [Decidable c] (ha : d.wrote keys a) (hb : d.wrote keys b) :
    d.wrote keys (if c then a else b) := by split <;> assumption

theorem Dev.wrote_found {keys : List Nat} {d d' : Dev} (h : d.wrote keys d') : d'.found = d.found := Dev.objsOnly_found h.1

theorem Dev.wrote_flipUsed {keys : List Nat} {d d' : Dev} (h : d.wrote keys d') : d'.flipUsed = d.flipUsed := Dev.objsOnly_flipUsed h.1

theorem Dev.wrote_atOpen {keys : List Nat} {d d' : Dev} (h : d.wrote keys d') : d.wrote keys d'.atOpen := ⟨h.1, h.2⟩

/-- A chain of object writes from the device before the command meets the frame of `onlyWrites`. -/
theorem onlyWrites_of {keys : List Nat} {s : State} {d' : Dev} (h : s.dev.wrote keys d') : onlyWrites keys s { s with dev := d' } :=
  ⟨⟨rfl, rfl, rfl⟩, h.1, h.2⟩

/-- A command that only writes objects answers the device after its writes. -/
theorem State.runIf_eq {s : State} (h : ready s = true) {ok : Bool} (g : ok = true) {f : Clk → Dev → Dev} {d' : Dev}
    (e : f s.clk s.dev.silent = d') : s.runIf ok f = .next { s with dev := d' } := by
  subst e
  rw [State.runIf_next (ready_halted h) g]
  rfl

theorem State.run_eq {s : State} (h : ready s = true) {f : Clk → Dev → Dev} {d' : Dev} (e : f s.clk s.dev.silent = d') :
    s.run f = .next { s with dev := d' } := State.runIf_eq h (ok := true) rfl e

/-- A write as a boundary's answers the device after its writes, which the reads of the clock find. -/
theorem State.rowD_eq {s : State} (h : ready s = true) (c : s.clk.c = 0) {ok : Bool} (g : ok = true) (ws : List WriteOp) {f : Clk → Dev → Dev} {d' : Dev}
    (e : f s.clk s.dev.silent = d') : s.rowD ok ws f = .next { s with dev := d'.atOpen } := by
  subst e
  rw [State.rowD_next (ready_halted h) c g]
  rfl

end Sys2Proof.Machine
end

