-- ==== Sys2Proof/Laws/Links.lean ====
section
/-! SUPPORT. What bring-up does to a port out of service (R67 to R69). -/
namespace Sys2Proof.Machine

theorem Dev.portWidth_le (d : Dev) (p : Nat) : d.portWidth p ≤ 8 := by
  unfold Dev.portWidth modeWidth
  split <;> (dsimp only; split <;> omega)

theorem Dev.lanePhys_lt (d : Dev) {l : Nat} (h : l < 2048) : d.lanePhys l < 65536 := by
  unfold Dev.lanePhys
  have := Nat.mod_lt (d.n Od.OCTET_RX_LANE_MAP (l / 8) (l % 8)) (show 0 < 8 by omega)
  omega

theorem Dev.setLanes_objsOnly (d : Dev) (l n st : Nat) : d.objsOnly (d.setLanes l n st) :=
  Dev.objsOnly_each _ _ (fun d _ _ => Dev.objsOnly_put (Dev.objsOnly_refl d) _ _ _ _) d

theorem Dev.setLanes_get (d : Dev) (l n st : Nat) (q : Obj) (j f : Nat) (h : Od.LANE_STATE.idx * 256 + Od.LANE_STATE.sub ≠ q.idx * 256 + q.sub)
    (hj : j < 65536) (hf : f < 65536) (hl : l + n ≤ 2048) : (d.setLanes l n st).get q j f = d.get q j f := by
  refine Dev.each_get _ _ _ _ _ (fun d x hx => ?_) d
  exact Dev.get_put_other _ _ _ _ _ _ _ _
    (Obj.key_ne h (Dev.lanePhys_lt d (by have := List.mem_range.mp hx; omega)) hj (by omega) hf)

theorem Dev.link_of_get {d e : Dev} {p : Nat} (h : d.get Od.PORT_LINK_STATE p = e.get Od.PORT_LINK_STATE p) : d.link p = e.link p := by
  simp [Dev.link, Dev.n, h]

/-- The lanes of a port out of use: objects alone change, and its link state is not among them. -/
theorem Dev.lanesOff_objsOnly (d : Dev) (p st : Nat) : d.objsOnly (d.lanesOff p st) := by
  unfold Dev.lanesOff Dev.dropChange
  have h := Dev.setLanes_objsOnly d p (d.portWidth p) st
  iterate 5 apply Dev.objsOnly_put
  exact h

theorem Dev.lanesOff_link (d : Dev) {p : Nat} (st : Nat) (h : p < 1024) : (d.lanesOff p st).link p = d.link p := by
  apply Dev.link_of_get
  have := d.portWidth_le p
  simp only [Dev.lanesOff, Dev.dropChange]
  iterate 5 rw [Dev.get_put_other _ _ _ _ _ _ _ _ (Obj.key_ne (by decide) (by omega) (by omega) (by omega) (by omega))]
  exact Dev.setLanes_get d _ _ _ _ _ _ (by decide) (by omega) (by omega) (by omega)

theorem Dev.lanesOff_lanes (d : Dev) {p : Nat} (st : Nat) (h : p < 1024) : (d.lanesOff p st).n Od.PORT_ACTIVE_LANES p = 0 := by
  simp only [Dev.lanesOff, Dev.dropChange]
  iterate 4 rw [Dev.n_put_other _ _ _ _ _ _ _ _ (Obj.key_ne (by decide) (by omega) (by omega) (by omega) (by omega))]
  exact Dev.n_put_same _ _ _ _ _ rfl

/-- The link state of a port that neither is nor comes into service: its objects change, and frames of its MAC wait no longer. -/
theorem Dev.setLink_idle (k : Clk) (d : Dev) (p st : Nat) (h : d.inService p = false) (h2 : st ≠ lkUP) (h3 : st ≠ lkCHANGEOVER) (h4 : st ≠ lkPARKED)
    (h5 : Od.PORT_LINK_STATE.ty.norm st = st) :
    d.setLink k p st = ((d.put Od.PORT_LINK_STATE p st).put Od.PORT_SHED_PEER_CAPABLE p 0).dropCtl p := by
  have e : (d.put Od.PORT_LINK_STATE p st).inService p = false := by
    simp [Dev.inService, Dev.link, Dev.n_put_same _ _ _ _ _ h5, h2, h3]
  have u : d.link p ≠ lkUP := by intro x; simp [Dev.inService, x] at h
  simp [Dev.setLink, h, e, h2, h3, h4, u]

end Sys2Proof.Machine
end

