-- ==== Sys2Proof/Laws/Memory.lean ====
section
/-! SUPPORT. The laws of HBM: a byte written reads back, every other byte stays, and every operation keeps the canonical form. -/
namespace Sys2Proof.Machine

theorem Memory.wf_cons {a : Nat} {v : Byte} {t : Memory} :
    Memory.wf ((a, v) :: t) = true ↔ v ≠ Memory.blank ∧ (∀ x ∈ t, a < x.1) ∧ Memory.wf t = true := by
  induction t generalizing a v with
  | nil => simp [Memory.wf]
  | cons y u ih =>
    obtain ⟨b, w⟩ := y
    simp only [Memory.wf, Bool.and_eq_true, bne_iff_ne, decide_eq_true_eq, List.mem_cons, forall_eq_or_imp, and_assoc]
    constructor
    · rintro ⟨hv, h, k⟩
      exact ⟨hv, h, fun x hx => Nat.lt_trans h ((ih.mp k).2.1 x hx), k⟩
    · rintro ⟨hv, h, -, k⟩
      exact ⟨hv, h, k⟩

theorem Memory.rd_absent {m : Memory} {x : Nat} (h : ∀ c ∈ m, x < c.1) : m.rd x = Memory.blank := by
  induction m with
  | nil => rfl
  | cons c t ih =>
    obtain ⟨a, v⟩ := c
    have ha : x < a := h (a, v) (by simp)
    simp only [Memory.rd]
    rw [if_neg (by omega)]
    exact ih fun c hc => h c (by simp [hc])

theorem Memory.mem_wr {m : Memory} {x : Nat} {v : Byte} {c : Host.Cell} (h : c ∈ m.wr x v) : c = (x, v) ∨ c ∈ m := by
  induction m with
  | nil => unfold Memory.wr at h; split at h <;> simp_all
  | cons d t ih =>
    obtain ⟨a, w⟩ := d
    unfold Memory.wr at h
    split at h
    · split at h
      · exact .inr h
      · simpa using h
    · split at h
      · split at h
        · exact .inr (by simp [h])
        · simp only [List.mem_cons] at h ⊢; tauto
      · simp only [List.mem_cons] at h ⊢
        rcases h with h | h
        · exact .inr (.inl h)
        · exact (ih h).imp id .inr

/-- A byte written reads back. -/
theorem Memory.rd_wr_same {m : Memory} (x : Nat) (v : Byte) (h : m.wf = true) : (m.wr x v).rd x = v := by
  induction m with
  | nil => unfold Memory.wr; split <;> simp_all [Memory.rd]
  | cons c t ih =>
    obtain ⟨a, w⟩ := c
    obtain ⟨-, ha, ht⟩ := Memory.wf_cons.mp h
    unfold Memory.wr
    split
    · rename_i hx
      split
      · rename_i e
        rw [e, Memory.rd_absent]
        intro c hc
        rcases List.mem_cons.mp hc with rfl | hc
        · exact hx
        · exact Nat.lt_trans hx (ha c hc)
      · simp [Memory.rd]
    · split
      · rename_i e; subst e
        split
        · rename_i e; rw [e, Memory.rd_absent ha]
        · simp [Memory.rd]
      · rename_i e; simp [Memory.rd, Ne.symm e, ih ht]

/-- A write leaves every other byte as it was. -/
theorem Memory.rd_wr_other (m : Memory) {x y : Nat} (v : Byte) (h : x ≠ y) : (m.wr x v).rd y = m.rd y := by
  induction m with
  | nil => unfold Memory.wr; split <;> simp [Memory.rd, h]
  | cons c t ih =>
    obtain ⟨a, w⟩ := c
    unfold Memory.wr
    split
    · split <;> simp [Memory.rd, h]
    · split
      · rename_i e; subst e
        split <;> simp [Memory.rd, h]
      · simp [Memory.rd, ih]

/-- A write keeps the canonical form. -/
theorem Memory.wr_wf {m : Memory} (x : Nat) (v : Byte) (h : m.wf = true) : (m.wr x v).wf = true := by
  induction m with
  | nil => unfold Memory.wr; split <;> simp_all [Memory.wf]
  | cons c t ih =>
    obtain ⟨a, w⟩ := c
    obtain ⟨hw, ha, ht⟩ := Memory.wf_cons.mp h
    unfold Memory.wr
    split
    · rename_i hx
      split
      · exact h
      · rename_i hv
        refine Memory.wf_cons.mpr ⟨hv, fun c hc => ?_, h⟩
        rcases List.mem_cons.mp hc with rfl | hc
        · exact hx
        · exact Nat.lt_trans hx (ha c hc)
    · split
      · rename_i e; subst e
        split
        · exact ht
        · rename_i hv; exact Memory.wf_cons.mpr ⟨hv, ha, ht⟩
      · rename_i h1 h2
        refine Memory.wf_cons.mpr ⟨hw, fun c hc => ?_, ih ht⟩
        rcases Memory.mem_wr hc with rfl | hc
        · show a < x; omega
        · exact ha c hc

/-- Writing a byte string keeps the canonical form. -/
theorem Memory.wrBytes_wf {m : Memory} (a : Nat) (bs : List Byte) (h : m.wf = true) : (m.wrBytes a bs).wf = true := by
  induction bs generalizing m a with
  | nil => exact h
  | cons b bs ih => exact ih (a + 1) (Memory.wr_wf a b h)

/-- Writing a byte string leaves every byte outside it as it was. -/
theorem Memory.rd_wrBytes_other (m : Memory) (a : Nat) (bs : List Byte) {y : Nat} (h : y < a ∨ a + bs.length ≤ y) :
    (m.wrBytes a bs).rd y = m.rd y := by
  induction bs generalizing m a with
  | nil => rfl
  | cons b bs ih =>
    simp only [List.length_cons] at h
    rw [Memory.wrBytes, ih (m.wr a b) (a + 1) (by omega), Memory.rd_wr_other m b (by omega)]

theorem Memory.filter_wf {m : Memory} (p : Host.Cell → Bool) (h : m.wf = true) : Memory.wf (m.filter p) = true := by
  induction m with
  | nil => rfl
  | cons c t ih =>
    obtain ⟨a, w⟩ := c
    obtain ⟨hw, ha, ht⟩ := Memory.wf_cons.mp h
    rw [List.filter_cons]
    split
    · exact Memory.wf_cons.mpr ⟨hw, fun x hx => ha x (List.mem_of_mem_filter hx), ih ht⟩
    · exact ih ht

/-- Emptying a range keeps the canonical form. -/
theorem Memory.clear_wf {m : Memory} (lo hi : Nat) (h : m.wf = true) : (m.clear lo hi).wf = true := Memory.filter_wf _ h

@[simp] theorem bytesLE_length (n v : Nat) : (bytesLE n v).length = n := by
  induction n generalizing v with
  | zero => rfl
  | succ n ih => simp [bytesLE, ih]

theorem ofBytesLE_bytesLE (n : Nat) : ∀ v : Nat, ofBytesLE (bytesLE n v) = v % 256 ^ n := by
  induction n with
  | zero => intro v; simp [bytesLE, ofBytesLE, Nat.mod_one]
  | succ n ih =>
    intro v
    have h : (BitVec.ofNat 8 v).toNat = v % 256 := BitVec.toNat_ofNat v 8
    rw [bytesLE, ofBytesLE, h, ih, Nat.pow_succ', Nat.mod_mul]

@[simp] theorem Memory.rdBytes_length (m : Memory) (a n : Nat) : (m.rdBytes a n).length = n := by
  induction n generalizing a with
  | zero => rfl
  | succ n ih => simp [Memory.rdBytes, ih]

/-- Nothing has been written: every byte reads as one never written. -/
theorem Memory.rdBytes_nil (a n : Nat) : Memory.rdBytes [] a n = List.replicate n Memory.blank := by
  induction n generalizing a with
  | zero => rfl
  | succ n ih => simp [Memory.rdBytes, Memory.rd, ih, List.replicate_succ]

/-- A write of other bytes leaves what a read finds. -/
theorem Memory.rdBytes_wrBytes_other (m : Memory) (a : Nat) (bs : List Byte) {x n : Nat} (h : x + n ≤ a ∨ a + bs.length ≤ x) :
    (m.wrBytes a bs).rdBytes x n = m.rdBytes x n := by
  induction n generalizing x with
  | zero => rfl
  | succ n ih =>
    simp only [Memory.rdBytes]
    rw [Memory.rd_wrBytes_other m a bs (by omega), ih (by omega)]

/-- What is written is read. -/
theorem Memory.rdBytes_wrBytes_same {m : Memory} (a : Nat) (bs : List Byte) (h : m.wf = true) : (m.wrBytes a bs).rdBytes a bs.length = bs := by
  induction bs generalizing m a with
  | nil => rfl
  | cons b t ih =>
    simp only [List.length_cons, Memory.rdBytes, Memory.wrBytes]
    rw [Memory.rd_wrBytes_other _ _ _ (by omega), Memory.rd_wr_same _ _ h, ih _ (Memory.wr_wf _ _ h)]

end Sys2Proof.Machine
end

