-- ==== Sys2Proof/Tests/Slice0.lean ====
section
/-! SUPPORT. Tests. For each statement, a state and operands that meet the hypotheses of each of its clauses together; a command with a unit the device has
not, for each kind of unit, that the check of commands refuses; and single steps of commands on small states, their results taken from the spec. -/
namespace Sys2Proof.Tests

open Sys2Proof.Machine Sys2Proof.Safety

set_option maxRecDepth 100000

/-- The device of State.reset with elements of objects set: object, instance, element, value. -/
def dv (l : List (Obj × Nat × Nat × Int)) : Dev := l.foldl (fun d x => d.set x.1 x.2.1 x.2.2.2 x.2.2.1) {}

/-- A device at the start of a tick, its raw counter as if every tick had lasted 800 clocks. -/
def st (tick : Nat) (d : Dev) : State := { clk := { tick := tick, raw := 51200 * tick }, dev := d }

/-- The same with one element of each of some objects set. -/
def one (tick : Nat) (l : List (Obj × Nat × Int)) : State := st tick (dv (l.map fun x => (x.1, x.2.1, 0, x.2.2)))


/-- A step goes on to a state of which p holds. -/
def gives (o : Host.Outcome State Fault Refusal) (p : State → Bool) : Bool := match o with | .next t => p t | _ => false
/-- Port 8, that exists at reset, with its link in a state, the channel of its octet a backplane. -/
def linked (x tick : Nat) (l : List (Obj × Nat × Int)) : State :=
  one tick ([(Od.PORT_LINK_STATE, 8, (x : Int)), (Od.OCTET_CHANNEL, 1, 1)] ++ l)

def l1 : State := linked 1 5 [(Rg.UP_STEPS, 8, 1)]
def l2 : State := linked 1 5 [(Rg.UP_STEPS, 8, 3)]
def l3 : State := linked 1 5 [(Rg.UP_STEPS, 8, 7)]

theorem wit_LinkStepsRecorded :
    (ready l1 = true ∧ l1.dev.link 8 = lkTRAINING ∧ bit (l1.dev.n Rg.UP_STEPS 8) 0 = true ∧ bit (l1.dev.stepsNeeded 8) 1 = true) ∧
    (ready l2 = true ∧ l2.dev.link 8 = lkTRAINING ∧ bit (l2.dev.stepsNeeded 8) 2 = true ∧
      l2.dev.n Rg.UP_STEPS 8 &&& 3 = l2.dev.stepsNeeded 8 &&& 3) ∧
    (ready l3 = true ∧ l3.dev.link 8 = lkTRAINING ∧ l3.dev.n Rg.UP_STEPS 8 &&& 7 = l3.dev.stepsNeeded 8) := by decide

def l4 : State := linked 0 5 []
def l5 : State := linked 1 1000000 [(Rg.UP_ORIGIN, 8, 1)]
def l6 : State := linked 5 2000 [(Rg.DOWN_TICK, 8, 1)]

theorem wit_LinkBringUpRestarts :
    (ready l4 = true ∧ l4.clk.c = 0 ∧ canBringUp l4.dev 8 ∧ l4.dev.link 8 = lkDISABLED) ∧
    (ready l5 = true ∧ canBringUp l5.dev 8 ∧ l5.dev.on Od.PORT_ENABLE 8 = true ∧ l5.dev.link 8 = lkTRAINING ∧ l5.dev.on Rg.UP_ORIGIN 8 = true ∧
      l5.dev.n Rg.UP_ORIGIN 8 + 999999 ≤ l5.clk.tick) ∧
    (ready l6 = true ∧ canBringUp l6.dev 8 ∧ l6.dev.on Od.PORT_ENABLE 8 = true ∧ l6.dev.link 8 = lkDOWN ∧ l6.dev.on Rg.DOWN_TICK 8 = true ∧
      l6.dev.n Rg.DOWN_TICK 8 + 1999 ≤ l6.clk.tick) := by
  unfold canBringUp; decide

def up : State := linked 2 7 []
def l8 : State := one 7 [(Rg.REF_FAULT, 7, 1), (Rg.REF_GOOD, 7, 8)]

theorem wit_LinkLossAndReferences :
    (ready up = true ∧ up.dev.receives 8 = true) ∧
    (ready l8 = true ∧ (200 : Int).natAbs ≤ 200 ∧ l8.dev.on Rg.REF_FAULT 7 = true ∧ l8.dev.n Rg.REF_GOOD 7 < 9) ∧
    (200 < (-201 : Int).natAbs ∧ up.dev.on Rg.REF_FAULT 7 = false) := by decide

def l9 : State := one 7 [(Od.LANE_STATE, 1023, 2), (Rg.AGE_LANE, 1023, 13), (Od.LANE_EQ_GUARD, 1023, 12)]
def l10 : State := linked 2 7 [(Od.PORT_FEC_ACTIVE, 8, 2), (Rg.BAD_CODEWORDS, 8, 6)]

theorem wit_LaneMeasurements :
    (ready l9 = true ∧ l9.dev.n Od.LANE_STATE 1023 = 2 ∧ l9.dev.on Rg.AGE_LANE 1023 = true ∧ l9.dev.n Od.LANE_EQ_GUARD 1023 ≤ 12) ∧
    (ready l10 = true ∧ l10.dev.receives 8 = true ∧ l10.dev.on Od.PORT_FEC_ACTIVE 8 = true ∧ l10.dev.n Rg.BAD_CODEWORDS 8 ≠ 7) := by decide

def l11 : State := linked 4 7 [(Od.PORT_PARK, 8, 1), (Od.PORT_ACTIVE_LANES, 8, 8)]

/-- Port 8 at full width with a peer that can shed. -/
def shedding (tick : Nat) : State := linked 2 tick [(Od.PORT_SHED_ENABLE, 8, 1), (Od.PORT_SHED_PEER_CAPABLE, 8, 1), (Od.PORT_ACTIVE_LANES, 8, 8)]

theorem wit_ParkingPorts :
    (ready up = true ∧ up.clk.c = 0 ∧ up.dev.portExists 8 = true ∧ up.dev.link 8 = lkUP ∧ up.dev.n Rg.CHG_PHASE 8 = 0 ∧ up.dev.canShed 8 = false ∧
      up.dev.n Od.PORT_HOLD_TIME 8 ≠ 0 ∧ up.dev.replaying = false) ∧
    (ready (shedding 7) = true ∧ (shedding 7).clk.c = 0 ∧ (shedding 7).dev.portExists 8 = true ∧ (shedding 7).dev.link 8 = lkUP ∧
      (shedding 7).dev.n Rg.CHG_PHASE 8 = 0 ∧ (shedding 7).dev.n Od.PORT_HOLD_TIME 8 ≠ 0 ∧ (shedding 7).dev.replaying = false ∧
      (shedding 7).dev.canShed 8 = true ∧ 1 < (shedding 7).dev.n Od.PORT_ACTIVE_LANES 8 ∧ (shedding 7).dev.n Rg.REQ_TYPE 8 = 0 ∧
      ((shedding 7).dev.operList 8).hasGap 4000 = true) ∧
    (ready l11 = true ∧ l11.clk.c = 0 ∧ l11.dev.sorusRuns (sorusOf 8) = true ∧ l11.dev.portExists 8 = true ∧ l11.dev.link 8 = lkPARKED ∧ l11.dev.portWidth 8 ≤ l11.dev.n Od.PORT_ACTIVE_LANES 8) ∧
    up.dev.n Od.DEVICE_SORUS_LINK_STATE 7 ≠ 2 := by decide

def l12 : State := one 7 [(Od.OCTET_MODE, 127, 4)]

theorem wit_OctetFromOff : ready l12 = true ∧ l12.clk.c = 0 ∧ l12.dev.n Od.OCTET_MODE 127 = 4 ∧ l12.dev.replaying = false ∧ octetOk 1 2 0 = true ∧
    ∀ p, p / 8 = 127 → l12.dev.inService p = false := by
  refine ⟨by decide, by decide, by decide, by decide, by decide, ?_⟩
  intro p h
  have : 1016 ≤ p ∧ p ≤ 1023 := by omega
  have e : p = 1016 ∨ p = 1017 ∨ p = 1018 ∨ p = 1019 ∨ p = 1020 ∨ p = 1021 ∨ p = 1022 ∨ p = 1023 := by omega
  rcases e with h | h | h | h | h | h | h | h <;> subst h <;> decide

def l13 : State := linked 2 7 [(Rg.REQ_TYPE, 8, 2), (Rg.REQ_TARGET, 8, 4), (Rg.REQ_SEQ, 8, 9)]

theorem wit_ShedFramesTaken : (ready up = true ∧ up.dev.receives 8 = true ∧ up.dev.on Rg.REQ_TYPE 8 = false ∧ up.dev.n Rg.REQ_TARGET 8 < 1) ∧
    (ready l13 = true ∧ l13.dev.receives 8 = true ∧ l13.dev.on Rg.REQ_TYPE 8 = true) := by decide

def l14 : State := linked 2 1999999 [(Od.PORT_SHED_ENABLE, 8, 1)]
def l15 : State := linked 2 6000000 [(Rg.HELLO_SEEN, 8, 1)]
def l16 (tries lanes : Nat) : State :=
  linked 2 2001 [(Rg.REQ_TYPE, 8, 2), (Rg.REQ_TARGET, 8, 4), (Rg.REQ_TICK, 8, 1), (Rg.REQ_TRIES, 8, tries), (Od.PORT_ACTIVE_LANES, 8, lanes)]
def l17 : State := linked 2 33 [(Rg.CHG_PHASE, 8, 2), (Rg.CHG_TICK, 8, 1)]

theorem wit_ShedTimers :
    (ready l14 = true ∧ l14.dev.on Od.PORT_SHED_ENABLE 8 = true ∧ l14.dev.link 8 = lkUP ∧ l14.dev.n Rg.HELLO_SENT 8 + 1999999 ≤ l14.clk.tick) ∧
    (ready l15 = true ∧ l15.dev.n Rg.HELLO_SEEN 8 + 5999999 ≤ l15.clk.tick) ∧
    (ready (l16 3 8) = true ∧ (l16 3 8).dev.on Rg.REQ_TYPE 8 = true ∧ (l16 3 8).dev.n Rg.REQ_TICK 8 + 2000 ≤ (l16 3 8).clk.tick ∧
      (l16 3 8).dev.n Rg.REQ_TRIES 8 ≤ 3 ∧ 3 < (l16 4 2).dev.n Rg.REQ_TRIES 8 ∧
      (l16 4 2).dev.n Od.PORT_ACTIVE_LANES 8 < (l16 4 2).dev.n Rg.REQ_TARGET 8 ∧
      (l16 4 4).dev.n Rg.REQ_TARGET 8 ≤ (l16 4 4).dev.n Od.PORT_ACTIVE_LANES 8) ∧
    (ready l17 = true ∧ l17.dev.n Rg.CHG_PHASE 8 = 2 ∧ l17.dev.n Rg.CHG_TICK 8 + 32 ≤ l17.clk.tick) := by decide

def l18 : State := linked 2 2000200 [(Od.PORT_ACTIVE_LANES, 8, 1), (Rg.SHED_START, 8, 200), (Rg.RESTORE_START, 8, 2000000)]
def l19 : State := linked 2 33 [(Rg.CHG_PHASE, 8, 1), (Rg.CHG_TARGET, 8, 4)]
def l20 : State := linked 3 41 [(Rg.CHG_PHASE, 8, 3), (Rg.CHG_TICK, 8, 33), (Rg.CHG_TARGET, 8, 8)]

theorem wit_ShedWindowsAndHolds :
    (ready l18 = true ∧ l18.dev.n Rg.SHED_START 8 + l18.dev.n Od.PORT_SHED_WINDOW 8 ≤ l18.clk.tick ∧ 0 < l18.dev.n Od.PORT_ACTIVE_LANES 8 ∧
      l18.dev.n Rg.RESTORE_START 8 + l18.dev.n Od.PORT_SHED_RESTORE_WINDOW 8 ≤ l18.clk.tick) ∧
    (let s := { shedding 2000007 with dev := (shedding 2000007).dev.put Rg.RESTORE_START 8 2000007 }
     ready s = true ∧ s.dev.n Rg.SHED_START 8 + s.dev.n Od.PORT_SHED_WINDOW 8 ≤ s.clk.tick ∧ s.dev.link 8 = lkUP ∧ s.dev.canShed 8 = true ∧
      s.dev.n Od.PORT_SHED_MIN_LANES 8 < s.dev.n Od.PORT_ACTIVE_LANES 8 ∧
      max (s.dev.n Rg.SHED_RX 8) (s.dev.n Rg.SHED_TX 8) * 1000 <
        s.dev.n Od.PORT_SHED_BELOW 8 * (s.dev.n Od.PORT_ACTIVE_LANES 8 / 2 * s.dev.portLane 8 * s.dev.n Od.PORT_SHED_WINDOW 8) ∧
      restoreWanted s.clk s.dev 8 = false ∧ s.dev.dues.contains (.restoreNow 8) = false ∧ s.dev.n Rg.REQ_TYPE 8 = 0 ∧ s.dev.n Rg.CHG_PHASE 8 = 0 ∧
      s.dev.n Rg.SHED_AFTER 8 ≤ s.clk.tick ∧ (s.dev.operList 8).hasGap 4000 = true) ∧
    (ready l19 = true ∧ l19.dev.n Rg.CHG_PHASE 8 = 1 ∧ l19.dev.link 8 = lkUP ∧ (∀ x ∈ l19.dev.tx, x.port = 8 → 1 < x.path) ∧
      l19.dev.inGap l19.clk 8 4000 = true ∧ (l19.dev.operList 8).hasGap 4000 = true ∧
      l19.dev.laterGap l19.clk 8 = false) ∧
    (ready l20 = true ∧ l20.dev.n Rg.CHG_PHASE 8 = 3 ∧ l20.dev.n Rg.CHG_TICK 8 + 8 ≤ l20.clk.tick ∧ l20.dev.link 8 = lkCHANGEOVER ∧
      l20.dev.on Od.PORT_PARK 8 = false ∧ l20.dev.n Rg.CHG_TARGET 8 ≤ l20.dev.portWidth 8) := by decide

/-- A frame of 60 bytes of an EtherType, and the frame with its FCS. -/
def plain60 (type : Nat) : List Byte := List.replicate 12 2 ++ bytesBE 2 type ++ List.replicate 46 0
def fr64 (type : Nat) : List Byte := plain60 type ++ fcsBytes (plain60 type)

theorem wit_FramesReachTheMac :
    ready up = true ∧ up.dev.receives 8 = true ∧ up.dev.link 8 ≠ lkPARKED ∧ up.dev.n Od.PORT_WAKE_ENABLE 8 = 0 ∧
      up.dev.faultEntries up.clk 8 0 = [] ∧ (∀ f ∈ up.dev.rx, f.port = 8 → f.pre = false → 2 ≤ f.phase) ∧ up.dev.maint = false ∧
      up.dev.matMode 8 = false ∧ be16 (fr64 0x0800) 12 ≠ 0x8808 ∧ be16 (fr64 0x0800) 12 ≠ 0x88B5 ∧ be16 (fr64 0x8808) 12 = 0x8808 ∧
      be16 (fr64 0x88B5) 12 = 0x88B5 := by decide

/-- Port 8 in service with a frame at its MAC. -/
def atMac (f : RxFrame) : State := { up with dev := { up.dev with rx := [f] } }
def goodRx : RxFrame := { port := 8, bytes := fr64 0x0800 }
def runtRx : RxFrame := { port := 8, bytes := (fr64 0x0800).take 63 }
def tailRx : RxFrame := { port := 8, bytes := fr64 0x0800, phase := 3, lastEnd := 14 }

theorem wit_FramesEnd_right :
    ready (atMac goodRx) = true ∧ plainWords (atMac goodRx).dev = true ∧ goodRx.desc.replay = false ∧ goodRx.kind = 0 ∧ goodRx.phase = 0 ∧
      goodRx.endErrors = 0 := by decide

theorem wit_FramesEnd_bad :
    ready (atMac runtRx) = true ∧ plainWords (atMac runtRx).dev = true ∧ runtRx.phase = 0 ∧ runtRx.whole = true ∧ runtRx.keepBad = false ∧
      runtRx.creditCls = 8 ∧ (atMac runtRx).dev.journalled 8 = false ∧ (errCounters.find? fun y => bit runtRx.endErrors y.1).isSome = true := by decide

theorem wit_FramesEnd_tail :
    ready (atMac tailRx) = true ∧ tailRx.phase = 3 ∧ tailRx.fr = none ∧ tailRx.host = [] ∧ tailRx.mgmt = false ∧
      tailReason tailRx.spans tailRx.lastEnd (tailRx.bytes.length - 4) = 0 := by decide

def c1 : State := linked 2 7 [(Od.PORT_FLOW_MODE, 8, 1), (Od.PORT_FLOW_RX_ENABLE, 8, 1)]
def c2 : State := linked 2 7 [(Od.PORT_FLOW_MODE, 8, 2), (Od.PORT_FLOW_RX_ENABLE, 8, 1)]
def c3 : State := linked 2 19 [(Od.PORT_PREEMPT_STATUS, 8, 1), (Od.PORT_PREEMPT_VERIFY_TIME, 8, 0), (Rg.VERIFY_TICK, 8, 20), (Rg.VERIFY_TRIES, 8, 2)]
def c3v : State := linked 2 19 [(Od.PORT_PREEMPT_ENABLE, 8, 1), (Od.PORT_PREEMPT_STATUS, 8, 3)]

theorem wit_MacControlFrames :
    (ready c1 = true ∧ plainWords c1.dev = true ∧ c1.dev.inService 8 = true ∧ c1.dev.journalled 8 = false ∧ c1.dev.gatePend false 8 = none ∧ c1.dev.n Od.PORT_FLOW_MODE 8 = 1 ∧
      c1.dev.on Od.PORT_FLOW_RX_ENABLE 8 = true ∧ c1.dev.maint = false ∧ ∀ c, c < 8 → c1.dev.immune 8 c = false) ∧
    (ready c2 = true ∧ plainWords c2.dev = true ∧ c2.dev.inService 8 = true ∧ c2.dev.journalled 8 = false ∧ c2.dev.gatePend false 8 = none ∧ c2.dev.n Od.PORT_PFC_CLASS_MAP 8 7 < 8 ∧
      c2.dev.n Od.PORT_FLOW_MODE 8 = 2 ∧ c2.dev.on Od.PORT_FLOW_RX_ENABLE 8 = true ∧ c2.dev.maint = false ∧
      ([0, 0, 0, 0, 0, 0, 0, 65535] : List Nat)[7]? = some 65535 ∧ ∀ c, c < 8 → c2.dev.immune 8 c = false) ∧
    (c1.dev.replaying = false ∧ c1.dev.n Rg.PAUSE_UNTIL 8 7 ≤ c1.clk.clock) ∧
    (ready c3 = true ∧ plainWords c3.dev = true ∧ c3.dev.inService 8 = true ∧ c3.dev.journalled 8 = false ∧ c3.dev.gatePend false 8 = none ∧ c3.dev.n Od.PORT_PREEMPT_STATUS 8 = 1 ∧
      c3.dev.n Rg.VERIFY_TICK 8 + 2000 * c3.dev.n Od.PORT_PREEMPT_VERIFY_TIME 8 ≤ c3.clk.tick + 1 ∧ c3.dev.n Rg.VERIFY_TRIES 8 = 2) ∧
    (ready c3v = true ∧ plainWords c3v.dev = true ∧ c3v.dev.inService 8 = true ∧ c3v.dev.journalled 8 = false ∧ c3v.dev.gatePend false 8 = none ∧
      c3v.dev.on Od.PORT_PREEMPT_ENABLE 8 = true ∧ c3v.dev.maint = false ∧
      c3v.dev.mayLeave c3v.clk { kind := .control, unit := 8, vals := [16, 1] } = true) := by decide

def waitingRx : RxFrame := { port := 8, bytes := fr64 0x0800, phase := 2 }
def trunkRx : RxFrame := { port := 8, bytes := fr64 0x0800, phase := 2, desc := { fromMat := true } }
def injecting : State :=
  { up with dev := { up.dev with inject := [{ port := 8, cls := 0, pre := false, bytes := plain60 0x0800, handle := 0, ring := 0, sq := 0 }] } }

/-- Pipeline 0 held for one more clock. -/
def barredRx : State := { atMac waitingRx with dev := (atMac waitingRx).dev.put Rg.HOLD_PULSE 0 (up.clk.clock + 1) }

theorem wit_FramesEnterTheirPipelines :
    (ready (atMac waitingRx) = true ∧ (atMac waitingRx).dev.waitingAt 8 false false = some (0, waitingRx) ∧ (atMac waitingRx).dev.pipeLate up.clk 0 = false ∧
      ((atMac waitingRx).dev.silent.holdCount up.clk 0).pipeHeld up.clk 0 = false ∧ ((atMac waitingRx).dev.silent.holdCount up.clk 0).maint = false) ∧
    (ready (atMac trunkRx) = true ∧ (atMac trunkRx).dev.waitingAt 8 false true = some (0, trunkRx) ∧ (atMac trunkRx).dev.pipeLate up.clk 0 = false ∧
      ((atMac trunkRx).dev.silent.holdCount up.clk 0).pipeHeld up.clk 0 = false ∧ ((atMac trunkRx).dev.silent.holdCount up.clk 0).maint = false) ∧
    (ready injecting = true ∧ (injecting.dev.injectHead 0).isSome = true ∧ injecting.dev.pipeLate up.clk 0 = false ∧
      (injecting.dev.silent.holdCount up.clk 0).pipeHeld up.clk 0 = false ∧ (injecting.dev.silent.holdCount up.clk 0).maint = false) ∧
    (ready barredRx = true ∧ barredRx.dev.waitingAt 8 false false = some (0, waitingRx) ∧ barredRx.dev.pipeLate up.clk 0 = false ∧
      (barredRx.dev.silent.holdCount up.clk 0).maint = false ∧ (barredRx.dev.silent.holdCount up.clk 0).pipeHeld up.clk 0 = true) := by decide

/-- A whole record with two references, its copy in the first queue of port 8. -/
def held (q : Nat) : FrameRec := { id := 1, refs := 2, complete := true, stored := plain60 0x0800, reserved := 1, srcPort := 8, rxLength := 64, lastOwner := q }
def cp (q : Nat) : Copy := { queue := q, fr := 1, desc := { srcPort := 8, rxLength := 64, pass := 0 } }
def leaving : TxCopy := { port := 8, path := 1, copy := cp 129, frame := plain60 0x0800, ltx := 64, mark := 1, start := 1 }
def sending (x : TxCopy) : State := { up with dev := { up.dev with frames := [held 129], tx := [x] } }

theorem wit_CopiesLeave :
    ready (sending leaving) = true ∧ plainWords (sending leaving).dev = true ∧ (sending leaving).dev.replaying = false ∧
      leaving.copy.queue / 16 = leaving.port ∧ (sending leaving).dev.txOn 8 1 = some leaving ∧ (sending leaving).dev.ended (sending leaving).clk leaving = true ∧
      (sending leaving).dev.frame 1 = some (held 129) ∧ (held 129).complete = true ∧ (held 129).refs ≠ 0 ∧ leaving.cut = none ∧ (sending leaving).dev.gatePend false 8 = none ∧
      (held 129).tailMark = false ∧ leaving.giant = false ∧ leaving.stomp = false ∧ leaving.xors = [] ∧ leaving.debit = 0 ∧ leaving.header = [] ∧
      leaving.committed = false ∧ (sending leaving).dev.maint = false ∧
      (sending leaving).dev.n Od.SCHED_LEVEL_MODE 8 ((sending leaving).dev.n Od.SCHED_LEVEL 129) = 0 ∧
      ((sending leaving).dev.operList 8).gated 1 = false := by decide

def queued (q : Nat) : State :=
  let s := linked 2 7 [(Od.PSHAPER_PIR, 8, 1), (Od.SHAPER_PIR, 128, 1), (Od.POOL_BUFFERS, 0, 4)]
  { s with dev := { s.dev with frames := [held 128], copies := [cp q] } }

def preempted : TxCopy := { leaving with run := 2, ltx := 64, sent := 20 }

theorem wit_CopiesAreChosen_choice :
    ready (queued 128) = true ∧ (queued 128).dev.replaying = false ∧ (queued 128).dev.replayed = false ∧
      (queued 128).dev.pathFree (queued 128).clk 8 0 = true ∧ (queued 128).dev.egressTaken (queued 128).clk 8 0 = false ∧
      (let d := (((queued 128).dev.silent.gateDue (queued 128).clk 8).schedHeal 8).dropTooLong (queued 128).clk 8 0
       (d.choice (queued 128).clk 8 ((d.pathOffsets 8 0).filterMap (d.candidate (queued 128).clk 8 0))).isSome) = true := by decide

theorem wit_CopiesAreChosen_others :
    (ready (sending preempted) = true ∧ (sending preempted).dev.replayed = false ∧ (sending preempted).dev.txOn 8 1 = some preempted ∧
      preempted.run = 2 ∧ (sending preempted).dev.inService 8 = true ∧ (sending preempted).dev.n Rg.CHG_PHASE 8 ≠ 3 ∧
      ((sending preempted).dev.txOn 8 0).isSome = false ∧ (sending preempted).dev.gatePend false 8 = none ∧
      ((sending preempted).dev.gateSays up.clk 8 1 44 ((sending preempted).dev.leaveTime up.clk 8 1)).pass = true) ∧
    (ready (queued 16384) = true ∧ (queued 16384).dev.recircHead (queued 16384).clk 0 = some (cp 16384, held 128) ∧
      (queued 16384).dev.recircLate (queued 16384).clk 0 = false ∧
      ((queued 16384).dev.silent.holdCount (queued 16384).clk 0).pipeHeld (queued 16384).clk 0 = false ∧
      ((((queued 16384).dev.silent.holdCount (queued 16384).clk 0).unqueue (cp 16384)).alloc 0 (recircLen (cp 16384) (held 128)) false).1 = 0) := by decide

/-- Port 8 a trunk port with its class 7 under credit. -/
def trunk (tick : Nat) (l : List (Obj × Nat × Nat × Int)) : State :=
  st tick (dv ([(Od.PORT_LINK_STATE, 8, 0, 2), (Od.MAT_ENABLE, 0, 0, 1), (Od.MAT_TRUNK_PORTS, 0, 0, 0x8008), (Od.FAB_CREDIT_ENABLE, 8, 0, 128)] ++ l))
def f1 : State := trunk 7 []
def f2 : State := one 107 [(Od.FAB_CREDIT_STALL_TICKS, 0, 100), (Rg.CREDIT_WAIT, 16383, 8)]
def f3 : State := linked 5 4005 [(Od.PORT_HOLD_STATE, 8, 1), (Rg.HOLD_START, 8, 5)]
def f4 : State := { up with dev := { up.dev with flight := [(1, 0)], frames := [{ held 128 with spilled := true, home := [8], issued := 1 }] } }

theorem wit_FabricTimers :
    (ready f1 = true ∧ plainWords f1.dev = true ∧ f1.dev.link 8 = lkUP ∧ ((List.range 8).filter fun c => f1.dev.creditClass 8 c) ≠ [] ∧
      f1.dev.n Rg.CREDIT_SENT 8 + f1.dev.n Od.FAB_CREDIT_INTERVAL 0 ≤ f1.clk.tick + 1) ∧
    (f1.dev.receives 8 = true ∧ f1.dev.matMode 8 = true ∧ f1.dev.link 8 ≠ lkPARKED ∧ f1.dev.maint = false ∧ f1.dev.journalled 8 = false) ∧
    (ready f2 = true ∧ plainWords f2.dev = true ∧ f2.dev.n Od.FAB_CREDIT_STALL_TICKS 0 ≠ 0 ∧ f2.dev.n Rg.CREDIT_WAIT 16383 ≠ 0 ∧
      f2.dev.on Rg.CREDIT_WAIT 16383 1 = false ∧ f2.dev.n Rg.CREDIT_WAIT 16383 + f2.dev.n Od.FAB_CREDIT_STALL_TICKS 0 ≤ (f2.dev.rk f2.clk).tick + 1) ∧
    (ready f3 = true ∧ plainWords f3.dev = true ∧ f3.dev.n Od.PORT_HOLD_STATE 8 = 1 ∧
      f3.dev.n Rg.HOLD_START 8 + f3.dev.n Od.PORT_HOLD_TIME 8 ≤ (f3.dev.rk f3.clk).tick ∧ f3.dev.copies = []) ∧
    (ready f4 = true ∧ plainWords f4.dev = true ∧ f4.dev.flight = [(1, 0)] ∧ 0 ≤ (f4.dev.rk f4.clk).clock ∧ f4.dev.hbmPoison = []) := by decide

def job : CapJob := { fr := 1, sampler := 0, desc := { srcPort := 8 } }
def g1 : State :=
  let s := one 7 [(Od.TICK_PLAN_HBM, 0, 192), (Od.SPORE_RING_RECORDS, 0, 16)]
  { s with dev := { s.dev with jobs := [job], frames := [held 128] } }
def buf (slot : Option Nat) (stashing : Bool) : Buf := { pool := 0, idx := 0, gen := 0, owner := 8, bytes := [1, 2], ring := some 0, since := 7, slot := slot, stashing := stashing }
def g2 : State :=
  let s := one 107 [(Od.POOL_STASH_AFTER, 0, 100), (Od.POOL_STASH_SLOTS, 0, 0)]
  { s with dev := { s.dev with bufs := [buf none false] } }
def g3 : State := { up with dev := { up.dev with bufs := [buf (some 0) true] } }
def g4 : State := one 7 [(Od.POOL_QUARANTINE_COUNT, 0, 1), (Od.POOL_QUARANTINE_LIST, 0, 1048575)]

theorem wit_CapturesAndBuffers :
    (ready g1 = true ∧ 192 * (g1.dev.n Rg.SPORE_USED 0 + 1) ≤ g1.dev.n Od.TICK_PLAN_HBM 0 0 ∧ g1.dev.n Rg.SPORE_USED 0 < 256 * g1.dev.bufGrant g1.clk 2 ∧
      g1.dev.frame 1 = some (held 128) ∧ (held 128).poisoned = [] ∧ (held 128).refs ≠ 0 ∧ g1.dev.n Od.SPORE_RING_MODE 0 = 0 ∧
      g1.dev.n Od.SPORE_RECORD_NUMBER 0 + 1 < 2 ^ 64) ∧
    (ready g2 = true ∧ g2.dev.buf (buf none false).handle = some (buf none false) ∧ (buf none false).ring.isSome = true ∧
      g2.dev.n Od.POOL_STASH_AFTER 0 ≠ 0 ∧ (buf none false).since + g2.dev.n Od.POOL_STASH_AFTER 0 ≤ g2.clk.tick ∧ g2.dev.stashSlot 0 = none ∧
      ∀ x ∈ g2.dev.bufs, x.since = (buf none false).since → (buf none false).handle ≤ x.handle) ∧
    (ready g3 = true ∧ g3.dev.buf (buf (some 0) true).handle = some (buf (some 0) true) ∧ g3.dev.hcmds = [] ∧
      g3.dev.n Od.POOL_QUARANTINE_COUNT 0 = 0) ∧
    (ready g4 = true ∧ g4.clk.c = 0 ∧ g4.dev.n Od.POOL_QUARANTINE_COUNT 0 < 4096 ∧
      (∀ e, e < g4.dev.n Od.POOL_QUARANTINE_COUNT 0 → bits (g4.dev.n Od.POOL_QUARANTINE_LIST 0 e) 19 0 ≠ 5) ∧
      g4.dev.n Od.POOL_QUARANTINE_COUNT 0 = 1 ∧ bits (g4.dev.n Od.POOL_QUARANTINE_LIST 0 0) 19 0 = 1048575) := by decide

/-- A gate list of two entries, as port 8's administrative list and as a pending one. -/
def glist : GList := { entries := [1, 2], base := 0, cycle := 1000000, ext := 0, view := 0 }
def pendG (stream : Bool) (u ct : Nat) : GPend := { stream := stream, unit := u, ct := ct, list := glist }
def gates (stream : Bool) (u ct tick : Nat) : State :=
  let s := linked 2 tick [(Od.PORT_ACTIVE_LANES, 8, 8)]
  { s with dev := { s.dev with gpend := [pendG stream u ct] } }

theorem wit_GateListsChange :
    (ready (linked 2 7 [(Od.PORT_ACTIVE_LANES, 8, 8)]) = true ∧ (linked 2 7 [(Od.PORT_ACTIVE_LANES, 8, 8)]).clk.c = 0 ∧ (linked 2 7 [(Od.PORT_ACTIVE_LANES, 8, 8)]).dev.gpend = [] ∧
      (linked 2 7 [(Od.PORT_ACTIVE_LANES, 8, 8)]).dev.portWidth 8 ≤ (linked 2 7 [(Od.PORT_ACTIVE_LANES, 8, 8)]).dev.n Od.PORT_ACTIVE_LANES 8) ∧
    (ready (gates false 8 3501 7) = true ∧ (gates false 8 3501 7).dev.gatePend false 8 = some (pendG false 8 3501) ∧
      ((gates false 8 3501 7).dev.viewSet 0).at (gates false 8 3501 7).clk.raw < 3501 * 65536) ∧
    (ready (gates false 8 3570 7) = true ∧ (gates false 8 3570 7).dev.replaying = false ∧
      (gates false 8 3570 7).dev.gatePend false 8 = some (pendG false 8 3570) ∧ glist.entries.length ≤ 1024 ∧
      3570 * 65536 ≤ (gates false 8 3570 7).dev.viewNow (gates false 8 3570 7).clk 0 + 70 * 65536) ∧
    (ready (gates true 255 3500 7) = true ∧ (gates true 255 3500 7).dev.gatePend true 255 = some (pendG true 255 3500) ∧
      3500 * 65536 ≤ (gates true 255 3500 7).dev.viewNow (gates true 255 3500 7).clk 0) := by decide

def v1 : State := one 2000007 [(Od.TIME_VIEW_STATE, 3, 1), (Od.TIME_VIEW_LAST_WRITE_TICK, 3, 7), (Od.TIME_VIEW_HOLDOVER_AFTER, 3, 1)]
def v2 : State :=
  one 2000007 [(Od.TIME_VIEW_STATE, 3, 1), (Od.TIME_VIEW_LAST_WRITE_TICK, 3, 7), (Od.TIME_VIEW_HOLDOVER_AFTER, 3, 1),
    (Od.TIME_VIEW_HOLDOVER_INCREMENT, 3, 2748779069441)]

theorem wit_ViewsAreWritten :
    (ready v1 = true ∧ v1.dev.timeBarred 3 = false ∧ (999999999 * 2 ^ 48 + 5) / 2 ^ 48 < 1000000000 ∧ 999999999 * 2 ^ 48 + 5 < 2 ^ 80 ∧
      (-1 : Int) ≠ 0 ∧ incOk 2746030290371 = true ∧ incOk 2751527848509 = true) ∧
    (v1.dev.holdoverDue v1.clk 3 = true ∧ v1.dev.n Od.TIME_VIEW_HOLDOVER_INCREMENT 3 = 0) ∧
    (ready v2 = true ∧ v2.dev.holdoverDue v2.clk 3 = true ∧ v2.dev.n Od.TIME_VIEW_HOLDOVER_INCREMENT 3 ≠ 0) := by decide

def r1 : State := one 7 [(Od.TIME_REF_B_ENABLE, 0, 1), (Od.TIME_REF_B_SOURCE, 0, 8), (Od.TIO_MODE, 7, 3)]
def r2 : State := one 7 [(Od.TIME_REF_B_ENABLE, 0, 1), (Od.TIME_REF_B_SOURCE, 0, 1), (Od.TIO_MODE, 0, 3), (Od.TIO_MODE, 7, 4)]
def r3 : State := one 1980001 [(Od.TIME_REF_B_ENABLE, 0, 1), (Rg.EDGE_RAW, 0, 51201), (Od.TIO_MODE, 7, 4)]
def r4 : State := one 1980000 [(Od.TIME_REF_B_ENABLE, 0, 1), (Rg.EDGE_RAW, 0, 51201), (Od.TIO_MODE, 7, 4)]
/-- A time-of-day message of second 3 (R381). -/
def tod : List Byte :=
  let b : List Byte := [0xA7, 0x3C, 0x10, 0, 0, 0, 0, 0, 0, 3, 0, 0, 0, 0]
  b ++ bytesBE 2 (crc16 b)
def r5 : State := one 7 [(Rg.VOTE_NEW, 0, 7), (Od.TIME_REF_LAST_TICK, 0, 6)]

theorem wit_ReferencesAndVotes :
    (ready r1 = true ∧ r1.dev.on Od.TIME_REF_A_ENABLE 0 = true) ∧
    (r1.dev.on Od.TIME_REF_B_ENABLE 0 = true ∧ r1.dev.n Od.TIME_REF_B_SOURCE 0 = 8 ∧ r1.dev.n Od.TIO_MODE 7 = 3 ∧ r1.dev.n Od.TIME_REF_B_EDGE 0 = 0 ∧
      r1.dev.n Od.TIME_VOTE_VIEW 0 < 4 ∧ r1.dev.todPin = none ∧ ready r2 = true ∧ r2.dev.on Od.TIME_REF_B_ENABLE 0 = true ∧
      r2.dev.n Od.TIME_REF_B_SOURCE 0 = 1 ∧ r2.dev.n Od.TIO_MODE 0 = 3 ∧ r2.dev.n Od.TIME_REF_B_EDGE 0 = 0 ∧ r2.dev.todPin.isSome = true) ∧
    (ready r3 = true ∧ r3.dev.n Rg.EDGE_RAW 0 ≠ 0 ∧ labelWait ≤ (r3.clk.now + 2 ^ 72 - (r3.dev.n Rg.EDGE_RAW 0 - 1)) % 2 ^ 72) ∧
    (ready r4 = true ∧ r4.dev.n Od.TIO_MODE 7 = 4 ∧ tod.length = 16 ∧ tod.take 2 = [0xA7, 0x3C] ∧ (tod.getD 2 0).toNat / 16 = 1 ∧
      crc16 (sliceZ tod 0 14) = be16 tod 14 ∧ r4.dev.todPin = some 7 ∧ r4.dev.n Rg.EDGE_RAW 0 ≠ 0 ∧
      (r4.clk.now + 2 ^ 72 - (r4.dev.n Rg.EDGE_RAW 0 - 1)) % 2 ^ 72 ≤ labelWait ∧ ([] : List Byte).length ≠ 16) ∧
    (ready r5 = true ∧ r5.dev.n Rg.VOTE_NEW 0 = r5.clk.tick ∧ r5.clk.tick ≠ 0 ∧ r5.dev.n Rg.VOTE_TICK 0 ≠ r5.clk.tick + 1) := by decide

def p1 : State := one 2000000 [(Od.TIO_MODE, 7, 1)]
def p2 : State := one 2020000 [(Od.TIO_MODE, 7, 2)]
def p3 : State := one 7 [(Od.TIO_MODE, 7, 5), (Od.TIO_EDGE, 7, 2)]
def p4 : State := { p3 with dev := { p3.dev with tio := [(7, [1, 2, 3, 4])] } }

theorem wit_TimePins :
    (ready p1 = true ∧ p1.dev.n Od.TIO_MODE 7 = 1 ∧ p1.dev.muted 7 = false ∧
      p1.dev.secondReached p1.clk (p1.dev.n Od.TIO_VIEW 7) (p1.dev.get Od.TIO_OUT_DELAY 7) = some 1) ∧
    (ready p2 = true ∧ p2.dev.n Od.TIO_MODE 7 = 2 ∧ p2.dev.muted 7 = false ∧
      p2.dev.secondReached p2.clk (p2.dev.n Od.TIO_VIEW 7) (-(10000000 * 65536)) = some 1) ∧
    (ready p3 = true ∧ p3.dev.n Od.TIO_MODE 7 = 5 ∧ p3.dev.n Od.TIO_EDGE 7 = 2 ∧ p3.dev.n Rg.TIO_LAST 7 = 0 ∧ (p3.dev.tioFifo 7).length < 64) ∧
    (ready p4 = true ∧ p4.dev.tioFifo 7 = [(7, [1, 2, 3, 4])]) := by decide

def w1 : State := { up with dev := { up.dev with capFifo := [[1, 2]] } }
def w2 : State :=
  st 14 (dv [(Od.WATCH_REPORT_PERIOD, 65535, 0, 7), (Od.WATCH_ENABLE, 65535, 0, 1), (Rg.W_PERIOD, 65535, 7, 14)])
def w3 : State := one 14 [(Rg.FRER_TIMER, 65535, 1), (Od.FRER_REC_ENABLE, 65535, 1)]

theorem wit_StampsAndWatches :
    (ready w1 = true ∧ w1.dev.capFifo = [[1, 2]] ∧ w1.clk.c = 0 ∧ w1.dev.n Rg.W_PERIOD 65535 7 = 0) ∧
    (ready w2 = true ∧ w2.dev.replaying = false ∧ w2.dev.n Od.WATCH_REPORT_PERIOD 65535 ≠ 0 ∧
      w2.dev.n Rg.W_PERIOD 65535 7 ≠ 0 ∧
      (w2.dev.n Rg.W_PERIOD 65535 7 - 1) / w2.dev.n Od.WATCH_REPORT_PERIOD 65535 ≠ w2.clk.tick / w2.dev.n Od.WATCH_REPORT_PERIOD 65535 ∧ w2.dev.on Od.WATCH_ENABLE 65535 = true ∧ w2.dev.get Rg.W_PERIOD 65535 1 = 0 ∧
      w2.dev.get Rg.W_PERIOD 65535 2 = 0 ∧ w2.dev.on Od.WATCH_RECORD_ABOVE 65535 = false) ∧
    (ready w3 = true ∧ w3.dev.n Rg.FRER_TIMER 65535 = 1 ∧ w3.dev.on Od.FRER_REC_ENABLE 65535 = true) := by decide

/-- A member of a mat of three. -/
def member (x tick : Nat) (l : List (Obj × Nat × Int)) : State :=
  one tick ([(Od.MAT_ENABLE, 0, 1), (Od.MAT_MEMBERS, 0, 7), (Od.MAT_CANDIDATES, 0, 7), (Od.MAT_STATE, 0, (x : Int)), (Od.MAT_TERM, 0, 5)] ++ l)

/-- A mat message of member 1 (R427). -/
def matMsg (code term : Nat) (p : List Byte) : List Byte :=
  [BitVec.ofNat 8 code, 1, 0, 0] ++ bytesBE 8 term ++ bytesBE 4 1 ++ bytesBE 8 7 ++ p

def hbMsg : List Byte := matMsg 1 5 [4, 1, 0, 0, 0, 9, 0]
def reqMsg : List Byte := matMsg 2 6 (bytesBE 8 6 ++ [0])
def grantMsg : List Byte := matMsg 3 6 (bytesBE 8 6 ++ [0])
def denyMsg : List Byte := matMsg 4 6 (bytesBE 8 6 ++ [1])
def updMsg : List Byte := matMsg 5 5 ([1, 0, 0, 0, 1, 1, 0, 0] ++ bytesBE 4 9 ++ bytesBE 8 (2 ^ 63 + 2 ^ 61 + 5) ++ bytesBE 8 (2 ^ 43))
def updIn : MatUpd := { op := 1, origin := 1, num := 9, key := 2 ^ 63 + 2 ^ 61 + 5, result := 2 ^ 43 }
def ackMsg : List Byte := matMsg 6 5 (List.replicate 32 0)
def mtG1 : State := member 2 7 []
def mtG2 : State := member 2 7 [(Rg.O_TERM, 0, 6)]
def mtG3 : State := member 2 7 [(Od.MAT_MASTER, 0, 1)]

def g3u : State := { mtG3 with dev := { mtG3.dev with now := { mtG3.dev.now with upds := [(1, updIn)] } } }

theorem wit_MatMessages :
    (ready mtG1 = true ∧ matComes mtG1 1 2 hbMsg ∧ mtG1.dev.matOwn = [] ∧ mtG1.dev.n Od.MAT_STATE 0 = 2 ∧ (hbMsg.getD 24 0).toNat = 4) ∧
    (matComes mtG1 2 0 reqMsg ∧ mtG1.dev.votes = true ∧ bit (mtG1.dev.n Od.MAT_CANDIDATES 0) (matFrom reqMsg) = true ∧ (reqMsg.getD 32 0).toNat ≠ 1 ∧
      mtG1.dev.n Rg.V_TERM 0 < ofBytesBE (sliceZ (reqMsg.drop 24) 0 8) ∧ mtG1.dev.n Rg.V_END 0 ≤ mtG1.clk.tick ∧ mtG1.dev.matReqs = []) ∧
    (ready mtG2 = true ∧ matComes mtG2 3 0 grantMsg ∧ mtG2.dev.n Rg.O_TERM 0 ≠ 0 ∧ ofBytesBE (sliceZ (grantMsg.drop 24) 0 8) = mtG2.dev.n Rg.O_TERM 0 ∧
      (grantMsg.getD 32 0).toNat = mtG2.dev.me) ∧
    (matComes mtG2 4 2 denyMsg ∧ ofBytesBE (sliceZ (denyMsg.drop 24) 0 8) = mtG2.dev.n Rg.O_TERM 0) ∧
    (ready mtG3 = true ∧ matComes mtG3 5 0 updMsg ∧ (updMsg.getD 24 0).toNat = 1 ∧ (updMsg.set 24 16).getD 24 0 = 16 ∧ matComes mtG3 5 2 (updMsg.set 24 16)) ∧
    (ready g3u = true ∧ g3u.dev.now.upds = [(1, updIn)] ∧ g3u.dev.n Od.MAT_STATE 0 = 2 ∧ g3u.dev.n Od.MAT_MASTER 0 = 1 ∧ g3u.dev.matShadow = []) ∧
    (matComes mtG3 6 0 ackMsg ∧ mtG3.dev.n Od.MAT_MASTER 0 = matFrom ackMsg ∧ mtG3.dev.me < 8) := by
  unfold matComes; decide

def sigMsg : List Byte := matMsg 7 5 (bytesBE 8 0 ++ bytesBE 4 0 ++ bytesBE 4 0)
def mtG4 : State := member 3 7 [(Od.MAT_CHECK_SAMPLE, 0, 1), (Rg.SIG_CRC, 0, 0xFFFFFFFF)]
def g5 : State := member 4 7 []
def g6 : State := member 1 7 []
/-- A static entry of a key in the first way of its bucket, and an update of the same key. -/
def stKey : Nat := 2 ^ 63 + 2 ^ 61 + 2 ^ 60 + 5
def g7 : State :=
  let s := member 2 7 []
  { s with dev := { (s.dev.emPut (s.dev.emBase stKey) 0 stKey) with matApply := [updIn] } }
def g8 : State := { mtG1 with dev := { mtG1.dev with matApply := [{ updIn with op := 2, origin := 7 }] } }

theorem wit_MatSelfChecks :
    (ready mtG4 = true ∧ plainWords mtG4.dev = true ∧ matComes mtG4 7 2 sigMsg ∧ mtG4.dev.n Od.MAT_STATE 0 = 3 ∧ mtG4.dev.n Od.MAT_CHECK_SAMPLE 0 ≠ 0 ∧
      mtG4.dev.n Od.MAT_CHECK_STATE 0 ≠ 1 ∧ ofBytesBE (sliceZ (sigMsg.drop 24) 12 4) = mtG4.dev.n Rg.SIG_CRC 0 ^^^ 0xFFFFFFFF) ∧
    (ready g5 = true ∧ plainWords g5.dev = true ∧ matComes g5 8 0 (matMsg 8 5 []) ∧ g5.dev.n Od.MAT_STATE 0 = 4 ∧ g5.dev.em = []) ∧
    (ready g6 = true ∧ plainWords g6.dev = true ∧ matComes g6 9 0 (matMsg 9 5 (bytesBE 4 0)) ∧ g6.dev.n Od.MAT_STATE 0 = 1 ∧ g6.clk.c = 0 ∧
      g6.dev.on Od.FAULT_ISOLATED 0 = false) ∧
    (ready g7 = true ∧ plainWords g7.dev = true ∧ g7.dev.matApply = [updIn] ∧ updIn.origin < 8 ∧ g7.dev.isolated = false ∧
      g7.dev.n Rg.LEARN_SPENT (g7.dev.emBase updIn.key / 16384) + 2 ≤ g7.dev.emGrant g7.clk 1 ∧
      g7.dev.n Rg.EM_SERVED (g7.dev.emBase updIn.key / 16384) < 2 ∧ updIn.op = 1 ∧
      g7.dev.emWay updIn.key = some (g7.dev.emBase stKey) ∧ bit (g7.dev.emKey (g7.dev.emBase stKey)) 60 = true) ∧
    (ready g8 = true ∧ plainWords g8.dev = true ∧ g8.dev.matApply = [{ updIn with op := 2, origin := 7 }] ∧ g8.dev.isolated = false ∧
      g8.dev.n Rg.LEARN_SPENT (g8.dev.emBase updIn.key / 16384) + 2 ≤ g8.dev.emGrant g8.clk 1 ∧
      g8.dev.n Rg.EM_SERVED (g8.dev.emBase updIn.key / 16384) < 2 ∧ g8.dev.emWay updIn.key = none) := by
  unfold matComes; decide

def g9 : State := one 7 [(Od.MAT_MEMBERS, 0, 7)]
def g10 : State :=
  let s := member 2 1000000 [(Od.MAT_MASTER, 0, 7)]
  { s with dev := s.dev.set Od.MAT_REACH 0 4 7 }
def g11 : State :=
  let s := member 2 1000000 [(Rg.V_COLLECT, 0, 8)]
  { s with dev := { s.dev with matReqs := [{ dev := 7, term := 6 }] } }
def g12 : State := member 4 2000000 [(Od.MAT_CHECK_SAMPLE, 0, 1)]
def g13 : State := member 2 2000000 [(Rg.TQ_SEQ, 0, 4), (Rg.TIME_SENT, 0, 8)]

theorem wit_MatTimers :
    (ready g9 = true ∧ plainWords g9.dev = true ∧ g9.clk.c = 0 ∧ bit (g9.dev.n Od.MAT_MEMBERS 0) g9.dev.me = true ∧ g9.dev.on Od.MAT_ENABLE 0 = false) ∧
    (ready g12 = true ∧ plainWords g12.dev = true ∧ g12.dev.n Od.MAT_STATE 0 ≠ 0 ∧
      g12.dev.n Rg.HB_SENT 0 = 0 ∧ g12.dev.n Od.MAT_STATE 0 = 4 ∧
      g12.dev.n Od.MAT_CHECK_SAMPLE 0 ≠ 0 ∧ g12.dev.n Rg.SIG_FIRST 0 + 2000000 ≤ g12.clk.tick) ∧
    (ready g10 = true ∧ plainWords g10.dev = true ∧ bit (g10.dev.n Od.MAT_REACH 0 7) 2 = true ∧
      g10.dev.n Rg.MAT_HEARD 7 2 - 1 + g10.dev.n Od.MAT_HEARTBEAT_TIMEOUT 0 ≤ g10.clk.tick ∧ g10.dev.n Rg.V_GRANTEE 0 ≠ 8 ∧
      g10.dev.n Od.MAT_MASTER 0 = 7) ∧
    (ready g11 = true ∧ plainWords g11.dev = true ∧ g11.dev.n Rg.V_COLLECT 0 ≠ 0 ∧
      g11.dev.n Rg.V_COLLECT 0 - 1 + g11.dev.n Od.MAT_LEASE_COLLECT 0 ≤ g11.clk.tick ∧ g11.dev.matReqs = [{ dev := 7, term := 6 }]) ∧
    (ready g13 = true ∧ plainWords g13.dev = true ∧ g13.dev.on Rg.TQ_SEQ 0 = true ∧
      g13.dev.n Rg.TIME_SENT 0 - 1 + g13.dev.n Od.MAT_TIME_INTERVAL 0 ≤ g13.clk.tick) := by decide

def g14 : State := member 4 2000000 [(Rg.H_TERM, 0, 5)]
def g15 : State := member 3 2000000 [(Od.MAT_MASTER, 0, 255)]
def g16 : State := member 2 2000000 []
def g17 : State := member 2 2000000 [(Od.MAT_CANDIDATES, 0, 6)]
def g18 : State := member 3 2000000 [(Rg.O_TERM, 0, 6), (Rg.O_CLAIM, 0, 1), (Rg.O_GRANTS, 0, 1)]

theorem wit_LeaseAsked :
    (ready g14 = true ∧ plainWords g14.dev = true ∧ g14.dev.n Od.MAT_STATE 0 = 4 ∧
      g14.dev.n Rg.RENEW_SENT 0 - 1 + g14.dev.n Od.MAT_LEASE_RENEW 0 ≤ g14.clk.tick ∧ g14.dev.n Rg.H_END 0 ≤ g14.clk.tick ∧
      g14.dev.on Od.FAULT_ISOLATED 0 = false) ∧
    (ready g15 = true ∧ plainWords g15.dev = true ∧ g15.dev.n Od.MAT_STATE 0 = 3 ∧ g15.dev.claiming = false ∧ g15.dev.renewing g15.clk = false ∧
      g15.dev.n Rg.V_END 0 + g15.dev.n Od.MAT_LEASE_GUARD 0 ≤ g15.clk.tick) ∧
    (ready g16 = true ∧ plainWords g16.dev = true ∧ g16.dev.n Od.MAT_STATE 0 = 2 ∧ g16.dev.claiming = false ∧
      g16.dev.n Rg.MASTER_SEEN 0 - 1 + (g16.dev.n Od.MAT_LEASE_DURATION 0 + g16.dev.n Od.MAT_LEASE_GUARD 0) ≤ g16.clk.tick ∧
      bit (g16.dev.n Od.MAT_CANDIDATES 0) g16.dev.me = true ∧
      g16.dev.n Rg.STANDBY_SEEN 0 - 1 + (g16.dev.n Od.MAT_LEASE_DURATION 0 + g16.dev.n Od.MAT_LEASE_GUARD 0) ≤ g16.clk.tick) ∧
    (ready g17 = true ∧ plainWords g17.dev = true ∧ g17.dev.n Od.MAT_STATE 0 = 2 ∧ g17.dev.claiming = false ∧
      g17.dev.n Rg.MASTER_SEEN 0 - 1 + (g17.dev.n Od.MAT_LEASE_DURATION 0 + g17.dev.n Od.MAT_LEASE_GUARD 0) ≤ g17.clk.tick ∧
      bit (g17.dev.n Od.MAT_CANDIDATES 0) g17.dev.me = false ∧ g17.dev.on Od.FAULT_ISOLATED 0 = false) ∧
    (ready g18 = true ∧ plainWords g18.dev = true ∧ g18.dev.claiming = true ∧ g18.dev.leaseWon = false ∧ g18.dev.isolated = false ∧ g18.dev.renewing g18.clk = false ∧
      g18.dev.n Rg.O_TICK 0 + 2 * g18.dev.n Od.MAT_LEASE_COLLECT 0 + 1000 * g18.dev.me ≤ g18.clk.tick) := by decide

/-- Port 8 is the trunk to member 1, and the device of a role. -/
def trunkTo1 (x : Nat) : State :=
  let s := member x 2000000 [(Od.PORT_LINK_STATE, 8, 2), (Od.MAT_MASTER, 0, 1), (Od.MAT_TRUNK_PORTS, 1, 0x8008),
    (Od.TIME_REF_C_ENABLE, 0, 1)]
  s
def g19 : State := trunkTo1 2
def g20 : State := trunkTo1 4
def g21 : State := { g19 with dev := g19.dev.put Rg.TQ_SEQ 0 10 }

theorem wit_MatTime :
    (ready g19 = true ∧ plainWords g19.dev = true ∧ g19.dev.n Od.MAT_MASTER 0 < 8 ∧ g19.dev.n Od.MAT_MASTER 0 ≠ g19.dev.me ∧
      g19.dev.n Od.MAT_STATE 0 = 2 ∧ g19.dev.n Rg.TIME_SENT 0 = 0 ∧ g19.dev.n Rg.CHG_PHASE 8 ≠ 3 ∧ g19.dev.inService 8 = true ∧ g19.dev.maint = false ∧
      g19.dev.trunkLow 1 = some 8 ∧ g19.dev.n Rg.MAT_SEQ 0 < 2 ^ 32 - 1 ∧ g19.dev.matMode 8 = true ∧ g19.dev.n Od.MAT_STATE 0 ≠ 4) ∧
    (ready g20 = true ∧ plainWords g20.dev = true ∧ g20.dev.matMode 8 = true ∧ g20.dev.inService 8 = true ∧ g20.dev.maint = false ∧ g20.dev.n Rg.CHG_PHASE 8 ≠ 3 ∧ g20.dev.n Od.MAT_STATE 0 = 4 ∧ g20.dev.n Od.MAT_VIEW 0 < 4) ∧
    (ready g21 = true ∧ plainWords g21.dev = true ∧ g21.dev.matMode 8 = true ∧ g21.dev.inService 8 = true ∧ g21.dev.maint = false ∧ g21.dev.n Rg.TQ_SEQ 0 = 9 + 1 ∧ g21.dev.n Od.TIME_VOTE_VIEW 0 < 4 ∧
      g21.dev.isolated = false ∧ g21.dev.n Od.MAT_STATE 0 ≠ 4 ∧ g21.dev.on Od.TIME_REF_C_ENABLE 0 = true) := by decide

/-- A batch of one record (R200): its key, result word, opcode and position. -/
def batch (key res op pos : Nat) (l : List (Obj × Nat × Nat × Int)) : State :=
  let bs := bytesLE 8 key ++ bytesLE 8 res ++ List.replicate 16 (0 : Byte) ++ [BitVec.ofNat 8 op, 0, 0, 0] ++ bytesLE 4 pos
  let r := bs.zipIdx.map fun x => (Od.EM_CMD_BATCH, 0, x.2, (x.1.toNat : Int))
  st 7 (dv ([(Od.EM_CMD_STATUS, 0, 0, 1), (Rg.EM_RUN, 0, 0, 1)] ++ r ++ l))

/-- The same with an entry of the key in the last way of its bucket. -/
def filled (key res op : Nat) : State :=
  let s := batch key res op 0 []
  let p := s.dev.emBase key + 7
  { s with dev := (s.dev.emPut p 0 key).emPut p 1 (2 ^ 43) }

def ky : Nat := 2 ^ 63 + 2 ^ 61 + 5
def e1 : State := batch ky (2 ^ 43) 1 0 []
def e2 : State := filled ky 0 2
def e3 : State := batch ky 0 2 0 []
def e4 : State := filled ky 0 3
def e5 : State := filled ky (2 ^ 43 + 2 ^ 44) 4
/-- The same batch, every bucket of every bank scanned. -/
def e6 (op best : Nat) : State :=
  let s := batch ky 0 op 0 []
  let scans := (List.range 256).map fun b => (Rg.EM_SCAN.key b 0, (2048 : Int))
  { s with dev := ({ s.dev with objs := s.dev.objs ++ scans } : Dev).put Rg.EM_BEST 0 best }
def e7 : State := batch ky 0 1 0 [(Rg.EM_NEXT, 0, 0, 1), (Rg.EM_CHANGED, 0, 0, 7)]

theorem wit_TableBatches :
    (ready e1 = true ∧ plainWords e1.dev = true ∧ recKey (e1.dev.batchRec 0) = ky ∧ recResult (e1.dev.batchRec 0) = 2 ^ 43 ∧ keyOk ky = true ∧
      recAt (e1.dev.batchRec 0) = false ∧ recordNext e1 1 0 (e1.dev.emBase ky / 16384) 2 ∧ resultOk (2 ^ 43) = true ∧ e1.dev.emWay ky = none ∧
      e1.dev.emBucketBad ky = false ∧ ((ways (e1.dev.emBase ky)).find? e1.dev.emFree).isSome = true) ∧
    (ready e2 = true ∧ plainWords e2.dev = true ∧ recKey (e2.dev.batchRec 0) = ky ∧ recAt (e2.dev.batchRec 0) = false ∧
      recordNext e2 2 0 (e2.dev.emBase ky / 16384) 2 ∧ e2.dev.emWay ky = some (e2.dev.emBase ky + 7)) ∧
    (ready e3 = true ∧ plainWords e3.dev = true ∧ recKey (e3.dev.batchRec 0) = ky ∧ recordNext e3 2 0 (e3.dev.emBase ky / 16384) 2 ∧
      e3.dev.emWay ky = none ∧ e3.dev.emBucketBad ky = false) := by
  unfold recordNext; decide

theorem wit_TableBatches_found :
    (ready e4 = true ∧ plainWords e4.dev = true ∧ recKey (e4.dev.batchRec 0) = ky ∧ recordNext e4 3 0 (e4.dev.emBase ky / 16384) 1 ∧
      e4.dev.emWay ky = some (e4.dev.emBase ky + 7)) ∧
    (ready e5 = true ∧ plainWords e5.dev = true ∧ recKey (e5.dev.batchRec 0) = ky ∧ recResult (e5.dev.batchRec 0) = 2 ^ 43 + 2 ^ 44 ∧
      recordNext e5 4 0 (e5.dev.emBase ky / 16384) 2 ∧ resultOk (2 ^ 43 + 2 ^ 44) = true ∧ e5.dev.emWay ky = some (e5.dev.emBase ky + 7)) := by
  unfold recordNext; decide

theorem wit_TableBatches_scans :
    (ready (e6 5 0) = true ∧ plainWords (e6 5 0).dev = true ∧ (∀ b, b < 256 → (e6 5 0).dev.n Rg.EM_SCAN b = 2048) ∧ recordNext (e6 5 0) 5 0 0 0 ∧
      scanBad (recKey ((e6 5 0).dev.batchRec 0)) (recResult ((e6 5 0).dev.batchRec 0)) (recPos ((e6 5 0).dev.batchRec 0)) = false ∧ (e6 5 0).dev.n Rg.EM_BEST 0 = 0) ∧
    (ready (e6 5 4194304) = true ∧ (e6 5 4194304).dev.n Rg.EM_BEST 0 = 4194303 + 1) ∧
    (ready (e6 6 0) = true ∧ plainWords (e6 6 0).dev = true ∧ (∀ b, b < 256 → (e6 6 0).dev.n Rg.EM_SCAN b = 2048) ∧ recordNext (e6 6 0) 6 0 0 0 ∧
      scanBad (recKey ((e6 6 0).dev.batchRec 0)) (recResult ((e6 6 0).dev.batchRec 0)) 0 = false) ∧
    (ready e7 = true ∧ plainWords e7.dev = true ∧ e7.dev.n Od.EM_CMD_STATUS 0 0 = 1 ∧ e7.dev.n Rg.EM_NEXT 0 = e7.dev.n Rg.EM_RUN 0 ∧
      e7.dev.n Rg.EM_CHANGED 0 ≤ e7.clk.tick) := by unfold recordNext; decide +kernel

/-- One learning request of tick 6 waits in tick 7. -/
def learning (g : Int) : State :=
  let s := st 7 (dv [(Od.TICK_PLAN_EM, 0, 1, g)])
  { s with dev := { s.dev with learn := [{ tick := 6, key := ky, port := 8, len := 64 }] } }
def e8 : State := learning 2
def e9 : State := learning 1
def e10 : State := one 600000 [(Od.EM_AGE_INTERVAL, 0, 1000)]
def e11 : State := st 7 (dv [(Rg.SWEEP, 255, 0, 2047)])

theorem wit_TableLearnsAndAges :
    (ready e8 = true ∧ plainWords e8.dev = true ∧ e8.dev.replaying = false ∧ (e8.dev.learn.map (·.tick)) = [6] ∧ e8.dev.maint = false ∧ e8.dev.matApply = [] ∧
      (e8.dev.learn.all fun r => !r.move) = true ∧ e8.dev.n Rg.LEARN_SPENT (e8.dev.emBase ky / 16384) + 2 ≤ e8.dev.emGrant e8.clk 1 ∧ e8.dev.on Od.MAT_ENABLE 0 = false ∧ e8.dev.emWay ky = none ∧ e8.dev.emBucketBad ky = false ∧
      ((ways (e8.dev.emBase ky)).find? e8.dev.emFree).isSome = true) ∧
    (ready e9 = true ∧ plainWords e9.dev = true ∧ e9.dev.replaying = false ∧ (e9.dev.learn.map (·.tick)) = [6] ∧ e9.dev.maint = false ∧ e9.dev.matApply = [] ∧
      e9.dev.emGrant e9.clk 1 < e9.dev.n Rg.LEARN_SPENT (e9.dev.emBase ky / 16384) + 2) ∧
    (ready e10 = true ∧ plainWords e10.dev = true ∧ e10.dev.replaying = false ∧ e10.dev.sweeping = false ∧ e10.dev.on Rg.SWEEP_LATE 0 = false ∧
      e10.dev.n Od.EM_AGE_INTERVAL 0 ≠ 0 ∧ e10.clk.tick % e10.dev.n Od.EM_AGE_INTERVAL 0 = 0) ∧
    (ready e11 = true ∧ plainWords e11.dev = true ∧ e11.dev.replaying = false ∧ e11.dev.n Rg.SWEEP 255 = 2046 + 1 ∧ e11.dev.idle = false ∧ e11.dev.learn = [] ∧ e11.dev.matApply = [] ∧
      e11.dev.n Rg.SWEEP_SPENT 255 < e11.dev.emGrant e11.clk 2 ∧ ∀ p ∈ ways (255 * 16384 + 2046 * 8), bit (e11.dev.emKey p) 63 = false) := by decide

def e12 : State := one 7 [(Od.EM_SHADOW_OFFSET, 0, 4194303)]
def e13 : State := st 7 (dv [(Od.EM_SHADOW_ENABLE, 0, 0, 1), (Rg.SHADOW_NEXT, 255, 0, 30), (Od.TICK_PLAN_EM, 0, 3, 512)])
/-- The same with a grant of one slot, 511 entries compared. -/
def e15 : State :=
  st 7 (dv [(Od.EM_SHADOW_ENABLE, 0, 0, 1), (Rg.SHADOW_NEXT, 255, 0, 30), (Od.TICK_PLAN_EM, 0, 3, 1), (Rg.SHADOW_POS, 255, 0, 510)])
/-- Range 30 of bank 255 in the shadow: its first byte is 1. -/
def e14 : State := { e13 with mem := [(e13.dev.n Od.EM_SHADOW_BASE 0 + 16 * (255 * 16384 + 30 * 512), 1)] }

theorem wit_TableShadow :
    (ready e12 = true ∧ e12.clk.c = 0 ∧ (List.replicate 16 (7 : Byte)).length = 16 * 1 ∧ e12.dev.n Od.EM_SHADOW_OFFSET 0 + 1 ≤ 4194304) ∧
    (ready e13 = true ∧ e13.dev.n Rg.SHADOW_NEXT 255 = 30 ∧ e13.dev.on Od.EM_SHADOW_ENABLE 0 = true ∧ e13.dev.n Rg.SHADOW_POS 255 = 0 ∧
      min (512 - 0) (e13.dev.emGrant e13.clk 3 - e13.dev.n Rg.SHADOW_SPENT 255) = 512 ∧ e13.dev.n Rg.SHADOW_CHANGED 255 30 < e13.clk.tick + 1 ∧
      e13.dev.emPend = [] ∧ e13.dev.flipped = [] ∧ e13.dev.emPoison = [] ∧ e13.dev.hbmPoison = []) ∧
    (ready e15 = true ∧ e15.dev.n Rg.SHADOW_NEXT 255 = 30 ∧ e15.dev.on Od.EM_SHADOW_ENABLE 0 = true ∧ e15.dev.n Rg.SHADOW_POS 255 = 510 ∧
      min (512 - 510) (e15.dev.emGrant e15.clk 3 - e15.dev.n Rg.SHADOW_SPENT 255) = 1) := by
  decide


theorem wit_TableShadow_agrees :
    crc32 ((List.range 512).flatMap fun i => e13.dev.shadowEntry (255 * 16384 + 30 * 512 + i)) =
      crc32 (e13.mem.rdBytes (e13.dev.n Od.EM_SHADOW_BASE 0 + 16 * (255 * 16384 + 30 * 512)) 8192) :=
  congrArg crc32 (by decide +kernel)

theorem wit_TableShadow_differs :
    ready e14 = true ∧
    crc32 ((List.range 512).flatMap fun i => e14.dev.shadowEntry (255 * 16384 + 30 * 512 + i)) ≠
      crc32 (e14.mem.rdBytes (e14.dev.n Od.EM_SHADOW_BASE 0 + 16 * (255 * 16384 + 30 * 512)) 8192) := by
  refine ⟨by decide +kernel, ?_⟩
  have a : ((List.range 512).flatMap fun i => e14.dev.shadowEntry (255 * 16384 + 30 * 512 + i)) = 0 :: List.replicate 8191 0 := by decide +kernel
  have b : e14.mem.rdBytes (e14.dev.n Od.EM_SHADOW_BASE 0 + 16 * (255 * 16384 + 30 * 512)) 8192 = 1 :: List.replicate 8191 0 := by decide +kernel
  rw [a, b]
  exact crc32_head_ne 0 1 _ (by decide +kernel)

def z1 : State := one 7 [(Od.CLASS_SLOT_STATE, 1, 3)]
def z2 : State := one 7 [(Od.CLASS_SLOT_OFFSET, 1, 393215)]
def z3 : State := one 7 [(Od.CLASS_SLOT_STATE, 1, 5)]
def z4 : State := one 7 [(Od.CLASS_SLOT_STATE, 1, 2), (Rg.SEAL_CLOCK, 1, 5597)]
def z5 : State :=
  let s := z4
  { s with dev := s.dev.set Od.CLASS_SLOT_SEAL 1 1 1 }

theorem wit_TreeSlotsLoad :
    (ready z1 = true ∧ z1.clk.c = 0 ∧ plainWords z1.dev = true ∧ z1.dev.treePoison = [] ∧ z1.dev.swapOk 1 = true ∧ z1.dev.idle = false ∧ z1.dev.slotBar 1 = 0 ∧
      sealOk 98304 98304 0xFFFFFFFF = true ∧ sealOk 0 0 0 = true) ∧
    (ready z2 = true ∧ z2.clk.c = 0 ∧ plainWords z2.dev = true ∧ z2.dev.treePoison = [] ∧ z2.dev.idle = false ∧ z2.dev.slotBar 1 = 0 ∧
      (List.replicate 8 (7 : Byte)).length = 8 * 1 ∧ z2.dev.n Od.CLASS_SLOT_OFFSET 1 + 1 ≤ slotWords) ∧
    (ready z3 = true ∧ z3.clk.c = 0 ∧ plainWords z3.dev = true ∧ z3.dev.treePoison = [] ∧ z3.dev.idle = false ∧ z3.dev.slotBar 1 ≠ 0) ∧
    (ready z4 = true ∧ plainWords z4.dev = true ∧ z4.dev.treePoison = [] ∧ z4.dev.sealChecked z4.clk 1 = true ∧
      z4.dev.slotCrc 1 = z4.dev.n Od.CLASS_SLOT_SEAL 1 2) ∧
    (ready z5 = true ∧ z5.dev.sealChecked z5.clk 1 = true ∧ z5.dev.slotCrc 1 ≠ z5.dev.n Od.CLASS_SLOT_SEAL 1 2) := by decide

def q1 : State :=
  let s := one 7 []
  { s with dev := { s.dev with wb := [{ mem := 2, die := 8, addr := 9, tick := 6 }] } }
def q2 : State := st 7 (dv [(Rg.SCRUB_NEXT, 40, 0, 524287)])

theorem wit_StoredWordsChecked :
    (ready (one 7 []) = true ∧ memOk 9 7 = true ∧ memOk 1 8 = true ∧ (2 ^ 36 - 1 < 2 ^ 36) ∧ (one 7 []).dev.found = [] ∧ (one 7 []).dev.flipUsed = false ∧ (one 7 []).dev.wb = [] ∧ (one 7 []).dev.flipped = [] ∧
      ((one 7 []).dev.scrubSlot (one 7 []).clk 9 7).isSome = true ∧ (one 7 []).dev.n Rg.SCRUB_NEXT (9 * 16 + 7) + 1 < (scrubUnit 9).2) ∧
    (ready q2 = true ∧ q2.dev.wb = [] ∧ q2.dev.flipped = [] ∧ (q2.dev.scrubSlot q2.clk 2 8).isSome = true ∧
      (scrubUnit 2).2 ≤ q2.dev.n Rg.SCRUB_NEXT (2 * 16 + 8) + 1) ∧
    (ready q1 = true ∧ memOk 2 8 = true ∧ (q1.dev.wb.find? fun w => w.mem == 2 && w.die == 8) = some { mem := 2, die := 8, addr := 9, tick := 6 } ∧
      (6 < q1.clk.tick) ∧ q1.dev.wbMay q1.clk { mem := 2, die := 8, addr := 9, tick := 6 } = true ∧ (q1.dev.scrubSlot q1.clk 2 8).isSome = true) ∧
    (∀ x ∈ [0, hbmBytes - 1], x < hbmBytes) := by decide

/-- An entry in the way of a bucket given by its position. -/
def entryAt (p : Nat) : State :=
  let s := one 7 []
  { s with dev := (s.dev.emPut p 0 ky).emPut p 1 (2 ^ 43) }
def q3 : State := entryAt 4194303
def q4 : State := one 7 [(Od.INTEG_EM_RETIRED_COUNT, 0, 1), (Od.INTEG_EM_RETIRED_LIST, 0, 2147483653)]

theorem wit_FlipsLogsAndRetirement :
    (ready q3 = true ∧ q3.clk.c = 0 ∧ plainWords q3.dev = true ∧ q3.dev.retireListed 4194303 = false ∧ q3.dev.n Od.INTEG_EM_RETIRED_COUNT 0 < 4096 ∧
      bit (q3.dev.emKey 4194303) 63 = true ∧ ((ways (4194303 / 8 * 8)).find? fun p => p != 4194303 && q3.dev.emFree p) = some 4194296 ∧
      q3.dev.retireListed 0 = false ∧ bit (q3.dev.emKey 0) 63 = false) ∧
    (ready q4 = true ∧ q4.clk.c = 0 ∧ q4.dev.n Od.INTEG_EM_RETIRED_COUNT 0 = 1 ∧ q4.dev.n Od.INTEG_EM_RETIRED_LIST 0 0 % 2 ^ 31 = 5) := by decide

def evC1 : State := st 8 (dv [(Rg.WIN_LAST, 0, 0, 9), (Rg.WIN_END, 1023, 3, 77), (Rg.WIN_END, 1023, 4, 100)])
def evC2 : State := one 4000 [(Od.CTR_DUMP_PERIOD, 0, 2), (Od.CTR_DUMP_SEQ, 0, 5)]
def dump1 : Dump := { seq := 5, tick := 4000, host := false, slot := 5, base := 0x900000000, time := 0, words := [(0, 7)] }
def evC3 : State := { evC2 with dev := { evC2.dev with dump := some dump1 } }
def c4 : State := { evC3 with dev := evC3.dev.put Rg.DUMP_SENT 0 16777216 }
def c5 : State := st 7 (dv [(Od.CTR_HBM_READ_ADDR, 0, 0, (((one 7 []).dev.dumpArea.1 + (one 7 []).dev.dumpArea.2 - 1 : Nat) : Int))])

theorem wit_CountersAreKept :
    (ready (one 7 []) = true ∧ plainWords (one 7 []).dev = true ∧ (one 7 []).dev.replaying = false ∧ (one 7 []).clk.c = 0 ∧
      objOf Od.PORT_RX_GOOD.idx Od.PORT_RX_GOOD.sub = some Od.PORT_RX_GOOD ∧ Od.PORT_RX_GOOD.ctr = true ∧ 1023 ≤ Od.PORT_RX_GOOD.insts ∧
      counterWordsOk Od.PORT_RX_GOOD [2 ^ 48 - 1, 2 ^ 63 + 5] = true) ∧
    (ready evC1 = true ∧ plainWords evC1.dev = true ∧ evC1.dev.replaying = false ∧ evC1.dev.on Rg.WIN_LAST 0 = true) ∧
    ((((one 7 []).dev.put Od.SPORE_RING_BASE 0 0xFFFFFF000 |>.put Od.SPORE_RING_RECORDS 0 2).put Od.SPORE_RING_MODE 0 1).areaOk 1 = true) ∧
    (ready c5 = true ∧ plainWords c5.dev = true ∧ c5.dev.replaying = false ∧ inArea c5.dev.dumpArea (c5.dev.n Od.CTR_HBM_READ_ADDR 0) 1 = true ∧
      c5.dev.hbmPoison = []) ∧
    (ready evC2 = true ∧ plainWords evC2.dev = true ∧ evC2.dev.replaying = false ∧ evC2.dev.dumpDue evC2.clk = true ∧ evC2.clk.c = 0 ∧
      evC2.dev.n Od.CTR_DUMP_TARGET 0 = 0 ∧ evC2.dev.idle = false ∧ evC2.dev.dump = none) ∧
    (ready evC3 = true ∧ plainWords evC3.dev = true ∧ evC3.dev.replaying = false ∧ evC3.dev.dumpDue evC3.clk = true ∧ evC3.clk.c = 0 ∧
      evC3.dev.n Od.CTR_DUMP_TARGET 0 = 0 ∧ evC3.dev.idle = false ∧ evC3.dev.dump.isSome = true) ∧
    (ready c4 = true ∧ plainWords c4.dev = true ∧ c4.dev.replaying = false ∧ c4.dev.dump = some dump1 ∧ dump1.host = false ∧
      storeBytes ≤ c4.dev.n Rg.DUMP_SENT 0) := by decide

def k0 : State := one 8000000 []
def acc1 : Acc := { code := 38, inst := 0, first := 3 }
def k1 : State := { k0 with dev := { k0.dev with accs := [acc1] } }
/-- The oldest record of the write queue, the store written up to an index. -/
def evQueued (w full : Int) : State :=
  let s := st 9 (dv [(Od.REC_WRITE_INDEX, 0, 0, w), (Od.REC_FULL, 0, 0, full)])
  { s with dev := { s.dev with recQ := [List.replicate 64 (1 : Byte)] } }
def k2 : State := evQueued 0 0
def k3 : State := evQueued 131071 1
def k4 : State :=
  let s := evQueued 2 0
  { s with dev := ({ s.dev with mram := [List.replicate 64 (1 : Byte), List.replicate 64 (2 : Byte)] } : Dev).put Rg.REC_CLEARING 0 9 }

theorem wit_EventsAreRecorded :
    (ready k1 = true ∧ k1.dev.accs = [acc1] ∧ acc1.first + max 1 (k1.dev.n Od.REC_CODE_HOLD acc1.code) ≤ k1.clk.tick ∧ k1.dev.recQ.length < 64) ∧
    (ready k2 = true ∧ k2.clk.c = 0 ∧ k2.dev.recQ = [List.replicate 64 (1 : Byte)] ∧ k2.dev.on Rg.REC_CLEARING 0 = false ∧ k2.dev.n Rg.REC_LAST 0 = 0 ∧
      k2.dev.on Od.REC_FULL 0 = false ∧ k2.dev.n Od.REC_WRITE_INDEX 0 < 131072) ∧
    (ready k3 = true ∧ k3.dev.recQ = [List.replicate 64 (1 : Byte)] ∧ k3.dev.on Rg.REC_CLEARING 0 = false ∧ k3.dev.n Rg.REC_LAST 0 = 0 ∧
      k3.dev.on Od.REC_FULL 0 = true) ∧
    (ready k4 = true ∧ k4.dev.on Rg.REC_CLEARING 0 = true ∧ k4.dev.recWiped k4.clk = k4.dev.n Od.REC_WRITE_INDEX 0) := by decide

/-- Pulse 63 falls due in this clock on a unit of a kind. -/
def pulse (target u : Int) : State :=
  st 7 (dv [(Od.PERTURB_ENABLE, 0, 0, 1), (Od.PERTURB_PULSE_TARGET, 63, 0, target), (Od.PERTURB_PULSE_UNIT, 63, 0, u), (Od.PERTURB_PULSE_START_TICK, 63, 0, 7),
    (Od.PERTURB_PULSE_TICKS, 63, 0, 1), (Od.PERTURB_PULSE_LENGTH, 63, 0, 9), (Od.PERTURB_PULSE_OFFSET, 63, 0, 0)])
def x1 : State := pulse 1 1023
def x2 : State := pulse 0 63
def x3 : State := one 7 [(Rg.PULSE_UNIT, 63, 65537), (Rg.PULSE_UNTIL, 63, 5)]
def x4 : State :=
  one 7 [(Od.PERTURB_ENABLE, 0, 1), (Od.PERTURB_STALL_START_TICK, 7, 7), (Od.PERTURB_STALL_TICKS, 7, 1), (Od.PERTURB_STALL_PIPELINES, 7, 9223372036854775808),
    (Od.PERTURB_STALL_LENGTH, 7, 5)]

theorem wit_PerturbationRuns :
    (ready x1 = true ∧ x1.clk.c = 0 ∧ x1.dev.replaying = false ∧ x1.dev.pulseDue x1.clk 63 = true ∧ x1.clk.c = x1.dev.n Od.PERTURB_PULSE_OFFSET 63 ∧
      x1.dev.n Od.PERTURB_PULSE_UNIT 63 = 1023 ∧ x1.dev.n Od.PERTURB_PULSE_TARGET 63 = 1) ∧
    (ready x2 = true ∧ x2.dev.replaying = false ∧ x2.dev.pulseDue x2.clk 63 = true ∧ x2.clk.c = x2.dev.n Od.PERTURB_PULSE_OFFSET 63 ∧
      x2.dev.n Od.PERTURB_PULSE_UNIT 63 = 63 ∧ x2.dev.n Od.PERTURB_PULSE_TARGET 63 = 0) ∧
    (ready x3 = true ∧ x3.dev.replaying = false ∧ 65536 < x3.dev.n Rg.PULSE_UNIT 63 ∧ x3.dev.n Rg.PULSE_UNTIL 63 ≤ x3.clk.clock) ∧
    (ready x4 = true ∧ x4.dev.replaying = false ∧ x4.dev.stallDue x4.clk 7 = true ∧ x4.clk.c = 0 ∧
      bit (x4.dev.n Od.PERTURB_STALL_PIPELINES 7) 63 = true) := by decide

def j1 : State := one 7 [(Od.JOURNAL_LENGTH, 0, 4096)]
def j2 : State := one 7 [(Od.JOURNAL_STATE, 0, 1)]
def ck1 : Ckpt := { tick := 6, raw := 307200, len := 800, clean := true }
def j3 : State :=
  let s := one 7 [(Rg.J_COPIED, 0, 0x7400000)]
  { s with dev := { s.dev with ckpt := some ck1 } }
def j4 : State := one 7 [(Od.JOURNAL_STATE, 0, 2), (Od.JOURNAL_LENGTH, 0, 320), (Od.JOURNAL_TRIGGER_CODE, 0, 9),
  (Od.JOURNAL_TRIGGER_AFTER, 0, 0)]
def j5 : State := { j4 with dev := j4.dev.put Od.JOURNAL_RECORDS 0 1 }
def j6 : State := { j4 with dev := j4.dev.put Rg.J_TRIGGER 9 7 }

theorem wit_JournalStartsAndStops :
    (ready j1 = true ∧ j1.clk.c = 0 ∧ j1.dev.viewWrites = [] ∧ j1.dev.gpend = [] ∧ j1.dev.n Od.JOURNAL_STATE 0 ≠ 1 ∧ j1.dev.n Od.JOURNAL_STATE 0 ≠ 2 ∧
      j1.dev.maint = false ∧ j1.dev.on Od.JOURNAL_LENGTH 0 = true) ∧
    (ready j2 = true ∧ j2.clk.c = 0 ∧ j2.dev.n Od.JOURNAL_STATE 0 = 1 ∧ j2.dev.clean = true) ∧
    (ready j3 = true ∧ j3.dev.ckpt = some ck1 ∧ j3.dev.on Od.JOURNAL_CHECKPOINT_DONE 0 = false ∧ 0x7400000 ≤ j3.dev.n Rg.J_COPIED 0) ∧
    (ready j4 = true ∧ j4.clk.c = 0 ∧ j4.dev.n Od.JOURNAL_STATE 0 = 2 ∧ j4.dev.viewWrites = [] ∧ j4.dev.gpend = []) ∧
    (ready j5 = true ∧ j5.clk.c = 0 ∧ j5.dev.n Od.JOURNAL_STATE 0 = 2 ∧ j5.dev.journalFull = true) ∧
    (ready j6 = true ∧ j6.clk.c = 0 ∧ j6.dev.n Od.JOURNAL_STATE 0 = 2 ∧ j6.dev.journalFull = false ∧ j6.dev.journalTriggered j6.clk = true) := by decide

theorem wit_calm : calm j1 ∧ calm (gates false 8 3501 7) := by
  refine ⟨⟨by decide, ?_⟩, ⟨by decide, ?_⟩⟩
  · show ∀ g ∈ ([] : List GPend), g.ct ≠ 0
    simp
  · show ∀ g ∈ [pendG false 8 3501], g.ct ≠ 0
    simp [pendG]

def j7 : State := one 7 [(Rg.MAINT, 0, 2), (Od.JOURNAL_BASE, 0, 0x900000000), (Od.JOURNAL_LENGTH, 0, 32768), (Od.JOURNAL_HBM_ADDR, 0, 0x900000000)]
def j8 : State := { j7 with dev := j7.dev.put Od.JOURNAL_HBM_ADDR 0 0x900007FFF }
def j9 : State :=
  let s := one 7 [(Od.JOURNAL_STATE, 0, 3), (Od.JOURNAL_CHECKPOINT_DONE, 0, 1)]
  { s with mem := [(s.dev.n Od.JOURNAL_CHECKPOINT_BASE 0 + 4, 1)] }

theorem wit_JournalAreasAreReached :
    (ready j7 = true ∧ j7.clk.c = 0 ∧ j7.dev.viewWrites = [] ∧ j7.dev.gpend = [] ∧ j7.dev.maint = true ∧ j7.dev.replaying = false ∧
      inArea (j7.dev.n Od.JOURNAL_BASE 0, j7.dev.n Od.JOURNAL_LENGTH 0) (j7.dev.n Od.JOURNAL_HBM_ADDR 0) 32768 = true ∧
      inArea (j7.dev.areas.getD 4 (0, 0)) (j7.dev.n Od.JOURNAL_HBM_ADDR 0) 32768 = false) ∧
    (ready j8 = true ∧ inArea (j8.dev.n Od.JOURNAL_BASE 0, j8.dev.n Od.JOURNAL_LENGTH 0) (j8.dev.n Od.JOURNAL_HBM_ADDR 0) 1 = true ∧
      j8.dev.hbmPoison = [] ∧ j8.dev.ckpt = none) ∧
    (ready j9 = true ∧ j9.clk.c = 0 ∧ j9.dev.viewWrites = [] ∧ j9.dev.gpend = [] ∧ j9.dev.n Od.JOURNAL_STATE 0 = 3 ∧
      j9.dev.on Od.JOURNAL_CHECKPOINT_DONE 0 = true ∧ j9.dev.n Od.MAT_STATE 0 = 0 ∧
      (j9.mem.rd (j9.dev.n Od.JOURNAL_CHECKPOINT_BASE 0 + 4)).toNat = j9.dev.n Od.DEVICE_BEHAVIOUR_LEVEL 0 ∧
      j9.dev.tx = [] ∧ j9.dev.copies = [] ∧ j9.dev.jobs = [] ∧ j9.dev.bufs = []) := by decide

/-- A replay in its tick 7 whose journal holds one record (R515, R517): its tick, type and flags, then from byte 10. -/
def replayed (type flags : Nat) (rest : List Byte) : State :=
  let s := one 9 [(Od.REPLAY_STATE, 0, 2), (Od.REPLAY_TICK, 0, 7), (Rg.REPLAY_LEN, 0, 800), (Rg.REPLAY_RAW, 0, 358400), (Od.JOURNAL_LENGTH, 0, 4096)]
  { s with mem := Memory.wrBytes [] (s.dev.n Od.JOURNAL_BASE 0) (bytesLE 8 7 ++ [BitVec.ofNat 8 type, BitVec.ofNat 8 flags] ++ rest) }
/-- A FLOW record of pause for classes 0 and 7 of port 1023 (R517). -/
def y1 : State := replayed 5 3 ([0, 0, 0, 0, 0, 0, 0xFF, 3, 1, 0x81, 0xFF, 0xFF])
/-- The record of a frame of 64 bytes on port 8, its end known (R517). -/
def y2 : State := replayed 0 9 [8, 0, 7, 0, 0, 0, 0, 0, 64]
def y3 : State := replayed 6 3 []
def y4 : State := one 9 [(Od.REPLAY_STATE, 0, 2), (Od.REPLAY_TICK, 0, 7), (Od.REPLAY_STOP_TICK, 0, 6)]

theorem wit_ReplayRuns :
    (ready y1 = true ∧ ((y1.dev.replayHere (y1.dev.rk y1.clk) y1.mem 5).map fun r => (jnum r 18 1, jnum r 16 2, jnum r 19 1)) = some (1, 1023, 129)) ∧
    (ready y2 = true ∧ (y2.dev.replayHere (y2.dev.rk y2.clk) y2.mem 0).isSome = true) ∧
    (ready y3 = true ∧ y3.dev.replaying = true ∧ y3.dev.replayEnds y3.mem (y3.dev.n Od.REPLAY_TICK 0) = true) ∧
    (ready y4 = true ∧ y4.dev.replaying = true ∧ y4.dev.replayEnds y4.mem (y4.dev.n Od.REPLAY_TICK 0) = true) := by decide

/-- The CRC of a region of a checkpoint that no byte was written of. -/
def blankCrc (n : Nat) : Nat := crc32 (List.replicate n Memory.blank)

/-- The CRCs of regions that hold no byte, in their places of a checkpoint's header (R522). -/
def crcsInto (b : Nat) : List ((Nat × Nat × Bool) × Nat) → Memory → Memory
  | [], m => m
  | r :: t, m => crcsInto b t (m.wrBytes (b + 32 + 4 * r.2) (bytesLE 4 (blankCrc r.1.2.1)))

/-- HBM with nothing but the header's CRCs of a checkpoint whose regions hold no byte (R522). -/
def blankCheckpoint (b : Nat) : Memory := crcsInto b ckptRegions.zipIdx []

theorem blankCrc_lt (n : Nat) : blankCrc n < 2 ^ 32 := by
  have step (l : List Byte) : ∀ c, c < 2 ^ 32 → l.foldl crc32Byte c < 2 ^ 32 := by
    induction l with
    | nil => intro c h; exact h
    | cons b t ih => intro c h; exact ih _ (crc32Byte_lt h b)
  exact Nat.xor_lt_two_pow (step _ _ (by decide)) (by decide)

theorem crcsInto_other (b x n : Nat) (l : List ((Nat × Nat × Bool) × Nat)) (m : Memory)
    (h : ∀ r ∈ l, x + n ≤ b + 32 + 4 * r.2 ∨ b + 36 + 4 * r.2 ≤ x) : (crcsInto b l m).rdBytes x n = m.rdBytes x n := by
  induction l generalizing m with
  | nil => rfl
  | cons r t ih =>
    have len : (bytesLE 4 (blankCrc r.1.2.1)).length = 4 := bytesLE_length 4 _
    have hr := h r (by simp)
    rw [crcsInto, ih _ fun q hq => h q (by simp [hq]), Memory.rdBytes_wrBytes_other _ _ _ (by rw [len]; omega)]

theorem crcsInto_at (b : Nat) (l : List ((Nat × Nat × Bool) × Nat)) (m : Memory) (hm : m.wf = true) (hl : l.Pairwise fun p q => p.2 < q.2) :
    ∀ r ∈ l, (crcsInto b l m).rdBytes (b + 32 + 4 * r.2) 4 = bytesLE 4 (blankCrc r.1.2.1) := by
  induction l generalizing m with
  | nil => simp
  | cons p t ih =>
    rw [List.pairwise_cons] at hl
    intro r hr
    rw [List.mem_cons] at hr
    rcases hr with rfl | hr
    · have same := Memory.rdBytes_wrBytes_same (b + 32 + 4 * r.2) (bytesLE 4 (blankCrc r.1.2.1)) hm
      rw [bytesLE_length] at same
      rw [crcsInto, crcsInto_other _ _ _ _ _ fun q hq => by have := hl.1 q hq; omega]
      exact same
    · exact ih _ (Memory.wrBytes_wf _ _ hm) hl.2 r hr

theorem crcsInto_wf (b : Nat) (l : List ((Nat × Nat × Bool) × Nat)) {m : Memory} (h : m.wf = true) : (crcsInto b l m).wf = true := by
  induction l generalizing m with
  | nil => exact h
  | cons r t ih => exact ih (Memory.wrBytes_wf _ _ h)

theorem blankCheckpoint_far (b x n : Nat) (h : b + 64 ≤ x) : (blankCheckpoint b).rdBytes x n = List.replicate n Memory.blank := by
  have small : ∀ r ∈ ckptRegions.zipIdx, r.2 < 8 := by decide
  rw [blankCheckpoint, crcsInto_other _ _ _ _ _ fun r hr => by have := small r hr; omega, Memory.rdBytes_nil]

theorem blankCheckpoint_crcs (b : Nat) :
    ∀ r ∈ ckptRegions.zipIdx, (blankCheckpoint b).rdBytes (b + 32 + 4 * r.2) 4 = bytesLE 4 (blankCrc r.1.2.1) :=
  crcsInto_at b _ [] rfl (by decide)

theorem blank_good (b : Nat) (r) (hr : r ∈ ckptRegions.zipIdx) :
    crc32 ((blankCheckpoint b).rdBytes (b + r.1.1) r.1.2.1) = ofBytesLE ((blankCheckpoint b).rdBytes (b + 32 + 4 * r.2) 4) := by
  have far : ∀ r ∈ ckptRegions.zipIdx, 64 ≤ r.1.1 := by decide
  have h := far r hr
  rw [blankCheckpoint_far b _ _ (by omega), blankCheckpoint_crcs _ r hr, ofBytesLE_bytesLE]
  exact (Nat.mod_eq_of_lt (blankCrc_lt _)).symm

/-- The replay that is to be loaded from it. -/
def y5 : State := { one 7 [(Od.REPLAY_STATE, 0, 1)] with mem := blankCheckpoint 0xB00000000 }

theorem wit_ReplayRuns_load : ready y5 = true ∧ y5.dev.n Od.REPLAY_STATE 0 = 1 ∧ y5.clk.c = 0 ∧ y5.dev.checkpointGood y5.mem = true := by
  refine ⟨by decide, by decide, by decide, ?_⟩
  have hb : y5.dev.n Od.JOURNAL_CHECKPOINT_BASE 0 = 0xB00000000 := by decide
  have hm : y5.mem = blankCheckpoint 0xB00000000 := by rw [y5]
  unfold Dev.checkpointGood
  rw [hb, hm, List.all_eq_true]
  intro r hr
  rw [blank_good _ r hr]
  simp

/-- HBM with nothing but a header's first CRC, which no region of blank bytes has. -/
def wrongHead : Memory := Memory.wr [] 0xB00000020 (if blankCrc 0xF7000 = 0 then 1 else 0)

theorem wrongHead_other (x n : Nat) (h : x + n ≤ 0xB00000020 ∨ 0xB00000021 ≤ x) : wrongHead.rdBytes x n = List.replicate n Memory.blank := by
  rw [← Memory.rdBytes_nil x n]
  exact Memory.rdBytes_wrBytes_other [] _ [if blankCrc 0xF7000 = 0 then 1 else 0] h

theorem wrongHead_crc : ofBytesLE (wrongHead.rdBytes 0xB00000020 4) ≠ blankCrc 0xF7000 := by
  unfold wrongHead
  by_cases h : blankCrc 0xF7000 = 0
  · rw [if_pos h, h]; decide
  · rw [if_neg h]; intro e; exact h (e.symm.trans (by decide))

theorem wrongHead_bad {d : Dev} {m : Memory} (hb : d.n Od.JOURNAL_CHECKPOINT_BASE 0 = 0xB00000000) (hc : d.ckpt = none)
    (hm : ∀ x n, 0xB00000005 ≤ x → m.rdBytes x n = wrongHead.rdBytes x n) : d.checkpointGood m = false := by
  have region (n : Nat) : crc32 (m.rdBytes (0xB00000000 + 0x9000) n) = blankCrc n := by
    rw [hm _ _ (by decide), wrongHead_other _ _ (Or.inr (by decide))]
    rfl
  have head : ofBytesLE (m.rdBytes (0xB00000000 + 32 + 4 * 0) 4) ≠ blankCrc 0xF7000 := by
    rw [hm _ _ (by decide)]
    exact wrongHead_crc
  rw [Dev.checkpointGood, hb, hc, List.all_eq_false]
  refine ⟨((0x9000, 0xF7000, true), 0), by simp [ckptRegions], ?_⟩
  have no (a b : Nat) (h : b ≠ a) : ¬((true && (none : Option Ckpt).isSome || a == b) = true) := by simpa using fun e => h e.symm
  exact no _ _ (by rw [region]; exact head)

def y6 : State := { y5 with mem := wrongHead }

theorem wit_ReplayRuns_bad : ready y6 = true ∧ y6.dev.n Od.REPLAY_STATE 0 = 1 ∧ y6.clk.c = 0 ∧ y6.dev.checkpointGood y6.mem = false :=
  ⟨by decide, by decide, by decide, wrongHead_bad (by decide) (by decide) fun _ _ _ => by rw [y6]⟩

/-- A role's key, and a message with its tag (R557). -/
def key1 : List Byte := List.replicate 32 7
def signed (m : List Byte) : List Byte := m ++ (hmac key1 m).take 16

/-- A REQUEST of one record of session 16 (R556, R563): op, flags, index, instance, sub, handle, length, offset, total, tick, value. -/
def request (op flags idx inst sub handle len off total tick : Nat) (v : List Byte) : List Byte :=
  let r := bytesBE 1 op ++ bytesBE 1 flags ++ [0, 0] ++ bytesBE 2 idx ++ bytesBE 2 inst ++ bytesBE 1 sub ++ bytesBE 1 handle ++ [0, 0] ++ bytesBE 4 len ++
    bytesBE 4 off ++ bytesBE 4 total ++ bytesBE 8 tick ++ v
  [0x15, 0] ++ bytesBE 2 (32 + r.length) ++ bytesBE 4 16 ++ bytesBE 4 5 ++ [0, 1, 0, 0] ++ r

def sess1 : Sess := { num := 16, role := 2, key := key1, entry := 1, source := 9, opened := true, seq := 4, most := 8960 }
def withSess (x : Sess) : State :=
  let s := one 7 [(Od.RESET_STATE, 0, 1), (Od.DICT_MGMT_ENABLE, 0, 1)]
  { s with dev := { s.dev with sess := [x] } }


/-- The record such a request carries. -/
def recOf (op flags idx inst sub handle len off total tick : Nat) (v : List Byte) : OpReq :=
  { op := op, flags := flags, idx := idx, inst := inst, sub := sub, handle := handle, len := len, off := off, total := total, tick := tick, value := v }

def seed8 : List Byte := [1, 2, 3, 4, 5, 6, 7, 8]
def seedW : WriteOp := { idx := 0x1100, inst := 0, sub := 0x20, data := seed8 }
def snap1 : Snap := { handle := 7, bytes := seed8, tick := 3 }

def u1 : State := withSess sess1
def m1 : List Byte := signed (request 1 0 0x2100 8 4 0 0 0 0 0 [])
def m2 : List Byte := signed (request 2 0 0x1100 0 0x20 0 8 0 0 0 seed8)
def u2 : State := withSess { sess1 with group := some ([], false) }
def m3 : List Byte := signed (request 3 0 0x1100 0 0x20 0 8 0 8 0 seed8)
def u4 : State := withSess { sess1 with snaps := [snap1] }
def m4 : List Byte := signed (request 4 0 0 0 0 7 8 0 0 0 [])
def m5 : List Byte := signed (request 5 0 0 0 0 0 0 0 0 0 [])
def u6 : State := withSess { sess1 with group := some ([seedW], false) }
def m6 : List Byte := signed (request 6 0 0 0 0 0 0 0 0 4000000007 [])
def m7 : List Byte := signed (request 7 0 0 0 0 0 0 0 0 0 [])
def m8 : List Byte := signed (request 8 0 0x1100 0 0x20 0 0 0 0 0 [])

theorem wit_DictionaryOperations :
    requestComes u1 sess1 m1 (recOf 1 0 0x2100 8 4 0 0 0 0 0 []) ∧ requestComes u1 sess1 m2 (recOf 2 0 0x1100 0 0x20 0 8 0 0 0 seed8) ∧
    requestComes u1 sess1 m3 (recOf 3 0 0x1100 0 0x20 0 8 0 8 0 seed8) ∧ requestComes u1 sess1 m5 (recOf 5 0 0 0 0 0 0 0 0 0 []) ∧
    requestComes u1 sess1 m8 (recOf 8 0 0x1100 0 0x20 0 0 0 0 0 []) := by
  refine ⟨?_, ?_, ?_, ?_, ?_⟩ <;> (unfold requestComes; decide +kernel)

theorem wit_DictionaryOperations_sessions :
    requestComes u2 { sess1 with group := some ([], false) } m2 (recOf 2 0 0x1100 0 0x20 0 8 0 0 0 seed8) ∧
    requestComes u4 { sess1 with snaps := [snap1] } m4 (recOf 4 0 0 0 0 7 8 0 0 0 []) ∧
    requestComes u6 { sess1 with group := some ([seedW], false) } m6 (recOf 6 0 0 0 0 0 0 0 0 4000000007 []) ∧
    requestComes u6 { sess1 with group := some ([seedW], false) } m7 (recOf 7 0 0 0 0 0 0 0 0 0 []) := by
  refine ⟨?_, ?_, ?_, ?_⟩ <;> (unfold requestComes; decide +kernel)

theorem wit_DictionaryOperations_checks :
    (ready u1 = true ∧ plainWords u1.dev = true ∧ u1.dev.dictPoison = []) ∧ (ready u2 = true ∧ plainWords u2.dev = true ∧ u2.dev.dictPoison = []) ∧
    (ready u4 = true ∧ plainWords u4.dev = true ∧ u4.dev.dictPoison = []) ∧ (ready u6 = true ∧ plainWords u6.dev = true ∧ u6.dev.dictPoison = []) ∧
    (objOf 0x2100 4 = some Od.PORT_MTU ∧ u1.dev.portExists 8 = true) ∧
    (seedW.pre 2 = 0 ∧ tickFar u1.clk 0 = false ∧ ((asked u1 sess1 9).checkOne (applyTick u1.clk 0) seedW false u1.mem).1 = 0) ∧
    (sess1.seg = none ∧ sess1.group = none ∧ [snap1].find? (fun y => y.handle == 7) = some snap1 ∧ (0 + 8 ≤ snap1.bytes.length) ∧
      padded 8 ≤ sess1.most - 64) ∧
    (tickFar u6.clk 4000000007 = false ∧ seedW.words ≤ 4096 ∧
      (Dev.checkGroup u6.mem (((asked u6 sess1 9).asOf 4000000007).stands seedW) [] [seedW] ((asked u6 sess1 9).asOf 4000000007) (asked u6 sess1 9)).1 = 0) ∧
    (objOf 0x1100 0x20 = some Od.DET_SEED ∧ Od.DET_SEED.hasInst 0 = true) := by decide +kernel

/-- A device with a role's key set that takes messages on a management port. -/
def keyed (l : List Sess) (fails : List (Nat × Nat × Nat)) : State :=
  let s := one 20000007 [(Od.RESET_STATE, 0, 1), (Od.DICT_KEY_SET, 0, 4)]
  { s with dev := { s.dev.setBlob Od.DICT_KEY 2 key1 with sess := l, fails := fails } }
/-- A message of a kind (R556) of session 16 without a body, and a HELLO of a role. -/
def plain (kind : Nat) : List Byte := [BitVec.ofNat 8 kind, 0, 0, 32, 0, 0, 0, 16] ++ List.replicate 8 0
def helloOf (role : Nat) : List Byte :=
  [0x11, 0, 0, 56] ++ List.replicate 12 0 ++ [BitVec.ofNat 8 role, 0, 0, 0] ++ List.replicate 16 9 ++ bytesBE 2 1024 ++ [0, 0]
def n1 : State := keyed [] []
def n2 : State := keyed [{ sess1 with entry := 2, opened := false, since := 7 }] []
def n3 : State := keyed [{ sess1 with entry := 2 }] []
def n4 : State := keyed [{ sess1 with snaps := [snap1] }] [(3, 0, 20000007)]

theorem wit_SessionsOpenAndClose :
    (ready n1 = true ∧ n1.dev.entryOpen 2 = true ∧ (signed (helloOf 2)).length = 56 ∧ be (signed (helloOf 2)) 2 2 = 56 ∧ be (signed (helloOf 2)) 0 1 = 0x11 ∧
      be (signed (helloOf 2)) 16 1 = 2 ∧ bit (n1.dev.n Od.DICT_KEY_SET 0) 2 = true ∧ n1.dev.fails = [] ∧
      n1.dev.tagGood 2 (n1.dev.blob Od.DICT_KEY 2) (signed (helloOf 2)) = true ∧ be (signed (helloOf 2)) 36 2 = 1024 ∧ n1.dev.sess = []) ∧
    (ready n2 = true ∧ n2.dev.entryOpen 2 = true ∧ (signed (plain 0x13)).length = 32 ∧ be (signed (plain 0x13)) 2 2 = 32 ∧
      be (signed (plain 0x13)) 0 1 = 0x13 ∧ be (signed (plain 0x13)) 4 4 = 16 ∧ be (signed (plain 0x13)) 8 4 = 0 ∧ n2.dev.sess.length = 1 ∧
      n2.dev.tagGood 2 key1 (signed (plain 0x13)) = true ∧ (n2.dev.sess.map fun x => (x.opened, decide (x.since + 2000000 ≤ n2.clk.tick))) = [(false, true)]) ∧
    (ready n3 = true ∧ n3.dev.entryOpen 2 = true ∧ be (signed (plain 0x17)) 0 1 = 0x17 ∧ n3.dev.sess = [{ sess1 with entry := 2 }] ∧
      n3.dev.tagGood 2 key1 (signed (plain 0x17)) = true) ∧
    (ready n4 = true ∧ n4.dev.sess = [{ sess1 with snaps := [snap1] }] ∧ snap1.tick + 2000000 ≤ n4.clk.tick ∧ snap1.handle < 8 ∧
      n4.dev.fails = [(3, 0, 20000007)]) := by decide +kernel

theorem wit_SessionsOpenAndClose_idle :
    sess1.since + 2000000 * (keyed [sess1] []).dev.n Od.DICT_SESSION_IDLE 0 ≤ 4000000000 ∧ sess1.opened = true ∧ sess1.entry = 1 ∧
    sess1.since + 2000000 * (one 4000000000 []).dev.n Od.DICT_SESSION_IDLE 0 ≤ (one 4000000000 []).clk.tick := by decide

/-- Port 1 of the management network with both its addresses set. -/
def n5 : State :=
  let s := n1
  let d := (List.range 5).foldl (fun (d : Dev) e => d.put Od.DICT_MGMT_IPV4 1 (e + 10) e) s.dev
  { s with dev := (List.range 17).foldl (fun (d : Dev) e => d.put Od.DICT_MGMT_IPV6 1 (e + 30) e) d }
/-- A frame of at least 64 bytes with its FCS. -/
def framed (bs : List Byte) : List Byte := let b := sliceZ bs 0 (max 60 bs.length); b ++ fcsBytes b
def arp1 : List Byte :=
  List.replicate 6 0xFF ++ [2, 0, 0, 0, 0, 1, 0x08, 0x06, 0, 1, 8, 0, 6, 4, 0, 1] ++ [2, 0, 0, 0, 0, 1, 9, 9, 9, 9] ++ List.replicate 6 0 ++ [10, 11, 12, 13]
/-- The device's IPv6 address, an ICMPv6 message to it with its checksum. -/
def v6 : List Byte := (List.range 16).map fun e => BitVec.ofNat 8 (e + 30)
def icmp (type : Nat) (rest : List Byte) : List Byte :=
  let b := [BitVec.ofNat 8 type, 0, 0, 0, 0, 0, 0, 0] ++ rest
  let src := List.replicate 16 1
  let s := inetSum (src ++ v6 ++ bytesBE 4 b.length ++ [0, 0, 0, 58] ++ b) 0
  [0x33, 0x33, 0, 0, 0, 1, 2, 0, 0, 0, 0, 1, 0x86, 0xDD, 0x60, 0, 0, 0] ++ bytesBE 2 b.length ++ [58, 255] ++ src ++ v6 ++ overlay b 2 (bytesBE 2 s)

def rc1 : State := st 7 (dv [(Od.PORT_LINK_DOWN_COUNT, 1016, 0, 5)])
def n6 : State := { one 7 [(Od.RESET_STATE, 0, 1)] with dev := { (one 7 [(Od.RESET_STATE, 0, 1)]).dev with windowQ := [[1], [2]] } }
def n7 : State := one 7 [(Od.RESET_STATE, 0, 1)]

theorem wit_WindowKeysAndReads :
    (ready n7 = true ∧ n7.dev.entryOpen 0 = true ∧ n7.dev.on Od.DICT_PCIE_AUTH 0 = false ∧ n7.dev.now.entry = 0 ∧ (signed (helloOf 2)).length = 56 ∧
      be (signed (helloOf 2)) 2 2 = 56 ∧ be (signed (helloOf 2)) 0 1 = 0x11 ∧ be (signed (helloOf 2)) 36 2 = 1024 ∧ n7.dev.sess = [] ∧ n7.dev.windowQ = [] ∧
      n7.dev.on Rg.WINDOW 0 0 = false ∧ n7.clk.c = 0 ∧ n7.dev.viewWrites = [] ∧ n7.dev.gpend = [] ∧ plainWords n7.dev = true ∧ key1.length = 32) ∧
    (ready n6 = true ∧ n6.dev.windowQ = [1] :: [[2]]) ∧
    (ready rc1 = true ∧ objOf 0x2080 8 = some Od.PORT_LINK_DOWN_COUNT ∧ Od.PORT_LINK_DOWN_COUNT.acc = .rc ∧ Od.PORT_LINK_DOWN_COUNT.arr = false ∧
      Od.PORT_LINK_DOWN_COUNT.count = 1 ∧ Od.PORT_LINK_DOWN_COUNT.hasInst 1016 = true ∧ plainWords rc1.dev = true ∧ rc1.dev.dictPoison = [] ∧
      rc1.dev.portExists 1016 = true) := by decide +kernel

theorem wit_WindowKeysAndReads_ports :
    (ready n5 = true ∧ (n5.dev.mgmtFrame 1 (framed arp1)).isSome = true ∧ sliceZ arp1 12 10 = [0x08, 0x06, 0, 1, 8, 0, 6, 4, 0, 1] ∧
      sliceZ arp1 38 4 = n5.dev.mgmtV4 1 ∧ n5.dev.mgmtV4 1 ≠ [0, 0, 0, 0]) ∧
    (n5.dev.mgmtFrame 1 (framed (icmp 135 v6)) = some (icmp 135 v6) ∧ ((v6Payload (icmp 135 v6) 58).map fun b =>
      (icmp6Ok (icmp 135 v6) b, b.length, be b 0 2, sliceZ b 8 16 == n5.dev.mgmtV6 1)) = some (true, 24, 0x8700, true) ∧
      be (icmp 135 v6) 21 1 = 255 ∧ n5.dev.mgmtV6 1 ≠ List.replicate 16 0) ∧
    (n5.dev.mgmtFrame 1 (framed (icmp 128 [])) = some (icmp 128 []) ∧ ((v6Payload (icmp 128 []) 58).map fun b =>
      (icmp6Ok (icmp 128 []) b, b.length, be b 0 2)) = some (true, 8, 0x8000) ∧ sliceZ (icmp 128 []) 38 16 = n5.dev.mgmtV6 1) := by decide +kernel

/-- A running device with a usable host link and elements of objects set. -/
def hsLinked (l : List (Obj × Nat × Int)) : State := one 7 ([(Od.HOST_LINK_STATE, 0, 2), (Rg.BME, 0, 1), (Rg.MSIX_MASK, 0, 0)] ++ l)
def hsG1 : State := hsLinked [(Od.HOST_RING_SQ_BASE, 15, 4096), (Od.HOST_RING_CQ_BASE, 15, 8192)]
def hsG2 : State := hsLinked [(Rg.CQ_OLDEST, 15, 7), (Od.HOST_RING_COALESCE_TICKS, 15, 1)]

theorem wit_HostRings :
    (ready hsG1 = true ∧ hsG1.clk.c = 0 ∧ hsG1.dev.on Od.HOST_RING_ENABLE 15 = false ∧ hsG1.dev.on Od.HOST_RING_SQ_BASE 15 = true ∧
      hsG1.dev.on Od.HOST_RING_CQ_BASE 15 = true ∧ hsG1.dev.hcmds = [] ∧ hsG1.dev.backlog = [] ∧ hsG1.dev.bufs = [] ∧
      (0 < hsG1.dev.n Od.HOST_RING_SQ_ENTRIES 15) ∧ (0 < hsG1.dev.n Od.HOST_RING_CQ_ENTRIES 15) ∧ hsG1.dev.n Od.HOST_RING_SQ_ENTRIES 15 ≤ 65536 ∧
      hsG1.dev.n Od.HOST_RING_CQ_ENTRIES 15 ≤ 65536) ∧
    (ready hsG2 = true ∧ hsG2.dev.on Rg.CQ_OLDEST 15 = true ∧ hsG2.dev.n Rg.CQ_OLDEST 15 - 1 + hsG2.dev.n Od.HOST_RING_COALESCE_TICKS 15 ≤ hsG2.clk.tick ∧
      hsG2.dev.linkOk = true ∧ bit (hsG2.dev.n Rg.MSIX_MASK 0) 15 = false) := by decide

def hsG3 : State := hsLinked [(Od.RESET_PCIE_WARM, 0, 0), (Rg.MSIX_MASK, 0, 9223372036854775808), (Rg.MSIX_PENDING, 0, 9223372036854775808)]

theorem wit_HostLinkEvents :
    ready hsG3 = true ∧ hsG3.dev.hcmds = [] ∧ hsG3.dev.backlog = [] ∧ hsG3.dev.on Rg.PERST 0 = false ∧ hsG3.dev.linkOk = true ∧
    bit (hsG3.dev.n Rg.MSIX_PENDING 0) 63 = true ∧ hsG3.dev.bufs = [] ∧ hsG3.dev.on Od.RESET_PCIE_WARM 0 = false := by decide

/-- Ring 15 with one entry to read and a buffer of 100 bytes of its own, pool 0, index 5. -/
def bufA : Buf := { pool := 0, idx := 5, gen := 0, owner := 23, bytes := List.replicate 100 6, ring := some 15, since := 2 }
def ringed (l : List (Obj × Nat × Int)) (b : List Buf) : State :=
  let s := hsLinked ([(Od.HOST_RING_ENABLE, 15, 1), (Od.HOST_RING_ENABLE, 0, 1), (Rg.SQ_TAIL, 15, 1)] ++ l)
  { s with dev := { s.dev with bufs := b } }
/-- A command entry (R588): opcode, flags, class or ring, handle, host address, length, offset, port. -/
def entryOf (op flags ring h addr len off port : Nat) : List Byte :=
  sliceZ ([BitVec.ofNat 8 op, BitVec.ofNat 8 flags, BitVec.ofNat 8 ring, 0] ++ bytesLE 4 h ++ bytesLE 8 addr ++ bytesLE 2 len ++ bytesLE 2 off ++ bytesLE 2 port) 0 64
def hsF1 : State := ringed [] [bufA]
def cmdA : HostCmd := { ring := 15, entry := entryOf 1 0 0 5 0x1000 100 0 0, sq := 0, phase := 1, data := List.replicate 100 6, len := 100, handle := 5 }
def hsF2 : State := { hsF1 with dev := { hsF1.dev with hcmds := [cmdA] } }
def delA : Deliv := { ring := 15, handle := 5, reason := 0, whole := true, len := 100 }
def hsF3 : State := { hsF1 with dev := { hsF1.dev with deliv := [delA] } }

theorem wit_HostCommandsAct :
    (ready hsF1 = true ∧ hsF1.dev.on Od.HOST_RING_ENABLE 15 = true ∧ hsF1.dev.linkOk = true ∧ 0 < hsF1.dev.cqFree 15 ∧ hsF1.dev.backlog = [] ∧
      hsF1.dev.n Od.POOL_QUARANTINE_COUNT 0 ≤ 4096 ∧ hsF1.dev.hcmds = [] ∧ hsF1.dev.n Rg.SQ_HEAD 15 ≠ hsF1.dev.n Rg.SQ_TAIL 15 ∧ bits 5 23 18 = 0 ∧
      hsF1.dev.buf 5 = some bufA ∧ bufA.owner = 8 + 15 ∧ bufA.slot = none ∧ bufA.stashing = false ∧ hsF1.dev.bufLate 5 (8 + 15) = false) ∧
    ((entryOf 2 0 0 5 0 0 0 0).length = 64 ∧ cmdOk (entryOf 2 0 0 5 0 0 0 0) = true ∧ ofBytesLE (sliceZ (entryOf 2 0 0 5 0 0 0 0) 4 4) = 5) ∧
    (cmdOk (entryOf 3 0 0 5 0 0 0 0) = true ∧ hsF1.dev.on Od.HOST_RING_ENABLE 0 = true) ∧
    (cmdOk (entryOf 1 0 0 5 0x1000 60 40 0) = true ∧ ofBytesLE (sliceZ (entryOf 1 0 0 5 0x1000 60 40 0) 16 2) = 60 ∧
      ofBytesLE (sliceZ (entryOf 1 0 0 5 0x1000 60 40 0) 18 2) = 40 ∧ bufA.bytes.length = 100) ∧
    (cmdOk (entryOf 4 2 0 5 0 100 0 1016) = true ∧ bit ((entryOf 4 2 0 5 0 100 0 1016).getD 1 0).toNat 1 = true ∧
      ofBytesLE (sliceZ (entryOf 4 2 0 5 0 100 0 1016) 20 2) = 1016 ∧ hsF1.dev.portExists 1016 = true ∧ 104 ≤ hsF1.dev.n Od.PORT_MTU 1016 ∧
      hsF1.dev.inject.length < 64 ∧ hsF1.dev.poolLate hsF1.clk (8 + 15) 100 = false) := by decide

theorem wit_HostCommandsAct_ends :
    (ready hsF2 = true ∧ hsF2.dev.hcmds = [cmdA] ∧ cmdA.status = 0 ∧ cmdA.flag 0 = false ∧ cmdA.mute = false ∧
      (hsF2.dev.dmaOf hsF2.clk (cmdA.num 18 2) cmdA.len cmdA.stashed).isSome = true) ∧
    (ready hsF3 = true ∧ hsF3.dev.hcmds = [] ∧ (hsF3.dev.deliv.find? fun v => v.whole) = some delA ∧ delA.ring = 15 ∧
      (hsF3.dev.xfer hsF3.clk (ceilDiv delA.len 256 * if delA.egress then 2 else 1) 0).isSome = true) := by decide

/-- A device with work under way: a frame record, a copy, a table entry, a session, a pending fault. -/
def busy : State :=
  let s := one 7 [(Od.RESET_STATE, 0, 1), (Od.PORT_MTU, 8, 100), (Od.DEVICE_POWER_CYCLES, 0, 3)]
  { s with dev := { s.dev with em := [(0, 5)], sess := [{ num := 16, role := 2, key := [], entry := 1, source := 9 }], copies := [{ fr := 0, queue := 5 }] } }
def noOsc : State := one 7 [(Rg.HALT, 0, 1)]

theorem wit_PowerOnAndColdResets : busy.dev.n Rg.HALT 0 ≠ 1 ∧ noOsc.dev.n Rg.HALT 0 = 1 := by decide

/-- A seed image without records (R610): level and SEQUENCE. -/
def emptySeed (level seq : Nat) : List Byte :=
  let h := [0x4F, 0x5A, 0x53, 0x49] ++ bytesLE 2 1 ++ bytesLE 1 level ++ [0] ++ bytesLE 4 64 ++ bytesLE 4 0 ++ bytesLE 8 seq ++ bytesLE 4 (crc32 [])
  h ++ bytesLE 4 (crc32 h) ++ List.replicate 32 0
def cold : State := one 0 [(Od.SEED_REQUIRE_SIGNATURE, 0, 0)]
def otherLevel : State := one 0 [(Od.SEED_REQUIRE_SIGNATURE, 0, 0), (Od.DEVICE_BEHAVIOUR_LEVEL, 0, 2)]

theorem wit_WarmResetAndStart :
    (ready busy = true ∧ busy.clk.c = 0) ∧
    (ready k0 = true ∧ k0.dev.accs = [] ∧ k0.dev.recQ = [] ∧ k0.dev.n Od.JOURNAL_STATE 0 = 0 ∧ k0.dev.sess = [] ∧
      (∀ r, r < 16 → k0.dev.on Od.HOST_RING_ENABLE r = false)) ∧
    (ready cold = true ∧ cold.dev.n Od.RESET_STATE 0 ≠ 1) := by decide

theorem wit_WarmResetAndStart_seed :
    ((cold.dev.seedChoice (seedOrder (emptySeed 1 4) (emptySeed 1 5))).1.map fun c => (c.1, c.2.2, le c.2.1 6 1, cold.dev.n Od.DEVICE_BEHAVIOUR_LEVEL 0)) =
      some (1, [], 1, 1) ∧ cold.dev.n Od.SEED_REFUSED 0 = 0 ∧
    ((otherLevel.dev.seedChoice (seedOrder (emptySeed 1 4) [])).1.map fun c => (c.1, c.2.2, le c.2.1 6 1)) = some (0, [], 1) ∧
    otherLevel.dev.n Od.DEVICE_BEHAVIOUR_LEVEL 0 ≠ 1 := by decide +kernel

def rsL1 : State := one 7 [(Od.PORT_LINK_STATE, 1016, 2), (Od.PORT_ACTIVE_LANES, 1016, 8), (Od.PORT_LINK_STATE, 8, 2)]
def rsL2 : State := one 2007 [(Od.POWER_SORUS_STATE, 7, 1), (Rg.SORUS_UNTIL, 7, 2008)]
def rsL3 : State := one 2006 [(Od.POWER_SORUS_STATE, 7, 1), (Rg.SORUS_UNTIL, 7, 2008)]

theorem wit_SorusResetsAndFlushes :
    (ready rsL1 = true ∧ plainWords rsL1.dev = true ∧ rsL1.dev.tx = [] ∧ rsL1.clk.c = 0 ∧ rsL1.dev.now.resets = [] ∧ rsL1.dev.rx = [] ∧ rsL1.dev.sorusRuns 7 = true ∧
      rsL1.dev.replaying = false ∧ rsL1.dev.portExists 1016 = true ∧ rsL1.dev.link 1016 = lkUP) ∧
    (ready rsL2 = true ∧ plainWords rsL2.dev = true ∧ rsL2.dev.tx = [] ∧ rsL2.dev.n Rg.SORUS_UNTIL 7 ≠ 0 ∧ rsL2.dev.n Rg.SORUS_UNTIL 7 ≤ rsL2.clk.tick + 1) ∧
    (ready rsL3 = true ∧ plainWords rsL3.dev = true ∧ rsL3.dev.tx = [] ∧ rsL3.clk.tick + 1 < rsL3.dev.n Rg.SORUS_UNTIL 7) := by decide

/-- Sori 0 to 6 in a state, the device idle or not. -/
def others (st7 st idle : Int) : State :=
  one 7 ([(Od.POWER_IDLE_ENABLE, 0, 1), (Od.POWER_STATE, 0, idle), (Od.POWER_SORUS_STATE, 7, st7)] ++ (List.range 7).map fun o => (Od.POWER_SORUS_STATE, o, st))
def rsP1 : State := others 0 2 0
def rsP2 : State := others 2 2 1
def rsP3 : State := others 2 0 0
def rsP4 : State := { rsP2 with dev := rsP2.dev.put Rg.IDLE_UNTIL 0 8 }
def p5 : State := one 7 [(Od.PORT_LINK_STATE, 1016, 2)]

theorem wit_SoriParkAndWake :
    (ready rsP1 = true ∧ rsP1.clk.c = 0 ∧ rsP1.dev.parkOk 7 = true ∧ rsP1.dev.sorusRuns 7 = true ∧ plainWords rsP1.dev = true ∧ rsP1.dev.on Od.POWER_IDLE_ENABLE 0 = true ∧
      (∀ o, o < 8 → o ≠ 7 → rsP1.dev.n Od.POWER_SORUS_STATE o = 2)) ∧
    (ready p5 = true ∧ p5.clk.c = 0 ∧ p5.dev.parkOk 7 = false ∧ p5.dev.n Od.POWER_SORUS_STATE 7 ≠ 2) ∧
    (ready rsP2 = true ∧ rsP2.clk.c = 0 ∧ rsP2.dev.n Od.POWER_SORUS_STATE 7 = 2 ∧ rsP2.dev.idle = true ∧ rsP2.dev.n Rg.IDLE_UNTIL 0 = 0) ∧
    (ready rsP3 = true ∧ rsP3.clk.c = 0 ∧ rsP3.dev.n Od.POWER_SORUS_STATE 7 = 2 ∧ rsP3.dev.idle = false ∧ plainWords rsP3.dev = true ∧ rsP3.dev.tx = [] ∧ rsP3.dev.rx = []) ∧
    (ready rsP4 = true ∧ rsP4.dev.n Rg.IDLE_UNTIL 0 ≠ 0 ∧ rsP4.dev.n Rg.IDLE_UNTIL 0 ≤ rsP4.clk.tick + 1 ∧ (∀ o, o < 8 → rsP4.dev.n Od.POWER_SORUS_STATE o ≠ 3)) := by decide

/-- A recovery as it comes due: kind, die, unit, rung, start. -/
def rc (kind die unit rung start : Nat) : Recov := { kind := kind, die := die, unit := unit, rung := rung, start := start }
def due (r : Recov) : State := { one 7 [(Od.HOST_RING_ENABLE, 15, 1)] with dev := { (one 7 [(Od.HOST_RING_ENABLE, 15, 1)]).dev with fltDue := [r] } }
def win (r : Recov) (q : List Recov) : State := { due r with dev := { (due r).dev with fltDue := [], flt := [r], fltQ := q } }
def iso (isolated : Int) (boundary : Nat) : State :=
  let s := one 7 [(Od.FAULT_ISOLATED, 0, isolated), (Od.TIME_VIEW_STATE, 3, 1), (Od.MAT_ENABLE, 0, 1), (Rg.H_TERM, 0, 4)]
  { s with dev := { s.dev with isoDue := some (255, boundary) } }

theorem wit_RecoveriesAndIsolation :
    (ready (due (rc 1 0 3 0 8)) = true ∧ ((due (rc 1 0 3 0 8)).dev.fltDue.find? fun r => decide (r.start ≤ 7)) = none) ∧
    (∀ r ∈ [rc 1 0 3 0 7, rc 1 0 3 5 7, rc 10 8 15 4 7, rc 2 7 63 1 0], ready (due r) = true ∧ r.via = 0 ∧ plainWords (due r).dev = true ∧ (due r).dev.tx = [] ∧
      (due r).dev.bufs = [] ∧ ((due r).dev.fltDue.find? fun r => decide (r.start ≤ (due r).clk.tick)) = some r ∧
      ({ (due r).dev with fltDue := (due r).dev.fltDue.erase r } : Dev).covered (due r).clk r = false) ∧
    (let r := { rc 10 8 0 4 3 with winEnd := 7 }
     let q := { rc 10 8 15 4 0 with via := 2 }
     let s := win r [q]
     ready s = true ∧ r.over s.clk = true ∧ r.rung ≠ 0 ∧ s.dev.fltDue = [] ∧ s.dev.fltQ = [q] ∧ s.dev.flt = [r] ∧ faultSub q.kind = faultSub r.kind ∧
       s.dev.bufs = [] ∧ s.dev.n Od.FAULT_LOG_NEXT 0 < 32) ∧
    (ready k0 = true ∧ k0.dev.isoDue = none ∧ k0.dev.fltQ = []) ∧
    (∀ s ∈ [iso 0 7, iso 1 7, iso 0 8], ready s = true) ∧ (iso 1 7).dev.on Od.FAULT_ISOLATED 0 = true ∧ (iso 0 7).dev.on Od.FAULT_ISOLATED 0 = false := by decide

def hotDies : List Int := [1840, 0, 0, 0, 0, 0, 0, 0, 0, 0, 0, 0, 2000]
def coolDies : List Int := [1839, 0, 0, 0, 0, 0, 0, 0, -5, 0, 0, 0, 2000]
def sensed : State := one 7 [(Rg.TEMP_LAST, 0, 8)]
/-- AVS at work: exponent, setpoint 720 of a target of 733. -/
def avs (l : List (Obj × Nat × Int)) : State :=
  one 40000 ([(Rg.AVS_EXP, 0, 88), (Od.POWER_AVS_SETPOINT, 0, 720), (Od.POWER_AVS_TARGET, 0, 733), (Od.POWER_AVS_ENABLE, 0, 1)] ++ l)
def retry (n : Int) : State := avs [(Rg.AVS_TRIES, 0, n), (Rg.AVS_STEP, 0, 725), (Rg.AVS_TRY_TICK, 0, 39800)]

theorem wit_TemperatureAndSupply :
    (ready k0 = true ∧ (∀ l ∈ [hotDies, coolDies], l.length = 13 ∧ ∀ x ∈ l, -(2 ^ 31) ≤ x ∧ x < 2 ^ 31) ∧ k0.dev.n Rg.TEMP_LAST 0 = 0) ∧
    (ready sensed = true ∧ sensed.dev.n Rg.TEMP_LAST 0 ≠ 0 ∧ sensed.clk.tick < sensed.dev.n Rg.TEMP_LAST 0 + 1999) ∧
    (ready (avs []) = true ∧ (avs []).dev.avsDue (avs []).clk = true ∧ k0.dev.avsDue k0.clk = false) ∧
    (∀ n ∈ ([1, 3] : List Int), ready (retry n) = true ∧ (retry n).dev.on Od.POWER_AVS_ENABLE 0 = true ∧ (retry n).dev.on Rg.AVS_TRIES 0 = true ∧
      (retry n).dev.n Rg.AVS_TRY_TICK 0 + 200 ≤ (retry n).clk.tick) ∧
    (retry 3).dev.n Rg.AVS_TRIES 0 = 3 ∧ (avs []).dev.on Od.POWER_AVS_ENABLE 0 = true ∧ (avs []).dev.n Rg.AVS_READ 0 = 0 := by decide

def a1 : State := one 7200000000 [(Od.RESET_STATE, 0, 1), (Od.DEVICE_OP_SECONDS, 0, 3599)]
def a2 : State := one 3000 [(Rg.AGE_START, 0, 1001)]
def a3 : State := one 2999 [(Rg.AGE_START, 0, 1001)]
def a4 (l : List (Obj × Nat × Int)) : State :=
  one 7 ([(Rg.AGE_READY, 0, 7), (Od.AGE_PLAN_ENABLE, 0, 1), (Od.RESET_STATE, 0, 1), (Od.AGE_PLAN_LANES, 0, 0), (Od.AGE_PLAN_SCRUB_RAISE, 0, 0)] ++ l)
def a5 : State := a4 [(Od.AGE_MARGIN_TIMING, 0, -100), (Od.POWER_AVS_TARGET, 0, 730)]
def a6 : State := a4 [(Od.AGE_MARGIN_TIMING, 0, -100), (Od.POWER_AVS_TARGET, 0, 800)]
def a7 : State := a4 [(Od.AGE_MARGIN_TIMING, 0, 1000), (Od.AGE_MARGIN_VMIN, 0, 1000), (Od.POWER_AVS_TARGET, 0, 730)]

theorem wit_ServiceLife :
    (ready a1 = true ∧ a1.dev.n Od.RESET_STATE 0 = 1 ∧ a1.clk.tick % (a1.dev.n Od.AGE_SAMPLE_PERIOD 0 * 2000000) = 0 ∧ 3599 ≤ a1.dev.n Od.DEVICE_OP_SECONDS 0 ∧
      k0.dev.n Od.DEVICE_OP_SECONDS 0 < 3599 ∧ k0.dev.n Od.RESET_STATE 0 ≠ 1) ∧
    (ready a2 = true ∧ a2.dev.n Rg.AGE_START 0 ≠ 0 ∧ a2.dev.n Rg.AGE_START 0 + 2000 ≤ a2.clk.tick + 1) ∧
    (ready a3 = true ∧ a3.clk.tick + 1 < a3.dev.n Rg.AGE_START 0 + 2000) ∧
    (k0.dev.n Rg.AGE_VMIN_LAST 0 = 0 ∧ k0.dev.dieRuns 8 = true ∧ k0.dev.n Rg.AGE_READY 0 = 0) ∧
    (∀ s ∈ [a5, a6, a7], ready s = true ∧ s.dev.n Rg.AGE_READY 0 ≠ 0 ∧ s.dev.on Od.AGE_PLAN_ENABLE 0 = true ∧ s.dev.maint = false ∧ s.dev.isolated = false ∧
      s.dev.n Od.RESET_STATE 0 = 1 ∧ s.dev.on Od.AGE_PLAN_LANES 0 = false ∧ s.dev.n Od.AGE_PLAN_SCRUB_RAISE 0 = 0) ∧
    (a5.dev.get Od.AGE_MARGIN_TIMING 0 < a5.dev.get Od.AGE_PLAN_TIMING_FLOOR 0 ∧ a5.dev.n Od.POWER_AVS_TARGET 0 < 800 ∧ a5.dev.n Rg.AGE_RAISED 0 = 0) ∧
    800 ≤ a6.dev.n Od.POWER_AVS_TARGET 0 ∧ a7.dev.get Od.AGE_PLAN_TIMING_FLOOR 0 ≤ a7.dev.get Od.AGE_MARGIN_TIMING 0 ∧
    a7.dev.get Od.AGE_PLAN_VMIN_FLOOR 0 ≤ a7.dev.get Od.AGE_MARGIN_VMIN 0 := by decide

def matOn : State := one 7 [(Od.MAT_STATE, 0, 1)]

theorem wit_ReplacementAndRelearning :
    (∀ s ∈ [k0, matOn], ready s = true ∧ s.clk.c = 0 ∧ plainWords s.dev = true ∧ s.dev.dictPoison = [] ∧ s.dev.viewWrites = [] ∧ s.dev.gpend = [] ∧
      s.dev.n Od.JOURNAL_STATE 0 = 0) ∧ k0.dev.n Od.MAT_STATE 0 = 0 ∧ matOn.dev.n Od.MAT_STATE 0 ≠ 0 ∧
    ofBytesLE (k0.mem.rdBytes (k0.dev.n Od.JOURNAL_CHECKPOINT_BASE 0) 4) ≠ 1 := by decide

/-- The device that adopts: its journal has room for one record or for none. -/
def adopter (record : Bool) : State := one 7 [(Od.JOURNAL_LENGTH, 0, if record then 160 else 0)]

/-- An END record of tick 77 (R515). -/
def endRecord : List Byte := bytesLE 8 77 ++ bytesLE 1 6 ++ bytesLE 1 3 ++ List.replicate 150 5

/-- A checkpoint of version 1 and of a level before the blank regions, and an END record, in a journal of one record or of none. -/
def adopts (level : Nat) (record : Bool) : State :=
  { adopter record with
    mem := ((blankCheckpoint 0xB00000000).wrBytes 0xB00000000 (bytesLE 4 1 ++ bytesLE 1 level)).wrBytes 0xC00000000
      endRecord }

theorem adopts_other (level : Nat) (record : Bool) {x n : Nat} (h : 0xB00000005 ≤ x) (g : x + n ≤ 0xC00000000) :
    (adopts level record).mem.rdBytes x n = (blankCheckpoint 0xB00000000).rdBytes x n := by
  rw [adopts, Memory.rdBytes_wrBytes_other _ _ _ (by left; omega), Memory.rdBytes_wrBytes_other _ _ _ (by right; simp; omega)]

theorem adopts_good (level : Nat) (record : Bool) : (adopts level record).dev.checkpointGood (adopts level record).mem = true := by
  have hb : (adopts level record).dev.n Od.JOURNAL_CHECKPOINT_BASE 0 = 0xB00000000 := by
    show (adopter record).dev.n Od.JOURNAL_CHECKPOINT_BASE 0 = 0xB00000000
    cases record <;> decide
  have far : ∀ r ∈ ckptRegions.zipIdx, 64 ≤ r.1.1 ∧ r.1.1 + r.1.2.1 ≤ 0x10000000 ∧ r.2 < 8 := by decide
  unfold Dev.checkpointGood
  rw [hb, List.all_eq_true]
  intro r hr
  have h := far r hr
  rw [adopts_other _ _ (by omega) (by omega), adopts_other _ _ (by omega) (by omega), blank_good _ r hr]
  simp

theorem adopts_head (level : Nat) (record : Bool) :
    ofBytesLE ((adopts level record).mem.rdBytes 0xB00000000 4) = 1 ∧ ((adopts level record).mem.rd 0xB00000004).toNat = level % 256 := by
  have hw : (blankCheckpoint 0xB00000000).wf = true := crcsInto_wf _ _ rfl
  have h := Memory.rdBytes_wrBytes_same 0xB00000000 (bytesLE 4 1 ++ bytesLE 1 level) hw
  have e : (bytesLE 4 1 ++ bytesLE 1 level).length = 5 := by simp
  rw [e] at h
  have g : (adopts level record).mem.rdBytes 0xB00000000 5 = bytesLE 4 1 ++ bytesLE 1 level := by
    rw [adopts, Memory.rdBytes_wrBytes_other _ _ _ (by left; omega), h]
  simp only [Memory.rdBytes, bytesLE, List.cons_append, List.nil_append, List.cons.injEq] at g
  obtain ⟨g0, g1, g2, g3, g4, -⟩ := g
  refine ⟨?_, ?_⟩
  · simp only [Memory.rdBytes, g0, g1, g2, g3]; decide
  · rw [g4]; simp

theorem adopts_last (level : Nat) :
    ((List.range (adopts level true).dev.journalRoom).filterMap ((adopts level true).dev.jrec (adopts level true).mem)).getLast? =
      some endRecord := by
  have hw : ((blankCheckpoint 0xB00000000).wrBytes 0xB00000000 (bytesLE 4 1 ++ bytesLE 1 level)).wf = true := Memory.wrBytes_wf _ _ (crcsInto_wf _ _ rfl)
  have hb : (adopter true).dev.n Od.JOURNAL_BASE 0 = 0xC00000000 := by decide
  have hr : (adopter true).dev.journalRoom = 1 := by decide
  have hd : (adopts level true).dev = (adopter true).dev := by rw [adopts]
  have g : (adopts level true).mem.rdBytes 0xC00000000 160 = endRecord := by
    have h := Memory.rdBytes_wrBytes_same 0xC00000000 endRecord hw
    have e : endRecord.length = 160 := by decide
    rw [e] at h
    rw [adopts, h]
  have r : (adopter true).dev.jrec (adopts level true).mem 0 = some endRecord := by
    unfold Dev.jrec
    rw [hr, hb, Nat.mul_zero, Nat.add_zero, g]
    exact if_pos (by decide)
  have one (f : Nat → Option (List Byte)) (h : f 0 = some endRecord) : ((List.range 1).filterMap f).getLast? = some endRecord := by
    simp [List.range_succ, h]
  rw [hd, hr]
  exact one _ r

/-- A checkpoint of version 1 whose first CRC is wrong. -/
def adoptsBad : State := { adopter false with mem := wrongHead.wrBytes 0xB00000000 (bytesLE 4 1) }

theorem adoptsBad_bad : adoptsBad.dev.checkpointGood adoptsBad.mem = false := by
  refine wrongHead_bad (by decide) (by decide) fun x n h => ?_
  rw [adoptsBad, Memory.rdBytes_wrBytes_other _ _ _ (by right; simp; omega)]

theorem adoptsBad_head : ofBytesLE (adoptsBad.mem.rdBytes 0xB00000000 4) = 1 := by
  have h := Memory.rdBytes_wrBytes_same (m := wrongHead) 0xB00000000 (bytesLE 4 1) (Memory.wr_wf _ _ rfl)
  rw [bytesLE_length] at h
  rw [adoptsBad, h]
  decide

theorem wit_ReplacementAndRelearning_adopt :
    ∀ record ∈ [true, false], ready (adopter record) = true ∧ (adopter record).clk.c = 0 ∧ plainWords (adopter record).dev = true ∧
      (adopter record).dev.dictPoison = [] ∧ (adopter record).dev.viewWrites = [] ∧ (adopter record).dev.gpend = [] ∧
      (adopter record).dev.n Od.JOURNAL_STATE 0 = 0 ∧ (adopter record).dev.n Od.JOURNAL_CHECKPOINT_BASE 0 = 0xB00000000 ∧
      (adopter record).dev.n Od.DEVICE_BEHAVIOUR_LEVEL 0 = 1 ∧ (adopter record).dev.journalRoom = (if record then 1 else 0) ∧
      jtype endRecord = 6 := by decide
/-- Port 8 in service, classes 0 and 7 with thresholds and PAUSE on. -/
def asking (more : List (Obj × Nat × Nat × Int)) : State :=
  { clk := { tick := 9, raw := 460800 }, dev := dv ([(Od.PORT_LINK_STATE, 8, 0, 2), (Od.PORT_ACTIVE_LANES, 8, 0, 1), (Od.PORT_FLOW_MODE, 8, 0, 1),
    (Od.PORT_FLOW_TX_ENABLE, 8, 0, 0x81), (Od.PORT_FLOW_XOFF, 8, 0, 9), (Od.PORT_FLOW_XOFF, 8, 7, 9), (Od.PORT_FLOW_TX_REFRESH, 8, 0, 4)] ++ more) }
def b1 : State := asking [(Rg.ASSERTED, 8, 0, 0x80), (Rg.FLOW_LAST, 8, 7, 6)]
def b2 : State := asking [(Rg.ASSERTED, 8, 0, 0x80), (Rg.FLOW_LAST, 8, 7, 7)]
def b3 : State := { b1 with dev := b1.dev.put Rg.CHG_PHASE 8 3 }

theorem wit_BoundariesPass :
    k0.halted = false ∧ noOsc.halted = true ∧ (.laneWakeEnd 8 : Instr).wf = true ∧ ofCrust (.laneWakeEnd 8) = false ∧
    (∀ s ∈ [b1, b2, b3], ready s = true ∧ s.dev.inService 8 = true ∧ s.dev.maint = false ∧ s.dev.n Od.PORT_FLOW_MODE 8 = 1 ∧ plainWords s.dev = true) ∧
    (∀ s ∈ [b1, b3], ((s.dev.flowClasses 8).filter fun c => bit (s.dev.n Rg.ASSERTED 8) c &&
      decide (s.dev.n Rg.FLOW_LAST 8 c + s.dev.n Od.PORT_FLOW_TX_REFRESH 8 ≤ s.clk.tick + 1)) = [7]) ∧
    ((b2.dev.flowClasses 8).filter fun c => bit (b2.dev.n Rg.ASSERTED 8) c &&
      decide (b2.dev.n Rg.FLOW_LAST 8 c + b2.dev.n Od.PORT_FLOW_TX_REFRESH 8 ≤ b2.clk.tick + 1)) = [] ∧
    b1.dev.mayLeave b1.clk { kind := .control, unit := 8, vals := [1, 65535] } = true ∧
    b3.dev.mayLeave b3.clk { kind := .control, unit := 8, vals := [1, 65535] } = false := by decide
def inTick : State := { k0 with clk := { k0.clk with c := 5 }, pending := [.laneWakeEnd 8] }

theorem wit_StepKeepsStateOk : stateOk inTick = true ∧ stateOk { k0 with pending := [.tickBoundary [] []] } = true ∧
    goesOn (step inTick) = true := by decide

theorem wit_CommandsGoOnExactlyWhereAddressed :
    (.refillComplete 0xFFFFFFFFF 0 : Instr).addressed = true ∧ (.refillComplete 0x1000000000 0 : Instr).addressed = false ∧
    (.refillComplete 0x800000000 0 : Instr).addressed = true ∧ (.refillComplete 0x800000000 0 : Instr).wf = false ∧
    (.hbmCorrectionCollect [] [0x1000000000] : Instr).addressed = false := by decide

/-- View 3 in HOLDOVER. -/
def gnHeld : State := one 7 [(Od.TIME_VIEW_STATE, 3, 2)]

theorem wit_HoldoverEndsByAnIncrement :
    ready gnHeld = true ∧ gnHeld.clk.c = 0 ∧ gnHeld.dev.n Od.TIME_VIEW_STATE 3 = 2 ∧ gnHeld.dev.timeBarred 3 = false ∧ incOk 2748779069441 = true ∧
      k0.dev.n Od.TIME_VIEW_STATE 3 = 0 := by decide

theorem wit_DefaultActionWrites :
    (ready k0 = true ∧ k0.clk.c = 0 ∧ plainWords k0.dev = true ∧ k0.dev.dictPoison = [] ∧ k0.dev.viewWrites = [] ∧ k0.dev.gpend = [] ∧
      k0.dev.n Od.JOURNAL_STATE 0 ≠ 2 ∧ k0.dev.portExists 8 = true) ∧
    5 ≤ bits (ofBytesLE ((bytesLE 8 (5 * 2 ^ 60)).take 8)) 63 60 ∧ bits (2 ^ 62 + 127) 63 60 < 5 := by decide

/-- Words as R158 and R153 lay them out: REDIRECT to port 5, written at port 8. -/
theorem test_default_action : gives (exec (.objectWrite 0x3480 8 1 0 (bytesLE 8 (2 * 2 ^ 60) ++ bytesLE 8 (5 * 2 ^ 44))) k0) fun t =>
    t.dev.n Od.CLASS_DEFAULT_ACTION 8 0 == 2 * 2 ^ 60 && t.dev.n Od.CLASS_DEFAULT_ACTION 8 1 == 5 * 2 ^ 44 := by decide +kernel

/-- For each kind of unit (R5), a command that names one the device has not, which the check of commands refuses. -/
theorem test_units_checked : ∀ c ∈ ([.refclkComparison 8 true 0, .portEnable 1024, .octetConfigChange 128 0 0 0, .eyeScan 1024 0 0, .pauseTimerExpiry 1023 8,
    .pauseTimerExpiry 1024 7, .refillComplete 0x800000000 0, .creditStall 16384, .poolQuarantine 1048576, .streamGateListChange 256, .holdoverEntry 4,
    .refBEdge 9 0 0, .refBEdge 8 0 64, .ppsOutPulse 8, .watchClear 65536, .heartbeatTimeout 8 0, .heartbeatTimeout 7 3, .timeReq 1023 0 64, .sweepVisit 256,
    .frerResetTimer 65536, .classSwap 2, .writeBack 8 8 0, .scrubAccess 1 7 0 [], .hbmCorrectionCollect [] [0x1000000000], .emRetire 4194304, .pulseStart 64,
    .epochStall 8, .challengeTimeout 16, .snapshotTimeout 15 8, .arpRequest 2 [], .ringEnable 16, .injectedFrameEntry 64, .pipelineFlush 64,
    .fecCodewordDecoded 1023 [(1024, 1)] false, .hostLinkUp 6 4, .hostLinkUp 5 3, .msixUnmask 64] : List Instr), c.wf = false := by decide
/-- The check value of the CRC-32 of R94. -/
theorem test_crc32 : crc32 [0x31, 0x32, 0x33, 0x34, 0x35, 0x36, 0x37, 0x38, 0x39] = 0xCBF43926 := by decide +kernel

/-- The SHA-256 of the three bytes "abc", the example of FIPS 180-4 (R557). -/
theorem test_sha256 : sha256 [0x61, 0x62, 0x63] =
    bytesBE 32 0xBA7816BF8F01CFEA414140DE5DAE2223B00361A396177A9CB410FF61F20015AD := by decide +kernel

/-- R42, R361: the first boundary after reset. -/
theorem test_boundary : gives (exec (.tickBoundary [] []) State.reset) fun t => t.clk == { tick := 1, len := 800, c := 0, raw := 51200 } := by decide +kernel

/-- R67, R678: signal detection is the first step of bring-up done. -/
theorem test_signal : gives (exec (.signalDetect 8) l1) fun t => t.dev.n Rg.UP_STEPS 8 == 1 := by decide +kernel

/-- R118: a good frame of 64 bytes counts one frame and 64 bytes; one of 63 is a runt (R91). -/
theorem test_good_frame : gives (exec (.frameEnd 8 false) (atMac goodRx)) fun t =>
    t.dev.n Od.PORT_RX_GOOD 8 0 == 1 && t.dev.n Od.PORT_RX_GOOD 8 1 == 64 := by decide +kernel
theorem test_runt : gives (exec (.frameEnd 8 false) (atMac runtRx)) fun t =>
    t.dev.n Od.PORT_RX_RUNTS 8 0 == 1 && t.dev.n Od.PORT_RX_RUNTS 8 1 == 63 && t.dev.rx.isEmpty := by decide +kernel

/-- R366, R367: an increment write changes the rate, not the reading; a step moves the reading by as much. -/
theorem test_increment : gives (exec (.timeViewIncrement 3 2746030290371) v1) fun t =>
    (t.dev.viewSet 3).inc == 2746030290371 && (t.dev.viewSet 3).at v1.clk.raw == (v1.dev.viewSet 3).at v1.clk.raw := by decide +kernel
theorem test_step : gives (exec (.timeViewStep 3 (-7)) v1) fun t =>
    ((t.dev.viewSet 3).at v1.clk.raw : Int) + 7 == (v1.dev.viewSet 3).at v1.clk.raw := by decide +kernel

/-- R201, R202: a record of the batch inserts in the bucket's first free way; the command is done. -/
theorem test_insert : gives (exec .emInsert e1) fun t =>
    t.dev.emPend == [{ pos := e1.dev.emBase ky, key := setBit ky 63, result := 2 ^ 43 }] && t.dev.n Od.EM_CMD_BATCH 0 34 == 1 := by decide +kernel

/-- R163: words of a slot land at its OFFSET, which moves on; a slot that is CURRENT takes none (refusal 1). -/
theorem test_slot_data : gives (exec (.slotDataWrite 1 [1, 2, 3, 4, 5, 6, 7, 8]) z2) fun t =>
    t.dev.n Od.CLASS_SLOT_OFFSET 1 == 393216 && t.dev.treeWord 1 393215 == 0x0807060504030201 := by decide +kernel
theorem test_slot_refused : gives (exec (.slotDataWrite 1 [1, 2, 3, 4, 5, 6, 7, 8]) z3) fun t => t.dev.n Od.CLASS_SLOT_LAST_REFUSAL 1 == 1 := by decide +kernel

/-- R640: loss of the oscillator stops the dies, its return lets them start. -/
theorem test_osc : gives (exec (.oscLoss 3) busy) fun t => t.halted && gives (exec .oscRestored t) fun u => !u.halted := by decide +kernel

/-- R644: a step of at most 5 mV towards the target. -/
theorem test_avs : gives (exec (.avsStep true 0 0) (avs [])) fun t => t.dev.n Od.POWER_AVS_SETPOINT 0 == 725 := by decide +kernel

end Sys2Proof.Tests
end

namespace Sys2Proof.Machine
open Sys2Proof.Safety

/-- An empty store reads every element's default (R19). -/
theorem Store.rd_nil (o : Obj) (i e : Nat) : Store.rd [] o i e = o.default i e := rfl

/-- With no parameter set kept, a view has that of the reset (R365). -/
theorem Dev.viewSet_of_views_nil {d : Dev} (h : d.views = []) (v : Nat) : d.viewSet v = { view := v } := by
  simp [Dev.viewSet, Dev.viewSets, h]

/-- With no element away from its default every number reads its default. -/
theorem Dev.n_of_objs_nil {d : Dev} (h : d.objs = []) (o : Obj) (i e : Nat) : d.n o i e = (o.default i e).toNat := by
  simp [Dev.n, Dev.get, h, Store.rd_nil]

/-- Settles O2: the reset state has an empty store, so each element reads its default, and no set of a view. -/
theorem resetState : Obligations.ResetState := by
  refine ⟨rfl, rfl, rfl, rfl, rfl, Store.rd_nil, rfl, fun v _ => ?_, rfl, rfl⟩
  rw [Dev.viewSet_of_views_nil rfl]
  exact ⟨rfl, rfl, rfl, Dev.n_of_objs_nil rfl _ _ _⟩

end Sys2Proof.Machine

/-! SUPPORT. Every form of a meaning answers a next state with the queue as it stood, and changes nothing where its units do not exist. -/
namespace Sys2Proof.Machine

open Sys2Proof.Safety

/-- An answer o of a command in state s is a next state with the same queue; where the device has not the units named, it is s but for its output. -/
def State.answers (s : State) (units : Bool) (o : Host.Outcome State Fault Refusal) : Prop :=
  (∃ t, o = .next t ∧ t.pending = s.pending) ∧ (units = false → o = .next s.quiet)

theorem State.answers_quiet (s : State) (units : Bool) : s.answers units (.next s.quiet) := ⟨⟨_, rfl, rfl⟩, fun _ => rfl⟩

/-- Where every unit a command may name exists, any next state with the same queue will do. -/
theorem State.answers_next {s t : State} (h : t.pending = s.pending) : s.answers true (.next t) := ⟨⟨t, rfl, h⟩, nofun⟩

/-- A command that names no unit names none the device has not. -/
theorem all_units {ok : Bool} : true = false → ok = false := nofun

theorem State.answers_ite {s : State} {units : Bool} {c : Prop} [Decidable c] {a b : Host.Outcome State Fault Refusal} (ha : s.answers units a)
    (hb : s.answers units b) : s.answers units (if c then a else b) := by split <;> assumption

theorem State.runAll_answers (s : State) (f : Clk → Memory → Dev → Clk × Memory × Dev) : s.answers true (s.runAll f) := State.answers_next rfl

theorem State.runCrust_answers (s : State) (f : Clk → Dev → Dev) : s.answers true (s.runCrust f) := State.answers_next rfl

theorem State.run_answers (s : State) (f : Clk → Dev → Dev) : s.answers true (s.run f) :=
  State.answers_ite (s.answers_quiet true) (s.runCrust_answers f)

/-- A meaning that acts only where `ok` holds, which is not where its units do not exist. -/
theorem State.runIf_answers (s : State) {units ok : Bool} (h : units = false → ok = false) (f : Clk → Dev → Dev) : s.answers units (s.runIf ok f) := by
  cases ok with
  | false => exact s.answers_quiet units
  | true => rw [show units = true by simpa using h]; exact s.run_answers f

theorem State.runM_answers (s : State) {units ok : Bool} (h : units = false → ok = false) (f : Clk → Memory → Dev → Memory × Dev) :
    s.answers units (s.runM ok f) := by
  cases ok with
  | false => rw [State.runM_none s rfl]; exact s.answers_quiet units
  | true =>
    rw [show units = true by simpa using h]
    exact State.answers_ite (s.answers_quiet true) (State.answers_next rfl)

theorem State.row_answers (s : State) {units ok : Bool} (h : units = false → ok = false) (ws : List WriteOp)
    (f : Clk → Memory → Dev → Memory × Dev) : s.answers units (s.row ok ws f) := s.runM_answers h _

theorem State.rowD_answers (s : State) {units ok : Bool} (h : units = false → ok = false) (ws : List WriteOp) (f : Clk → Dev → Dev) :
    s.answers units (s.rowD ok ws f) := s.row_answers h ws _

theorem State.rowAny_answers (s : State) (w : WriteOp) : s.answers true (s.rowAny w) := s.row_answers all_units _ _

/-- The passing of a clock takes no command. -/
theorem State.pass_pending (s : State) : s.pass.pending = s.pending := by unfold State.pass; split <;> rfl

theorem State.inTurn_answers (s : State) {units ok : Bool} (h : units = false → ok = false) (late : Clk → Dev → Bool)
    (f : Clk → Memory → Dev → Memory × Dev) : s.answers units (s.inTurn ok late f) := by
  cases ok with
  | false => simpa [State.inTurn] using s.answers_quiet units
  | true =>
    rw [show units = true by simpa using h]
    have later : (s.quiet.pass.act f).pending = s.pending := s.quiet.pass_pending
    exact State.answers_ite (s.answers_quiet true)
      (State.answers_ite (State.answers_next rfl) (State.answers_ite (State.answers_next later) (s.answers_quiet true)))

theorem State.request_answers (s : State) (entry : Nat) (f : Clk → Memory → Dev → Dev) : s.answers true (s.request entry f) := by
  refine State.answers_ite (s.answers_quiet true) (State.answers_next ?_)
  show State.pending (if _ then _ else _) = _
  split
  · exact s.quiet.pass_pending
  · rfl

/-- Two units of which the device has not both. -/
theorem below_both {a b m n : Nat} (h : (below a m && below b n) = false) : decide (a < m ∧ b < n) = false := by simpa [below] using h

theorem pin_and_sub {pin sub : Nat} (h : (below pin 9 && below sub 64) = false) : decide (pin ≤ 8 ∧ sub < 64) = false := by
  simpa [below, Nat.lt_succ_iff] using h

theorem and_of_units {units more : Bool} (h : units = false) : (units && more) = false := by simp [h]

/-- A command that names addresses of HBM alone: the answer where they exist, and the fault where one does not (R5, R37). -/
theorem exec_refillComplete (addr fails : Nat) (s : State) :
    (hbmAddr addr = true → s.answers (decide (addr < 0x800000000)) (exec (.refillComplete addr fails) s)) ∧
      (hbmAddr addr = false → exec (.refillComplete addr fails) s = .fault .noSuchAddress) := by
  have e : exec (.refillComplete addr fails) s = if addr < hbmBytes then s.runIf (decide (addr < 0x800000000)) fun k d => d.refillCell k addr fails
      else .fault .noSuchAddress := rfl
  rw [e]
  constructor <;> intro h
  · rw [if_pos (by simpa [hbmAddr, hbmBytes] using h)]; exact s.runIf_answers id _
  · rw [if_neg (by simpa [hbmAddr, hbmBytes] using h)]

theorem exec_hbmCorrectionCollect (counts bad : List Nat) (s : State) :
    (bad.all hbmAddr = true → s.answers true (exec (.hbmCorrectionCollect counts bad) s)) ∧
      (bad.all hbmAddr = false → exec (.hbmCorrectionCollect counts bad) s = .fault .noSuchAddress) := by
  have e : exec (.hbmCorrectionCollect counts bad) s = if bad.all hbmAddr then s.run fun _ d => d.collectHbm counts bad else .fault .noSuchAddress := rfl
  rw [e]
  constructor <;> intro h
  · rw [if_pos h]; exact s.run_answers _
  · rw [h]; rfl

theorem exec_warmReset (cause : Nat) (s : State) : s.answers true (exec (.warmReset cause) s) :=
  State.answers_ite (s.row_answers all_units _ _) (s.runM_answers all_units _)

/-- What exec answers of every command all whose HBM addresses exist: the commands by the form of their meaning. -/
theorem exec_answers (c : Instr) (s : State) (h : c.addressed = true) : s.answers c.wf (exec c s) := by
  cases c with unfold exec
  | refillComplete addr fails => exact (exec_refillComplete addr fails s).1 h
  | hbmCorrectionCollect counts bad =>
    rw [show (Instr.hbmCorrectionCollect counts bad).wf = true from h]
    exact (exec_hbmCorrectionCollect counts bad s).1 h
  | warmReset cause => exact exec_warmReset cause s
  | tickBoundary | replayLoadEnd => exact State.answers_ite (s.answers_quiet true) (s.runAll_answers _)
  | refclkComparison | autoNegotiationComplete | linkTrainingComplete | pcsLock | bringUpTimeout | linkLoss | linkRestart | eyeScan | shedHelloSend
  | peerCapableTimeout | shedWindowEnd | restoreWindowEnd | shedHelloReceived | shedRequestReceived | shedAcceptReceived | shedRefuseReceived
  | shedSwitchedReceived | restoreNowReceived | shedBadFrame | shedRequestTimeout | changeoverHoldStart | changeoverHoldEnd | laneWakeEnd
  | frameReception | flowControlRefresh | frameEnd | tailCheck | pauseFrameReceived | pfcFrameReceived | macControlOther | pauseTimerExpiry
  | preemptionVerification | gateClosePreemption | copyLastByte | creditFrameSend | creditFrameReceived | creditStall | holdExpiry | gateListChange
  | streamGateListChange | holdoverEntry | todInMessage | ppsOutPulse | todOutMessage | tioEventNext | watchReport | heartbeat | leaseRequest
  | leaseGrant | leaseRefuse | tableUpdate | tableAck | signature | resyncRequest | resyncDone | sweepVisit | frerResetTimer | classSwap
  | sealCheckEnd | writeBack | scrubAccess | windowClose | pulseStart | pulseEnd | epochStall | challengeTimeout | sessionIdleTimeout | arpRequest
  | neighbourSolicitation | echoRequest | sqTail | cqHead | fetch | deliveryComplete | coalesceTimeout | sorusResetEnd | sorusLinkCrcError
  | signalDetect | fecCodewordDecoded | hostLinkUp | msixUnmask => exact s.runIf_answers id _
  | tioEventEdge | heartbeatTimeout | timeReq | timeResp | snapshotTimeout => exact s.runIf_answers below_both _
  | refBEdge => exact s.runIf_answers pin_and_sub _
  | portEnable | portPark | portUnpark | poolQuarantine | poolUnquarantine | gateConfigInstall | gateConfigCancel | watchClear | slotDataWrite
  | emRetire | ringEnable | ringDisable | sorusResetLogic | sorusResetLanes | pipelineFlush | sorusPark | sorusWake => exact s.rowD_answers id _ _
  | octetConfigChange | timeViewStep | timeViewIncrement | slotSeal => exact s.rowD_answers and_of_units _ _
  | timeViewSet view t => exact s.rowD_answers (fun u => by simp [show ¬ view < 4 by simpa [Instr.wf, below] using u]) _ _
  | refAWrite | voteRelease | matEnable | matRejoin | flipArm | flipDisarm | logClear | ueLogClear | emUnretire | counterWrite | sporeRingReset
  | recClear | perturbLock | perturbClear => exact s.rowD_answers all_units _ _
  | frameHandOff | schedulerChoice | recirculationPass | matDataFrame | free | hand | inject | injectedFrameEntry | fetchDone =>
    exact s.inTurn_answers id _ _
  | shadowCompareRange => exact s.runM_answers id _
  | captureJob | dumpDue | dumpComplete | hbmReadData | checkpointDone | journalFull | journalTrigger | replayFrameEntry | replayEnd
  | journalHbmDataRead | pcieHotReset | startUp | replayFlowRecord | stashDone => exact s.runM_answers all_units _
  | stash | refBLabelTimeout | referenceVote | captureNext | heartbeatSend | leaseCollectEnd | leaseRenewalSend | leaseEnd | leaseClaim
  | masterlessTimeout | syncRecordApply | signatureSend | timeReqSend | timeRespTimeout | learningExecute | sweepPassStart | emInsert | emDelete
  | emRead | emReplace | emSearch | emFlush | emBatchDone | accumulatorClose | recordWrite | recClearDone | recWindow | journalCleanStart
  | helloLockoutEnd | windowAck | hostLinkDown | pciePerst | idleExit | recoveryStart | recoveryWindowEnd | isolationEntry | temperatureSample
  | pmbAlert | avsStep | avsRetry | avsReadback | ageSampleStart | ageSampleEnd | vminTest | plannerDecision | busMasterEnableChange | claimRetry
  | bluntoakHello | bluntoakOpen | bluntoakClose | rcRead => exact s.run_answers _
  | shadowDataWrite => exact s.row_answers all_units _ _
  | journalStart | journalStartWhenClean | journalStop | replayStart | journalHbmDataWrite | dictKeyWrite | planRelearn
  | replaceMaintain | replaceAdopt | objectWrite => exact s.rowAny_answers _
  | opRead | opWrite | opWriteSeg | opReadSeg | groupBegin | groupCommit | groupAbort | opDescribe | windowDoorbell => exact s.request_answers _ _
  | powerOnReset | coldReset | oscLoss => exact s.runAll_answers _
  | operatingSecond | oscRestored => exact s.runCrust_answers _

/-- A command that names an HBM address the device has not stops the step (R5, R37). -/
theorem exec_unaddressed (c : Instr) (s : State) (h : c.addressed = false) : exec c s = .fault .noSuchAddress := by
  cases c with
  | refillComplete addr fails => exact (exec_refillComplete addr fails s).2 h
  | hbmCorrectionCollect counts bad => exact (exec_hbmCorrectionCollect counts bad s).2 h
  | _ => cases h

/-- Settles O4, by the forms of the commands' meanings. -/
theorem commandsGoOnExactlyWhereAddressed : Obligations.CommandsGoOnExactlyWhereAddressed :=
  fun c s => ⟨fun h => (exec_answers c s h).1, exec_unaddressed c s, fun h => (exec_answers c s h).2⟩

end Sys2Proof.Machine

namespace Sys2Proof.Machine
open Sys2Proof.Safety

/-- What a filter that takes out a key leaves lists nothing under it. -/
theorem Store.find_filter_none (st : Store) (p : Nat × Int → Bool) (k : Nat) (h : ∀ v, p (k, v) = false) : Store.find (st.filter p) k = none := by
  induction st with
  | nil => rfl
  | cons x t ih =>
    obtain ⟨a, w⟩ := x
    rw [List.filter_cons]
    split
    · rename_i hx
      have : a ≠ k := by rintro rfl; simp [h w] at hx
      simp [Store.find, this, ih]
    · exact ih

/-- An element that a reset keeps reads as before it (R17). -/
theorem Dev.get_resetClear_kept (d : Dev) {kind cause : Nat} {o : Obj} {i e : Nat} (h : resetKeeps kind cause (o.key i e) = true) :
    (d.resetClear kind cause).get o i e = d.get o i e := by
  simp only [Dev.get, Store.rd, Dev.resetClear]
  rw [Store.find_filter _ _ _ fun _ => h]

/-- One that it does not keep reads its default. -/
theorem Dev.get_resetClear_default (d : Dev) {kind cause : Nat} {o : Obj} {i e : Nat} (h : resetKeeps kind cause (o.key i e) = false) :
    (d.resetClear kind cause).get o i e = o.default i e := by
  simp only [Dev.get, Store.rd, Dev.resetClear]
  rw [Store.find_filter_none _ _ _ fun _ => h]; rfl

/-- A write under another key than k. -/
theorem Dev.get_put_of_key {o q : Obj} {i e j f : Nat} (h : q.key j f ≠ o.key i e) (d : Dev) (v : Nat) : (d.put o i v e).get q j f = d.get q j f :=
  Dev.get_put_other d o q i e j f v h.symm

/-- Beside the level of behaviour, a power-on or cold reset leaves what its clearing leaves (R603). -/
theorem Dev.get_coldClear (d : Dev) (kind cause : Nat) {o : Obj} {i e : Nat} (h : o.key i e ≠ Od.DEVICE_BEHAVIOUR_LEVEL.key 0 0) :
    (d.coldClear kind cause).get o i e = (((d.covers fun _ => true).resetNoted kind cause).resetClear kind cause).get o i e :=
  Dev.get_put_of_key h _ _

/-- A power-on or cold reset keeps the elements that note its kind and its cause. -/
theorem resetKeeps_last : ∀ kc ∈ [(1, 1), (2, 2), (2, 7)],
    resetKeeps kc.1 kc.2 (Od.RESET_LAST_KIND.key 0 0) = true ∧ resetKeeps kc.1 kc.2 (Od.RESET_LAST_CAUSE.key 0 0) = true := by
  decide +kernel

/-- A noted reset reads back as the last (R622). -/
theorem Dev.get_resetNoted_last (d : Dev) (kind cause : Nat) :
    (d.resetNoted kind cause).get Od.RESET_LAST_KIND 0 0 = Od.RESET_LAST_KIND.ty.norm kind ∧
      (d.resetNoted kind cause).get Od.RESET_LAST_CAUSE 0 0 = Od.RESET_LAST_CAUSE.ty.norm cause :=
  ⟨(Dev.get_put_of_key (by decide) _ _).trans (Dev.get_put_same _ _ _ _ _), Dev.get_put_same _ _ _ _ _⟩

/-- The device after a power-on or cold reset of any device d, the dies halted or not (R601, R603). -/
theorem coldStarted_coldClear (s : State) (d : Dev) {kind cause : Nat} (h : (kind, cause) ∈ [(1, 1), (2, 2), (2, 7)]) (halt : Nat) :
    coldStarted kind cause s { s with clk := coldClk, mem := [], dev := (d.coldClear kind cause).put Rg.HALT 0 halt } := by
  obtain ⟨keptKind, keptCause⟩ := resetKeeps_last _ h
  obtain ⟨lastKind, lastCause⟩ := (d.covers fun _ => true).get_resetNoted_last kind cause
  have bounds : kind < 256 ∧ cause < 256 ∧ (kind == 3) = false := by simp at h ⊢; omega
  obtain ⟨kindFits, causeFits, cold⟩ := bounds
  refine ⟨rfl, rfl, rfl, ?_, ?_, rfl, ?_, ?_, ?_⟩
  · simp [emptied, Dev.coldClear, Dev.resetClear, Dev.renew]
  · simp [Dev.coldClear, Dev.resetClear, Dev.renew, cold]
  · rw [Dev.n, Dev.get_put_of_key (by decide), Dev.get_coldClear _ _ _ (by decide), Dev.get_resetClear_kept _ keptKind, lastKind]
    simp only [ObjTy.norm, Od.RESET_LAST_KIND]; omega
  · rw [Dev.n, Dev.get_put_of_key (by decide), Dev.get_coldClear _ _ _ (by decide), Dev.get_resetClear_kept _ keptCause, lastCause]
    simp only [ObjTy.norm, Od.RESET_LAST_CAUSE]; omega
  · intro o i e cleared others
    simp only [List.mem_cons, List.not_mem_nil, or_false, not_or] at others
    obtain ⟨-, -, level, halted⟩ := others
    rw [Dev.get_put_of_key halted, Dev.get_coldClear _ _ _ level, Dev.get_resetClear_default _ cleared]

/-- Whether the dies stand still is what HALT was last put to (R640). -/
theorem n_put_halt (d : Dev) (v : Nat) : (d.put Rg.HALT 0 v).n Rg.HALT 0 = v := Dev.n_put_same _ _ _ _ _ rfl

theorem halted_of_put {t : State} {d : Dev} {v : Nat} (h : t.dev = d.put Rg.HALT 0 v) : t.halted = (v != 0) := by
  rw [State.halted, h, Dev.on, n_put_halt]

/-- Loss of the oscillator while it runs is a cold reset that stops the dies (R640). -/
theorem exec_oscLoss_running (cut : Nat) {s : State} (h : s.dev.n Rg.HALT 0 ≠ 1) :
    exec (.oscLoss cut) s = .next { s with clk := coldClk, mem := [], dev := (((s.dev.silent.recCut s.clk cut).coldClear 2 7).put Rg.HALT 0 1) } := by
  unfold exec; simp [execOscLoss, State.runAll, h]

theorem exec_oscLoss_halted (cut : Nat) {s : State} (h : s.dev.n Rg.HALT 0 = 1) : exec (.oscLoss cut) s = .next s.quiet := by
  unfold exec; simp [execOscLoss, State.runAll, State.quiet, h]

theorem exec_oscRestored_halted {s : State} (h : s.dev.n Rg.HALT 0 = 1) :
    exec .oscRestored s = .next { s with dev := s.dev.silent.put Rg.HALT 0 0 } := by
  unfold exec; simp [execOscRestored, State.runCrust, h]

/-- Settles O52: each reset clears the device that the recorder's end or cut leaves, and puts HALT. -/
theorem powerOnAndColdResets : Obligations.PowerOnAndColdResets := by
  intro s cut waited
  refine ⟨⟨_, rfl, coldStarted_coldClear s _ (by decide) 0, halted_of_put (v := 0) rfl⟩,
    ⟨_, rfl, coldStarted_coldClear s _ (by decide) _, ?_⟩,
    fun running => ⟨_, exec_oscLoss_running cut running, coldStarted_coldClear s _ (by decide) 1, n_put_halt _ 1⟩,
    fun halted => ⟨_, exec_oscLoss_halted cut halted, onlyWrites_of (Dev.wrote_silent _ _)⟩,
    fun halted => ⟨_, exec_oscRestored_halted halted,
      onlyWrites_of (Dev.wrote_put (Dev.wrote_silent _ _) _ _ _ _ (by simp)), halted_of_put (v := 0) rfl⟩⟩
  rw [halted_of_put rfl]
  by_cases still : s.dev.n Rg.HALT 0 = 1 <;> simp [still]

end Sys2Proof.Machine

namespace Sys2Proof.Machine
open Sys2Proof.Safety

/-! SUPPORT. The PCIe window (R573): what it shows next, and a HELLO that comes by it. -/

/-- A cause noted for the next boundary touches no element but its own. -/
theorem Dev.n_cause (d : Dev) (v : Nat) {o : Obj} {i e : Nat} (h : Rg.MSIX_CAUSE.key 0 0 ≠ o.key i e) : (d.cause v).n o i e = d.n o i e :=
  Dev.n_put_other d _ o 0 0 i e _ h

/-- A window with no response waiting stays as it is. -/
theorem Dev.windowNext_nil {d : Dev} (h : d.windowQ = []) : d.windowNext = d := by simp [Dev.windowNext, h]

/-- A window that shows none shows the first of those that wait. -/
theorem Dev.windowNext_cons {d : Dev} {r : List Byte} {l : List (List Byte)} (h : d.windowQ = r :: l) (free : d.on Rg.WINDOW 0 0 = false) :
    d.windowNext = ({ d with windowQ := l, windowResp := r }.put Rg.WINDOW 0 1 0).cause 32 := by simp [Dev.windowNext, h, free]

/-- The window's flag and the DISCARDED mark read back as put. -/
theorem n_put_window (d : Dev) (e v : Nat) : (d.put Rg.WINDOW 0 v e).n Rg.WINDOW 0 e = v := Dev.n_put_same _ _ _ _ _ rfl

theorem n_put_window_other (d : Dev) {e f : Nat} (v : Nat) (h : e ≠ f) : (d.put Rg.WINDOW 0 v e).n Rg.WINDOW 0 f = d.n Rg.WINDOW 0 f :=
  Dev.n_put_other _ _ _ _ _ _ _ _ (Obj.key_ne_elem _ h)

/-- What a window that showed none shows after a response has come to wait: that response. -/
theorem Dev.windowNext_shows {d : Dev} {r : List Byte} {l : List (List Byte)} (h : d.windowQ = r :: l) (free : d.on Rg.WINDOW 0 0 = false) :
    d.windowNext.windowResp = r ∧ d.windowNext.windowQ = l ∧ d.windowNext.n Rg.WINDOW 0 0 = 1 ∧ d.windowNext.sess = d.sess := by
  rw [Dev.windowNext_cons h free]
  exact ⟨rfl, rfl, (Dev.n_cause _ _ (by decide)).trans (n_put_window _ 0 1), rfl⟩

theorem message_ne_nil (kind session seq count : Nat) (body : List Byte) (key : Option (List Byte)) : message kind session seq count body key ≠ [] := by
  simp [message]

/-- A HELLO as the window takes it without tags, of a role and with a largest message (R558, R560). -/
def windowHello (bs : List Byte) : Prop :=
  bs.length = 56 ∧ be bs 2 2 = 56 ∧ be bs 0 1 = 0x11 ∧ be bs 16 1 < 3 ∧ 1024 ≤ be bs 36 2 ∧ be bs 36 2 ≤ 8960

/-- Such a HELLO with no session gets a CHALLENGE of a session in slot 0. -/
theorem Dev.hello_challenges {k : Clk} {d : Dev} {bs : List Byte} (hello : windowHello bs) (tagless : d.on Od.DICT_PCIE_AUTH 0 = false)
    (alone : d.sess = []) :
    ∃ (m : List Byte) (e : Dev), d.hello k 0 0 ([], []) bs = (false, e.answer k 0 0 ([], []) m) ∧ m ≠ [] ∧ e.windowQ = d.windowQ ∧
      e.on Rg.WINDOW 0 0 = d.on Rg.WINDOW 0 0 ∧ e.sess.map (fun y => (y.role, y.entry, y.opened)) = [(be bs 16 1, 0, false)] := by
  obtain ⟨len, -, -, role, least, most⟩ := hello
  have slot : ((List.range 16).find? fun x => !d.sess.any fun y => y.num % 16 == x) = some 0 := by simp [alone]
  have good : ¬ (bs.length ≠ 56 ∨ d.lockedOut k 0 0 ∨ 3 ≤ be bs 16 1 ∨
      (¬ ((0 : Nat) = 0 ∧ !d.on Od.DICT_PCIE_AUTH 0) ∧ !bit (d.n Od.DICT_KEY_SET 0) (be bs 16 1)) ∨ !d.tagGood 0 (d.blob Od.DICT_KEY (be bs 16 1)) bs ∨
      be bs 36 2 < 1024 ∨ 8960 < be bs 36 2) := by
    simp [len, Dev.lockedOut, Dev.tagGood, Dev.tagKey, tagless]; omega
  unfold Dev.hello
  dsimp only
  rw [if_neg good, slot]
  refine ⟨_, _, rfl, message_ne_nil _ _ _ _ _ _, rfl, ?_, ?_⟩
  · exact Dev.on_put_other _ _ _ _ _ _ _ _ (by decide)
  · simp [Dev.freeSeq, Dev.fresh, alone]

/-- With no response under way the window shows the CHALLENGE. -/
theorem Dev.hello_window {k : Clk} {d : Dev} {bs : List Byte} (hello : windowHello bs) (tagless : d.on Od.DICT_PCIE_AUTH 0 = false)
    (alone : d.sess = []) (queue : d.windowQ = []) (free : d.on Rg.WINDOW 0 0 = false) :
    ∃ e : Dev, d.hello k 0 0 ([], []) bs = (false, e) ∧ e.n Rg.WINDOW 0 0 = 1 ∧ e.windowResp ≠ [] ∧ e.windowQ = [] ∧
      e.sess.map (fun y => (y.role, y.entry, y.opened)) = [(be bs 16 1, 0, false)] := by
  obtain ⟨m, e, eq, hm, eQueue, eFree, eSess⟩ := Dev.hello_challenges (k := k) hello tagless alone
  obtain ⟨resp, rest, flag, sess⟩ := Dev.windowNext_shows (d := { e with windowQ := e.windowQ ++ [m] }) (r := m) (l := [])
    (by simp [eQueue, queue]) (eFree.trans free)
  exact ⟨_, eq, flag, fun empty => hm (resp.symm.trans empty), rest, (congrArg (List.map _) sess).trans eSess⟩

/-- The doorbell of such a HELLO (R573): it is not discarded, and the window shows its answer. -/
theorem Dev.submit_hello {k : Clk} {m : Memory} {d : Dev} {bs : List Byte} (hello : windowHello bs) (running : d.entryOpen 0 = true)
    (tagless : d.on Od.DICT_PCIE_AUTH 0 = false) (alone : d.sess = []) (queue : d.windowQ = []) (free : d.on Rg.WINDOW 0 0 = false) :
    let e := d.submit k m bs
    e.n Rg.WINDOW 0 0 = 1 ∧ e.n Rg.WINDOW 0 1 = 0 ∧ e.windowResp ≠ [] ∧ e.windowQ = [] ∧
      e.sess.map (fun y => (y.role, y.entry, y.opened)) = [(be bs 16 1, 0, false)] := by
  obtain ⟨e, eq, flag, resp, rest, sess⟩ := Dev.hello_window (k := k) hello tagless alone queue free
  obtain ⟨len, size, kind, -⟩ := hello
  have taken : d.bluntoak k m 0 0 ([], []) (bs.take (be bs 2 2)) = (false, e) := by
    rw [size, ← len, List.take_length]
    simp [Dev.bluntoak, len, size, kind, eq]
  have submitted : d.submit k m bs = e.put Rg.WINDOW 0 0 1 := by simp [Dev.submit, running, taken]
  rw [submitted]
  exact ⟨(n_put_window_other e 0 (by decide)).trans flag, n_put_window e 1 0, resp, rest, sess⟩

/-- A HELLO by the window's doorbell, with no session and no response under way, is answered in the window (R558, R573). -/
theorem exec_windowDoorbell_hello {s : State} (running : ready s = true) {bs : List Byte} (hello : windowHello bs) (opened : s.dev.entryOpen 0 = true)
    (tagless : s.dev.on Od.DICT_PCIE_AUTH 0 = false) (first : s.dev.now.entry = 0) (alone : s.dev.sess = []) (queue : s.dev.windowQ = [])
    (free : s.dev.on Rg.WINDOW 0 0 = false) :
    ∃ t, exec (.windowDoorbell 1 bs) s = .next t ∧ outsideKept s t ∧ t.dev.n Rg.WINDOW 0 0 = 1 ∧ t.dev.n Rg.WINDOW 0 1 = 0 ∧
      t.dev.windowResp ≠ [] ∧ t.dev.windowQ = [] ∧ (t.dev.sess.map fun y => (y.role, y.entry, y.opened)) = [(be bs 16 1, 0, false)] :=
  ⟨_, State.request_now (ready_halted running) (by omega) _, ⟨rfl, rfl, rfl⟩,
    Dev.submit_hello (d := s.dev.silent) hello opened tagless alone queue free⟩

/-- An acknowledgement with no response waiting frees the window. -/
theorem exec_windowAck_last {s : State} (running : ready s = true) (queue : s.dev.windowQ = []) :
    ∃ t, exec (.windowAck 1) s = .next t ∧ onlyWrites [Rg.WINDOW.key 0 0] s t ∧ t.dev.n Rg.WINDOW 0 0 = 0 :=
  ⟨_, State.run_eq running (Dev.windowNext_nil (d := s.dev.silent.put Rg.WINDOW 0 0 0) queue),
    onlyWrites_of (Dev.wrote_put (Dev.wrote_silent _ _) _ _ _ _ (by simp)), n_put_window _ 0 0⟩

/-- One with responses waiting brings the next. -/
theorem exec_windowAck_next {s : State} (running : ready s = true) {r : List Byte} {l : List (List Byte)} (queue : s.dev.windowQ = r :: l) :
    ∃ t, exec (.windowAck 1) s = .next t ∧ outsideKept s t ∧ t.dev.windowResp = r ∧ t.dev.windowQ = l ∧ t.dev.n Rg.WINDOW 0 0 = 1 := by
  obtain ⟨resp, rest, flag, -⟩ := Dev.windowNext_shows (d := s.dev.silent.put Rg.WINDOW 0 0 0) queue (by simp [Dev.on, n_put_window])
  exact ⟨_, State.run_eq running rfl, ⟨rfl, rfl, rfl⟩, resp, rest, flag⟩

end Sys2Proof.Machine

namespace Sys2Proof.Machine
open Sys2Proof.Safety

/-! SUPPORT. The answers of a management port to requests to its own address (R555). -/

/-- A slice within a byte string, between what goes before and what follows. -/
theorem sliceZ_middle {a b c : List Byte} {o n : Nat} (ha : a.length = o) (hb : b.length = n) : sliceZ (a ++ (b ++ c)) o n = b := by
  subst ha hb; simp [sliceZ]

theorem sliceZ_front {b c : List Byte} {n : Nat} (hb : b.length = n) : sliceZ (b ++ c) 0 n = b := sliceZ_middle (a := []) rfl hb

@[simp] theorem sliceZ_length (bs : List Byte) (o n : Nat) : (sliceZ bs o n).length = n := by simp [sliceZ]

@[simp] theorem bytesBE_length (n v : Nat) : (bytesBE n v).length = n := by simp [bytesBE]

/-- A frame that leaves a management port begins with its bytes; padding and FCS follow. -/
theorem controlFrame_eq (bs : List Byte) : ∃ pad, Dev.mgmtSend.controlFrame' bs = bs ++ pad := by
  refine ⟨List.replicate (max 60 bs.length - bs.length) 0 ++ fcsBytes (sliceZ bs 0 (max 60 bs.length)), ?_⟩
  simp [Dev.mgmtSend.controlFrame', sliceZ]

/-- A command whose answer is one frame from a management port: its bytes, and what follows them. -/
theorem answered_by_frame {s : State} (running : ready s = true) {ok : Bool} (known : ok = true) {f : Clk → Dev → Dev} {e : Nat} (bs : List Byte)
    (sends : f s.clk s.dev.silent = s.dev.silent.mgmtSend e bs) :
    ∃ t pad, s.runIf ok f = .next t ∧ onlyWrites [] s t ∧ t.dev.out = [{ kind := .response, unit := 1 + e, bytes := bs ++ pad }] := by
  obtain ⟨pad, padded⟩ := controlFrame_eq bs
  refine ⟨_, pad, State.runIf_eq running known sends, onlyWrites_of (Dev.wrote_emit (Dev.wrote_silent _ _) _), ?_⟩
  rw [← padded]; rfl

/-- The answer to an ARP request for the port's address, ahead of its padding (RFC 826). -/
def Dev.arpAnswer (d : Dev) (e : Nat) (f : List Byte) : List Byte :=
  sliceZ f 22 6 ++ d.mgmtMac e ++ [0x08, 0x06, 0, 1, 8, 0, 6, 4, 0, 2] ++ d.mgmtMac e ++ d.mgmtV4 e ++ sliceZ f 22 6 ++ sliceZ f 28 4

theorem Dev.arpReply_own {d : Dev} {e : Nat} {frame f : List Byte} (whole : d.mgmtFrame e frame = some f)
    (request : sliceZ f 12 10 = [0x08, 0x06, 0, 1, 8, 0, 6, 4, 0, 1]) (mine : sliceZ f 38 4 = d.mgmtV4 e) (set : d.mgmtV4 e ≠ [0, 0, 0, 0]) :
    d.arpReply e frame = d.mgmtSend e (d.arpAnswer e f) := by
  unfold Dev.arpReply
  rw [whole]
  exact if_pos ⟨request, mine, set⟩

theorem Dev.mgmtV4_length (d : Dev) (e : Nat) : (d.mgmtV4 e).length = 4 := by simp [Dev.mgmtV4, Dev.elems]

theorem Dev.mgmtMac_length (d : Dev) (e : Nat) : (d.mgmtMac e).length = 6 := bytesBE_length 6 _

/-- It goes to the sender, and names the port's address as its own. -/
theorem Dev.arpAnswer_fields (d : Dev) (e : Nat) (f pad : List Byte) :
    sliceZ (d.arpAnswer e f ++ pad) 0 6 = sliceZ f 22 6 ∧ sliceZ (d.arpAnswer e f ++ pad) 28 4 = d.mgmtV4 e := by
  constructor
  · simp only [Dev.arpAnswer, List.append_assoc]
    exact sliceZ_front (sliceZ_length _ _ _)
  · rw [Dev.arpAnswer, List.append_assoc _ _ pad, List.append_assoc _ _ (_ ++ pad), List.append_assoc _ (d.mgmtV4 e)]
    exact sliceZ_middle (by simp [Dev.mgmtMac_length]) (d.mgmtV4_length e)

/-- A request for the port's IPv4 address is answered to its sender (R555, RFC 826). -/
theorem exec_arpRequest {s : State} (running : ready s = true) {e : Nat} (port : e < 2) {frame f : List Byte} (whole : s.dev.mgmtFrame e frame = some f)
    (request : sliceZ f 12 10 = [0x08, 0x06, 0, 1, 8, 0, 6, 4, 0, 1]) (mine : sliceZ f 38 4 = s.dev.mgmtV4 e) (set : s.dev.mgmtV4 e ≠ [0, 0, 0, 0]) :
    ∃ t, exec (.arpRequest e frame) s = .next t ∧ onlyWrites [] s t ∧ (t.dev.out.map fun y => (y.unit, sliceZ y.bytes 0 6, sliceZ y.bytes 28 4)) =
      [(1 + e, sliceZ f 22 6, s.dev.mgmtV4 e)] := by
  obtain ⟨t, pad, run, frameOnly, out⟩ := answered_by_frame running (decide_eq_true port) (f := fun _ d => d.arpReply e frame) (s.dev.arpAnswer e f)
    (Dev.arpReply_own (d := s.dev.silent) whole request mine set)
  obtain ⟨dst, address⟩ := s.dev.arpAnswer_fields e f pad
  exact ⟨t, run, frameOnly, by rw [out, List.map_singleton, dst, address]⟩

/-- A solicitation for the port's IPv6 address is answered (R555, RFC 4861). -/
theorem exec_neighbourSolicitation {s : State} (running : ready s = true) {e : Nat} (port : e < 2) {frame f b : List Byte}
    (whole : s.dev.mgmtFrame e frame = some f) (payload : v6Payload f 58 = some b) (sound : icmp6Ok f b = true) (set : s.dev.mgmtV6 e ≠ List.replicate 16 0)
    (len : 24 ≤ b.length) (kind : be b 0 2 = 0x8700) (hops : be f 21 1 = 255) (mine : sliceZ b 8 16 = s.dev.mgmtV6 e) :
    ∃ t, exec (.neighbourSolicitation e frame) s = .next t ∧ onlyWrites [] s t ∧ t.dev.out.map (·.unit) = [1 + e] := by
  have replies : ∃ bs, s.dev.silent.neighbourReply e frame = s.dev.silent.mgmtSend e bs := by
    unfold Dev.neighbourReply
    rw [show s.dev.silent.mgmtFrame e frame = some f from whole]
    dsimp only
    rw [payload]
    exact ⟨_, if_pos ⟨sound, len, kind, hops, mine, set⟩⟩
  obtain ⟨bs, sends⟩ := replies
  obtain ⟨t, pad, run, frameOnly, out⟩ := answered_by_frame running (decide_eq_true port) (f := fun _ d => d.neighbourReply e frame) bs sends
  exact ⟨t, run, frameOnly, by rw [out]; rfl⟩

/-- A payload of ICMPv6 is no IPv4 packet's. -/
theorem v6Payload_ethertype {f b : List Byte} {next : Nat} (h : v6Payload f next = some b) : be f 12 2 = 0x86DD := by
  unfold v6Payload at h
  dsimp only at h
  split at h
  · rename_i c; exact c.1
  · cases h

/-- An ICMPv6 echo request to the port's address is answered to where it came from (R555, RFC 4443). -/
theorem exec_echoRequest {s : State} (running : ready s = true) {e : Nat} (port : e < 2) {frame f b : List Byte}
    (whole : s.dev.mgmtFrame e frame = some f) (payload : v6Payload f 58 = some b) (sound : icmp6Ok f b = true) (set : s.dev.mgmtV6 e ≠ List.replicate 16 0)
    (len : 8 ≤ b.length) (kind : be b 0 2 = 0x8000) (mine : sliceZ f 38 16 = s.dev.mgmtV6 e) :
    ∃ t, exec (.echoRequest e frame) s = .next t ∧ onlyWrites [] s t ∧ (t.dev.out.map fun y => (y.unit, sliceZ y.bytes 0 6)) =
      [(1 + e, sliceZ f 6 6)] := by
  have replies : ∃ more, s.dev.silent.echoReply e frame = s.dev.silent.mgmtSend e (sliceZ f 6 6 ++ more) := by
    have notV4 : be f 12 2 ≠ 0x0800 := by rw [v6Payload_ethertype payload]; decide
    unfold Dev.echoReply
    rw [show s.dev.silent.mgmtFrame e frame = some f from whole]
    dsimp only
    rw [if_neg notV4, payload]
    dsimp only
    rw [if_pos ⟨sound, len, kind, mine, set⟩, icmp6]
    simp only [List.append_assoc]
    exact ⟨_, rfl⟩
  obtain ⟨more, sends⟩ := replies
  obtain ⟨t, pad, run, frameOnly, out⟩ :=
    answered_by_frame running (decide_eq_true port) (f := fun _ d => d.echoReply e frame) (sliceZ f 6 6 ++ more) sends
  exact ⟨t, run, frameOnly, by rw [out, List.map_singleton, List.append_assoc, sliceZ_front (sliceZ_length _ _ _)]⟩

end Sys2Proof.Machine

namespace Sys2Proof.Machine
open Sys2Proof.Safety

/-! SUPPORT. Reads of scalars that a read clears (R14, R16). -/

/-- The objects whose value at a clock is not the stored one, by index and sub. -/
def reportKeys : List Nat :=
  [0x110001, 0x21400A, 0x380002, 0x400001, 0x400002, 0x400003, 0x400006, 0x400040, 0x400041, 0x400046, 0x401002, 0x401003, 0x401014, 0x402002, 0x402022,
   0x406002, 0x480002, 0x480004, 0x481004, 0x481006, 0x508005, 0x508006, 0x510010, 0x601001, 0x601002, 0x60100B, 0x600001, 0x701002, 0x80000A, 0x804001,
   0x880008, 0x980003, 0x120005, 0xB01008, 0xB01009, 0x100025]

/-- Every other object's value is the stored one. -/
theorem Dev.value_stored (k : Clk) (d : Dev) {o : Obj} (i e : Nat) (h : o.idx * 256 + o.sub ∉ reportKeys) : d.value k o i e = d.get o i e := by
  unfold Dev.value
  split
  case h_37 => rfl
  all_goals
    rename_i reported
    exact absurd (by rw [reported]; decide) h

/-- The scalars of the catalogue that a read clears: numbers, whose value at a clock is the stored one, and whose reads take nothing else along. -/
theorem rc_scalar : ∀ o ∈ Od.all, o.acc = .rc → o.arr = false → o.count = 1 → o.isBytes = false ∧ o.idx * 256 + o.sub ∉ reportKeys ∧
    o.idx * 256 + o.sub ≠ 0x601001 ∧ o.idx * 256 + o.sub ≠ 0x100024 ∧ o.idx * 256 + o.sub ≠ 0x604008 ∧ o.idx * 256 + o.sub ≠ 0x680006 := by
  decide +kernel

/-- With no stored word in error, none of them is poisoned or flipped. -/
theorem plainWords_lists {d : Dev} (h : plainWords d = true) : d.poison = [] ∧ d.flipped = [] := by
  simp only [plainWords, Bool.and_eq_true, List.isEmpty_iff] at h
  exact h.1

/-- A read of such a scalar answers its value at the clock's start and clears it. -/
theorem Dev.readBytes_rc (k : Clk) (m : Memory) {d : Dev} {o : Obj} {i : Nat} (known : o ∈ Od.all) (rc : o.acc = .rc) (scalar : o.arr = false)
    (one : o.count = 1) (plain : plainWords d = true) (copies : d.dictPoison = []) (here : o.ofPort = false ∨ d.portExists i = true) :
    d.readBytes k m o i 0 1 = (0, o.ty.encode (d.past.value k o i 0), d.readCleared o i 0) := by
  obtain ⟨number, -, noViewTime, noOpSeconds, noEventFifo, noCaptureFifo⟩ := rc_scalar o known rc scalar one
  obtain ⟨sound, unflipped⟩ := plainWords_lists plain
  have found : d.counterFound o i [0] = d := by simp [Dev.counterFound, sound, unflipped]
  have good : d.readBad o i = false := by simp [Dev.readBad, Dev.poisoned, copies, sound]
  have present : (o.ofPort && !d.portExists i) = false := by rcases here with h | h <;> simp [h]
  have pop : d.popRead o i = none := by
    unfold Dev.popRead
    split
    · contradiction
    · contradiction
    · rfl
  have done : d.readDone k o i [0] = d.readCleared o i 0 := by
    unfold Dev.readDone
    split
    · contradiction
    · contradiction
    · simp [rc]
  simp [Dev.readBytes, found, good, present, number, pop, done]

/-- What a cleared element reads after: its default with what the clock has added to the value read. -/
theorem Dev.get_readCleared (d : Dev) (o : Obj) (i e : Nat) :
    (d.readCleared o i e).get o i e = o.ty.norm (o.default i e + max 0 (d.get o i e - d.now.was.rd o i e)) :=
  Dev.get_set_same _ _ _ _ _

theorem Dev.wrote_readCleared (d : Dev) (o : Obj) (i e : Nat) : d.wrote [o.key i e] (d.readCleared o i e) := by
  obtain ⟨objs, reads⟩ := Dev.wrote_set (Dev.wrote_refl [o.key i e] d) o i e (o.default i e + max 0 (d.get o i e - d.now.was.rd o i e)) (by simp)
  exact ⟨objs, reads⟩

/-- Such a read as a command: of the device it clears that element alone (R14, R16). -/
theorem exec_rcRead {s : State} (running : ready s = true) {idx inst sub : Nat} {o : Obj} (named : objOf idx sub = some o) (rc : o.acc = .rc)
    (scalar : o.arr = false) (one : o.count = 1) (unit : o.hasInst inst = true) (plain : plainWords s.dev = true) (copies : s.dev.dictPoison = [])
    (here : o.ofPort = false ∨ s.dev.portExists inst = true) :
    ∃ t, exec (.rcRead idx inst sub 0 1) s = .next t ∧ onlyWrites [o.key inst 0] s t ∧
      t.dev.get o inst 0 = o.ty.norm (o.default inst 0 + max 0 (s.dev.get o inst 0 - s.dev.now.was.rd o inst 0)) ∧
      t.dev.out = [{ kind := .response, vals := [idx, 0], bytes := o.ty.encode (s.dev.past.value s.clk o inst 0) }] := by
  have known : o ∈ Od.all := List.mem_of_find?_eq_some named
  obtain ⟨-, stored, -⟩ := rc_scalar o known rc scalar one
  have value : s.dev.silent.past.value s.clk o inst 0 = s.dev.past.value s.clk o inst 0 := by
    rw [Dev.value_stored _ _ _ _ stored, Dev.value_stored _ _ _ _ stored]; rfl
  have read : s.dev.silent.readClear s.clk s.mem idx inst sub 0 1 =
      (s.dev.silent.readCleared o inst 0).emit { kind := .response, vals := [idx, 0], bytes := o.ty.encode (s.dev.past.value s.clk o inst 0) } := by
    simp [Dev.readClear, named, rc, unit, one, Dev.readBytes_rc (d := s.dev.silent) s.clk s.mem known rc scalar one plain copies here, value]
  exact ⟨_, State.run_eq running read, onlyWrites_of (Dev.wrote_emit (Dev.wrote_readCleared s.dev.silent o inst 0) _),
    Dev.get_readCleared s.dev.silent o inst 0, rfl⟩

end Sys2Proof.Machine

namespace Sys2Proof.Machine
open Sys2Proof.Safety

/-! SUPPORT. Byte strings in the store (R12), bits of numbers. -/

theorem bit_eq_testBit (v n : Nat) : bit v n = v.testBit n := by
  rw [Bool.eq_iff_iff]; simp [bit, Nat.testBit_eq_decide_div_mod_eq]

/-- Elements of a byte string written from element n on: those it covers, and the others. -/
theorem Dev.get_setBytes (o : Obj) (i e : Nat) (bs : List Byte) : ∀ (n : Nat) (d : Dev),
    ((bs.zipIdx n).foldl (fun d x => d.set o i x.1.toNat x.2) d).get o i e =
      if n ≤ e ∧ e < n + bs.length then o.ty.norm (bs.getD (e - n) 0).toNat else d.get o i e := by
  induction bs with
  | nil => intro n d; simp
  | cons b bs ih =>
    intro n d
    rw [List.zipIdx_cons, List.foldl_cons, ih]
    rcases Nat.lt_trichotomy e n with before | rfl | after
    · rw [if_neg (by omega), if_neg (by omega), Dev.get_set_other _ _ _ _ _ _ _ _ (Obj.key_ne_elem o (by omega))]
    · simp
    · obtain ⟨j, rfl⟩ := Nat.exists_eq_add_of_lt after
      rw [Dev.get_set_other _ _ _ _ _ _ _ _ (Obj.key_ne_elem o (by omega)), show n + j + 1 - (n + 1) = j by omega, show n + j + 1 - n = j + 1 by omega,
        List.getD_cons_succ, List.length_cons]
      exact if_congr (by omega) rfl rfl

/-- A byte string reads the same where its elements do. -/
theorem Dev.blob_congr {d e : Dev} {o : Obj} {i : Nat} (h : ∀ x, e.get o i x = d.get o i x) : e.blob o i = d.blob o i := by
  simp only [Dev.blob, Dev.n, h]

/-- Writing one changes objects alone. -/
theorem Dev.setBlob_objsOnly (d : Dev) (o : Obj) (i : Nat) (bs : List Byte) : d.objsOnly (d.setBlob o i bs) :=
  Dev.objsOnly_set (Dev.objsOnly_trans (Dev.objsOnly_clearInst (Dev.objsOnly_refl d) o i)
    (Dev.objsOnly_each bs.zipIdx _ (fun e _ _ => Dev.objsOnly_set (Dev.objsOnly_refl e) o i _ _) _)) o i _ _

/-- A BLOB written reads back (R12). -/
theorem Dev.blob_setBlob (d : Dev) {o : Obj} (i : Nat) {bs : List Byte} (blob : o.ty = .blob) (short : bs.length < 65535) :
    (d.setBlob o i bs).blob o i = bs := by
  have length : (d.setBlob o i bs).n o i lenElem = bs.length := by
    simp only [Dev.n, Dev.setBlob, Dev.get_set_same, blob, ObjTy.norm]; omega
  have byte : ∀ e, e < bs.length → BitVec.ofNat 8 ((d.setBlob o i bs).n o i e) = bs.getD e 0 := by
    intro e he
    have fits : (((bs.getD e 0).toNat : Int) % 2 ^ 32).toNat = (bs.getD e 0).toNat := by have := (bs.getD e 0).isLt; omega
    rw [Dev.n, Dev.setBlob, Dev.get_set_other _ _ _ _ _ _ _ _ (Obj.key_ne_elem o (by simp [lenElem]; omega)), Dev.get_setBytes, if_pos (by omega)]
    simp only [blob, ObjTy.norm, Nat.sub_zero, fits, BitVec.ofNat_toNat, BitVec.setWidth_eq]
  refine List.ext_getElem (by simp [Dev.blob, length]) fun e he he' => ?_
  simp only [Dev.blob, List.getElem_map, List.getElem_range]
  rw [byte e he', List.getD_eq_getElem _ _ he']

end Sys2Proof.Machine

namespace Sys2Proof.Machine
open Sys2Proof.Safety

/-! SUPPORT. A write by itself at a boundary (R20, R42, R566): what its healing and journalling leave alone, and the boundary's later steps where it asks for
none of them. -/

/-- What the effects of a write go by besides values is the same: the sessions, what other writes have left half made, whether a flip is armed. -/
structure Dev.SameGround (d e : Dev) : Prop where
  sess : e.sess = d.sess
  views : e.viewWrites = d.viewWrites
  gates : e.gpend = d.gpend
  flip : e.on Od.INTEG_FLIP_ARM 0 = d.on Od.INTEG_FLIP_ARM 0

theorem Dev.SameGround.refl (d : Dev) : d.SameGround d := ⟨rfl, rfl, rfl, rfl⟩

theorem Dev.SameGround.trans {a b c : Dev} (h : a.SameGround b) (g : b.SameGround c) : a.SameGround c :=
  ⟨g.sess.trans h.sess, g.views.trans h.views, g.gates.trans h.gates, g.flip.trans h.flip⟩

theorem Dev.SameGround.put {d e : Dev} (h : d.SameGround e) {o : Obj} {i j v : Nat} (other : o.key i j ≠ Od.INTEG_FLIP_ARM.key 0 0) :
    d.SameGround (e.put o i v j) :=
  ⟨h.sess, h.views, h.gates, (Dev.on_put_other _ _ _ _ _ _ _ _ other).trans h.flip⟩

theorem Dev.SameGround.each {α : Type} (l : List α) {f : Dev → α → Dev} (h : ∀ d x, Dev.SameGround d (f d x)) (d : Dev) : d.SameGround (d.each l f) := by
  induction l generalizing d with
  | nil => exact .refl d
  | cons x l ih => exact (h d x).trans (ih (f d x))

/-- Healing changes the lists of poisoned words alone. -/
theorem Dev.healWrite_sameGround (o : Obj) (w : WriteOp) (d : Dev) : d.SameGround (d.healWrite o w) := by
  unfold Dev.healWrite
  dsimp only
  split
  all_goals
    split
    · exact ⟨rfl, rfl, rfl, rfl⟩
    · split <;> exact ⟨rfl, rfl, rfl, rfl⟩

theorem Dev.jlose_sameGround (k : Clk) (d : Dev) : d.SameGround (d.jlose k) := by
  refine Dev.SameGround.put ?_ (by decide)
  cases d.n Od.JOURNAL_LOST 0 == 0 with
  | false => exact .refl d
  | true => exact Dev.SameGround.put (.refl d) (by decide)

theorem Dev.jput_sameGround (k : Clk) (r : JRec) (d : Dev) : d.SameGround (d.jput k r) := by
  unfold Dev.jput
  split
  · exact ⟨rfl, rfl, rfl, rfl⟩
  · split
    · exact d.jlose_sameGround k
    · have lost := d.jlose_sameGround k
      split
      · exact ⟨lost.sess, lost.views, lost.gates, lost.flip⟩
      · exact ⟨rfl, rfl, rfl, rfl⟩

theorem Dev.jcontrol_sameGround (k : Clk) (type tick clock part : Nat) (head body : List Byte) (d : Dev) :
    d.SameGround (d.jcontrol k type tick clock part head body) := by
  unfold Dev.jcontrol
  split
  · exact d.jput_sameGround k _
  · exact .refl d

/-- The device as the effect of a write finds it: its words whole, itself journalled. -/
def Dev.writeBegun (k : Clk) (o : Obj) (w : WriteOp) (d : Dev) : Dev := (d.healWrite o w).journalWriteOp k w

theorem Dev.writeBegun_sameGround (k : Clk) (o : Obj) (w : WriteOp) (d : Dev) : d.SameGround (d.writeBegun k o w) := by
  refine (d.healWrite_sameGround o w).trans ?_
  unfold Dev.writeBegun Dev.journalWriteOp
  split
  · exact Dev.SameGround.refl _
  · exact Dev.SameGround.each _ (fun d _ => d.jcontrol_sameGround k _ _ _ _ _ _) _

/-- No effect of a write is left half made in a device. -/
def Dev.calm (d : Dev) : Prop := d.viewWrites = [] ∧ ∀ g ∈ d.gpend, g.ct ≠ 0

theorem Dev.SameGround.calm {d e : Dev} (h : d.SameGround e) (c : d.calm) : e.calm := by
  exact ⟨h.views.trans c.1, h.gates ▸ c.2⟩

theorem Dev.objsOnly_calm {d e : Dev} (h : d.objsOnly e) (c : d.calm) : e.calm := by
  obtain ⟨views, gates⟩ := c
  have same : bare e = bare d := h
  have sameViews := congrArg Dev.viewWrites same
  have sameGates := congrArg Dev.gpend same
  exact ⟨sameViews.trans views, fun g hg => gates g ((congrArg (g ∈ ·) sameGates).mp hg)⟩

/-- With no write of a view waiting, step 4 of a boundary does nothing (R42). -/
theorem Dev.applyViewWrites_calm {d : Dev} (h : d.viewWrites = []) (k : Clk) : d.applyViewWrites k = d := by
  unfold Dev.applyViewWrites
  rw [h]
  exact congrArg (fun v => { d with viewWrites := v }) h.symm

/-- With every pending gate list's change time known, none is fixed (R346). -/
theorem Dev.gateFix_calm {d : Dev} (h : ∀ g ∈ d.gpend, g.ct ≠ 0) (k : Clk) : d.gateFix k = d := by
  have none_new : d.gpend.filter (·.ct == 0) = [] := by simpa using h
  unfold Dev.gateFix
  rw [none_new]
  have same : (d.gpend.map fun (g : GPend) => if g.ct = 0 then { g with ct := changeTime g.list ((d.viewSet g.list.view).at k.raw) } else g) = d.gpend :=
    (List.map_congr_left fun g hg => if_neg (h g hg)).trans (List.map_id' _)
  exact congrArg (fun v => { d with gpend := v }) same

/-- A write of the device's objects alone that asks for no swap, no journal start or stop and no reset, and of no tick plan. -/
def WriteOp.asksNothing (w : WriteOp) : Prop :=
  w.idx * 256 + w.sub ∉ [0x340002, 0x900006, 0xC00001, 0x380007, 0x900007, 0x900015, 0xA10002] ∧ w.idx ∉ [0xC010, 0xC020] ∧
    planKey (w.idx * 256 + w.sub) = false

theorem lastOf_other {key : Nat} {w : WriteOp} (h : w.idx * 256 + w.sub ≠ key) : lastOf key [w] = none := by simp [lastOf, h]

/-- The boundary's steps after such a write. -/
theorem Dev.boundaryRest {d : Dev} (c : d.calm) {w : WriteOp} (asks : w.asksNothing) (k : Clk) (m : Memory) :
    ((((d.swapsOf k [w]).applyViewWrites k).gateFix k).startsOf k [w]).resetsOf k [w] m = (m, d) := by
  obtain ⟨keys, units, -⟩ := asks
  simp only [List.mem_cons, List.not_mem_nil, or_false, not_or] at keys units
  obtain ⟨swap, start, reset, -⟩ := keys
  have swaps : d.swapsOf k [w] = d := by rw [Dev.swapsOf, lastOf_other swap]
  have starts : d.startsOf k [w] = d := by rw [Dev.startsOf, lastOf_other start]
  rw [swaps, Dev.applyViewWrites_calm c.1, Dev.gateFix_calm c.2, starts, Dev.resetsOf, lastOf_other reset]
  simp [units]

/-- Its checks leave nothing behind where they pass (R49, R163). -/
theorem Dev.noteCheck_passed {w : WriteOp} (asks : w.asksNothing) (d f : Dev) : d.noteCheck w 0 f = d := by
  simp [Dev.noteCheck, asks.2.2]

theorem objOf_address {idx sub : Nat} {o : Obj} (named : objOf idx sub = some o) : o.idx = idx ∧ o.sub = sub := by
  simpa using List.find?_some named

/-- It applies by its effect, on the device as it has begun (R20). -/
theorem Dev.applyWrite_effect {w : WriteOp} {o : Obj} (asks : w.asksNothing) (named : objOf w.idx w.sub = some o) (k : Clk) (m : Memory) (d : Dev) :
    d.applyWrite k w [w] [] 0 false m = (m, (d.writeBegun k o w).effect k o w [w] [] 0 false) := by
  obtain ⟨keys, -, -⟩ := asks
  obtain ⟨idx, sub⟩ := objOf_address named
  rw [← idx, ← sub] at keys
  simp only [List.mem_cons, List.not_mem_nil, or_false, not_or] at keys
  obtain ⟨-, -, -, shadow, stop, load, adopt⟩ := keys
  rw [Dev.applyWrite, named]
  dsimp only
  split
  · contradiction
  · contradiction
  · contradiction
  · contradiction
  · rfl

/-- Such a write that passes its checks, in a calm device: what its effect leaves. -/
theorem Dev.writeNow_calm {k : Clk} {role : Nat} {w : WriteOp} {o : Obj} {m : Memory} {d e : Dev} (asks : w.asksNothing)
    (named : objOf w.idx w.sub = some o) (pre : w.pre role = 0) (post : d.post w false m d (d.stands w) = 0)
    (effect : (d.writeBegun k o w).effect k o w [w] [] 0 false = e) (c : e.calm) : d.writeNow k role w m = (m, e) := by
  simp [Dev.writeNow, pre, post, Dev.noteCheck_passed asks, Dev.applyWrite_effect asks named, effect, Dev.boundaryRest c asks]

/-- A command that is a write at a boundary answers the device the write leaves. -/
theorem State.rowAny_next {s : State} (running : ready s = true) (boundary : s.clk.c = 0) {w : WriteOp} {e : Dev}
    (h : s.dev.silent.writeNow s.clk 2 w s.mem = (s.mem, e)) : s.rowAny w = .next { s with dev := e.atOpen } := by
  rw [State.rowAny, State.row_next (ready_halted running) boundary rfl, h]

/-- A write that the first checks refuse changes nothing, at a boundary or within a tick (R566). -/
theorem State.rowAny_barred {s : State} (running : ready s = true) {w : WriteOp} (bar : w.pre 2 ≠ 0) :
    ∃ t, s.rowAny w = .next t ∧ onlyWrites [] s t := by
  by_cases boundary : s.clk.c = 0
  · have barred : s.dev.silent.writeNow s.clk 2 w s.mem = (s.mem, s.dev.silent) := by simp [Dev.writeNow, bar]
    exact ⟨_, State.rowAny_next running boundary barred, onlyWrites_of (Dev.wrote_atOpen (Dev.wrote_silent _ _))⟩
  · have barred : s.dev.silent.rowLater s.clk [w] s.mem = s.dev.silent := by simp [Dev.rowLater, bar]
    refine ⟨_, State.row_waits (ready_halted running) boundary rfl _ _, ?_⟩
    rw [barred]
    exact onlyWrites_of (Dev.wrote_silent _ _)


/-! SUPPORT. Writes of a role's key (R562, R577) and of DET.SEED (R58), and a write of an object that takes none. -/

theorem objOf_dictKey : objOf 0x1210 1 = some Od.DICT_KEY := by decide +kernel

theorem objOf_detSeed : objOf 0x1100 0x20 = some Od.DET_SEED := by decide +kernel

theorem objOf_tickNumber : objOf 0x1100 1 = some Od.TICK_NUMBER := by decide +kernel

/-- The write of a role's key. -/
def keyWrite (role : Nat) (key : List Byte) : WriteOp := { idx := 0x1210, inst := role, sub := 1, data := key }

theorem keyWrite_asksNothing (role : Nat) (key : List Byte) : (keyWrite role key).asksNothing := by
  simp only [WriteOp.asksNothing, keyWrite]; decide

theorem keyWrite_object (role : Nat) (key : List Byte) : objOf (keyWrite role key).idx (keyWrite role key).sub = some Od.DICT_KEY := objOf_dictKey

/-- A key of 32 bytes passes the first checks of R566. -/
theorem keyWrite_pre {role : Nat} {key : List Byte} (known : role < 3) (size : key.length = 32) : (keyWrite role key).pre 2 = 0 := by
  rw [WriteOp.pre, keyWrite_object]
  simp [keyWrite, Obj.hasInst, Od.DICT_KEY, WriteOp.role, WriteOp.fits, Obj.isBytes, Obj.limit, size]
  omega

/-- It passes the others in every state of the device. -/
theorem keyWrite_post {key : List Byte} (size : key.length = 32) (role : Nat) (m : Memory) (d a f : Dev) :
    d.post (keyWrite role key) false m a f = 0 := by
  have value (e : Dev) : Dev.valueOk Od.DICT_KEY (keyWrite role key) a e f = true := by simp [Dev.valueOk, Od.DICT_KEY]
  have state : d.stateBar Od.DICT_KEY (keyWrite role key) false m a = 0 := by simp [Dev.stateBar, Od.DICT_KEY]
  rw [Dev.post, keyWrite_object]
  simp only [value, state]
  simp [keyWrite, Od.DICT_KEY, Obj.fixedBytes, Obj.limit, Obj.isBytes, Obj.ofPort, planKey, Dev.timeBar, size]

/-- The device with a role's key in its store and marked set. -/
def Dev.keyed (role : Nat) (key : List Byte) (d : Dev) : Dev :=
  (d.setBlob Od.DICT_KEY role key).put Od.DICT_KEY_SET 0 (d.n Od.DICT_KEY_SET 0 ||| 2 ^ role)

theorem Dev.keyed_objsOnly (role : Nat) (key : List Byte) (d : Dev) : d.objsOnly (d.keyed role key) :=
  Dev.objsOnly_put (d.setBlob_objsOnly Od.DICT_KEY role key) _ _ _ _

theorem Dev.keyed_blob {role : Nat} {key : List Byte} (size : key.length = 32) (d : Dev) : (d.keyed role key).blob Od.DICT_KEY role = key := by
  refine (Dev.blob_congr fun x => ?_).trans (d.blob_setBlob role rfl (by omega))
  refine Dev.get_put_other _ _ _ _ _ _ _ _ ?_
  simp only [Obj.key, Od.DICT_KEY, Od.DICT_KEY_SET]; omega

theorem Dev.keyed_set {role : Nat} (known : role < 3) (key : List Byte) (d : Dev) : bit ((d.keyed role key).n Od.DICT_KEY_SET 0) role = true := by
  rw [bit_eq_testBit, Dev.n, Dev.keyed, Dev.get_put_same]
  have wrapped : (Od.DICT_KEY_SET.ty.norm ((d.n Od.DICT_KEY_SET 0 ||| 2 ^ role : Nat) : Int)).toNat = (d.n Od.DICT_KEY_SET 0 ||| 2 ^ role) % 2 ^ 8 := by
    simp only [Od.DICT_KEY_SET, ObjTy.norm]; omega
  rw [wrapped, Nat.testBit_mod_two_pow, Nat.testBit_or, Nat.testBit_two_pow_self, Bool.or_true, Bool.and_true]
  exact decide_eq_true (by omega)

/-- The effect of the write, where there is no session to close (R562). -/
theorem Dev.effect_key (k : Clk) {d : Dev} (alone : d.sess = []) (role : Nat) (key : List Byte) :
    d.effect k Od.DICT_KEY (keyWrite role key) [keyWrite role key] [] 0 false = d.keyed role key := by
  have written : d.effect k Od.DICT_KEY (keyWrite role key) [keyWrite role key] [] 0 false = d.keyWritten k role 0 key := by
    simp [Dev.effect, Od.DICT_KEY, keyWrite]
  have same : bare (d.keyed role key) = bare d := d.keyed_objsOnly role key
  have kept : (d.keyed role key).sess = [] := (congrArg Dev.sess same).trans alone
  rw [written]
  show (d.keyed role key).each ((d.keyed role key).sess.filter _) _ = _
  rw [kept]
  rfl

/-- A key written at a boundary with no session (R562, R577). -/
theorem exec_dictKeyWrite {s : State} (running : ready s = true) (boundary : s.clk.c = 0) {role : Nat} (known : role < 3) {key : List Byte}
    (size : key.length = 32) (alone : s.dev.sess = []) (c : calm s) :
    ∃ t, exec (.dictKeyWrite role key) s = .next t ∧ outsideKept s t ∧ t.dev.blob Od.DICT_KEY role = key ∧
      bit (t.dev.n Od.DICT_KEY_SET 0) role = true := by
  have ground := s.dev.silent.writeBegun_sameGround s.clk Od.DICT_KEY (keyWrite role key)
  have wrote := Dev.writeNow_calm (m := s.mem) (keyWrite_asksNothing role key) (keyWrite_object role key) (keyWrite_pre known size)
    (keyWrite_post size role _ _ _ _) (Dev.effect_key s.clk (ground.sess.trans alone) role key)
    (Dev.objsOnly_calm (Dev.keyed_objsOnly role key _) (ground.calm c))
  exact ⟨_, State.rowAny_next running boundary wrote, ⟨rfl, rfl, rfl⟩, Dev.keyed_blob size _, Dev.keyed_set known key _⟩

/-- A little-endian number has the bits of its bytes alone (R8). -/
theorem ofBytesLE_lt (bs : List Byte) : ofBytesLE bs < 256 ^ bs.length := by
  induction bs with
  | nil => simp [ofBytesLE]
  | cons b bs ih =>
    have := b.isLt
    simp only [ofBytesLE, List.length_cons, Nat.pow_succ']
    omega

/-- The write of DET.SEED. -/
def seedWrite (data : List Byte) : WriteOp := { idx := 0x1100, inst := 0, sub := 0x20, data := data }

theorem seedWrite_asksNothing (data : List Byte) : (seedWrite data).asksNothing := by
  simp only [WriteOp.asksNothing, seedWrite]; decide

theorem seedWrite_object (data : List Byte) : objOf (seedWrite data).idx (seedWrite data).sub = some Od.DET_SEED := objOf_detSeed

theorem seedWrite_pre {data : List Byte} (size : data.length = 8) : (seedWrite data).pre 2 = 0 := by
  rw [WriteOp.pre, seedWrite_object]
  simp [seedWrite, Obj.hasInst, Od.DET_SEED, WriteOp.role, WriteOp.fits, Obj.isBytes, ObjTy.bytes, size]

/-- Any eight bytes are a seed. -/
theorem seedWrite_post (data : List Byte) (m : Memory) (d a f : Dev) : d.post (seedWrite data) false m a f = 0 := by
  have value (e : Dev) : Dev.valueOk Od.DET_SEED (seedWrite data) a e f = true := by simp [Dev.valueOk, Od.DET_SEED]
  have state : d.stateBar Od.DET_SEED (seedWrite data) false m a = 0 := by simp [Dev.stateBar, Od.DET_SEED]
  have plan : planKey (Od.DET_SEED.idx * 256 + Od.DET_SEED.sub) = false := by decide
  rw [Dev.post, seedWrite_object]
  simp only [value, state, plan]
  simp [Od.DET_SEED, Obj.fixedBytes, Obj.isBytes, Obj.ofPort, Obj.admits, Dev.timeBar]

theorem Dev.store_seed {data : List Byte} (size : data.length = 8) (d : Dev) :
    d.store Od.DET_SEED (seedWrite data) = d.set Od.DET_SEED 0 (ofBytesLE data : Nat) := by
  have elems : (seedWrite data).elems Od.DET_SEED = [(0, ((ofBytesLE data : Nat) : Int))] := by
    simp [WriteOp.elems, seedWrite, Od.DET_SEED, ObjTy.bytes, ObjTy.decode, size, List.take_of_length_le (Nat.le_of_eq size)]
  have kept (old : Int) : Od.DET_SEED.written 0 old (ofBytesLE data : Nat) = (ofBytesLE data : Nat) := by
    simp [Obj.written, Od.DET_SEED, Obj.kept9]
  rw [Dev.store, if_neg (by decide), elems]
  exact congrArg (d.set Od.DET_SEED 0) (kept _)

/-- With no flip armed no word meets one (R469). -/
theorem Dev.flipAny_unarmed {d : Dev} (h : d.on Od.INTEG_FLIP_ARM 0 = false) (mem die : Nat) (o : Obj) (i e : Nat) : d.flipAny mem die o i e = d := by
  simp [Dev.flipAny, Dev.flip, h]

theorem Dev.effect_seed (k : Clk) {d : Dev} (unarmed : d.on Od.INTEG_FLIP_ARM 0 = false) {data : List Byte} (size : data.length = 8) :
    d.effect k Od.DET_SEED (seedWrite data) [seedWrite data] [] 0 false = d.set Od.DET_SEED 0 (ofBytesLE data : Nat) := by
  have stored : d.effect k Od.DET_SEED (seedWrite data) [seedWrite data] [] 0 false =
      (d.store Od.DET_SEED (seedWrite data)).flipAny 7 8 Od.DET_SEED 0 0 := by
    simp [Dev.effect, Od.DET_SEED, seedWrite]
  rw [stored, Dev.store_seed size, Dev.flipAny_unarmed]
  exact (Dev.on_put_other d _ _ _ _ _ _ _ (by decide)).trans unarmed

/-- DET.SEED takes the value at a boundary (R58). -/
theorem exec_seedWrite {s : State} (running : ready s = true) (boundary : s.clk.c = 0) {data : List Byte} (size : data.length = 8) (c : calm s)
    (plain : plainWords s.dev = true) :
    ∃ t, exec (.objectWrite 0x1100 0 0x20 0 data) s = .next t ∧ outsideKept s t ∧ t.dev.n Od.DET_SEED 0 = ofBytesLE data := by
  have unarmed : s.dev.on Od.INTEG_FLIP_ARM 0 = false := by
    simp only [plainWords, Bool.and_eq_true, Bool.not_eq_true'] at plain
    exact plain.2
  have ground := s.dev.silent.writeBegun_sameGround s.clk Od.DET_SEED (seedWrite data)
  have wrote := Dev.writeNow_calm (m := s.mem) (seedWrite_asksNothing data) (seedWrite_object data) (seedWrite_pre size)
    (seedWrite_post data _ _ _ _) (Dev.effect_seed s.clk (ground.flip.trans unarmed) size)
    (Dev.objsOnly_calm (Dev.objsOnly_set (Dev.objsOnly_refl _) _ _ _ _) (ground.calm c))
  refine ⟨_, State.rowAny_next running boundary wrote, ⟨rfl, rfl, rfl⟩, Dev.n_put_same _ _ _ _ _ ?_⟩
  have := ofBytesLE_lt data
  rw [size] at this
  simp only [ObjTy.norm, Od.DET_SEED]; omega

/-- A write of TICK.NUMBER, which is read-only, changes nothing (R14, R566). -/
theorem exec_readOnlyWrite {s : State} (running : ready s = true) (data : List Byte) :
    ∃ t, exec (.objectWrite 0x1100 0 1 0 data) s = .next t ∧ onlyWrites [] s t := by
  refine State.rowAny_barred running ?_
  rw [WriteOp.pre, objOf_tickNumber]
  simp [Od.TICK_NUMBER, Obj.hasInst]

end Sys2Proof.Machine

namespace Sys2Proof.Machine
open Sys2Proof.Safety

/-- Settles O48, row by row of the window, the keys, single objects and the management ports. -/
theorem windowKeysAndReads : Obligations.WindowKeysAndReads := by
  intro s running
  refine ⟨?_, fun queue => exec_windowAck_last running queue, fun r l queue => exec_windowAck_next running queue, ?_, ?_, ?_, ?_⟩
  · rintro bs role opened tagless first len size kind rfl known least most alone queue free
    exact exec_windowDoorbell_hello running ⟨len, size, kind, known, least, most⟩ opened tagless first alone queue free
  · intro role key boundary known size alone c
    exact exec_dictKeyWrite running boundary known size alone c
  · intro data size c plain
    exact ⟨fun boundary => exec_seedWrite running boundary size c plain, exec_readOnlyWrite running data⟩
  · intro idx inst sub o named rc scalar one unit plain copies here
    exact exec_rcRead running named rc scalar one unit plain copies here
  · intro e f frame port whole
    refine ⟨exec_arpRequest running port whole, fun b payload sound set => ⟨?_, ?_⟩⟩
    · exact exec_neighbourSolicitation running port whole payload sound set
    · exact exec_echoRequest running port whole payload sound set

end Sys2Proof.Machine

namespace Sys2Proof.Machine
open Sys2Proof.Safety

/-! SUPPORT. What writes to HBM keeps its canonical form: each operation of the device that answers HBM. -/

/-- A fold of operations each of which keeps the canonical form keeps it. -/
theorem Memory.foldl_wf {α : Type} {f : Memory → α → Memory} (keeps : ∀ m x, m.wf = true → (f m x).wf = true) (l : List α) {m : Memory}
    (h : m.wf = true) : (l.foldl f m).wf = true := by
  induction l generalizing m with
  | nil => exact h
  | cons x l ih => exact ih (keeps m x h)

/-- The same of operations that act on the device besides. -/
theorem Memory.foldl_fst_wf {α : Type} {f : Memory × Dev → α → Memory × Dev} (keeps : ∀ r x, r.1.wf = true → (f r x).1.wf = true) (l : List α)
    {r : Memory × Dev} (h : r.1.wf = true) : (l.foldl f r).1.wf = true := by
  induction l generalizing r with
  | nil => exact h
  | cons x l ih => exact ih (keeps r x h)

/-- A choice between two answers each of which keeps the canonical form. -/
theorem Memory.ite_wf {c : Prop} [Decidable c] {a b : Memory × Dev} (ha : a.1.wf = true) (hb : b.1.wf = true) : (if c then a else b).1.wf = true := by
  split <;> assumption

/-- An answer whose HBM is in the form, whatever the device. -/
theorem Memory.pair_wf {m : Memory} (d : Dev) (h : m.wf = true) : ((m, d) : Memory × Dev).1.wf = true := h

theorem storeOut_wf {m : Memory} (a : Nat) (s : Store) (h : m.wf = true) : (storeOut a s m).wf = true :=
  Memory.foldl_wf (fun _ _ => Memory.wrBytes_wf _ _) s h

theorem bitsOut_wf {m : Memory} (a : Nat) (ps : List Nat) (h : m.wf = true) : (bitsOut a ps m).wf = true :=
  Memory.foldl_wf (fun _ _ => Memory.wr_wf _ _) ps h

theorem Dev.stashDone_wf {m : Memory} (k : Clk) (b : Buf) (d : Dev) (h : m.wf = true) : (d.stashDone k b m).1.wf = true := by
  unfold Dev.stashDone
  split
  · exact Memory.ite_wf (Memory.wrBytes_wf _ _ h) h
  · exact h

theorem Dev.shadowWrite_wf {m : Memory} (k : Clk) (bs : List Byte) (d : Dev) (h : m.wf = true) : (d.shadowWrite k bs m).1.wf = true :=
  Memory.ite_wf h (Memory.wrBytes_wf _ _ h)

theorem Dump.write_wf {m : Memory} (x : Dump) (off : Nat) (bs : List Byte) (d : Dev) (h : m.wf = true) : (x.write off bs m d).1.wf = true :=
  Memory.ite_wf h (Memory.wrBytes_wf _ _ h)

theorem Dev.dumpStart_wf {m : Memory} (k : Clk) (d : Dev) (h : m.wf = true) : (d.dumpStart k m).1.wf = true := by
  unfold Dev.dumpStart
  extract_lets
  refine Memory.ite_wf h ?_
  extract_lets
  exact Dump.write_wf _ _ _ _ h

theorem Dev.dumpEnd_wf {m : Memory} (d : Dev) (h : m.wf = true) : (d.dumpEnd m).1.wf = true := by
  unfold Dev.dumpEnd
  split
  · exact h
  · refine Memory.ite_wf h (Memory.ite_wf h ?_)
    extract_lets
    refine Memory.pair_wf _ (Dump.write_wf _ _ _ _ (Dump.write_wf _ _ _ _ (Memory.ite_wf h ?_)))
    exact Memory.foldl_wf (fun _ _ => Memory.wrBytes_wf _ _) _ (Memory.clear_wf _ _ h)

theorem Dev.captureJob_wf {m : Memory} (k : Clk) (d : Dev) (h : m.wf = true) : (d.captureJob k m).1.wf = true := by
  unfold Dev.captureJob
  split
  · exact h
  · extract_lets
    refine Memory.ite_wf h ?_
    extract_lets
    split
    · exact h
    · refine Memory.ite_wf h ?_
      extract_lets
      refine Memory.ite_wf h ?_
      extract_lets
      exact Memory.pair_wf _ (Memory.wrBytes_wf _ _ h)

theorem Dev.checkpointWrite_wf {m : Memory} (c : Ckpt) (d : Dev) (h : m.wf = true) : (d.checkpointWrite c m).wf = true := by
  unfold Dev.checkpointWrite
  extract_lets
  refine Memory.wrBytes_wf _ _ (storeOut_wf _ _ (storeOut_wf _ _ (bitsOut_wf _ _ (bitsOut_wf _ _ (storeOut_wf _ _ (storeOut_wf _ _ ?_))))))
  exact Memory.clear_wf _ _ h

theorem Dev.checkpointDone_wf {m : Memory} (d : Dev) (h : m.wf = true) : (d.checkpointDone m).1.wf = true := by
  unfold Dev.checkpointDone
  split
  · exact Memory.ite_wf (Memory.pair_wf _ (d.checkpointWrite_wf _ h)) h
  · exact h

theorem Dev.checkpointOut_wf {m : Memory} (d : Dev) (h : m.wf = true) : (d.checkpointOut m).1.wf = true := by
  unfold Dev.checkpointOut
  split
  · exact h
  · exact Memory.pair_wf _ (Memory.foldl_wf (fun _ _ => Memory.wrBytes_wf _ _) _ h)

theorem Dev.journalPut_wf {m : Memory} (bs : List Byte) (d : Dev) (h : m.wf = true) : (d.journalPut bs m).1.wf = true :=
  Memory.pair_wf _ (Memory.wrBytes_wf _ _ h)

theorem Dev.journalWrite_wf (n : Nat) {m : Memory} (d : Dev) (h : m.wf = true) : (d.journalWrite n m).1.wf = true := by
  induction n generalizing m d with
  | zero => exact h
  | succ n ih =>
    unfold Dev.journalWrite
    split
    · exact Memory.ite_wf (ih _ (Dev.journalPut_wf _ _ h)) h
    · exact h

theorem Dev.journalTick_wf {m : Memory} (d : Dev) (h : m.wf = true) : (d.journalTick m).1.wf = true := by
  unfold Dev.journalTick
  refine Memory.ite_wf h ?_
  extract_lets
  exact Dev.journalWrite_wf _ _ h

theorem Dev.journalStop_wf {m : Memory} (k : Clk) (reason : Nat) (d : Dev) (h : m.wf = true) : (d.journalStop k reason m).1.wf = true := by
  unfold Dev.journalStop
  refine Memory.ite_wf h (Memory.ite_wf h ?_)
  extract_lets
  refine Memory.pair_wf _ (Dev.journalPut_wf _ _ (bitsOut_wf _ _ (bitsOut_wf _ _ (Memory.clear_wf _ _ ?_))))
  exact Dev.journalWrite_wf _ _ h

theorem Dev.journalLoad_wf {m : Memory} (bs : List Byte) (d : Dev) (h : m.wf = true) : (d.journalLoad bs m).1.wf = true :=
  Memory.pair_wf _ (Memory.wrBytes_wf _ _ (Memory.ite_wf (d.checkpointOut_wf h) h))

theorem Dev.warmBegin_wf {m : Memory} (k : Clk) (cause : Nat) (d : Dev) (h : m.wf = true) : (d.warmBegin k cause m).1.wf = true := by
  unfold Dev.warmBegin
  extract_lets
  exact Memory.pair_wf _ (Dev.journalStop_wf _ _ _ h)

theorem Dev.resultOut_wf {m : Memory} (k : Clk) (r : List Byte) (o : PipeOut) (d : Dev) (h : m.wf = true) : (d.resultOut k r o m).1.wf = true :=
  Memory.pair_wf _ (Memory.wrBytes_wf _ _ h)

theorem Dev.replayEntry_wf {m : Memory} (k : Clk) (d : Dev) (h : m.wf = true) : (d.replayEntry k m).1.wf = true := by
  unfold Dev.replayEntry
  split
  · exact h
  · extract_lets
    exact Dev.resultOut_wf _ _ _ _ h

/-- A write applies to HBM only as shadow data, journal data or the end of a journal (R206, R524, R534). -/
theorem Dev.applyWrite_wf {m : Memory} (k : Clk) (w : WriteOp) (all rest : List WriteOp) (writer : Nat) (planner : Bool) (d : Dev) (h : m.wf = true) :
    (d.applyWrite k w all rest writer planner m).1.wf = true := by
  unfold Dev.applyWrite
  split
  · exact h
  · dsimp only
    split
    · exact Dev.shadowWrite_wf _ _ _ h
    · exact Memory.ite_wf (Dev.journalStop_wf _ _ _ h) h
    · exact Dev.journalLoad_wf _ _ h
    · exact h
    · exact h

theorem Dev.applyOps_wf (k : Clk) (all : List WriteOp) (writer : Nat) (planner : Bool) (ws : List WriteOp) {m : Memory} (d : Dev) (h : m.wf = true) :
    (Dev.applyOps k all writer planner ws m d).1.wf = true := by
  induction ws generalizing m d with
  | nil => exact h
  | cons w ws ih => exact ih _ (Dev.applyWrite_wf _ _ _ _ _ _ _ h)

theorem Dev.resetsOf_wf {m : Memory} (k : Clk) (ws : List WriteOp) (d : Dev) (h : m.wf = true) : (d.resetsOf k ws m).1.wf = true :=
  Memory.ite_wf (Dev.warmBegin_wf _ _ _ h) h

theorem Dev.writeNow_wf {m : Memory} (k : Clk) (role : Nat) (w : WriteOp) (d : Dev) (h : m.wf = true) : (d.writeNow k role w m).1.wf = true :=
  Memory.ite_wf h (Memory.ite_wf h (Dev.resetsOf_wf _ _ _ (Dev.applyWrite_wf _ _ _ _ _ _ _ h)))

theorem Dev.seedApply_wf (k : Clk) (signed warm : Bool) (r : Memory × Dev) (g : List (Nat × WriteOp)) (h : r.1.wf = true) :
    (Dev.seedApply k signed warm r g).1.wf = true := by
  unfold Dev.seedApply
  dsimp only
  split
  · exact h
  · exact Dev.applyOps_wf _ _ _ _ _ _ h

theorem Dev.startUp_wf {m : Memory} (k : Clk) (a b : List Byte) (vout : Option Nat) (d : Dev) (h : m.wf = true) : (d.startUp k a b vout m).1.wf = true := by
  unfold Dev.startUp
  dsimp only
  split
  · exact h
  · exact Memory.ite_wf (Dev.warmBegin_wf _ _ _ h) (Dev.resetsOf_wf _ _ _ (Memory.foldl_fst_wf (Dev.seedApply_wf _ _ _) _ h))

theorem Dev.tickEnd_wf {m : Memory} (k : Clk) (d : Dev) (h : m.wf = true) : (d.tickEnd k m).1.wf = true := by
  unfold Dev.tickEnd
  extract_lets
  exact Memory.pair_wf _ (Dev.journalTick_wf _ h)

theorem Dev.replayAct_wf (k : Clk) (r : Memory × Dev) (a : JAct) (h : r.1.wf = true) : (Dev.replayAct k r a).1.wf = true := by
  cases a with
  | write w => exact Dev.applyWrite_wf _ _ _ _ _ _ _ h
  | link p st lanes => exact h

theorem Dev.applyStaged_wf (k kk : Clk) (r : Memory × Dev) (s : Staged) (h : r.1.wf = true) : (Dev.applyStaged k kk r s).1.wf = true :=
  Dev.applyOps_wf _ _ _ _ _ _ h

theorem Dev.boundaryWrites_wf {m : Memory} (k : Clk) (slips : List (Nat × Int)) (passed : List (Nat × Nat)) (d : Dev) (h : m.wf = true) :
    (d.boundaryWrites k slips passed m).2.1.wf = true := by
  unfold Dev.boundaryWrites
  extract_lets
  exact Memory.foldl_fst_wf (Dev.applyStaged_wf _ _) _ (Memory.foldl_fst_wf (Dev.replayAct_wf _) _ h)

/-! SUPPORT. The boundary of a tick (R38, R39, R42, R361): the new tick and HBM. -/

/-- A number of clocks that a tick may have (R38). -/
def tickLen (n : Nat) : Prop := n = 799 ∨ n = 800 ∨ n = 801

theorem lengthFor_tickLen (aligned : Bool) (e : Int) : tickLen (lengthFor aligned e) := by
  unfold lengthFor tickLen
  split
  · omega
  · split
    · omega
    · split <;> omega

theorem tickLength_tickLen (n : Nat) : tickLen (tickLength n) := by
  unfold tickLength tickLen
  split <;> omega

/-- The tick that a boundary opens: the next one at its first clock, the raw counter moved on by the old tick. -/
def Clk.follows (k k' : Clk) : Prop := k'.tick = k.tick + 1 ∧ k'.c = 0 ∧ k'.raw = (k.raw + 64 * k.len) % 2 ^ 72 ∧ tickLen k'.len

/-- The length of the new tick is the replay's or that of step 5 of R42. -/
theorem Dev.nextLength_tickLen (k : Clk) (d : Dev) :
    tickLen (if d.replaying then (tickLength (d.n Rg.REPLAY_LEN 0), d) else d.decideLength k).1 := by
  split
  · exact tickLength_tickLen _
  · exact lengthFor_tickLen _ _

theorem Dev.boundary_follows (slips : List (Nat × Int)) (passed : List (Nat × Nat)) (k : Clk) (m : Memory) (d : Dev) :
    k.follows (d.boundary slips passed k m).1 := by
  unfold Dev.boundary
  extract_lets _ _ _ _ _ _ _ l
  have len : tickLen l.1 := Dev.nextLength_tickLen _ _
  clear_value l
  split
  · exact ⟨rfl, rfl, rfl, .inr (.inl rfl)⟩
  · exact ⟨rfl, rfl, rfl, len⟩

theorem Dev.boundary_wf {m : Memory} (slips : List (Nat × Int)) (passed : List (Nat × Nat)) (k : Clk) (d : Dev) (h : m.wf = true) :
    (d.boundary slips passed k m).2.1.wf = true := by
  unfold Dev.boundary
  extract_lets _ _ w
  have written : w.2.1.wf = true := Dev.boundaryWrites_wf _ _ _ _ (Dev.tickEnd_wf _ _ h)
  split
  · exact Dev.resetsOf_wf _ _ _ written
  · exact Dev.resetsOf_wf _ _ _ written

/-! SUPPORT. The forms of a meaning, and the form of each command's: what a command can do is said once, here. -/

/-- What a meaning does to HBM keeps the canonical form. -/
def keepsHbm (f : Clk → Memory → Dev → Memory × Dev) : Prop := ∀ k m d, m.wf = true → (f k m d).1.wf = true

/-- What it does to the timebase and HBM keeps both in order. -/
def keepsAll (f : Clk → Memory → Dev → Clk × Memory × Dev) : Prop :=
  ∀ k m d, clkOk k = true → m.wf = true → clkOk (f k m d).1 = true ∧ (f k m d).2.1.wf = true

theorem keepsHbm_untouched (f : Clk → Memory → Dev → Dev) : keepsHbm fun k m d => (m, f k m d) := fun _ _ _ h => h

/-- The answers that command c can have in state s: the work of the crust and the resets, which take place also while the other dies stand still; what the dies
do, which keeps HBM and the timebase in order; the fault of an address that does not exist. -/
inductive State.Meaning (s : State) (c : Instr) : Host.Outcome State Fault Refusal → Prop
  | quiet : s.Meaning c (.next s.quiet)
  | crust (f : Clk → Dev → Dev) : ofCrust c = true → s.Meaning c (s.runCrust f)
  | reset (f : Clk → Memory → Dev → Clk × Memory × Dev) : ofCrust c = true → keepsAll f → s.Meaning c (s.runAll f)
  | dies (f : Clk → Dev → Dev) : s.Meaning c (s.run f)
  | hbm (ok : Bool) (f : Clk → Memory → Dev → Memory × Dev) : keepsHbm f → s.Meaning c (s.runM ok f)
  | timebase (f : Clk → Memory → Dev → Clk × Memory × Dev) : keepsAll f → s.Meaning c (if s.halted then .next s.quiet else s.runAll f)
  | turn (ok : Bool) (late : Clk → Dev → Bool) (f : Clk → Memory → Dev → Memory × Dev) : keepsHbm f → s.Meaning c (s.inTurn ok late f)
  | request (entry : Nat) (f : Clk → Memory → Dev → Dev) : s.Meaning c (s.request entry f)
  | fault : c.wf = false → s.Meaning c (.fault .noSuchAddress)

section
variable {s : State} {c : Instr}

theorem State.Meaning.ite {p : Prop} [Decidable p] {a b : Host.Outcome State Fault Refusal} (ha : s.Meaning c a) (hb : s.Meaning c b) :
    s.Meaning c (if p then a else b) := by split <;> assumption

theorem State.Meaning.units (ok : Bool) (f : Clk → Dev → Dev) : s.Meaning c (s.runIf ok f) := .ite (.dies f) .quiet

theorem State.Meaning.row (ok : Bool) (ws : List WriteOp) {f : Clk → Memory → Dev → Memory × Dev} (keeps : keepsHbm f) : s.Meaning c (s.row ok ws f) := by
  refine .hbm ok _ fun k m d h => ?_
  split
  · exact keeps k m d h
  · exact h

theorem State.Meaning.rowD (ok : Bool) (ws : List WriteOp) (f : Clk → Dev → Dev) : s.Meaning c (s.rowD ok ws f) :=
  .row ok ws (keepsHbm_untouched fun k _ d => f k d)

theorem State.Meaning.rowAny (w : WriteOp) : s.Meaning c (s.rowAny w) := .row true [w] fun k _ d => d.writeNow_wf k 2 w

end

theorem clkOk_iff (k : Clk) : clkOk k = true ↔ tickLen k.len ∧ k.c < k.len ∧ k.raw < 2 ^ 72 := by
  simp [clkOk, tickLen, and_assoc, or_assoc]

theorem clkOk_cold : clkOk coldClk = true := by decide

theorem Clk.follows.clkOk {k k' : Clk} (h : k.follows k') : clkOk k' = true := by
  obtain ⟨-, first, raw, len⟩ := h
  exact (clkOk_iff k').mpr ⟨len, by unfold tickLen at len; omega, by omega⟩

/-- A tick at its first clock may take any length that R38 admits. -/
theorem clkOk_withLen {k : Clk} (h : clkOk k = true) (first : k.c = 0) {n : Nat} (len : tickLen n) : clkOk { k with len := n } = true := by
  obtain ⟨-, -, raw⟩ := (clkOk_iff k).mp h
  have within : k.c < n := by unfold tickLen at len; omega
  exact (clkOk_iff _).mpr ⟨len, within, raw⟩

/-- A device that starts cold: the timebase starts over, HBM lists nothing (R603). -/
theorem keepsAll_cold (f : Clk → Memory → Dev → Dev) : keepsAll fun k m d => (coldClk, [], f k m d) := fun _ _ _ _ _ => ⟨clkOk_cold, rfl⟩

theorem Dev.boundary_keepsAll (slips : List (Nat × Int)) (passed : List (Nat × Nat)) : keepsAll (Dev.boundary slips passed) :=
  fun k m d _ h => ⟨(Dev.boundary_follows slips passed k m d).clkOk, d.boundary_wf slips passed k h⟩

theorem execReplayLoadEnd_meaning (s : State) : s.Meaning .replayLoadEnd (execReplayLoadEnd s) := by
  refine .timebase _ fun k m d clk hbm => ?_
  split
  · rename_i loading
    refine ⟨?_, hbm⟩
    dsimp only
    split
    · exact clkOk_withLen clk loading.2 (tickLength_tickLen _)
    · exact clk
  · exact ⟨clk, hbm⟩

theorem execOscLoss_meaning (s : State) (cut : Nat) : s.Meaning (.oscLoss cut) (execOscLoss cut s) := by
  refine .reset _ rfl fun k m d clk hbm => ?_
  split
  · exact ⟨clk, hbm⟩
  · exact ⟨clkOk_cold, rfl⟩

theorem execRefillComplete_meaning (s : State) (addr fails : Nat) : s.Meaning (.refillComplete addr fails) (execRefillComplete addr fails s) := by
  unfold execRefillComplete
  split
  · exact .units _ _
  · refine .fault ?_
    rename_i outside
    simp only [hbmBytes] at outside
    simp [Instr.wf]; omega

theorem execHbmCorrectionCollect_meaning (s : State) (counts bad : List Nat) :
    s.Meaning (.hbmCorrectionCollect counts bad) (execHbmCorrectionCollect counts bad s) := by
  unfold execHbmCorrectionCollect
  split
  · exact .dies _
  · rename_i outside
    exact .fault (eq_false_of_ne_true outside)

theorem execWarmReset_meaning (s : State) (cause : Nat) : s.Meaning (.warmReset cause) (execWarmReset cause s) :=
  .ite (.row _ _ fun k _ d => d.warmBegin_wf k 3) (.hbm _ _ fun k _ d h => Memory.ite_wf (d.warmBegin_wf k cause h) h)

/-- A stash ends in HBM where its frame still has a buffer (R314). -/
theorem execStashDone_meaning (s : State) (handle : Nat) : s.Meaning (.stashDone handle) (execStashDone handle s) := by
  refine .hbm _ _ fun k m d h => ?_
  split
  · exact Dev.stashDone_wf _ _ _ h
  · exact h

/-- The dictionary's reads of HBM leave it. -/
theorem execHbmReadData_meaning (s : State) : s.Meaning .hbmReadData (execHbmReadData s) := by
  refine .hbm _ _ fun k m d h => ?_
  dsimp only
  split <;> exact h

theorem execJournalHbmDataRead_meaning (s : State) : s.Meaning .journalHbmDataRead (execJournalHbmDataRead s) := by
  refine .hbm _ _ fun k m d h => ?_
  dsimp only
  split <;> exact h

/-- A packet that waits enters, which leaves HBM (R591). -/
theorem execInjectedFrameEntry_meaning (s : State) (pipeline : Nat) : s.Meaning (.injectedFrameEntry pipeline) (execInjectedFrameEntry pipeline s) := by
  refine .turn _ _ _ fun k m d h => ?_
  split <;> exact h

/-- The meaning of every command. -/
theorem exec_meaning (c : Instr) (s : State) : s.Meaning c (exec c s) := by
  cases c with unfold exec
  | tickBoundary slips passed => exact .timebase _ (Dev.boundary_keepsAll slips passed)
  | replayLoadEnd => exact execReplayLoadEnd_meaning s
  | oscLoss cut => exact execOscLoss_meaning s cut
  | refillComplete addr fails => exact execRefillComplete_meaning s addr fails
  | hbmCorrectionCollect counts bad => exact execHbmCorrectionCollect_meaning s counts bad
  | warmReset cause => exact execWarmReset_meaning s cause
  | stashDone handle => exact execStashDone_meaning s handle
  | hbmReadData => exact execHbmReadData_meaning s
  | journalHbmDataRead => exact execJournalHbmDataRead_meaning s
  | injectedFrameEntry pipeline => exact execInjectedFrameEntry_meaning s pipeline
  | powerOnReset | coldReset => exact .reset _ rfl (keepsAll_cold _)
  | operatingSecond | oscRestored => exact .crust _ rfl
  | shadowDataWrite data => exact .row _ _ fun k _ d => d.shadowWrite_wf k data
  | captureJob => exact .hbm _ _ fun k _ d => d.captureJob_wf k
  | dumpDue => exact .hbm _ _ fun _ _ d h => Memory.ite_wf (d.dumpStart_wf _ h) h
  | dumpComplete => exact .hbm _ _ fun _ _ d => d.dumpEnd_wf
  | checkpointDone => exact .hbm _ _ fun _ _ d => d.checkpointDone_wf
  | journalFull | journalTrigger => exact .hbm _ _ fun _ _ d h => Memory.ite_wf (d.journalStop_wf _ _ h) h
  | replayFrameEntry => exact .hbm _ _ fun _ _ d => d.replayEntry_wf _
  | pcieHotReset => exact .hbm _ _ fun _ _ d h => Memory.ite_wf (d.warmBegin_wf _ 4 h) h
  | startUp copyA copyB voutMode => exact .hbm _ _ fun _ _ d h => Memory.ite_wf h (d.startUp_wf _ copyA copyB voutMode h)
  | shadowCompareRange | replayFlowRecord | replayEnd => exact .hbm _ _ (keepsHbm_untouched _)
  | frameHandOff | schedulerChoice | recirculationPass | matDataFrame | free | hand | inject | fetchDone => exact .turn _ _ _ (keepsHbm_untouched _)
  | journalStart | journalStartWhenClean | journalStop | replayStart | journalHbmDataWrite | dictKeyWrite | planRelearn | replaceMaintain | replaceAdopt
  | objectWrite => exact .rowAny _
  | opRead | opWrite | opWriteSeg | opReadSeg | groupBegin | groupCommit | groupAbort | opDescribe | windowDoorbell => exact .request _ _
  | portEnable | portPark | portUnpark | octetConfigChange | poolQuarantine | poolUnquarantine | gateConfigInstall | gateConfigCancel | watchClear
  | slotDataWrite | slotSeal | emRetire | emUnretire | ringEnable | ringDisable | sorusResetLogic | sorusResetLanes | pipelineFlush | sorusPark | sorusWake
  | timeViewSet | timeViewStep | timeViewIncrement | refAWrite | voteRelease | matEnable | matRejoin | flipArm | flipDisarm | logClear | ueLogClear
  | counterWrite | sporeRingReset | recClear | perturbLock | perturbClear => exact .rowD _ _ _
  | stash | refBLabelTimeout | referenceVote | captureNext | heartbeatSend | leaseCollectEnd | leaseRenewalSend | leaseEnd | leaseClaim
  | masterlessTimeout | syncRecordApply | signatureSend | timeReqSend | timeRespTimeout | learningExecute | sweepPassStart | emInsert | emDelete
  | emRead | emReplace | emSearch | emFlush | emBatchDone | accumulatorClose | recordWrite | recClearDone | recWindow | journalCleanStart
  | helloLockoutEnd | windowAck | hostLinkDown | pciePerst | idleExit | recoveryStart | recoveryWindowEnd | isolationEntry | temperatureSample
  | pmbAlert | avsStep | avsRetry | avsReadback | ageSampleStart | ageSampleEnd | vminTest | plannerDecision | busMasterEnableChange | claimRetry
  | bluntoakHello | bluntoakOpen | bluntoakClose | rcRead => exact .dies _
  | _ => exact .units _ _

/-! SUPPORT. Every form keeps the timebase in order and HBM in its canonical form. -/

theorem stateOk_iff (s : State) : stateOk s = true ↔ clkOk s.clk = true ∧ s.mem.wf = true := by simp [stateOk]

/-- A next state that is answered, if one is, is well formed. -/
def answersOk (o : Host.Outcome State Fault Refusal) : Prop := ∀ t, o = .next t → stateOk t = true

theorem answersOk_next {t : State} (h : stateOk t = true) : answersOk (.next t) := by rintro _ ⟨⟩; exact h

theorem answersOk_ite {c : Prop} [Decidable c] {a b : Host.Outcome State Fault Refusal} (ha : answersOk a) (hb : answersOk b) :
    answersOk (if c then a else b) := by split <;> assumption

section
variable {s : State} (h : stateOk s = true)
include h

theorem State.quiet_ok : stateOk s.quiet = true := h

theorem State.act_ok {f : Clk → Memory → Dev → Memory × Dev} (keeps : keepsHbm f) : stateOk (s.act f) = true := by
  obtain ⟨clk, hbm⟩ := (stateOk_iff s).mp h
  exact (stateOk_iff _).mpr ⟨clk, keeps _ _ _ hbm⟩

/-- The passing of a clock stays within its tick. -/
theorem State.pass_ok : stateOk s.pass = true := by
  obtain ⟨clk, hbm⟩ := (stateOk_iff s).mp h
  obtain ⟨len, -, raw⟩ := (clkOk_iff _).mp clk
  unfold State.pass
  split
  · exact h
  · rename_i more
    simp only [Bool.or_eq_true, decide_eq_true_eq, not_or, Nat.not_le] at more
    exact (stateOk_iff _).mpr ⟨(clkOk_iff _).mpr ⟨len, more.2, raw⟩, hbm⟩

theorem State.runAll_ok {f : Clk → Memory → Dev → Clk × Memory × Dev} (keeps : keepsAll f) : answersOk (s.runAll f) := by
  obtain ⟨clk, hbm⟩ := (stateOk_iff s).mp h
  exact answersOk_next ((stateOk_iff _).mpr (keeps _ _ _ clk hbm))

theorem State.inTurn_ok (ok : Bool) (late : Clk → Dev → Bool) {f : Clk → Memory → Dev → Memory × Dev} (keeps : keepsHbm f) :
    answersOk (s.inTurn ok late f) := by
  have quiet := State.quiet_ok h
  exact answersOk_ite (answersOk_next quiet) (answersOk_ite (answersOk_next (State.act_ok quiet keeps))
    (answersOk_ite (answersOk_next (State.act_ok (State.pass_ok quiet) keeps)) (answersOk_next quiet)))

theorem State.request_ok (entry : Nat) (f : Clk → Memory → Dev → Dev) : answersOk (s.request entry f) := by
  have quiet := State.quiet_ok h
  refine answersOk_ite (answersOk_next quiet) (answersOk_next (State.act_ok ?_ (keepsHbm_untouched _)))
  split
  · exact State.pass_ok quiet
  · exact quiet

theorem State.Meaning.ok {c : Instr} {o : Host.Outcome State Fault Refusal} (means : s.Meaning c o) : answersOk o := by
  have quiet := answersOk_next (State.quiet_ok h)
  cases means with
  | quiet => exact quiet
  | crust f => exact answersOk_next h
  | reset f _ keeps => exact State.runAll_ok h keeps
  | dies f => exact answersOk_ite quiet (answersOk_next h)
  | hbm ok f keeps => exact answersOk_ite quiet (answersOk_next (State.act_ok (State.quiet_ok h) keeps))
  | timebase f keeps => exact answersOk_ite quiet (State.runAll_ok h keeps)
  | turn ok late f keeps => exact State.inTurn_ok h ok late keeps
  | request entry f => exact State.request_ok h entry f
  | fault => exact nofun

end

/-- Settles O3: the command at the front by its meaning, which reads nothing of the queue; with none waiting a clock passes. -/
theorem stepKeepsStateOk : Obligations.StepKeepsStateOk := by
  intro s t ok next
  unfold step at next
  split at next
  case h_1 => exact answersOk_next (State.pass_ok (State.quiet_ok ok)) t next
  case h_2 c rest _ => exact State.Meaning.ok (s := { s with pending := rest }) ok (exec_meaning c _) t next

end Sys2Proof.Machine

namespace Sys2Proof.Machine
open Sys2Proof.Safety

/-! SUPPORT. While the dies stand still (R640, R652). -/

/-- A meaning that is none of the crust's or a reset's does nothing while the dies stand still. -/
theorem State.Meaning.still {s : State} {c : Instr} {o : Host.Outcome State Fault Refusal} (means : s.Meaning c o) (halted : s.halted = true)
    (known : c.wf = true) (ofDies : ofCrust c = false) : o = .next s.quiet := by
  cases means with
  | quiet => rfl
  | crust _ crust => simp [ofDies] at crust
  | reset _ crust => simp [ofDies] at crust
  | dies f => exact State.run_halted halted f
  | hbm => simp [State.runM, halted]
  | timebase => simp [halted]
  | turn => simp [State.inTurn, halted]
  | request => simp [State.request, halted]
  | fault unknown => simp [known] at unknown

/-- A boundary while the dies run: the tick that follows, the queue as it was (R38, R39, R42, R361). -/
theorem exec_tickBoundary_running {s : State} (running : s.halted = false) (slips : List (Nat × Int)) (passed : List (Nat × Nat)) :
    ∃ t, exec (.tickBoundary slips passed) s = .next t ∧ s.clk.follows t.clk ∧ t.pending = s.pending :=
  ⟨_, if_neg (by simp [running]), Dev.boundary_follows slips passed s.clk s.mem s.dev.silent, rfl⟩

/-! SUPPORT. What chains of object writes leave alone. -/

theorem Dev.wrote_each {α : Type} {keys : List Nat} {d d' : Dev} {f : Dev → α → Dev} (l : List α)
    (turn : ∀ e x, x ∈ l → d.wrote keys e → d.wrote keys (f e x)) (h : d.wrote keys d') : d.wrote keys (d'.each l f) := by
  induction l generalizing d' with
  | nil => exact h
  | cons x l ih => exact ih (fun e y hy => turn e y (by simp [hy])) (turn d' x (by simp) h)

theorem Dev.wrote_mono {keys more : List Nat} {d d' : Dev} (h : d.wrote keys d') (sub : keys ⊆ more) : d.wrote more d' := by
  obtain ⟨objs, reads⟩ := h
  exact ⟨objs, fun o i e unwritten => reads o i e fun written => unwritten (sub written)⟩

theorem Dev.wrote_trans {keys : List Nat} {a b c : Dev} (h : a.wrote keys b) (g : b.wrote keys c) : a.wrote keys c := by
  obtain ⟨objs, reads⟩ := h
  obtain ⟨objs', reads'⟩ := g
  exact ⟨Dev.objsOnly_trans objs objs', fun o i e unwritten => (reads' o i e unwritten).trans (reads o i e unwritten)⟩

theorem Dev.wrote_n {keys : List Nat} {d d' : Dev} (h : d.wrote keys d') {o : Obj} {i e : Nat} (unwritten : o.key i e ∉ keys) :
    d'.n o i e = d.n o i e := by rw [Dev.n, h.2 o i e unwritten]; rfl

theorem Dev.objsOnly_ctl {d d' : Dev} (h : d.objsOnly d') : d'.ctl = d.ctl := by
  have same := congrArg Dev.ctl (show bare d' = bare d from h)
  exact same

theorem Dev.objsOnly_tx {d d' : Dev} (h : d.objsOnly d') : d'.tx = d.tx := by
  have same := congrArg Dev.tx (show bare d' = bare d from h)
  exact same

/-- Where no flip is armed by the writes, no stored word comes to be in error. -/
theorem Dev.wrote_plainWords {keys : List Nat} {d d' : Dev} (h : d.wrote keys d') (unarmed : Od.INTEG_FLIP_ARM.key 0 0 ∉ keys)
    (plain : plainWords d = true) : plainWords d' = true := by
  have same : bare d' = bare d := h.1
  have poison := congrArg Dev.poison same
  have flipped := congrArg Dev.flipped same
  have poison : d'.poison = d.poison := poison
  have flipped : d'.flipped = d.flipped := flipped
  rw [plainWords, poison, flipped, Dev.on, Dev.wrote_n h unarmed]
  exact plain

/-! SUPPORT. The counts of a frame that a MAC sends (R109, R118, R487). -/

theorem wrap48_lt (v : Nat) (n : Nat) : wrap48 v n < 2 ^ 64 := by
  have := Nat.mod_lt (v % 2 ^ 48 + n) (show 0 < 2 ^ 48 by omega)
  unfold wrap48
  dsimp only
  split <;> omega

/-- A count in a word that is not in error, no flip being armed (R118, R478). -/
theorem Dev.bump48_plain {d : Dev} (plain : plainWords d = true) {o : Obj} {i e : Nat} (other : o.key i e ≠ Od.INTEG_FLIP_ARM.key 0 0) (n : Nat) :
    d.bump48 o i e n = d.put o i (wrap48 (d.n o i e) n) e := by
  obtain ⟨sound, unflipped⟩ := plainWords_lists plain
  have unarmed : (d.put o i (wrap48 (d.n o i e) n) e).on Od.INTEG_FLIP_ARM 0 = false := by
    rw [Dev.on_put_other _ _ _ _ _ _ _ _ other]
    simp only [plainWords, Bool.and_eq_true, Bool.not_eq_true'] at plain
    exact plain.2
  unfold Dev.bump48
  split
  · rfl
  · simp [sound, unflipped, Dev.flipCounter, unarmed]

/-- A frame of n bytes counted in a pair. -/
theorem Dev.pair_plain {d : Dev} (plain : plainWords d = true) {o : Obj} {i : Nat} (word : o.ty = .u64)
    (other : ∀ e, e < 2 → o.key i e ≠ Od.INTEG_FLIP_ARM.key 0 0) (n : Nat) :
    d.wrote [o.key i 0, o.key i 1] (d.pair o i n) ∧ (d.pair o i n).out = d.out ∧ (d.pair o i n).n o i 0 = wrap48 (d.n o i 0) 1 ∧
      (d.pair o i n).n o i 1 = wrap48 (d.n o i 1) n := by
  have fits (v m : Nat) : o.ty.norm (wrap48 v m : Nat) = (wrap48 v m : Nat) := by
    have := wrap48_lt v m
    simp only [word, ObjTy.norm]; omega
  have first : d.wrote [o.key i 0, o.key i 1] (d.put o i (wrap48 (d.n o i 0) 1) 0) := Dev.wrote_put (Dev.wrote_refl _ d) _ _ _ _ (by simp)
  have plain' : plainWords (d.put o i (wrap48 (d.n o i 0) 1) 0) = true :=
    Dev.wrote_plainWords first (by simp [(other 0 (by decide)).symm, (other 1 (by decide)).symm]) plain
  have counted : d.pair o i n = (d.put o i (wrap48 (d.n o i 0) 1) 0).put o i (wrap48 (d.n o i 1) n) 1 := by
    rw [Dev.pair, Dev.bump48_plain plain (other 0 (by decide)), Dev.bump48_plain plain' (other 1 (by decide)), Dev.n_put_other _ _ _ _ _ _ _ _ (o.key_ne_elem (by decide))]
  rw [counted]
  refine ⟨Dev.wrote_put first _ _ _ _ (by simp), rfl, ?_, ?_⟩
  · rw [Dev.n_put_other _ _ _ _ _ _ _ _ (o.key_ne_elem (by decide)), Dev.n_put_same _ _ _ _ _ (fits _ _)]
  · exact Dev.n_put_same _ _ _ _ _ (fits _ _)

/-- The elements that a sent frame of the MAC's own writes besides its pair: the loads of R77 and the window of R487. -/
def txLoadKeys (p : Nat) : List Nat := [Rg.WIN.key p 2, Rg.WIN.key p 3, Rg.SHED_TX.key p 0, Rg.RESTORE_TX.key p 0]

theorem Dev.txLoad_wrote (d : Dev) (p n : Nat) : d.wrote (txLoadKeys p) (d.txLoad p n) := by
  unfold Dev.txLoad Dev.winTx Dev.loadTx
  iterate 4 refine Dev.wrote_put ?_ _ _ _ _ (by simp [txLoadKeys])
  exact Dev.wrote_refl _ d

/-- A PAUSE frame of quanta q on port p. -/
def isPause (o : Out) (p q : Nat) : Prop := o.kind = .control ∧ o.unit = p ∧ o.vals = [1, q]

/-- A PAUSE frame that leaves counts in its own pair, with its length (log entry 40). -/
theorem Dev.macEmit_pause (k : Clk) (d : Dev) {o : Out} {p q : Nat} (pause : isPause o p q) :
    d.macEmit k o = ((d.txLoad p o.bytes.length).pair Od.PORT_TX_PAUSE p o.bytes.length).emit o := by
  obtain ⟨kind, rfl, vals⟩ := pause
  simp [Dev.macEmit, kind, vals]

/-- Elements of two different objects have different keys, port p's of the one. -/
theorem key_ne_port {o q : Obj} {p j e f : Nat} (port : p < 1024) (h : o.idx * 256 + o.sub ≠ q.idx * 256 + q.sub) (hj : j < 1024) (he : e < 8)
    (hf : f < 8) : o.key p e ≠ q.key j f := Obj.key_ne h (by omega) (by omega) (by omega) (by omega)

/-- An element at port p of an object that is none of the loads is none of theirs. -/
theorem notin_txLoadKeys {p j e : Nat} (port : p < 1024) {o : Obj} (hj : j < 1024) (he : e < 8)
    (other : ∀ q ∈ [Rg.WIN, Rg.SHED_TX, Rg.RESTORE_TX], o.idx * 256 + o.sub ≠ q.idx * 256 + q.sub) : o.key j e ∉ txLoadKeys p := by
  simp only [List.mem_cons, List.not_mem_nil, or_false, forall_eq_or_imp, forall_eq] at other
  obtain ⟨win, shed, restore⟩ := other
  simp only [txLoadKeys, List.mem_cons, List.not_mem_nil, or_false, not_or]
  exact ⟨key_ne_port hj win port he (by decide), key_ne_port hj win port he (by decide), key_ne_port hj shed port he (by decide),
    key_ne_port hj restore port he (by decide)⟩

/-- The elements that a PAUSE frame writes as it leaves port p. -/
def pauseKeys (p : Nat) : List Nat := [Od.PORT_TX_PAUSE.key p 0, Od.PORT_TX_PAUSE.key p 1] ++ txLoadKeys p

/-- What its leaving does. -/
theorem Dev.macEmit_pause_counts (k : Clk) {d : Dev} (plain : plainWords d = true) {o : Out} {p q : Nat} (port : p < 1024) (pause : isPause o p q) :
    d.wrote (pauseKeys p) (d.macEmit k o) ∧ (d.macEmit k o).out = d.out ++ [o] ∧
      (d.macEmit k o).n Od.PORT_TX_PAUSE p 0 = wrap48 (d.n Od.PORT_TX_PAUSE p 0) 1 ∧
      (d.macEmit k o).n Od.PORT_TX_PAUSE p 1 = wrap48 (d.n Od.PORT_TX_PAUSE p 1) o.bytes.length := by
  have loaded := d.txLoad_wrote p o.bytes.length
  have unarmed : Od.INTEG_FLIP_ARM.key 0 0 ∉ txLoadKeys p := notin_txLoadKeys port (by omega) (by omega) (by decide)
  have counts (e : Nat) (he : e < 2) : (d.txLoad p o.bytes.length).n Od.PORT_TX_PAUSE p e = d.n Od.PORT_TX_PAUSE p e :=
    Dev.wrote_n loaded (notin_txLoadKeys port port (by omega) (by decide))
  obtain ⟨wrote, out, frames, bytes⟩ := Dev.pair_plain (Dev.wrote_plainWords loaded unarmed plain) (o := Od.PORT_TX_PAUSE) (i := p) rfl
    (fun e he => key_ne_port port (by decide) (by omega) (by omega) (by omega)) o.bytes.length
  rw [counts 0 (by decide)] at frames
  rw [counts 1 (by decide)] at bytes
  rw [Dev.macEmit_pause k d pause]
  have both := Dev.wrote_trans (Dev.wrote_mono loaded (List.subset_append_right _ _)) (Dev.wrote_mono wrote (List.subset_append_left _ _))
  exact ⟨Dev.wrote_emit both o, congrArg (· ++ [o]) out, (Dev.n_emit _ _ _ _ _).trans frames, (Dev.n_emit _ _ _ _ _).trans bytes⟩

/-! SUPPORT. The refresh of a port's flow control (R109). -/

/-- The classes of a port whose request is to be repeated. -/
def Dev.flowDue (d : Dev) (k : Clk) (p : Nat) : List Nat :=
  (d.flowClasses p).filter fun c => bit (d.n Rg.ASSERTED p) c && decide (d.n Rg.FLOW_LAST p c + d.n Od.PORT_FLOW_TX_REFRESH p ≤ k.tick + 1)

theorem Dev.flowDue_lt {d : Dev} {k : Clk} {p c : Nat} (h : c ∈ d.flowDue k p) : c < 8 := by
  obtain ⟨h, -⟩ := List.mem_filter.mp h
  unfold Dev.flowClasses at h
  split at h
  · cases h
  · exact List.mem_range.mp (List.mem_filter.mp h).1

/-- The repetition noted for each of a list of classes. -/
def Dev.flowNoted (k : Clk) (p : Nat) (cs : List Nat) (d : Dev) : Dev := d.each cs fun d c => d.put Rg.FLOW_LAST p (k.tick + 1) c

def flowKeys (p : Nat) (cs : List Nat) : List Nat := cs.map fun c => Rg.FLOW_LAST.key p c

theorem Dev.flowNoted_wrote (k : Clk) (p : Nat) (cs : List Nat) (d : Dev) : d.wrote (flowKeys p cs) (d.flowNoted k p cs) :=
  Dev.wrote_each cs (fun _ _ hc h => Dev.wrote_put h _ _ _ _ (List.mem_map_of_mem hc)) (Dev.wrote_refl _ d)

theorem Dev.n_put_flowLast (d : Dev) (p v c : Nat) : (d.put Rg.FLOW_LAST p v c).n Rg.FLOW_LAST p c = v := Dev.n_put_same _ _ _ _ _ rfl

/-- A class once noted stays so: every note of the clock is the same. -/
theorem Dev.flowNoted_keeps (k : Clk) (p : Nat) (cs : List Nat) {d : Dev} {c : Nat} (h : d.n Rg.FLOW_LAST p c = k.tick + 1) :
    (d.flowNoted k p cs).n Rg.FLOW_LAST p c = k.tick + 1 := by
  induction cs generalizing d with
  | nil => exact h
  | cons x cs ih =>
    refine ih (d := d.put Rg.FLOW_LAST p (k.tick + 1) x) ?_
    by_cases same : x = c
    · rw [same, Dev.n_put_flowLast]
    · rw [Dev.n_put_other _ _ _ _ _ _ _ _ (Rg.FLOW_LAST.key_ne_elem same), h]

theorem Dev.n_flowNoted (k : Clk) (p : Nat) {cs : List Nat} {c : Nat} (hc : c ∈ cs) (d : Dev) : (d.flowNoted k p cs).n Rg.FLOW_LAST p c = k.tick + 1 := by
  induction cs generalizing d with
  | nil => cases hc
  | cons x cs ih =>
    rcases List.mem_cons.mp hc with rfl | hc
    · exact Dev.flowNoted_keeps k p cs (Dev.n_put_flowLast d p _ _)
    · exact ih hc _

/-- The notes change no element of another object. -/
theorem notin_flowKeys {p j e : Nat} {cs : List Nat} (port : p < 1024) (classes : ∀ c ∈ cs, c < 8) {o : Obj} (hj : j < 1024) (he : e < 8)
    (other : o.idx * 256 + o.sub ≠ Rg.FLOW_LAST.idx * 256 + Rg.FLOW_LAST.sub) : o.key j e ∉ flowKeys p cs := by
  intro h
  obtain ⟨c, hc, same⟩ := List.mem_map.mp h
  exact key_ne_port hj other port he (classes c hc) same.symm

/-- Whether a PAUSE frame may leave now goes by the port's changeover, by what it sends, and by its preemption. -/
theorem Dev.mayLeave_pause (k : Clk) (d : Dev) {o : Out} {p q : Nat} (pause : isPause o p q) :
    d.mayLeave k o = (d.n Rg.CHG_PHASE p != 3 && ((d.txOn p 0).isNone && (d.n Od.PORT_PREEMPT_STATUS p == 2 || (d.txOn p 1).isNone))) := by
  obtain ⟨kind, unit, vals⟩ := pause
  simp [Dev.mayLeave, kind, unit, vals]

theorem controlFrame_length (body : List Byte) : (controlFrame body).length = 64 := by simp [controlFrame, fcsBytes]

/-- The PAUSE frame of quanta q that port p of the device sends (R109). -/
def Dev.pauseOut (d : Dev) (p q : Nat) : Out :=
  { kind := .control, unit := p, vals := [1, q]
    bytes := controlFrame ([0x01, 0x80, 0xC2, 0x00, 0x00, 0x01] ++ bytesBE 6 (d.n Od.PORT_MAC_ADDRESS p) ++ [0x88, 0x08] ++ [0x00, 0x01] ++ bytesBE 2 q) }

theorem Dev.pauseOut_isPause (d : Dev) (p q : Nat) : isPause (d.pauseOut p q) p q := ⟨rfl, rfl, rfl⟩

theorem Dev.pauseOut_length (d : Dev) (p q : Nat) : (d.pauseOut p q).bytes.length = 64 := controlFrame_length _

/-- A request of a port in service whose mode is PAUSE is one such frame. -/
theorem Dev.flowRequest_pause (k : Clk) {d : Dev} {p q : Nat} {cs : List Nat} (asks : cs ≠ []) (up : d.inService p = true) (live : d.maint = false)
    (mode : d.n Od.PORT_FLOW_MODE p = 1) : d.flowRequest k p (cs.map fun c => (c, q)) = d.macSend k (d.pauseOut p q) := by
  cases cs with
  | nil => contradiction
  | cons c cs => simp [Dev.flowRequest, up, live, mode, Dev.pauseOut]

theorem Dev.flowRequest_nil (k : Clk) (p : Nat) (d : Dev) : d.flowRequest k p [] = d := by simp [Dev.flowRequest]

/-- The refresh of a port that exists, in a state whose dies run. -/
theorem exec_flowControlRefresh {s : State} (running : ready s = true) {p : Nat} (port : p < 1024) :
    exec (.flowControlRefresh p) s = .next { s with
      dev := (s.dev.silent.flowNoted s.clk p (s.dev.flowDue s.clk p)).flowRequest s.clk p
        ((s.dev.flowDue s.clk p).map fun c => (c, s.dev.n Od.PORT_FLOW_TX_QUANTA p)) } :=
  State.runIf_eq running (decide_eq_true port) rfl

/-- Where no request is due the refresh changes nothing. -/
theorem exec_flowControlRefresh_idle {s : State} (running : ready s = true) {p : Nat} (port : p < 1024) (idle : s.dev.flowDue s.clk p = []) :
    ∃ t, exec (.flowControlRefresh p) s = .next t ∧ onlyWrites [] s t := by
  refine ⟨_, exec_flowControlRefresh running port, onlyWrites_of ?_⟩
  rw [idle, List.map_nil, Dev.flowRequest_nil]
  exact Dev.wrote_silent _ _

/-- The state after a refresh of the due classes cs of port p, with the PAUSE frame o. -/
def pauseRefreshed (p : Nat) (cs : List Nat) (o : Out) (s t : State) : Prop :=
  outsideKept s t ∧ bare t.dev = bare { s.dev with ctl := t.dev.ctl } ∧ (∀ c ∈ cs, t.dev.n Rg.FLOW_LAST p c = s.clk.tick + 1) ∧
    (s.dev.mayLeave s.clk o = true → t.dev.out = [o] ∧ t.dev.ctl = s.dev.ctl ∧ countedPair Od.PORT_TX_PAUSE p o.bytes.length s t) ∧
    (s.dev.mayLeave s.clk o = false → t.dev.out = [] ∧ t.dev.ctl = s.dev.ctl ++ [o]) ∧
    ∀ (q : Obj) (i e : Nat), q.key i e ∉ flowKeys p cs ++ pauseKeys p → t.dev.get q i e = s.dev.get q i e

theorem Dev.flowNoted_out (k : Clk) (p : Nat) (cs : List Nat) (d : Dev) : (d.flowNoted k p cs).out = d.out := by
  induction cs generalizing d with
  | nil => rfl
  | cons c cs ih => exact ih _

/-- A frame that may not leave waits last among the frames of the MACs. -/
theorem pauseRefreshed_waiting {s : State} {p : Nat} {cs : List Nat} {o : Out} (stays : s.dev.mayLeave s.clk o = false) :
    pauseRefreshed p cs o s { s with dev :=
      { s.dev.silent.flowNoted s.clk p cs with ctl := (s.dev.silent.flowNoted s.clk p cs).ctl ++ [o] } } := by
  have noted := Dev.flowNoted_wrote s.clk p cs s.dev.silent
  obtain ⟨objs, reads⟩ := noted
  have waiting : (s.dev.silent.flowNoted s.clk p cs).ctl = s.dev.ctl := Dev.objsOnly_ctl objs
  refine ⟨⟨rfl, rfl, rfl⟩, ?_, fun c hc => Dev.n_flowNoted s.clk p hc _, fun leaves => ?_, fun _ => ⟨?_, ?_⟩, fun q i e unwritten => ?_⟩
  · exact congrArg (fun d => { d with ctl := (s.dev.silent.flowNoted s.clk p cs).ctl ++ [o] }) (show bare _ = bare _ from objs)
  · simp [leaves] at stays
  · exact Dev.flowNoted_out s.clk p cs _
  · rw [← waiting]
  · exact reads q i e fun written => unwritten (List.mem_append_left _ written)

/-- The sending of a PAUSE frame leaves the notes of the refresh. -/
theorem notin_pauseKeys_flowLast {p c : Nat} (port : p < 1024) (hc : c < 8) : Rg.FLOW_LAST.key p c ∉ pauseKeys p := by
  simp only [pauseKeys, List.mem_append, List.mem_cons, List.not_mem_nil, or_false, not_or]
  exact ⟨⟨key_ne_port port (by decide) port hc (by omega), key_ne_port port (by decide) port hc (by omega)⟩,
    notin_txLoadKeys port port hc (by decide)⟩

section
variable {p : Nat} {cs : List Nat} (port : p < 1024) (classes : ∀ c ∈ cs, c < 8)
include port classes

/-- What the notes leave alone: every other object. -/
theorem Dev.n_flowNoted_other (k : Clk) (d : Dev) {o : Obj} {e : Nat} (he : e < 8)
    (other : o.idx * 256 + o.sub ≠ Rg.FLOW_LAST.idx * 256 + Rg.FLOW_LAST.sub) {j : Nat} (hj : j < 1024) : (d.flowNoted k p cs).n o j e = d.n o j e :=
  Dev.wrote_n (Dev.flowNoted_wrote k p cs d) (notin_flowKeys port classes hj he other)

theorem Dev.mayLeave_flowNoted (k : Clk) (d : Dev) {o : Out} {q : Nat} (pause : isPause o p q) : (d.flowNoted k p cs).mayLeave k o = d.mayLeave k o := by
  have tx : (d.flowNoted k p cs).tx = d.tx := Dev.objsOnly_tx (Dev.flowNoted_wrote k p cs d).1
  have phase := Dev.n_flowNoted_other port classes k d (o := Rg.CHG_PHASE) (e := 0) (by omega) (by decide) port
  have preemption := Dev.n_flowNoted_other port classes k d (o := Od.PORT_PREEMPT_STATUS) (e := 0) (by omega) (by decide) port
  simp only [Dev.mayLeave_pause k _ pause, phase, preemption, Dev.txOn, tx]

/-- One that may leaves at once and is counted. -/
theorem pauseRefreshed_sent {s : State} (plain : plainWords s.dev = true) {o : Out} {q : Nat} (pause : isPause o p q) (leaves : s.dev.mayLeave s.clk o = true) :
    pauseRefreshed p cs o s { s with dev := (s.dev.silent.flowNoted s.clk p cs).macEmit s.clk o } := by
  have noted := Dev.flowNoted_wrote s.clk p cs s.dev.silent
  have unarmed : Od.INTEG_FLIP_ARM.key 0 0 ∉ flowKeys p cs := notin_flowKeys port classes (by omega) (by omega) (by decide)
  obtain ⟨wrote, out, frames, bytes⟩ := Dev.macEmit_pause_counts s.clk (Dev.wrote_plainWords noted unarmed plain) port pause
  have counts (e : Nat) (he : e < 8) := Dev.n_flowNoted_other port classes s.clk s.dev.silent he (o := Od.PORT_TX_PAUSE) (by decide) port
  obtain ⟨objs, reads⟩ := Dev.wrote_trans (Dev.wrote_mono noted (List.subset_append_left _ _)) (Dev.wrote_mono wrote (List.subset_append_right _ _))
  have waiting : ((s.dev.silent.flowNoted s.clk p cs).macEmit s.clk o).ctl = s.dev.ctl := Dev.objsOnly_ctl objs
  refine ⟨⟨rfl, rfl, rfl⟩, ?_, fun c hc => ?_, fun _ => ⟨?_, waiting, ?_, ?_⟩, fun stays => ?_, reads⟩
  · dsimp only
    rw [waiting]
    exact objs
  · exact (Dev.wrote_n wrote (notin_pauseKeys_flowLast port (classes c hc))).trans (Dev.n_flowNoted s.clk p hc _)
  · rw [out, Dev.flowNoted_out]; rfl
  · rw [frames, counts 0 (by omega)]; rfl
  · rw [bytes, counts 1 (by omega)]; rfl
  · simp [leaves] at stays

end

/-- Where a port in service with PAUSE has requests due, the refresh notes them and sends its frame. -/
theorem exec_flowControlRefresh_due {s : State} (running : ready s = true) {p : Nat} (port : p < 1024) (due : s.dev.flowDue s.clk p ≠ [])
    (up : s.dev.inService p = true) (live : s.dev.maint = false) (mode : s.dev.n Od.PORT_FLOW_MODE p = 1) (plain : plainWords s.dev = true) :
    ∃ (t : State) (o : Out), exec (.flowControlRefresh p) s = .next t ∧ isPause o p (s.dev.n Od.PORT_FLOW_TX_QUANTA p) ∧ o.bytes.length = 64 ∧
      pauseRefreshed p (s.dev.flowDue s.clk p) o s t := by
  have classes : ∀ c ∈ s.dev.flowDue s.clk p, c < 8 := fun c hc => Dev.flowDue_lt hc
  generalize hcs : s.dev.flowDue s.clk p = cs at *
  have same {o : Obj} (other : o.idx * 256 + o.sub ≠ Rg.FLOW_LAST.idx * 256 + Rg.FLOW_LAST.sub) {j : Nat} (hj : j < 1024) :
      (s.dev.silent.flowNoted s.clk p cs).n o j = s.dev.n o j := Dev.n_flowNoted_other port classes s.clk s.dev.silent (by omega) other hj
  have up' : (s.dev.silent.flowNoted s.clk p cs).inService p = true := by
    rw [Dev.inService, Dev.link, same (by decide) port]; exact up
  have live' : (s.dev.silent.flowNoted s.clk p cs).maint = false := by
    rw [Dev.maint, Dev.on, same (by decide) (by omega)]; exact live
  have mode' := (same (o := Od.PORT_FLOW_MODE) (by decide) port).trans mode
  have pause := (s.dev.silent.flowNoted s.clk p cs).pauseOut_isPause p (s.dev.n Od.PORT_FLOW_TX_QUANTA p)
  have ran := exec_flowControlRefresh running port
  rw [hcs, Dev.flowRequest_pause s.clk due up' live' mode'] at ran
  refine ⟨_, _, ran, pause, Dev.pauseOut_length _ _ _, ?_⟩
  rw [Dev.macSend, Dev.mayLeave_flowNoted port classes s.clk s.dev.silent pause]
  split
  case isTrue leaves => exact pauseRefreshed_sent port classes plain pause leaves
  case isFalse stays => exact pauseRefreshed_waiting (eq_false_of_ne_true stays)

/-- Settles O60: the boundary by `Dev.boundary_follows`, the dies at rest by the meaning of each command, the refresh by its due classes. -/
theorem boundariesPass : Obligations.BoundariesPass := by
  intro s slips passed
  refine ⟨fun running => ?_, fun halted c known ofDies => (exec_meaning c s).still halted known ofDies, fun p running port => ⟨?_, ?_⟩⟩
  · obtain ⟨t, ran, ⟨tick, first, raw, len⟩, queue⟩ := exec_tickBoundary_running running slips passed
    exact ⟨t, ran, tick, first, queue, raw, len⟩
  · exact exec_flowControlRefresh_idle running port
  · intro due up live mode plain
    obtain ⟨t, o, ran, ⟨kind, unit, vals⟩, length, outside, bareSame, noted, sent, waits, reads⟩ :=
      exec_flowControlRefresh_due running port due up live mode plain
    rw [length] at sent
    exact ⟨t, o, ran, outside, bareSame, kind, unit, vals, length, noted, sent, waits, reads⟩

end Sys2Proof.Machine

namespace Sys2Proof.Machine
open Sys2Proof.Safety

/-! SUPPORT. The one session of a device, and how it changes. -/

theorem Dev.sessOf_single {d : Dev} {y : Sess} (h : d.sess = [y]) : d.sessOf y.num = some y := by simp [Dev.sessOf, h]

theorem Dev.updSess_single {d : Dev} {y : Sess} (h : d.sess = [y]) (f : Sess → Sess) : d.updSess y.num f = { d with sess := [f y] } := by
  simp [Dev.updSess, h]

/-- The session x as the record of its request finds it: its SEQ and time moved on, its answer begun (R561). -/
def Sess.asked (k : Clk) (source : Nat) (x : Sess) : Sess :=
  { x with source := source, via := ([], []), seq := x.seq + 1, since := k.tick, pends := [{ seq := x.seq + 1, recs := [] }] }

theorem asked_eq {s : State} {x : Sess} (alone : s.dev.sess = [x]) (source : Nat) :
    asked s x source = { s.dev.silent.bump Od.DICT_REQUESTS 0 with sess := [x.asked s.clk source] } := by
  simp [asked, Dev.updSess, Sess.asked, alone, Dev.bump, Dev.put, Dev.set, Dev.n, Dev.get]

/-- What the record finds of the device besides: objects as they stood, but for the count of requests. -/
theorem asked_wrote {s : State} {x : Sess} (alone : s.dev.sess = [x]) (source : Nat) :
    s.dev.wrote [Od.DICT_REQUESTS.key 0 0] { asked s x source with sess := s.dev.sess } := by
  rw [asked_eq alone]
  exact Dev.wrote_bump (Dev.wrote_silent _ s.dev) _ _ _ _ (by simp)

/-! SUPPORT. A REQUEST of one record comes to its operation, and its response goes out once the record waits for nothing (R554, R557, R561, R572). -/

/-- A record's outcome joins its request's response, which is sent if it may be. -/
def Dev.concluded (k : Clk) (num seq : Nat) (r : OpRec × Dev) : Dev :=
  ((r.2.when (r.1.status != 0) fun d => d.bump Od.DICT_REFUSED 0).updSess num fun y =>
    { y with pends := y.pends.map fun p => if p.seq == seq then { p with recs := p.recs ++ [r.1] } else p }).flushPends k num 8

/-- What the record of a request does to the device, with its answer. -/
def outcome (s : State) (x : Sess) (source : Nat) (r : OpReq) : OpRec × Dev :=
  (asked s x source).opRun s.clk s.mem x.num (x.seq + 1) 0 (x.most - 64) r

section
variable {s : State} {x : Sess} {source : Nat} {bs : List Byte} {r : OpReq}

/-- The request counted and its answer begun is the device that the record finds. -/
theorem begun_eq_asked (alone : s.dev.sess = [x]) (idle : x.pends = []) :
    (((s.dev.silent.updSess x.num fun y => { y with source := source, via := ([], []) }).bump Od.DICT_REQUESTS 0).updSess x.num fun y =>
      { y with seq := x.seq + 1, since := s.clk.tick, pends := y.pends ++ [{ seq := x.seq + 1, recs := [] }] }) = asked s x source := by
  rw [asked_eq alone]
  simp [Dev.updSess, Sess.asked, alone, idle, Dev.bump, Dev.put, Dev.set, Dev.n, Dev.get]

theorem Dev.requestIn_outcome (comes : requestComes s x bs r) :
    (s.dev.silent.updSess x.num fun y => { y with source := source, via := ([], []) }).requestIn s.clk s.mem { x with source := source, via := ([], []) } bs =
      (false, Dev.concluded s.clk x.num (x.seq + 1) (outcome s x source r)) := by
  obtain ⟨-, alone, -, idle, -, -, -, -, -, -, -, seq, -, one, parsed, -⟩ := comes
  have room : x.most - 32 - 32 * 1 = x.most - 64 := by omega
  simp only [Dev.requestIn, seq, one, parsed, idle, List.length_nil, Nat.zero_lt_succ, and_self, if_true, begun_eq_asked alone idle, room]
  rfl

theorem Dev.bluntoak_outcome (comes : requestComes s x bs r) :
    s.dev.silent.bluntoak s.clk s.mem x.entry source ([], []) bs = (false, Dev.concluded s.clk x.num (x.seq + 1) (outcome s x source r)) := by
  have accepted := Dev.requestIn_outcome (source := source) comes
  obtain ⟨-, alone, opened, -, -, -, least, most, length, kind, num, -, tag, -⟩ := comes
  have sized : ¬ (bs.length < 32 ∨ 8960 < bs.length) := by omega
  have own : (s.dev.silent.sess.find? fun y => y.num == be bs 4 4 && y.entry == x.entry && (y.opened || be bs 0 1 == 0x13)) = some x := by
    simp [alone, num, opened]
  have good : s.dev.silent.tagGood x.entry x.key bs = true := tag
  unfold Dev.bluntoak
  dsimp only
  rw [own]
  simp [kind, length, sized, good, accepted]

/-- A row of a REQUEST that its first operation belongs to: the device after it, but for the entry noted for the clock (R33). -/
theorem request_next (running : ready s = true) (comes : requestComes s x bs r) {ops : Nat → Bool} (mine : ops r.op = true) :
    ∃ t, s.request x.entry (fun k m d => d.takeKind k m 5 ops x.entry source bs) = .next t ∧ outsideKept s t ∧
      let d := Dev.concluded s.clk x.num (x.seq + 1) (outcome s x source r)
      t.dev.out = d.out ∧ t.dev.sess = d.sess ∧ t.dev.staged = d.staged := by
  have accepted := Dev.bluntoak_outcome (source := source) comes
  obtain ⟨first, -, -, -, entry, opened, -, -, -, kind, -, -, -, -, -, op⟩ := comes
  have port : x.entry ≠ 0 ∧ x.entry < 3 := by omega
  have taken : s.dev.silent.takeKind s.clk s.mem 5 ops x.entry source bs = Dev.concluded s.clk x.num (x.seq + 1) (outcome s x source r) := by
    have isOpen : s.dev.silent.entryOpen x.entry = true := opened
    simp [Dev.takeKind, kind, op, mine, Dev.take, port, Dev.messageIn, isOpen, accepted]
  refine ⟨_, State.request_now (ready_halted running) (by omega) _, ⟨rfl, rfl, rfl⟩, ?_⟩
  dsimp only
  rw [← taken]
  exact ⟨rfl, rfl, rfl⟩

end

/-! SUPPORT. The responses of the one session (R561, R572). -/

/-- The response of a session at a management port to the request of a SEQ, of one record. -/
def Sess.response (y : Sess) (seq : Nat) (a : OpRec) : Out :=
  { kind := .response, unit := y.entry, vals := [y.source], bytes := message 6 y.num seq 1 a.bytes (some y.key) }

/-- The session with that response sent, and kept among its last eight. -/
def Sess.replied (y : Sess) (seq : Nat) (a : OpRec) : Sess :=
  { y with pends := [], sent := ((y.sent ++ [(seq, (y.response seq a).bytes)]).reverse.take 8).reverse }

section
variable {k : Clk} {d : Dev} {y : Sess} (alone : d.sess = [y])
include alone

/-- With no request unanswered nothing is sent. -/
theorem Dev.flushPends_idle (idle : y.pends = []) (n : Nat) : d.flushPends k y.num n = d := by
  cases n with
  | zero => rfl
  | succ n => simp [Dev.flushPends, Dev.sessOf_single alone, idle]

/-- A record that waits holds its response back. -/
theorem Dev.flushPends_waiting {a : OpRec} {seq : Nat} (one : y.pends = [{ seq := seq, recs := [a] }]) (wait : a.wait ≠ 0) (n : Nat) :
    d.flushPends k y.num (n + 1) = d := by
  simp [Dev.flushPends, Dev.sessOf_single alone, one, wait]

/-- One record that waits for nothing lets the response go. -/
theorem Dev.flushPends_sends {a : OpRec} {seq : Nat} (one : y.pends = [{ seq := seq, recs := [a] }]) (whole : a.wait = 0)
    (port : y.entry = 1 ∨ y.entry = 2) (n : Nat) :
    d.flushPends k y.num (n + 1) = ({ d with sess := [y.replied seq a] } : Dev).emit (y.response seq a) := by
  have entry : y.entry ≠ 0 ∧ y.entry < 3 := by omega
  have key : d.tagKey y.entry y.key = some y.key := by simp [Dev.tagKey, entry]
  have sent : d.flushPends k y.num (n + 1) = (({ d with sess := [y.replied seq a] } : Dev).emit (y.response seq a)).flushPends k y.num n := by
    simp [Dev.flushPends, Dev.sessOf_single alone, one, whole, key, Dev.updSess_single alone, Dev.answer, entry, Sess.replied, Sess.response]
  rw [sent]
  exact Dev.flushPends_idle (y := y.replied seq a) rfl rfl n

end

/-! SUPPORT. What an operation leaves, and what the request leaves after it. -/

/-- The outcome of an operation of a request of session x: the device with the one session y, still under way, its staged writes l, and nothing sent yet. -/
structure Leaves (x : Sess) (source : Nat) (e : Dev) (y : Sess) (l : List Staged) : Prop where
  alone : e.sess = [y]
  silent : e.out = []
  staged : e.staged = l
  num : y.num = x.num
  seq : y.seq = x.seq + 1
  entry : y.entry = x.entry
  key : y.key = x.key
  source : y.source = source
  begun : y.pends = [{ seq := x.seq + 1, recs := [] }]

/-- The session with the record's outcome in the response. -/
def Sess.joined (y : Sess) (a : OpRec) : Sess := { y with pends := [{ seq := y.seq, recs := [a] }] }

section
variable {x y : Sess} {source : Nat} {k : Clk} {a : OpRec} {e : Dev} {l : List Staged} (left : Leaves x source e y l) (good : a.status = 0)
include left good

theorem Dev.concluded_eq : Dev.concluded k x.num (x.seq + 1) (a, e) = ({ e with sess := [y.joined a] } : Dev).flushPends k (y.joined a).num 8 := by
  have num := left.num
  simp [Dev.concluded, good, ← num, Dev.updSess_single left.alone, left.begun, Sess.joined, left.seq]

/-- The device after a record that waits. -/
theorem Dev.concluded_waiting (wait : a.wait ≠ 0) : Dev.concluded k x.num (x.seq + 1) (a, e) = { e with sess := [y.joined a] } := by
  rw [Dev.concluded_eq left good]
  exact Dev.flushPends_waiting (y := y.joined a) rfl rfl wait 7

/-- The device after one that waits for nothing. -/
theorem Dev.concluded_sent (whole : a.wait = 0) (port : x.entry = 1 ∨ x.entry = 2) : Dev.concluded k x.num (x.seq + 1) (a, e) =
    ({ e with sess := [(y.joined a).replied y.seq a] } : Dev).emit ((y.joined a).response y.seq a) := by
  rw [Dev.concluded_eq left good]
  exact Dev.flushPends_sends (y := y.joined a) rfl rfl whole (left.entry ▸ port) 7

end

section
variable {s : State} {x y : Sess} {source : Nat} {bs : List Byte} {r : OpReq} {ops : Nat → Bool} {a : OpRec} {e : Dev} {l : List Staged}

/-- A row of a REQUEST whose record is answered at once. -/
theorem request_answers (running : ready s = true) (comes : requestComes s x bs r) (mine : ops r.op = true) (runs : outcome s x source r = (a, e))
    (left : Leaves x source e y l) (good : a.status = 0) (whole : a.wait = 0) :
    ∃ t, s.request x.entry (fun k m d => d.takeKind k m 5 ops x.entry source bs) = .next t ∧ answered s t x source a ∧ t.dev.staged = l ∧
      t.dev.sess.map (fun z => z.group) = [y.group] ∧ t.dev.sess.map (fun z => z.seg) = [y.seg] := by
  obtain ⟨t, ran, outside, out, sess, staged⟩ := request_next (source := source) running comes mine
  obtain ⟨-, -, -, -, port, -⟩ := comes
  have notWindow : x.entry ≠ 0 := by omega
  rw [runs, Dev.concluded_sent left good whole port] at out sess staged
  have reply : answered s t x source a := by
    refine ⟨outside, out.trans ?_, ?_⟩
    · simp [left.silent, Sess.response, Sess.joined, left.num, left.seq, left.entry, left.key, left.source, Dev.tagKey, notWindow]
    · rw [sess]
      simp [Sess.replied, Sess.joined, left.num, left.seq]
  refine ⟨t, ran, reply, staged.trans left.staged, ?_, ?_⟩
  · rw [sess]; rfl
  · rw [sess]; rfl

/-- A row of a REQUEST whose record waits. -/
theorem request_waits (running : ready s = true) (comes : requestComes s x bs r) (mine : ops r.op = true) (runs : outcome s x source r = (a, e))
    (left : Leaves x source e y l) (good : a.status = 0) (wait : a.wait ≠ 0) :
    ∃ t, s.request x.entry (fun k m d => d.takeKind k m 5 ops x.entry source bs) = .next t ∧ waits s t x ∧ t.dev.staged = l ∧
      t.dev.sess.map (fun z => z.group) = [y.group] := by
  obtain ⟨t, ran, outside, out, sess, staged⟩ := request_next (source := source) running comes mine
  rw [runs, Dev.concluded_waiting left good wait] at out sess staged
  refine ⟨t, ran, ⟨outside, out.trans left.silent, ?_⟩, staged.trans left.staged, ?_⟩
  · rw [sess]
    simp [Sess.joined, left.num, left.seq]
  · rw [sess]; rfl

end

/-! SUPPORT. The operations on the one session's device: what each leaves, and its answer (R564 to R571). -/

theorem asked_leaves {s : State} {x : Sess} (alone : s.dev.sess = [x]) (source : Nat) :
    Leaves x source (asked s x source) (x.asked s.clk source) s.dev.staged := by
  rw [asked_eq alone]
  exact ⟨rfl, rfl, rfl, rfl, rfl, rfl, rfl, rfl, rfl⟩

section
variable {x y : Sess} {source : Nat} {e : Dev} {l : List Staged} (left : Leaves x source e y l)
include left

theorem Leaves.sessOf : e.sessOf x.num = some y := left.num ▸ Dev.sessOf_single left.alone

/-- Objects may change. -/
theorem Leaves.objs {e' : Dev} (objs : e.objsOnly e') (out : e'.out = e.out) : Leaves x source e' y l := by
  have same : bare e' = bare e := objs
  have sess := congrArg Dev.sess same
  have staged := congrArg Dev.staged same
  exact { left with alone := Eq.trans sess left.alone, silent := out.trans left.silent, staged := Eq.trans staged left.staged }

/-- So may what else the session holds, but its answers. -/
theorem Leaves.updSess {f : Sess → Sess} (kept : ((f y).num, (f y).seq, (f y).entry, (f y).key, (f y).source, (f y).pends) =
    (y.num, y.seq, y.entry, y.key, y.source, y.pends)) : Leaves x source (e.updSess x.num f) (f y) l := by
  simp only [Prod.mk.injEq] at kept
  obtain ⟨num, seq, entry, key, sender, pends⟩ := kept
  rw [← left.num, Dev.updSess_single left.alone]
  exact ⟨rfl, left.silent, left.staged, num.trans left.num, seq.trans left.seq, entry.trans left.entry, key.trans left.key, sender.trans left.source,
    pends.trans left.begun⟩

/-- No answer of the request waits yet, for a group or for a boundary. -/
theorem Leaves.updWait (was : Nat) (f : OpRec → OpRec) : Leaves x source (e.updWait x.num was f)
    { y with pends := y.pends.map fun p => { p with recs := p.recs.map fun r => if r.wait == was then f r else r } } l :=
  left.updSess (by simp [left.begun])

end

/-- What is staged goes among what was staged before. -/
theorem Leaves.stage {x y : Sess} {source : Nat} {d e : Dev} (left : Leaves x source e y d.staged) (g : Staged) :
    Leaves x source (e.stage g) y (d.stage g).staged := { left with staged := by simp [Dev.stage, left.staged] }

/-- What a check of a write leaves behind is in objects. -/
theorem Dev.noteCheck_objsOnly (d : Dev) (w : WriteOp) (st : Nat) (f : Dev) : d.objsOnly (d.noteCheck w st f) := by
  unfold Dev.noteCheck
  dsimp only
  split
  · exact Dev.objsOnly_put (Dev.objsOnly_refl d) _ _ _ _
  · split
    · exact Dev.objsOnly_put (Dev.objsOnly_refl d) _ _ _ _
    · exact Dev.objsOnly_refl d

theorem Dev.noteCheck_out (d : Dev) (w : WriteOp) (st : Nat) (f : Dev) : (d.noteCheck w st f).out = d.out := by
  unfold Dev.noteCheck
  dsimp only
  split
  · rfl
  · split <;> rfl

/-- So is what the check of one member of a group does, which counts those before it as staged. -/
theorem Dev.memberChecked_objsOnly (done : List WriteOp) (w : WriteOp) (st : Nat) (f d : Dev) :
    d.objsOnly { (d.counted done).noteCheck w st f with staged := d.staged } := by
  have noted : bare ((d.counted done).noteCheck w st f) = bare (d.counted done) := Dev.noteCheck_objsOnly (d.counted done) w st f
  have unstaged := congrArg (fun e : Dev => { e with staged := d.staged }) noted
  exact unstaged

/-- The checks of a group's members leave only objects behind. -/
theorem Dev.checkGroup_objsOnly (m : Memory) (f : Dev) (ws done : List WriteOp) (a d : Dev) :
    d.objsOnly (Dev.checkGroup m f done ws a d).2.2 ∧ (Dev.checkGroup m f done ws a d).2.2.out = d.out := by
  induction ws generalizing done a d with
  | nil => exact ⟨rfl, rfl⟩
  | cons w ws ih =>
    have noted := Dev.memberChecked_objsOnly done w ((d.counted done).post w false m a f) f d
    have silent := Dev.noteCheck_out (d.counted done) w ((d.counted done).post w false m a f) f
    unfold Dev.checkGroup
    dsimp only
    split
    · exact ⟨noted, silent⟩
    · obtain ⟨objs, out⟩ := ih (done ++ [w]) (a.stands w) { (d.counted done).noteCheck w ((d.counted done).post w false m a f) f with staged := d.staged }
      exact ⟨Dev.objsOnly_trans noted objs, out.trans silent⟩

theorem Dev.checkOne_objsOnly (tick : Nat) (w : WriteOp) (m : Memory) (d : Dev) :
    d.objsOnly (d.checkOne tick w false m).2 ∧ (d.checkOne tick w false m).2.out = d.out :=
  ⟨Dev.noteCheck_objsOnly _ _ _ _, Dev.noteCheck_out _ _ _ _⟩

/-! SUPPORT. READ of a scalar (R566, R568, R569). -/

/-- The scalars of numbers that may be read without being cleared: one element, and no read of theirs takes from a FIFO. -/
theorem readable_scalar : ∀ o ∈ Od.all, o.arr = false → o.isBytes = false → o.acc = .ro ∨ o.acc = .rw →
    o.count = 1 ∧ o.idx * 256 + o.sub ≠ 0x604008 ∧ o.idx * 256 + o.sub ≠ 0x680006 := by
  decide +kernel

/-- What a read of an object that is not cleared by it leaves: captured objects alone (R13, R671). -/
theorem Dev.readDone_objsOnly (k : Clk) {o : Obj} (kept : o.acc ≠ .rc) (i : Nat) (es : List Nat) (d : Dev) :
    d.objsOnly (d.readDone k o i es) ∧ (d.readDone k o i es).out = d.out := by
  unfold Dev.readDone
  split
  · exact ⟨rfl, rfl⟩
  · exact ⟨rfl, rfl⟩
  · rw [if_neg kept]; exact ⟨rfl, rfl⟩

/-- A READ of such a scalar answers its value, and what the read itself does is done. -/
theorem Dev.readBytes_scalar (k : Clk) (m : Memory) {d : Dev} {o : Obj} {i : Nat} (known : o ∈ Od.all) (scalar : o.arr = false) (number : o.isBytes = false)
    (readable : o.acc = .ro ∨ o.acc = .rw) (plain : plainWords d = true) (copies : d.dictPoison = []) (here : o.ofPort = false ∨ d.portExists i = true) :
    d.readBytes k m o i 0 o.count = (0, o.ty.encode (d.past.value k o i 0), d.readDone k o i [0]) := by
  obtain ⟨one, noEventFifo, noCaptureFifo⟩ := readable_scalar o known scalar number readable
  obtain ⟨sound, unflipped⟩ := plainWords_lists plain
  have found : d.counterFound o i [0] = d := by simp [Dev.counterFound, sound, unflipped]
  have good : d.readBad o i = false := by simp [Dev.readBad, Dev.poisoned, copies, sound]
  have present : (o.ofPort && !d.portExists i) = false := by rcases here with h | h <;> simp [h]
  have pop : d.popRead o i = none := by
    unfold Dev.popRead
    split
    · contradiction
    · contradiction
    · rfl
  simp [Dev.readBytes, one, found, good, present, number, pop]

theorem ObjTy.bytes_le (t : ObjTy) : t.bytes ≤ 10 := by cases t <;> decide

theorem ObjTy.encode_length (t : ObjTy) (v : Int) : (t.encode v).length = t.bytes := bytesLE_length _ _

theorem Dev.portExists_lt {d : Dev} {p : Nat} (h : d.portExists p = true) : p < 1024 := by
  by_contra beyond
  simp [Dev.portExists, Dev.portWidth, beyond] at h

/-- What a request's record finds of stored words, copies and ports is as it was. -/
theorem asked_ground {s : State} {x : Sess} (alone : s.dev.sess = [x]) (source : Nat) (plain : plainWords s.dev = true) :
    plainWords (asked s x source) = true ∧ (asked s x source).dictPoison = s.dev.dictPoison ∧
      ∀ p, s.dev.portExists p = true → (asked s x source).portExists p = true := by
  have wrote := asked_wrote alone source
  refine ⟨Dev.wrote_plainWords (d' := { asked s x source with sess := s.dev.sess }) wrote (by decide) plain, by rw [asked_eq alone]; rfl, fun p here => ?_⟩
  have port := Dev.portExists_lt here
  have mode : (asked s x source).n Od.OCTET_MODE (p / 8) = s.dev.n Od.OCTET_MODE (p / 8) := by
    refine Dev.wrote_n wrote ?_
    rw [List.mem_singleton]
    exact Obj.key_ne (by decide) (by omega) (by omega) (by omega) (by omega)
  rw [Dev.portExists, Dev.portWidth, mode]
  exact here

/-- The write that a record of a request asks for (R567). -/
def OpReq.write (r : OpReq) : WriteOp := ⟨r.idx, r.inst, r.sub, r.off, r.value⟩

/-- The checks of a group's commit, of its members in turn (R571). -/
def groupChecked (s : State) (x : Sess) (source tick : Nat) (ws : List WriteOp) : Nat × Nat × Dev :=
  Dev.checkGroup s.mem (((asked s x source).asOf tick).each ws fun d w => d.stands w) [] ws ((asked s x source).asOf tick) (asked s x source)

/-- A session after a READ_SEG of snapshot h up to an offset: its last byte frees it, any other renews its time (R569). -/
def Sess.segmentRead (k : Clk) (h : Snap) (upTo : Nat) (y : Sess) : Sess :=
  { y with snaps := if upTo = h.bytes.length then y.snaps.filter fun z => z.handle != h.handle
                    else y.snaps.map fun (z : Snap) => if z.handle == h.handle then { z with tick := k.tick } else z }

section
variable {s : State} {x : Sess} {source : Nat} {r : OpReq} (alone : s.dev.sess = [x])
include alone

/-- READ of a scalar. -/
theorem outcome_read {o : Obj} (op : r.op = 1) (named : objOf r.idx r.sub = some o) (number : o.isBytes = false) (scalar : o.arr = false)
    (readable : o.acc = .ro ∨ o.acc = .rw) (unit : o.hasInst r.inst = true) (plain : plainWords s.dev = true) (copies : s.dev.dictPoison = [])
    (here : o.ofPort = false ∨ s.dev.portExists r.inst = true) (off : r.off = 0) (len : r.len = 0) (room : 1024 ≤ x.most) :
    outcome s x source r = ({ r.answer with value := o.ty.encode ((asked s x source).past.value s.clk o r.inst 0), tick := s.clk.tick },
      (asked s x source).readDone s.clk o r.inst [0]) := by
  obtain ⟨plain', copies', ports⟩ := asked_ground alone source plain
  have notWriteOnly : o.acc ≠ .wo := by rcases readable with h | h <;> simp [h]
  have check : r.readCheck o = 0 := by simp [OpReq.readCheck, unit, notWriteOnly, number, scalar, off, len]
  have read := Dev.readBytes_scalar s.clk s.mem (List.mem_of_find?_eq_some named) scalar number readable plain' (copies'.trans copies)
    (here.imp_right (ports r.inst))
  have size := ObjTy.bytes_le o.ty
  have fits : o.ty.bytes ≤ 8 ∨ padded o.ty.bytes ≤ x.most - 64 := by unfold padded; omega
  simp [outcome, Dev.opRun, op, Dev.opRead, named, check, len, read, ObjTy.encode_length, fits]

/-- WRITE by itself. -/
theorem outcome_write (op : r.op = 2) (ungrouped : x.group = none) (pre : r.write.pre x.role = 0) (near : tickFar s.clk r.tick = false)
    (passes : ((asked s x source).checkOne (applyTick s.clk r.tick) r.write false s.mem).1 = 0) :
    outcome s x source r = ({ r.answer with wait := waitOf (x.seq + 1) 0 },
      ((asked s x source).checkOne (applyTick s.clk r.tick) r.write false s.mem).2.stage
        { tick := applyTick s.clk r.tick, ops := [r.write], entry := x.entry, session := x.num, seq := x.seq + 1, op := 0, role := x.role }) := by
  have found := (asked_leaves alone source).sessOf
  have ungrouped' : (x.asked s.clk source).group = none := ungrouped
  have pre' : r.write.pre (x.asked s.clk source).role = 0 := pre
  simp only [OpReq.write] at *
  simp [outcome, Dev.opRun, op, Dev.opWrite, Dev.acceptWrite, found, pre', ungrouped', near, passes]
  rfl

/-- WRITE into the open group. -/
theorem outcome_groupWrite {g : List WriteOp × Bool} (op : r.op = 2) (grouped : x.group = some g) (pre : r.write.pre x.role = 0) :
    outcome s x source r = ({ r.answer with flags := 4, wait := 1 },
      (asked s x source).updSess x.num fun y => { y with group := some (g.1 ++ [r.write], g.2) }) := by
  have found := (asked_leaves alone source).sessOf
  have grouped' : (x.asked s.clk source).group = some g := grouped
  have pre' : r.write.pre (x.asked s.clk source).role = 0 := pre
  simp only [OpReq.write] at *
  simp [outcome, Dev.opRun, op, Dev.opWrite, Dev.acceptWrite, found, pre', grouped']

/-- A first segment that is not the last. -/
theorem outcome_segment (op : r.op = 3) (first : x.seg = none) (off : r.off = 0) (part : r.len ≤ r.total) (more : bit r.flags 0 = false) :
    outcome s x source r = ({ r.answer with flags := 4 }, (asked s x source).updSess x.num fun y =>
      { y with seg := some { idx := r.idx, inst := r.inst, sub := r.sub, total := r.total, data := r.value } }) := by
  have found := (asked_leaves alone source).sessOf
  have first' : (x.asked s.clk source).seg = none := first
  simp [outcome, Dev.opRun, op, Dev.opWriteSeg, found, first', off, part, more]

/-- READ_SEG within a snapshot. -/
theorem outcome_readSeg {h : Snap} (op : r.op = 4) (kept : x.snaps.find? (fun y => y.handle == r.handle) = some h)
    (within : r.off + r.len ≤ h.bytes.length) (room : padded r.len ≤ x.most - 64) :
    outcome s x source r = ({ r.answer with value := sliceZ h.bytes r.off r.len, total := h.bytes.length, tick := s.clk.tick },
      (asked s x source).updSess x.num (Sess.segmentRead s.clk h (r.off + r.len))) := by
  have found := (asked_leaves alone source).sessOf
  have kept' : (x.asked s.clk source).snaps.find? (fun y => y.handle == r.handle) = some h := kept
  have fits : ¬ (h.bytes.length < r.off + r.len ∨ (x.most - 64 < padded r.len ∧ 8 < r.len)) := by omega
  simp only [outcome, Dev.opRun, op, Dev.opReadSeg, found, Option.bind_some, kept', if_neg fits]
  rfl

theorem outcome_begin (op : r.op = 5) (ungrouped : x.group = none) :
    outcome s x source r = (r.answer, (asked s x source).updSess x.num fun y => { y with group := some ([], false) }) := by
  have found := (asked_leaves alone source).sessOf
  have ungrouped' : (x.asked s.clk source).group = none := ungrouped
  simp [outcome, Dev.opRun, op, Dev.opBegin, found, ungrouped']

/-- GROUP_COMMIT of members that pass. -/
theorem outcome_commit {ws : List WriteOp} (op : r.op = 6) (grouped : x.group = some (ws, false)) (near : tickFar s.clk r.tick = false)
    (members : ws.length ≤ 1024) (bytes : (ws.map (·.data.length)).sum ≤ 65536) (words : (ws.map WriteOp.words).sum ≤ 4096)
    (passes : (groupChecked s x source (applyTick s.clk r.tick) ws).1 = 0) :
    outcome s x source r = ({ r.answer with wait := waitOf (x.seq + 1) 0 },
      (((groupChecked s x source (applyTick s.clk r.tick) ws).2.2.updSess x.num fun y => { y with group := none }).updWait x.num 1
        fun a => { a with wait := waitOf (x.seq + 1) 0 }).stage
        { tick := applyTick s.clk r.tick, ops := ws, group := true, entry := x.entry, session := x.num, seq := x.seq + 1, op := 0, role := x.role }) := by
  have found := (asked_leaves alone source).sessOf
  have grouped' : (x.asked s.clk source).group = some (ws, false) := grouped
  have small : ¬ (1024 < ws.length ∨ 65536 < (ws.map (·.data.length)).sum ∨ 4096 < (ws.map WriteOp.words).sum) := by omega
  simp only [groupChecked] at *
  simp only [outcome, Dev.opRun, op, Dev.opCommit, found, grouped', near, if_neg small, passes]
  rfl

theorem outcome_abort {g : List WriteOp × Bool} (op : r.op = 7) (grouped : x.group = some g) :
    outcome s x source r = (r.answer, (asked s x source).dropGroup x.num) := by
  have found := (asked_leaves alone source).sessOf
  have grouped' : (x.asked s.clk source).group = some g := grouped
  simp [outcome, Dev.opRun, op, Dev.opAbort, found, grouped']

end

/-- DESCRIBE of the object named itself (R564, R565). -/
theorem outcome_describe {s : State} {x : Sess} {source : Nat} {r : OpReq} {o : Obj} (op : r.op = 8) (itself : bit r.flags 1 = false)
    (named : objOf r.idx r.sub = some o) (unit : o.hasInst r.inst = true) :
    outcome s x source r = ({ r.answer with value := o.descriptor }, asked s x source) := by
  obtain ⟨idx, sub⟩ := objOf_address named
  simp [outcome, Dev.opRun, op, opDescribe, itself, describe, named, unit, idx, sub, OpReq.answer]

/-! SUPPORT. The rows of a REQUEST by their operations (R564 to R572). -/

section
variable {s : State} {x : Sess} {source : Nat} {bs : List Byte} {r : OpReq} (running : ready s = true) (comes : requestComes s x bs r)
include comes

theorem requestComes_alone : s.dev.sess = [x] := by
  obtain ⟨-, alone, -⟩ := comes
  exact alone

include running

theorem exec_opRead {o : Obj} (op : r.op = 1) (named : objOf r.idx r.sub = some o) (number : o.isBytes = false) (scalar : o.arr = false)
    (readable : o.acc = .ro ∨ o.acc = .rw) (unit : o.hasInst r.inst = true) (plain : plainWords s.dev = true) (copies : s.dev.dictPoison = [])
    (here : o.ofPort = false ∨ s.dev.portExists r.inst = true) (off : r.off = 0) (len : r.len = 0) (room : 1024 ≤ x.most) :
    ∃ t, exec (.opRead x.entry source bs) s = .next t ∧
      answered s t x source { r.answer with value := o.ty.encode ((asked s x source).past.value s.clk o r.inst 0), tick := s.clk.tick } := by
  have alone := requestComes_alone comes
  have kept : o.acc ≠ .rc := by rcases readable with h | h <;> simp [h]
  obtain ⟨objs, out⟩ := Dev.readDone_objsOnly s.clk kept r.inst [0] (asked s x source)
  obtain ⟨t, ran, answer, -⟩ := request_answers running comes (ops := fun o => o == 1 || o == 0 || decide (8 < o)) (by rw [op]; rfl)
    (outcome_read alone op named number scalar readable unit plain copies here off len room) ((asked_leaves alone source).objs objs out) rfl rfl
  exact ⟨t, ran, answer⟩

theorem exec_opWrite_alone (op : r.op = 2) (ungrouped : x.group = none) (pre : r.write.pre x.role = 0) (near : tickFar s.clk r.tick = false)
    (passes : ((asked s x source).checkOne (applyTick s.clk r.tick) r.write false s.mem).1 = 0) :
    ∃ t, exec (.opWrite x.entry source bs) s = .next t ∧ waits s t x ∧ t.dev.staged = (s.dev.stage
      { tick := applyTick s.clk r.tick, ops := [r.write], entry := x.entry, session := x.num, seq := x.seq + 1, op := 0, role := x.role }).staged := by
  have alone := requestComes_alone comes
  obtain ⟨objs, out⟩ := (asked s x source).checkOne_objsOnly (applyTick s.clk r.tick) r.write s.mem
  obtain ⟨t, ran, wait, staged, -⟩ := request_waits running comes (ops := (· == 2)) (by rw [op]; rfl)
    (outcome_write alone op ungrouped pre near passes) (((asked_leaves alone source).objs objs out).stage _) rfl (Nat.succ_ne_zero _)
  exact ⟨t, ran, wait, staged⟩

theorem exec_opWrite_grouped {g : List WriteOp × Bool} (op : r.op = 2) (grouped : x.group = some g) (pre : r.write.pre x.role = 0) :
    ∃ t, exec (.opWrite x.entry source bs) s = .next t ∧ waits s t x ∧ t.dev.staged = s.dev.staged ∧
      (t.dev.sess.map fun y => y.group) = [some (g.1 ++ [r.write], g.2)] := by
  have alone := requestComes_alone comes
  exact request_waits running comes (ops := (· == 2)) (by rw [op]; rfl) (outcome_groupWrite alone op grouped pre)
    ((asked_leaves alone source).updSess rfl) rfl Nat.one_ne_zero

theorem exec_opWriteSeg_first (op : r.op = 3) (first : x.seg = none) (off : r.off = 0) (part : r.len ≤ r.total) (more : bit r.flags 0 = false) :
    ∃ t, exec (.opWriteSeg x.entry source bs) s = .next t ∧ answered s t x source { r.answer with flags := 4 } ∧ t.dev.staged = s.dev.staged ∧
      (t.dev.sess.map fun y => y.seg) = [some { idx := r.idx, inst := r.inst, sub := r.sub, total := r.total, data := r.value }] := by
  have alone := requestComes_alone comes
  obtain ⟨t, ran, answer, staged, -, seg⟩ := request_answers running comes (ops := (· == 3)) (by rw [op]; rfl)
    (outcome_segment alone op first off part more) ((asked_leaves alone source).updSess rfl) rfl rfl
  exact ⟨t, ran, answer, staged, seg⟩

theorem exec_opReadSeg {h : Snap} (op : r.op = 4) (kept : x.snaps.find? (fun y => y.handle == r.handle) = some h)
    (within : r.off + r.len ≤ h.bytes.length) (room : padded r.len ≤ x.most - 64) :
    ∃ t, exec (.opReadSeg x.entry source bs) s = .next t ∧
      answered s t x source { r.answer with value := sliceZ h.bytes r.off r.len, total := h.bytes.length, tick := s.clk.tick } := by
  have alone := requestComes_alone comes
  obtain ⟨t, ran, answer, -⟩ := request_answers running comes (ops := (· == 4)) (by rw [op]; rfl)
    (outcome_readSeg alone op kept within room) ((asked_leaves alone source).updSess rfl) rfl rfl
  exact ⟨t, ran, answer⟩

theorem exec_groupBegin (op : r.op = 5) (ungrouped : x.group = none) :
    ∃ t, exec (.groupBegin x.entry source bs) s = .next t ∧ answered s t x source r.answer ∧ (t.dev.sess.map fun y => y.group) = [some ([], false)] := by
  have alone := requestComes_alone comes
  obtain ⟨t, ran, answer, -, group, -⟩ := request_answers running comes (ops := (· == 5)) (by rw [op]; rfl)
    (outcome_begin alone op ungrouped) ((asked_leaves alone source).updSess rfl) rfl rfl
  exact ⟨t, ran, answer, group⟩

theorem exec_groupCommit {ws : List WriteOp} (op : r.op = 6) (grouped : x.group = some (ws, false)) (near : tickFar s.clk r.tick = false)
    (members : ws.length ≤ 1024) (bytes : (ws.map (·.data.length)).sum ≤ 65536) (words : (ws.map WriteOp.words).sum ≤ 4096)
    (passes : (groupChecked s x source (applyTick s.clk r.tick) ws).1 = 0) :
    ∃ t, exec (.groupCommit x.entry source bs) s = .next t ∧ waits s t x ∧ (t.dev.sess.map fun y => y.group) = [none] ∧ t.dev.staged = (s.dev.stage
      { tick := applyTick s.clk r.tick, ops := ws, group := true, entry := x.entry, session := x.num, seq := x.seq + 1, op := 0, role := x.role }).staged := by
  have alone := requestComes_alone comes
  obtain ⟨objs, out⟩ := Dev.checkGroup_objsOnly s.mem (((asked s x source).asOf (applyTick s.clk r.tick)).each ws fun d w => d.stands w) ws []
    ((asked s x source).asOf (applyTick s.clk r.tick)) (asked s x source)
  have checked := (asked_leaves alone source).objs objs out
  obtain ⟨t, ran, wait, staged, group⟩ := request_waits running comes (ops := (· == 6)) (by rw [op]; rfl)
    (outcome_commit alone op grouped near members bytes words passes) (((checked.updSess rfl).updWait 1 _).stage _) rfl (Nat.succ_ne_zero _)
  exact ⟨t, ran, wait, group, staged⟩

theorem exec_groupAbort {g : List WriteOp × Bool} (op : r.op = 7) (grouped : x.group = some g) :
    ∃ t, exec (.groupAbort x.entry source bs) s = .next t ∧ answered s t x source r.answer ∧ (t.dev.sess.map fun y => y.group) = [none] := by
  have alone := requestComes_alone comes
  obtain ⟨t, ran, answer, -, group, -⟩ := request_answers running comes (ops := (· == 7)) (by rw [op]; rfl)
    (outcome_abort alone op grouped) (((asked_leaves alone source).updSess rfl).updWait 1 _) rfl rfl
  exact ⟨t, ran, answer, group⟩

theorem exec_opDescribe {o : Obj} (op : r.op = 8) (itself : bit r.flags 1 = false) (named : objOf r.idx r.sub = some o) (unit : o.hasInst r.inst = true) :
    ∃ t, exec (.opDescribe x.entry source bs) s = .next t ∧ answered s t x source { r.answer with value := o.descriptor } := by
  obtain ⟨t, ran, answer, -⟩ := request_answers running comes (ops := (· == 8)) (by rw [op]; rfl)
    (outcome_describe op itself named unit) (asked_leaves (requestComes_alone comes) source) rfl rfl
  exact ⟨t, ran, answer⟩

end

/-- Settles O46, row by row of the operations. -/
theorem dictionaryOperations : Obligations.DictionaryOperations := by
  intro s x source bs r running plain copies comes
  refine ⟨?_, fun op => ⟨?_, ?_⟩, ?_, ?_, ?_, ?_, ?_, ?_⟩
  · intro o op named number scalar readable unit here off len room
    exact exec_opRead running comes op named number scalar readable unit plain copies here off len room
  · intro ungrouped pre near passes
    exact exec_opWrite_alone running comes op ungrouped pre near passes
  · intro g grouped pre
    exact exec_opWrite_grouped running comes op grouped pre
  · intro op first off part more
    exact exec_opWriteSeg_first running comes op first off part more
  · intro h op kept within room
    exact exec_opReadSeg running comes op kept within room
  · intro op ungrouped
    exact exec_groupBegin running comes op ungrouped
  · intro ws op grouped near members bytes words passes
    exact exec_groupCommit running comes op grouped near members bytes words passes
  · intro g op grouped
    exact exec_groupAbort running comes op grouped
  · intro o op itself named unit
    exact exec_opDescribe running comes op itself named unit

end Sys2Proof.Machine

namespace Sys2Proof.Machine
open Sys2Proof.Safety

/-! SUPPORT. Objects of the ports, and effects that wait for the next boundary. -/

/-- A write at one port changes no other object of any port. -/
theorem Dev.n_put_port (d : Dev) {o q : Obj} {p j : Nat} (port : p < 1024) (unit : j < 1024) (other : o.idx * 256 + o.sub ≠ q.idx * 256 + q.sub) (v : Nat) :
    (d.put o p v).n q j = d.n q j := Dev.n_put_other _ _ _ _ _ _ _ _ (key_ne_port port other unit (by decide) (by decide))

theorem Dev.objsOnly_dues {d d' : Dev} (h : d.objsOnly d') : d'.dues = d.dues := by
  have same := congrArg Dev.dues (show bare d' = bare d from h)
  exact same

@[simp] theorem Dev.get_later (d : Dev) (x : Due) (o : Obj) (i e : Nat) : (d.later x).get o i e = d.get o i e := by
  unfold Dev.later; split <;> rfl

@[simp] theorem Dev.n_later (d : Dev) (x : Due) (o : Obj) (i e : Nat) : (d.later x).n o i e = d.n o i e := by
  rw [Dev.n, Dev.get_later]; rfl

/-- An effect joins those that wait, whatever objects were written before. -/
theorem Dev.bare_later {d d' : Dev} (h : d.objsOnly d') (x : Due) : bare (d'.later x) = bare (d.later x) := by
  have same : bare d' = bare d := h
  unfold Dev.later
  rw [Dev.objsOnly_dues h]
  split
  · exact same
  · exact congrArg (fun b : Dev => { b with dues := d.dues ++ [x] }) same

/-- A chain of object writes that leaves an effect to the next boundary. -/
theorem writesAndWaits_of {keys : List Nat} {x : Due} {s : State} {d' : Dev} (h : s.dev.wrote keys d') :
    writesAndWaits keys x s { s with dev := d'.later x } := by
  obtain ⟨objs, reads⟩ := h
  exact ⟨⟨rfl, rfl, rfl⟩, Dev.bare_later objs x, fun o i e unwritten => (Dev.get_later _ _ _ _ _).trans (reads o i e unwritten)⟩

/-! SUPPORT. The steps of bring-up, references and loss (R60, R67, R70, R678). -/

/-- Settles O7: each step writes its own bit of UP_STEPS. -/
theorem linkStepsRecorded : Obligations.LinkStepsRecorded := by
  intro s p running port training
  have step (v : Nat) : s.dev.wrote [Rg.UP_STEPS.key p 0] (s.dev.silent.put Rg.UP_STEPS p v) :=
    Dev.wrote_put (Dev.wrote_silent _ _) _ _ _ _ (by simp)
  have reads (d : Dev) (v : Nat) : (d.put Rg.UP_STEPS p v).n Rg.UP_STEPS p = v := Dev.n_put_same _ _ _ _ _ rfl
  refine ⟨?_, fun baseR signal asked => ?_, fun asked before => ?_, fun made => ?_⟩
  · exact ⟨_, State.runIf_eq running (decide_eq_true port) (if_pos training), onlyWrites_of (step _), reads _ _⟩
  · refine ⟨_, State.runIf_eq running (decide_eq_true port) (if_pos ⟨training, signal, asked⟩), onlyWrites_of ?_, ?_, Dev.n_put_same _ _ _ _ _ rfl⟩
    · exact Dev.wrote_put (Dev.wrote_mono (step _) (by simp)) _ _ _ _ (by simp)
    · exact (Dev.n_put_port _ port port (by decide) _).trans (reads _ _)
  · exact ⟨_, State.runIf_eq running (decide_eq_true port) (if_pos ⟨training, asked, before⟩), onlyWrites_of (step _), reads _ _⟩
  · exact ⟨_, State.runIf_eq running (decide_eq_true port) (if_pos ⟨training, made⟩), writesAndWaits_of (step _), (Dev.n_later _ _ _ _ _).trans (reads _ _)⟩

/-- Settles O9: a loss waits as its effect; a comparison writes the count of good ones alone. -/
theorem linkLossAndReferences : Obligations.LinkLossAndReferences := by
  intro s running
  refine ⟨fun p port receives => ?_, fun x ppm sorus => ⟨fun good fault few => ?_, fun bad fault => ?_, fun good sound => ?_⟩⟩
  · exact ⟨_, State.runIf_eq running (decide_eq_true port) (if_pos receives), writesAndWaits_of (Dev.wrote_silent _ _)⟩
  · have counted : s.dev.n Rg.REF_GOOD x + 1 < 10 := by omega
    refine ⟨_, State.runIf_eq running (decide_eq_true sorus) (d' := s.dev.silent.put Rg.REF_GOOD x (s.dev.n Rg.REF_GOOD x + 1)) ?_,
      onlyWrites_of (Dev.wrote_put (Dev.wrote_silent _ _) _ _ _ _ (by simp)), Dev.n_put_same _ _ _ _ _ rfl⟩
    simp [Nat.not_lt.mpr good, fault, counted]
  · have still : (s.dev.silent.put Rg.REF_GOOD x 0).on Rg.REF_FAULT x = true :=
      (congrArg (· != 0) (Dev.n_put_port _ (by omega) (by omega) (by decide) _)).trans fault
    refine ⟨_, State.runIf_eq running (decide_eq_true sorus) (d' := s.dev.silent.put Rg.REF_GOOD x 0) ?_,
      onlyWrites_of (Dev.wrote_put (Dev.wrote_silent _ _) _ _ _ _ (by simp)), Dev.n_put_same _ _ _ _ _ rfl⟩
    simp [bad, still]
  · refine ⟨_, State.runIf_eq running (decide_eq_true sorus) (d' := s.dev.silent) ?_, onlyWrites_of (Dev.wrote_silent _ _)⟩
    simp [Nat.not_lt.mpr good, sound]

/-! SUPPORT. What the lanes measure (R62, R63, R72, R96). -/

theorem ObjTy.norm_u16 {v : Nat} (h : v < 65536) : ObjTy.norm .u16 v = v := by simp only [ObjTy.norm]; omega

/-- A count reads its sum, saturated at what its type holds. -/
theorem Dev.n_bump_same (d : Dev) (o : Obj) (i n : Nat) (fits : ∀ v : Nat, v ≤ o.ty.top → o.ty.norm v = v) :
    (d.bump o i n).n o i = satAdd o.ty.top (d.n o i) n := Dev.n_put_same _ _ _ _ _ (fits _ (Nat.min_le_left _ _))

theorem ObjTy.norm_u32_top {v : Nat} (h : v ≤ ObjTy.top .u32) : ObjTy.norm .u32 v = v := by simp only [ObjTy.norm, ObjTy.top] at *; omega

theorem ObjTy.norm_u64_top {v : Nat} (h : v ≤ ObjTy.top .u64) : ObjTy.norm .u64 v = v := by simp only [ObjTy.norm, ObjTy.top] at *; omega

/-- The frames that a port is receiving are marked with an uncorrectable codeword (R96). -/
def Dev.markRx (p : Nat) (d : Dev) : Dev :=
  { d with rx := d.rx.map fun (f : RxFrame) => if f.port == p then { f with errs := f.errs ||| 8 } else f }

/-- The eye of an active lane with a baseline, at or above its guard. -/
theorem exec_eyeScan_open {s : State} (running : ready s = true) {l height width : Nat} (lane : l < 1024) (high : height < 65536)
    (active : s.dev.n Od.LANE_STATE l = 2) (baseline : s.dev.on Rg.AGE_LANE l = true) (guard : s.dev.n Od.LANE_EQ_GUARD l ≤ height) :
    exec (.eyeScan l height width) s = .next { s with
      dev := ((s.dev.silent.put Od.LANE_EYE_HEIGHT l height).put Od.LANE_EYE_WIDTH l width).put Rg.BELOW_GUARD l 0 } := by
  generalize heq : (s.dev.silent.put Od.LANE_EYE_HEIGHT l height).put Od.LANE_EYE_WIDTH l width = e
  have same {q : Obj} (h : q.idx * 256 + q.sub ≠ Od.LANE_EYE_HEIGHT.idx * 256 + Od.LANE_EYE_HEIGHT.sub)
      (w : q.idx * 256 + q.sub ≠ Od.LANE_EYE_WIDTH.idx * 256 + Od.LANE_EYE_WIDTH.sub) : e.n q l = s.dev.n q l := by
    rw [← heq, Dev.n_put_port _ lane lane w.symm, Dev.n_put_port _ lane lane h.symm]; rfl
  have eye : e.n Od.LANE_EYE_HEIGHT l = height := by
    rw [← heq, Dev.n_put_port _ lane lane (by decide)]; exact Dev.n_put_same _ _ _ _ _ (ObjTy.norm_u16 high)
  have based : e.on Rg.AGE_LANE l = true := (congrArg (· != 0) (same (by decide) (by decide))).trans baseline
  have above : ¬ e.n Od.LANE_EYE_HEIGHT l < e.n Od.LANE_EQ_GUARD l := by
    rw [eye, same (by decide) (by decide)]; omega
  refine State.runIf_eq running (decide_eq_true lane) ?_
  simp [active, heq, based, above]

/-- Settles O10: the writes of an eye scan, and of a codeword without and with an error. -/
theorem laneMeasurements : Obligations.LaneMeasurements := by
  intro s running
  refine ⟨fun l height width lane high wide active baseline guard => ?_, fun p port receives fec => ⟨?_, fun short => ?_⟩⟩
  · refine ⟨_, exec_eyeScan_open running lane high active baseline guard, onlyWrites_of ?_, ?_, ?_, Dev.n_put_same _ _ _ _ _ rfl⟩
    · iterate 3 refine Dev.wrote_put ?_ _ _ _ _ (by simp)
      exact Dev.wrote_silent _ _
    · dsimp only
      rw [Dev.n_put_port _ lane lane (by decide), Dev.n_put_port _ lane lane (by decide)]
      exact Dev.n_put_same _ _ _ _ _ (ObjTy.norm_u16 high)
    · dsimp only
      rw [Dev.n_put_port _ lane lane (by decide)]
      exact Dev.n_put_same _ _ _ _ _ (ObjTy.norm_u16 wide)
  · refine ⟨_, State.runIf_eq running (d' := s.dev.silent.put Rg.BAD_CODEWORDS p 0) (by simp [okPort, port]) ?_,
      onlyWrites_of (Dev.wrote_put (Dev.wrote_silent _ _) _ _ _ _ (by simp)), Dev.n_put_same _ _ _ _ _ rfl⟩
    exact if_pos (by rw [Bool.and_eq_true]; exact ⟨receives, fec⟩)
  · have run : ((s.dev.silent.bump Od.PORT_FEC_UNCORRECTED p).markRx p).n Rg.BAD_CODEWORDS p = s.dev.n Rg.BAD_CODEWORDS p :=
      Dev.n_put_port _ port port (by decide) _
    refine ⟨_, State.runIf_eq running (by simp [okPort, port])
      (d' := ((s.dev.silent.bump Od.PORT_FEC_UNCORRECTED p).markRx p).put Rg.BAD_CODEWORDS p (s.dev.n Rg.BAD_CODEWORDS p + 1)) ?_,
      ⟨rfl, rfl, rfl⟩, Dev.n_put_same _ _ _ _ _ rfl, ?_, rfl⟩
    · have shortRun : ¬ ((s.dev.silent.bump Od.PORT_FEC_UNCORRECTED p).markRx p).n Rg.BAD_CODEWORDS p + 1 = 8 := by rw [run]; omega
      refine (if_pos (by rw [Bool.and_eq_true]; exact ⟨receives, fec⟩)).trans ((if_neg shortRun).trans ?_)
      exact congrArg (fun n => Dev.put _ Rg.BAD_CODEWORDS p (n + 1)) run
    · exact (Dev.n_put_port _ port port (by decide) _).trans (Dev.n_bump_same _ _ _ _ fun _ => ObjTy.norm_u64_top)

end Sys2Proof.Machine

namespace Sys2Proof.Machine
open Sys2Proof.Safety

/-! SUPPORT. Bring-up of a port that is not in service (R67 to R69). -/

/-- What every turn of a loop keeps, the loop keeps. -/
theorem Dev.each_keeps {α : Type} {P : Dev → Prop} {f : Dev → α → Dev} (l : List α) (turn : ∀ d x, x ∈ l → P d → P (f d x)) {d : Dev} (h : P d) :
    P (d.each l f) := by
  induction l generalizing d with
  | nil => exact h
  | cons x l ih => exact ih (fun d y hy => turn d y (by simp [hy])) (turn d x (by simp) h)

/-- The objects of a port out of service, besides its link state. -/
def idleObjs : List Obj :=
  [Od.LANE_STATE, Od.PORT_ACTIVE_LANES, Od.PORT_SHED_PEER_CAPABLE, Rg.RX_LANES, Rg.CHG_PHASE, Rg.REQ_TYPE, Rg.WAKING, Rg.UP_ORIGIN, Rg.UP_STEPS,
    Rg.BAD_CODEWORDS, Rg.LOCK_HELD, Rg.AGE_LANE]

/-- The device e is d after work on port p, which is not in service: objects alone differ, other ports keep their state, and of the frames of the MACs l wait. -/
structure Dev.Idled (p : Nat) (l : List Out) (d e : Dev) : Prop where
  same : bare e = bare { d with ctl := l }
  reads : ∀ (q : Obj) (j f : Nat), j < 65536 → f < 65536 → (∀ o ∈ Od.PORT_LINK_STATE :: idleObjs, o.idx * 256 + o.sub ≠ q.idx * 256 + q.sub) →
    e.get q j f = d.get q j f
  links : ∀ j, j < 65536 → j ≠ p → e.link j = d.link j
  idle : e.inService p = false

theorem Dev.inService_of_link {d e : Dev} {p : Nat} (h : e.link p = d.link p) : e.inService p = d.inService p := by simp only [Dev.inService, h]

theorem Dev.Idled.refl {p : Nat} {d : Dev} (idle : d.inService p = false) : Dev.Idled p d.ctl d d :=
  ⟨rfl, fun _ _ _ _ _ _ => rfl, fun _ _ _ => rfl, idle⟩

/-- The link states of a port that neither is in service nor PARKED. -/
def outStates : List Nat := [lkDISABLED, lkTRAINING, lkDOWN, lkNO_REFCLK]

theorem outStates_apart : ∀ st ∈ outStates, st ≠ lkUP ∧ st ≠ lkCHANGEOVER ∧ st ≠ lkPARKED ∧ Od.PORT_LINK_STATE.ty.norm st = st := by decide

theorem Dev.inService_out {d : Dev} {p : Nat} (out : d.link p ∈ outStates) : d.inService p = false := by
  obtain ⟨up, changeover, -, -⟩ := outStates_apart _ out
  simp [Dev.inService, up, changeover]

theorem Dev.dropCtl_out {d : Dev} {p : Nat} (out : d.link p ∈ outStates) :
    d.dropCtl p = { d with ctl := d.ctl.filter fun o => o.unit != p } := by
  have parked : (d.link p == lkPARKED) = false := beq_false_of_ne (outStates_apart _ out).2.2.1
  simp [Dev.dropCtl, Dev.inService_out out, parked]

@[simp] theorem Dev.n_dropCtl (d : Dev) (p : Nat) (o : Obj) (i e : Nat) : (d.dropCtl p).n o i e = d.n o i e := rfl

/-- What a link state out of service leaves alone. -/
theorem Dev.n_setLink_out (k : Clk) {d : Dev} {p : Nat} (port : p < 1024) (idle : d.inService p = false) {st : Nat} (out : st ∈ outStates)
    {q : Obj} {j : Nat} (unit : j < 1024)
    (state : Od.PORT_LINK_STATE.idx * 256 + Od.PORT_LINK_STATE.sub ≠ q.idx * 256 + q.sub)
    (capable : Od.PORT_SHED_PEER_CAPABLE.idx * 256 + Od.PORT_SHED_PEER_CAPABLE.sub ≠ q.idx * 256 + q.sub) : (d.setLink k p st).n q j = d.n q j := by
  obtain ⟨up, changeover, parked, fits⟩ := outStates_apart st out
  rw [Dev.setLink_idle k d p st idle up changeover parked fits]
  rw [Dev.n_dropCtl, Dev.n_put_port _ port unit capable, Dev.n_put_port _ port unit state]

section
variable {p : Nat} {l : List Out} {d e : Dev} (h : Dev.Idled p l d e)
include h

theorem Dev.Idled.ctl : e.ctl = l := by
  have same := congrArg Dev.ctl h.same
  exact same

/-- Another step that changes elements of those objects alone. -/
theorem Dev.Idled.step {e' : Dev} (port : p < 1024) (objs : e.objsOnly e') {o : Obj} (known : o ∈ idleObjs)
    (reads : ∀ (q : Obj) (j f : Nat), j < 65536 → f < 65536 → o.idx * 256 + o.sub ≠ q.idx * 256 + q.sub → e'.get q j f = e.get q j f) :
    Dev.Idled p l d e' := by
  have apart : ∀ o ∈ idleObjs, o.idx * 256 + o.sub ≠ Od.PORT_LINK_STATE.idx * 256 + Od.PORT_LINK_STATE.sub := by decide
  have link (j : Nat) (hj : j < 65536) : e'.link j = e.link j := Dev.link_of_get (reads _ _ _ hj (by omega) (apart o known))
  refine ⟨Eq.trans objs h.same, fun q j f hj hf other => ?_, fun j hj hp => (link j hj).trans (h.links j hj hp), ?_⟩
  · rw [reads q j f hj hf (other o (by simp [known])), h.reads q j f hj hf other]
  · rw [Dev.inService_of_link (link p (by omega)), h.idle]

theorem Dev.Idled.put (port : p < 1024) {o : Obj} (known : o ∈ idleObjs) {i : Nat} (hi : i < 65536) (v : Nat) : Dev.Idled p l d (e.put o i v) :=
  h.step port rfl known fun _ _ _ hj hf other => Dev.get_put_other _ _ _ _ _ _ _ _ (Obj.key_ne other hi hj (by omega) hf)

theorem Dev.Idled.clearInst (port : p < 1024) {o : Obj} (known : o ∈ idleObjs) {i : Nat} (hi : i < 65536) : Dev.Idled p l d (e.clearInst o i) :=
  h.step port rfl known fun q j f hj hf other => Dev.get_clearInst_other _ _ _ _ _ _ (by
    have key : q.key j f / 65536 = (q.idx * 256 + q.sub) * 65536 + j := by unfold Obj.key; omega
    omega)

theorem Dev.Idled.setLanes (port : p < 1024) {a n : Nat} (lanes : a + n ≤ 2048) (st : Nat) : Dev.Idled p l d (e.setLanes a n st) :=
  Dev.each_keeps _ (fun e i hi g => g.put port (by simp [idleObjs]) (e.lanePhys_lt (by have := List.mem_range.mp hi; omega)) st) h

theorem Dev.Idled.lanesOff (port : p < 1024) (st : Nat) : Dev.Idled p l d (e.lanesOff p st) := by
  have width := e.portWidth_le p
  unfold Dev.lanesOff Dev.dropChange
  iterate 5 refine Dev.Idled.put ?_ port (by simp [idleObjs]) (by omega) _
  exact h.setLanes port (by omega) st

/-- The port's link state becomes one of them. -/
theorem Dev.Idled.setLink (port : p < 1024) (k : Clk) {st : Nat} (out : st ∈ outStates) :
    Dev.Idled p (l.filter fun o => o.unit != p) d (e.setLink k p st) ∧ (e.setLink k p st).link p = st := by
  obtain ⟨up, changeover, parked, fits⟩ := outStates_apart st out
  have link : ((e.put Od.PORT_LINK_STATE p st).put Od.PORT_SHED_PEER_CAPABLE p 0).link p = st := by
    rw [Dev.link, Dev.n_put_port _ port port (by decide)]; exact Dev.n_put_same _ _ _ _ _ fits
  rw [Dev.setLink_idle k e p st h.idle up changeover parked fits]
  generalize hw : (e.put Od.PORT_LINK_STATE p st).put Od.PORT_SHED_PEER_CAPABLE p 0 = w at link
  have reads (q : Obj) (j f : Nat) (hj : j < 65536) (hf : f < 65536)
      (capable : Od.PORT_SHED_PEER_CAPABLE.idx * 256 + Od.PORT_SHED_PEER_CAPABLE.sub ≠ q.idx * 256 + q.sub)
      (state : Od.PORT_LINK_STATE.key p 0 ≠ q.key j f) : w.get q j f = e.get q j f := by
    rw [← hw, Dev.get_put_other _ _ _ _ _ _ _ _ (Obj.key_ne capable (by omega) hj (by omega) hf), Dev.get_put_other _ _ _ _ _ _ _ _ state]
  have objs : bare w = bare e := by rw [← hw]; rfl
  have waiting : w.ctl = l := by rw [← hw]; exact h.ctl
  refine ⟨⟨?_, fun q j f hj hf other => ?_, fun j hj hp => ?_, Dev.inService_out (link.symm ▸ out)⟩, link⟩
  · rw [Dev.dropCtl_out (link.symm ▸ out), waiting]
    exact congrArg (fun b : Dev => { b with ctl := l.filter fun o => o.unit != p }) (objs.trans h.same)
  · refine (reads q j f hj hf (other _ (by simp [idleObjs])) (Obj.key_ne (other _ (by simp)) (by omega) hj (by omega) hf)).trans ?_
    exact h.reads q j f hj hf other
  · refine Eq.trans (Dev.link_of_get ?_) (h.links j hj hp)
    exact reads _ _ _ hj (by omega) (by decide) (Obj.key_ne_inst _ (Ne.symm hp) (by omega) (by omega))

end

/-- The device with the ages of a port's lanes cleared, as its bring-up begins. -/
def Dev.agesCleared (p : Nat) (d : Dev) : Dev := d.each (List.range (d.portWidth p)) fun d i => d.clearInst Rg.AGE_LANE (d.lanePhys (p + i))

theorem Dev.Idled.agesCleared {p : Nat} {l : List Out} {d e : Dev} (h : Dev.Idled p l d e) (port : p < 1024) : Dev.Idled p l d (e.agesCleared p) := by
  have width := e.portWidth_le p
  exact Dev.each_keeps _ (fun e i hi g => g.clearInst port (by simp [idleObjs]) (e.lanePhys_lt (by have := List.mem_range.mp hi; omega))) h

/-- A port that can begin bring-up begins it. -/
theorem Dev.bringUp_begins (k : Clk) {p : Nat} {d : Dev} (can : canBringUp d p) (enabled : d.on Od.PORT_ENABLE p = true) :
    d.bringUp k p = (((((d.agesCleared p).lanesOff p 1).setLink k p lkTRAINING).put Rg.UP_ORIGIN p (k.tick + 1)).put Rg.UP_STEPS p 0).put
      Rg.BAD_CODEWORDS p 0 := by
  obtain ⟨there, runs, reference, live⟩ := can
  simp [Dev.bringUp, there, runs, reference, live, enabled, Dev.agesCleared]

/-- Whatever its port is and can, bring-up leaves a port that is not in service out of it. -/
theorem Dev.bringUp_idled (k : Clk) {p : Nat} (port : p < 1024) {d : Dev} (idle : d.inService p = false) :
    ∃ l, (l = d.ctl ∨ l = d.ctl.filter fun o => o.unit != p) ∧ Dev.Idled p l d (d.bringUp k p) := by
  have none := Dev.Idled.refl idle
  unfold Dev.bringUp
  split
  · exact ⟨_, .inl rfl, none⟩
  split
  · exact ⟨_, .inl rfl, none.put port (by simp [idleObjs]) (by omega) _⟩
  split
  · refine ⟨_, .inr rfl, Dev.Idled.put ?_ port (by simp [idleObjs]) (by omega) _⟩
    exact ((none.lanesOff port 0).setLink port k (by decide)).1
  · refine ⟨_, .inr rfl, ?_⟩
    iterate 3 refine Dev.Idled.put ?_ port (by simp [idleObjs]) (by omega) _
    exact (((none.agesCleared port).lanesOff port 1).setLink port k (by decide)).1

/-- A port that begins bring-up stands at its first step. -/
theorem Dev.bringUp_stands (k : Clk) {p : Nat} (port : p < 1024) {d : Dev} (can : canBringUp d p) (enabled : d.on Od.PORT_ENABLE p = true)
    (out : d.link p ∈ outStates) :
    Dev.Idled p (d.ctl.filter fun o => o.unit != p) d (d.bringUp k p) ∧ (d.bringUp k p).link p = lkTRAINING ∧
      (d.bringUp k p).n Rg.UP_ORIGIN p = k.tick + 1 ∧ (d.bringUp k p).n Rg.UP_STEPS p = 0 ∧ (d.bringUp k p).n Od.PORT_ACTIVE_LANES p = 0 := by
  have cleared := ((Dev.Idled.refl (Dev.inService_out out)).agesCleared port).lanesOff port 1
  obtain ⟨begun, training⟩ := cleared.setLink port k (st := lkTRAINING) (by decide)
  have lanes : (((d.agesCleared p).lanesOff p 1).setLink k p lkTRAINING).n Od.PORT_ACTIVE_LANES p = 0 := by
    rw [Dev.n_setLink_out k port cleared.idle (by decide) port (by decide) (by decide)]
    exact Dev.lanesOff_lanes _ _ port
  rw [Dev.bringUp_begins k can enabled]
  generalize ((d.agesCleared p).lanesOff p 1).setLink k p lkTRAINING = e at begun training lanes
  have other {q : Obj} (known : ∀ o ∈ [Rg.UP_ORIGIN, Rg.UP_STEPS, Rg.BAD_CODEWORDS], o.idx * 256 + o.sub ≠ q.idx * 256 + q.sub) :
      (((e.put Rg.UP_ORIGIN p (k.tick + 1)).put Rg.UP_STEPS p 0).put Rg.BAD_CODEWORDS p 0).n q p = e.n q p := by
    rw [Dev.n_put_port _ port port (known _ (by simp)), Dev.n_put_port _ port port (known _ (by simp)), Dev.n_put_port _ port port (known _ (by simp))]
  refine ⟨?_, (other (by decide)).trans training, ?_, ?_, (other (by decide)).trans lanes⟩
  · iterate 3 refine Dev.Idled.put ?_ port (by simp [idleObjs]) (by omega) _
    exact begun
  · rw [Dev.n_put_port _ port port (by decide), Dev.n_put_port _ port port (by decide)]
    exact Dev.n_put_same _ _ _ _ _ rfl
  · rw [Dev.n_put_port _ port port (by decide)]
    exact Dev.n_put_same _ _ _ _ _ rfl

/-- A port that begins bring-up after writes of objects stands at its first step. -/
theorem bringingUp_of {s : State} {p : Nat} (port : p < 1024) {d : Dev} (objs : s.dev.objsOnly d) (can : canBringUp d p)
    (enabled : d.on Od.PORT_ENABLE p = true) (link : d.link p = s.dev.link p) (out : s.dev.link p ∈ outStates) :
    bringingUp s { s with dev := d.bringUp s.clk p } p := by
  obtain ⟨idled, training, origin, steps, lanes⟩ := Dev.bringUp_stands s.clk port can enabled (link ▸ out)
  refine ⟨⟨rfl, rfl, rfl⟩, ?_, training, origin, steps, lanes⟩
  rw [Dev.dropCtl_out out]
  refine Eq.trans idled.same ?_
  have same : bare d = bare s.dev := objs
  rw [← Dev.objsOnly_ctl objs]
  exact congrArg (fun b : Dev => { b with ctl := d.ctl.filter fun o => o.unit != p }) same

theorem Dev.on_put_port (d : Dev) {o q : Obj} {p j : Nat} (port : p < 1024) (unit : j < 1024) (other : o.idx * 256 + o.sub ≠ q.idx * 256 + q.sub)
    (v : Nat) : (d.put o p v).on q j = d.on q j := by rw [Dev.on, Dev.n_put_port d port unit other]; rfl

/-- Whether a port can begin bring-up goes by four objects. -/
theorem canBringUp_put {d : Dev} {p : Nat} (port : p < 1024) (can : canBringUp d p) {o : Obj}
    (other : ∀ q ∈ [Od.OCTET_MODE, Od.POWER_SORUS_STATE, Rg.REF_FAULT, Od.REPLAY_STATE], o.idx * 256 + o.sub ≠ q.idx * 256 + q.sub) (v : Nat) :
    canBringUp (d.put o p v) p := by
  simp only [List.mem_cons, List.not_mem_nil, or_false, forall_eq_or_imp, forall_eq] at other
  obtain ⟨mode, power, reference, replay⟩ := other
  have sorus : sorusOf p < 1024 := by unfold sorusOf; omega
  obtain ⟨there, runs, sound, live⟩ := can
  refine ⟨?_, ?_, ?_, ?_⟩
  · rw [Dev.portExists, Dev.portWidth, Dev.n_put_port _ port (by omega) mode]; exact there
  · rw [Dev.sorusRuns, Dev.n_put_port _ port sorus power]; exact runs
  · rw [Dev.on_put_port _ port sorus reference]; exact sound
  · rw [Dev.replaying, Dev.n_put_port _ port (by omega) replay]; exact live

theorem Dev.portEnable_disabled (k : Clk) {d : Dev} {p : Nat} (disabled : d.link p = lkDISABLED) :
    d.portEnable k p true = (d.put Od.PORT_ENABLE p 1).bringUp k p := by simp [Dev.portEnable, disabled]

/-- The write of PORT.ENABLE 1 at a port held in DISABLED. -/
theorem exec_portEnable_disabled {s : State} (running : ready s = true) {p : Nat} (port : p < 1024) (can : canBringUp s.dev p)
    (boundary : s.clk.c = 0) (disabled : s.dev.link p = lkDISABLED) :
    exec (.portEnable p) s = .next { s with dev := ((s.dev.silent.put Od.PORT_ENABLE p 1).bringUp s.clk p).atOpen } := by
  obtain ⟨there, -⟩ := can
  change execPortEnable p s = _
  unfold execPortEnable
  refine State.rowD_eq running boundary (decide_eq_true port) _ ?_
  exact (if_pos there).trans (Dev.portEnable_disabled s.clk (d := s.dev.silent) disabled)

/-- What a boundary's write leaves for the reads of its clock is none of the device's contents. -/
theorem bringingUp_atOpen {s : State} {p : Nat} {e : Dev} (h : bringingUp s { s with dev := e } p) : bringingUp s { s with dev := e.atOpen } p := h

/-- Settles O8: each of the three writes its own object and begins bring-up. -/
theorem linkBringUpRestarts : Obligations.LinkBringUpRestarts := by
  intro s p running port can
  have link {o : Obj} (other : o.idx * 256 + o.sub ≠ Od.PORT_LINK_STATE.idx * 256 + Od.PORT_LINK_STATE.sub) (v : Nat) :
      (s.dev.silent.put o p v).link p = s.dev.link p := Dev.n_put_port _ port port other v
  refine ⟨fun boundary disabled => ?_, fun enabled training origin due => ?_, fun enabled down fell due => ?_⟩
  · have out : s.dev.link p ∈ outStates := disabled ▸ (by decide)
    have can' : canBringUp (s.dev.silent.put Od.PORT_ENABLE p 1) p := canBringUp_put port can (by decide) _
    have enable : (s.dev.silent.put Od.PORT_ENABLE p 1).n Od.PORT_ENABLE p = 1 := Dev.n_put_same _ _ _ _ _ rfl
    have enabled : (s.dev.silent.put Od.PORT_ENABLE p 1).on Od.PORT_ENABLE p = true := by rw [Dev.on, enable]; rfl
    obtain ⟨idled, -⟩ := Dev.bringUp_stands s.clk port can' enabled (link (o := Od.PORT_ENABLE) (by decide) 1 ▸ out)
    refine ⟨_, exec_portEnable_disabled running port can boundary disabled,
      bringingUp_atOpen (bringingUp_of port rfl can' enabled (link (o := Od.PORT_ENABLE) (by decide) _) out), ?_⟩
    exact (congrArg Int.toNat (idled.reads _ _ _ (by omega) (by omega) (by decide))).trans enable
  · have out : s.dev.link p ∈ outStates := training ▸ (by decide)
    exact ⟨_, State.runIf_eq running (decide_eq_true port) (if_pos ⟨training, origin, due⟩), bringingUp_of port rfl (canBringUp_put port can (by decide) _)
      ((Dev.on_put_port _ port port (by decide) _).trans enabled) (link (by decide) _) out⟩
  · have out : s.dev.link p ∈ outStates := down ▸ (by decide)
    exact ⟨_, State.runIf_eq running (decide_eq_true port) (if_pos ⟨down, fell, due⟩), bringingUp_of port rfl (canBringUp_put port can (by decide) _)
      ((Dev.on_put_port _ port port (by decide) _).trans enabled) (link (by decide) _) out⟩

/-! SUPPORT. The change of an octet that is OFF (R65 to R67). -/

/-- What the loop over an octet's new ports keeps of the device d: none of the octet's ports is in service, and objects and the frames of their MACs alone
have changed. -/
structure Dev.OctetIdled (o : Nat) (d e : Dev) : Prop where
  same : bare e = bare { d with ctl := e.ctl }
  fewer : ∀ x ∈ e.ctl, x ∈ d.ctl
  others : ∀ x ∈ d.ctl, x.unit / 8 ≠ o → x ∈ e.ctl
  idle : ∀ p, p / 8 = o → e.inService p = false
  reads : ∀ (q : Obj) (j : Nat), j < 65536 → (∀ o ∈ Od.PORT_LINK_STATE :: idleObjs, o.idx * 256 + o.sub ≠ q.idx * 256 + q.sub) → e.n q j = d.n q j

theorem Dev.OctetIdled.bringUp {o : Nat} {d e : Dev} (h : Dev.OctetIdled o d e) (k : Clk) {p : Nat} (port : p < 1024) (own : p / 8 = o) :
    Dev.OctetIdled o d (e.bringUp k p) := by
  obtain ⟨l, kept, idled⟩ := Dev.bringUp_idled k port (h.idle p own)
  have waiting := idled.ctl
  have fewer : ∀ x ∈ l, x ∈ e.ctl := by
    rcases kept with rfl | rfl
    · exact fun _ hx => hx
    · exact fun _ hx => List.mem_of_mem_filter hx
  have others : ∀ x ∈ e.ctl, x.unit / 8 ≠ o → x ∈ l := by
    rcases kept with rfl | rfl
    · exact fun _ hx _ => hx
    · refine fun x hx far => List.mem_filter.mpr ⟨hx, ?_⟩
      exact bne_iff_ne.mpr fun same => far (same ▸ own)
  refine ⟨?_, fun x hx => ?_, fun x hx far => ?_, fun q hq => ?_, fun q j hj other => ?_⟩
  · rw [waiting]
    exact idled.same.trans (congrArg (fun b : Dev => { b with ctl := l }) h.same)
  · exact h.fewer x (fewer x (waiting ▸ hx))
  · exact waiting ▸ others x (h.others x hx far) far
  · by_cases same : q = p
    · exact same ▸ idled.idle
    · rw [Dev.inService_of_link (idled.links q (by omega) same), h.idle q hq]
  · exact (congrArg Int.toNat (idled.reads q j 0 hj (by decide) other)).trans (h.reads q j hj other)

/-- Against the device before writes of objects. -/
theorem Dev.OctetIdled.sinceWrites {o : Nat} {d₀ d e : Dev} (h : Dev.OctetIdled o d e) (objs : d₀.objsOnly d) :
    bare e = bare { d₀ with ctl := e.ctl } ∧ (∀ x ∈ e.ctl, x ∈ d₀.ctl) ∧ ∀ x ∈ d₀.ctl, x.unit / 8 ≠ o → x ∈ e.ctl := by
  have same : bare d = bare d₀ := objs
  rw [← Dev.objsOnly_ctl objs]
  exact ⟨h.same.trans (congrArg (fun b : Dev => { b with ctl := e.ctl }) same), h.fewer, h.others⟩

@[simp] theorem Dev.n_atOpen (d : Dev) (o : Obj) (i e : Nat) : d.atOpen.n o i e = d.n o i e := rfl
theorem bare_atOpen (d : Dev) : bare d.atOpen = bare d := rfl

/-- No port of an octet that is OFF exists. -/
theorem Dev.ports_of_off {d : Dev} {o : Nat} (off : d.n Od.OCTET_MODE o = 4) :
    ((List.range 8).map fun i => 8 * o + i).filter d.portExists = [] := by
  refine List.filter_eq_nil_iff.mpr fun p hp => ?_
  obtain ⟨i, hi, rfl⟩ := List.mem_map.mp hp
  have octet : (8 * o + i) / 8 = o := by have := List.mem_range.mp hi; omega
  simp [Dev.portExists, Dev.portWidth, octet, off, modeWidth]

/-- The three objects of an octet. -/
def Dev.octetSet (o mode rate chan : Nat) (d : Dev) : Dev := ((d.put Od.OCTET_MODE o mode).put Od.OCTET_RATE o rate).put Od.OCTET_CHANNEL o chan

/-- Where the octet was OFF no port goes down for the change: its new ports begin bring-up. -/
theorem Dev.octetChange_off (k : Clk) {d : Dev} {o : Nat} (off : d.n Od.OCTET_MODE o = 4) (mode rate chan : Nat) :
    d.octetChange k o mode rate chan = (d.octetSet o mode rate chan).each
      (((List.range 8).map fun i => 8 * o + i).filter (d.octetSet o mode rate chan).portExists) fun d p => d.bringUp k p := by
  simp [Dev.octetChange, Dev.ports_of_off off, Dev.octetSet]

theorem Dev.octetSet_reads (d : Dev) {o mode rate chan : Nat} (octet : o < 128) (ok : octetOk mode rate chan = true) :
    (d.octetSet o mode rate chan).n Od.OCTET_MODE o = mode ∧ (d.octetSet o mode rate chan).n Od.OCTET_RATE o = rate ∧
      (d.octetSet o mode rate chan).n Od.OCTET_CHANNEL o = chan := by
  simp only [octetOk, Bool.and_eq_true, decide_eq_true_eq] at ok
  obtain ⟨⟨⟨hm, hr, hc⟩, -⟩, -⟩ := ok
  have enum {v : Nat} (h : v ≤ 4) : ObjTy.norm .enum8 v = v := by simp only [ObjTy.norm]; omega
  have here : o < 1024 := by omega
  refine ⟨?_, ?_, Dev.n_put_same _ _ _ _ _ (enum (by omega))⟩
  · rw [Dev.octetSet, Dev.n_put_port _ here here (by decide), Dev.n_put_port _ here here (by decide)]
    exact Dev.n_put_same _ _ _ _ _ (enum hm)
  · rw [Dev.octetSet, Dev.n_put_port _ here here (by decide)]
    exact Dev.n_put_same _ _ _ _ _ (enum hr)

/-- The ports of the octet before its bring-up: none is in service, its objects set. -/
theorem Dev.octetSet_idled {d : Dev} {o : Nat} (octet : o < 128) (idle : ∀ p, p / 8 = o → d.inService p = false) (mode rate chan : Nat) :
    Dev.OctetIdled o (d.octetSet o mode rate chan) (d.octetSet o mode rate chan) := by
  refine ⟨rfl, fun _ h => h, fun _ h _ => h, fun p own => ?_, fun _ _ _ _ => rfl⟩
  refine (Dev.inService_of_link ?_).trans (idle p own)
  rw [Dev.link, Dev.octetSet, Dev.n_put_port _ (by omega) (by omega) (by decide), Dev.n_put_port _ (by omega) (by omega) (by decide),
    Dev.n_put_port _ (by omega) (by omega) (by decide)]
  rfl

/-- The change of an octet, at a boundary. -/
theorem exec_octetConfigChange {s : State} (running : ready s = true) (boundary : s.clk.c = 0) {o mode rate chan : Nat} (octet : o < 128)
    (ok : octetOk mode rate chan = true) :
    exec (.octetConfigChange o mode rate chan) s = .next { s with dev := (s.dev.silent.octetChange s.clk o mode rate chan).atOpen } := by
  change execOctetConfigChange o mode rate chan s = _
  unfold execOctetConfigChange
  exact State.rowD_eq running boundary (by simp [octet, ok]) _ rfl

/-- Settles O12: the octet's objects are set, and its new ports begin bring-up one after another. -/
theorem octetFromOff : Obligations.OctetFromOff := by
  intro s o mode rate chan running boundary octet off _ ok idle
  obtain ⟨hm, hr, hc⟩ := s.dev.silent.octetSet_reads octet ok
  have start := Dev.octetSet_idled (d := s.dev.silent) octet idle mode rate chan
  have loop : Dev.OctetIdled o (s.dev.silent.octetSet o mode rate chan) (s.dev.silent.octetChange s.clk o mode rate chan) := by
    rw [Dev.octetChange_off s.clk (d := s.dev.silent) off]
    refine Dev.each_keeps _ (fun e p hp h => ?_) start
    obtain ⟨i, hi, rfl⟩ := List.mem_map.mp (List.mem_of_mem_filter hp)
    have := List.mem_range.mp hi
    exact h.bringUp s.clk (by omega) (by omega)
  obtain ⟨same, fewer, others⟩ := loop.sinceWrites (d₀ := s.dev)
    (Dev.objsOnly_put (Dev.objsOnly_put (Dev.objsOnly_put s.dev.objsOnly_silent _ _ _ _) _ _ _ _) _ _ _ _)
  refine ⟨_, exec_octetConfigChange running boundary octet ok, ⟨rfl, rfl, rfl⟩, (bare_atOpen _).trans same, fewer, others, ?_, ?_, ?_⟩
  · exact (Dev.n_atOpen _ _ _ _).trans ((loop.reads _ _ (by omega) (by decide)).trans hm)
  · exact (Dev.n_atOpen _ _ _ _).trans ((loop.reads _ _ (by omega) (by decide)).trans hr)
  · exact (Dev.n_atOpen _ _ _ _).trans ((loop.reads _ _ (by omega) (by decide)).trans hc)

end Sys2Proof.Machine

namespace Sys2Proof.Machine
open Sys2Proof.Safety

/-! SUPPORT. The shedding frames of the peer (R74, R76, R80, R81). -/

/-- The own request is over. -/
theorem Dev.requestOver_wrote (d : Dev) (p : Nat) : d.wrote [Rg.REQ_TYPE.key p 0] (d.silent.put Rg.REQ_TYPE p 0) :=
  Dev.wrote_put (Dev.wrote_silent _ _) _ _ _ _ (by simp)

theorem Dev.n_requestOver (d : Dev) (p : Nat) : (d.put Rg.REQ_TYPE p 0).n Rg.REQ_TYPE p = 0 := Dev.n_put_same _ _ _ _ _ rfl

/-- A RESTORE_NOW waits for its answer; above the own target it ends the own request. -/
theorem exec_restoreNowReceived {s : State} (running : ready s = true) {p : Nat} (port : p < 1024) (receives : s.dev.receives p = true)
    (target seq : Nat) : ∃ t, exec (.restoreNowReceived p target seq) s = .next t ∧
      writesAndWaits [Rg.REQ_TYPE.key p 0] (.shedAnswer p 6 target seq) s t ∧
      t.dev.n Rg.REQ_TYPE p = if s.dev.n Rg.REQ_TARGET p < target then 0 else s.dev.n Rg.REQ_TYPE p := by
  refine ⟨_, State.runIf_eq running (decide_eq_true port) (if_pos receives), writesAndWaits_of ?_, (Dev.n_later _ _ _ _ _).trans ?_⟩
  · exact Dev.wrote_ite (s.dev.requestOver_wrote p) (Dev.wrote_silent _ _)
  · by_cases larger : s.dev.n Rg.REQ_TARGET p < target
    · simp [larger, Dev.n_requestOver]
    · simp [larger]

/-- A REFUSE of the request outstanding ends it and is counted. -/
theorem exec_shedRefuseReceived {s : State} (running : ready s = true) {p : Nat} (port : p < 1024) (asked : s.dev.on Rg.REQ_TYPE p = true)
    (reason : Nat) : exec (.shedRefuseReceived p (s.dev.n Rg.REQ_SEQ p) reason) s =
      .next { s with dev := (s.dev.silent.put Rg.REQ_TYPE p 0).bump Od.PORT_SHED_REFUSED p } := by
  refine State.runIf_eq running (decide_eq_true port) (if_pos ?_)
  rw [Bool.and_eq_true]
  exact ⟨asked, beq_self_eq_true _⟩

/-- Settles O13, frame by frame. -/
theorem shedFramesTaken : Obligations.ShedFramesTaken := by
  intro s p running port
  refine ⟨fun receives => ⟨?_, fun target seq free => ?_, exec_restoreNowReceived running port receives, fun count => ?_, ?_⟩,
    fun asked => ⟨?_, fun reason => ?_⟩⟩
  · have matching : (s.dev.silent.receives p && s.dev.portWidth p == s.dev.silent.portWidth p) = true := by
      rw [Bool.and_eq_true]; exact ⟨receives, beq_self_eq_true _⟩
    exact ⟨_, State.runIf_eq running (decide_eq_true port) (if_pos matching),
      writesAndWaits_of (Dev.wrote_put (Dev.wrote_silent _ _) _ _ _ _ (by simp)), (Dev.n_later _ _ _ _ _).trans (Dev.n_put_same _ _ _ _ _ rfl)⟩
  · refine ⟨_, State.runIf_eq running (decide_eq_true port) ((if_pos receives).trans (if_neg ?_)), writesAndWaits_of (Dev.wrote_silent _ _)⟩
    rw [Dev.on_silent, free]; decide
  · exact ⟨_, State.runIf_eq running (decide_eq_true port) (if_pos receives),
      onlyWrites_of (Dev.wrote_put (Dev.wrote_silent _ _) _ _ _ _ (by simp)), Dev.n_put_same _ _ _ _ _ rfl⟩
  · exact ⟨_, State.runIf_eq running (decide_eq_true port) (if_pos receives),
      onlyWrites_of (Dev.wrote_bump (Dev.wrote_silent _ _) _ _ _ _ (by simp)), Dev.n_bump_same _ _ _ _ fun _ => ObjTy.norm_u32_top⟩
  · refine ⟨_, State.runIf_eq running (decide_eq_true port) (if_pos ?_), writesAndWaits_of (s.dev.requestOver_wrote p),
      (Dev.n_later _ _ _ _ _).trans (Dev.n_requestOver _ p)⟩
    rw [Bool.and_eq_true, Bool.and_eq_true]
    exact ⟨⟨asked, beq_self_eq_true _⟩, beq_self_eq_true _⟩
  · refine ⟨_, exec_shedRefuseReceived running port asked reason, onlyWrites_of ?_, ?_, ?_⟩
    · exact Dev.wrote_bump (Dev.wrote_mono (s.dev.requestOver_wrote p) (by simp)) _ _ _ _ (by simp)
    · exact (Dev.n_put_port _ port port (by decide) _).trans (Dev.n_requestOver _ p)
    · refine (Dev.n_bump_same _ _ _ _ fun _ => ObjTy.norm_u32_top).trans ?_
      rw [Dev.n_put_port _ port port (by decide)]; rfl

end Sys2Proof.Machine

namespace Sys2Proof.Machine
open Sys2Proof.Safety

/-! SUPPORT. Gate lists in which a gated queue is open throughout (R83, R343). -/

/-- The entry in force is one of the list. -/
theorem entryAt_mem (cyc : Nat) (l : List Nat) (start off : Nat) (timed : l ≠ []) : ∃ x, entryAt cyc l start off = some x ∧ x.1 ∈ l := by
  induction l generalizing start with
  | nil => contradiction
  | cons a l ih =>
    cases l with
    | nil => exact ⟨(a, cyc), rfl, by simp⟩
    | cons b l =>
      simp only [entryAt]
      split
      · exact ⟨_, rfl, by simp⟩
      · obtain ⟨x, entry, mem⟩ := ih (start + gDur a) (by simp)
        exact ⟨x, entry, List.mem_cons_of_mem _ mem⟩

theorem GList.entry_mem {g : GList} (timed : g.live ≠ []) (t : Int) : ∃ x, g.entry none t = some x ∧ x.1 ∈ g.live := by
  obtain ⟨x, entry, mem⟩ := entryAt_mem g.cyc g.live 0 (t - g.cycleStart t).toNat timed
  refine ⟨(x.1, g.cycleStart t + x.2), ?_, mem⟩
  unfold GList.entry
  split
  · contradiction
  · simp [entry]

theorem GList.entry_none {g : GList} (idle : g.live = []) (ct : Option Int) (t : Int) : g.entry ct t = none := by
  unfold GList.entry; rw [idle]

/-- A list without an entry that takes time has no gated queue open: a gap holds. -/
theorem gapFrom_idle {g : GList} (idle : g.live = []) (next : GList) (skew lim t : Int) (n : Nat) : gapFrom g none next skew lim (n + 1) t = true := by
  simp [gapFrom, GList.entry_none idle]

/-- Where no entry that takes time is a gap, none holds. -/
theorem gapFrom_blocked {g : GList} (timed : g.live ≠ []) (blocked : ∀ e ∈ g.live, g.isGap e = false) (next : GList) (skew : Int) {lim t : Int}
    (ahead : t < lim) (n : Nat) : gapFrom g none next skew lim (n + 1) t = false := by
  obtain ⟨x, entry, mem⟩ := GList.entry_mem timed t
  simp [gapFrom, Int.not_le.mpr ahead, entry, blocked x.1 mem]

/-- Every entry of a cycle's times is one of the list. -/
theorem GList.spread_go_mem (g : GList) (l : List Nat) (start : Nat) : ∀ x ∈ GList.spread.go g l start, x.1 ∈ l := by
  induction l generalizing start with
  | nil => simp [GList.spread.go]
  | cons a l ih =>
    cases l with
    | nil => simp only [GList.spread.go]; split <;> simp
    | cons b l =>
      simp only [GList.spread.go]
      split
      · intro x hx
        rcases List.mem_cons.mp hx with rfl | hx
        · exact List.mem_cons_self
        · exact List.mem_cons_of_mem _ (ih _ x hx)
      · simp

theorem GList.spread_ne {g : GList} (timed : g.live ≠ []) (cycles : 0 < g.cyc) : g.spread ≠ [] := by
  unfold GList.spread
  match live : g.live with
  | [] => contradiction
  | [_] => simp [GList.spread.go, cycles]
  | _ :: _ :: _ => simp [GList.spread.go, cycles]

/-- Where f never holds there is no run of it. -/
theorem runsOf_none {f : Nat → Bool} (l : List (Nat × Nat)) (h : ∀ x ∈ l, f x.1 = false) : runsOf f l 0 = [] := by
  induction l with
  | nil => rfl
  | cons x l ih =>
    have head : f x.1 = false := h x (by simp)
    simp [runsOf, head, ih fun y hy => h y (by simp [hy])]

theorem GList.hasGap_idle {g : GList} (idle : g.live = []) (n : Nat) : g.hasGap n = true := by
  simp [GList.hasGap, GList.longest, GList.spread, idle, GList.spread.go]

theorem GList.hasGap_blocked {g : GList} (timed : g.live ≠ []) (cycles : 0 < g.cyc) (blocked : ∀ e ∈ g.live, g.isGap e = false) {n : Nat} (long : 0 < n) :
    g.hasGap n = false := by
  have shut : ∀ x ∈ g.spread, g.isGap x.1 = false := fun x hx => blocked _ (g.spread_go_mem _ _ x hx)
  obtain ⟨x, hx⟩ := List.exists_mem_of_ne_nil _ (GList.spread_ne timed cycles)
  have apart : g.spread.all (fun x => g.isGap x.1) = false := List.all_eq_false.mpr ⟨x, hx, by simp [shut x hx]⟩
  have runs : runsOf g.isGap (g.spread ++ g.spread) 0 = [] := runsOf_none _ fun y hy => shut y ((List.mem_append.mp hy).elim id id)
  simpa [GList.hasGap, GList.longest, apart, runs] using long.ne'

/-! SUPPORT. A port's list whose length is beyond its type: it reads the registers that lie above it in the store. -/

theorem Store.mem_of_find {st : Store} {k : Nat} {v : Int} (h : st.find k = some v) : (k, v) ∈ st := by
  induction st with
  | nil => cases h
  | cons x t ih =>
    obtain ⟨a, w⟩ := x
    unfold Store.find at h
    split at h
    · rename_i same
      cases h
      simp [same]
    · exact List.mem_cons_of_mem _ (ih h)

/-- An element of the list is zero or what the store holds from the list's first key on. -/
theorem Dev.n_operList (d : Dev) (p e : Nat) :
    d.n Od.GATE_OPER_LIST p e = 0 ∨ ∃ y ∈ d.objs, Od.GATE_OPER_LIST.key p 0 ≤ y.1 ∧ d.n Od.GATE_OPER_LIST p e = y.2.toNat := by
  unfold Dev.n Dev.get Store.rd
  cases found : d.objs.find (Od.GATE_OPER_LIST.key p e) with
  | none =>
    left
    cases e <;> rfl
  | some v => exact .inr ⟨_, Store.mem_of_find found, Nat.add_le_add_left (Nat.zero_le e) _, rfl⟩

theorem Dev.mem_operList {d : Dev} {p v : Nat} : v ∈ (d.operList p).entries ↔ ∃ e, e < d.n Od.GATE_OPER_ENTRIES p ∧ d.n Od.GATE_OPER_LIST p e = v := by
  simp [Dev.operList, Dev.elems]

/-- The durations in the store from the list's first key on are those of the list's entries. -/
theorem Dev.operList_live {d : Dev} {p : Nat} {P : Nat → Prop}
    (stored : ∀ y ∈ d.objs, Od.GATE_OPER_LIST.key p 0 ≤ y.1 → gDur y.2.toNat ≠ 0 → P y.2.toNat) : ∀ v ∈ (d.operList p).live, P v := by
  intro v hv
  obtain ⟨entry, takes⟩ := List.mem_filter.mp hv
  obtain ⟨e, -, rfl⟩ := Dev.mem_operList.mp entry
  rcases d.n_operList p e with zero | ⟨y, hy, above, same⟩
  · rw [zero] at takes; cases takes
  · rw [same] at takes ⊢
    exact stored y hy above (bne_iff_ne.mp takes)

/-- An entry that opens a gate which some entry closes is no gap. -/
theorem GList.isGap_false {g : GList} {closed e o : Nat} (entry : closed ∈ g.entries) (shut : gateBit closed o = false) (opens : gateBit e o = true)
    (offset : o < 16) : g.isGap e = false := by
  refine List.all_eq_false.mpr ⟨o, List.mem_range.mpr offset, ?_⟩
  have gated : g.gated o = true := List.any_eq_true.mpr ⟨closed, entry, by simp [shut]⟩
  simp [gated, opens]

/-- Port 8 UP at its full width, with a peer that can shed; GATE.OPER.ENTRIES, a U16, holds 2⁵⁸, which no write of the object
leaves (`Dev.get_set_same`). -/
def overlong : Dev :=
  { objs := [(Od.PORT_LINK_STATE.key 8 0, 2), (Od.PORT_ACTIVE_LANES.key 8 0, 8), (Od.PORT_SHED_ENABLE.key 8 0, 1),
      (Od.PORT_SHED_PEER_CAPABLE.key 8 0, 1), (Od.GATE_OPER_ENTRIES.key 8 0, 288230376151711744)] }

/-- An entry of 1 ns that opens the gate of offset 0. -/
def openEntry : Nat := 4294967297

/-- The device's list has no entry that takes time. -/
theorem overlong_idle : (overlong.operList 8).live = [] := by
  refine List.eq_nil_iff_forall_not_mem.mpr ?_
  exact Dev.operList_live (P := fun _ => False) (by decide)

/-- A list of the port that holds, of entries that take time, this one alone, among entries of zero: no gap. -/
structure Dev.Opened (d : Dev) : Prop where
  timed : (d.operList 8).live ≠ []
  blocked : ∀ e ∈ (d.operList 8).live, (d.operList 8).isGap e = false

theorem Dev.opened_of {d : Dev} (stored : ∀ y ∈ d.objs, Od.GATE_OPER_LIST.key 8 0 ≤ y.1 → gDur y.2.toNat ≠ 0 → y.2.toNat = openEntry)
    (entry : ∃ e, e < d.n Od.GATE_OPER_ENTRIES 8 ∧ d.n Od.GATE_OPER_LIST 8 e = openEntry)
    (first : 0 < d.n Od.GATE_OPER_ENTRIES 8 ∧ d.n Od.GATE_OPER_LIST 8 0 = 0) : d.Opened := by
  refine ⟨?_, fun e he => ?_⟩
  · refine List.ne_nil_of_mem (a := openEntry) (List.mem_filter.mpr ⟨Dev.mem_operList.mpr entry, by decide⟩)
  · have only : e = openEntry := Dev.operList_live (P := (· = openEntry)) stored e he
    rw [only]
    exact GList.isGap_false (o := 0) (Dev.mem_operList.mpr ⟨0, first⟩) (by decide) (by decide) (by decide)

/-- The device that has noted a HELLO of the tick before openEntry. -/
def overlongSent : Dev := overlong.put Rg.HELLO_SENT 8 openEntry

theorem overlongSent_opened : overlongSent.Opened :=
  Dev.opened_of (by decide) ⟨Rg.HELLO_SENT.key 8 0 - Od.GATE_OPER_LIST.key 8 0, by decide, by decide⟩ (by decide)

/-- A shedding frame that needs a gap leaves in one that holds it, but never during a hold (R81, R83). -/
theorem Dev.mayLeave_shedFrame (d e : Dev) (k : Clk) (p type seq target reason : Nat) :
    d.mayLeave k (e.shedFrame p type seq target reason) = (d.n Rg.CHG_PHASE p != 3 &&
      (type == 5 || type == 6 || d.inGap k p (ceilDiv (wireTime (max 1 (d.portRate p)) 84) 65536))) := by
  have own : (OutKind.shed == OutKind.control) = false := rfl
  simp [Dev.mayLeave, Dev.shedFrame, own]

theorem Dev.inGap_noPend {d : Dev} (calm : d.gpend = []) (k : Clk) (p n : Nat) :
    ∃ skew, d.inGap k p n =
      gapFrom (d.operList p) none {} skew ((d.viewNow k (d.operList p).view : Int) + n * 65536) (4095 + 1) (d.viewNow k (d.operList p).view) := by
  have pend : d.gatePend false p = none := by simp [Dev.gatePend, calm]
  exact ⟨d.viewSkew k p {}, by simp [Dev.inGap, Dev.changeAt, pend]⟩

/-- A HELLO of port 8 at the tick before openEntry. -/
def helloState : State := { clk := { tick := 4294967296 }, dev := overlong }

theorem helloState_mayLeave (o : Dev) : helloState.dev.mayLeave helloState.clk (o.shedFrame 8 1 0 0 0) = true := by
  obtain ⟨skew, gap⟩ := Dev.inGap_noPend (d := overlong) rfl helloState.clk 8 (ceilDiv (wireTime (max 1 (overlong.portRate 8)) 84) 65536)
  have phase : overlong.n Rg.CHG_PHASE 8 = 0 := by decide
  change overlong.mayLeave _ _ = true
  rw [Dev.mayLeave_shedFrame, gap, gapFrom_idle overlong_idle, phase]
  rfl

theorem overlongSent_mayLeave (o : Dev) : overlongSent.mayLeave helloState.clk (o.shedFrame 8 1 0 0 0) = false := by
  obtain ⟨skew, gap⟩ := Dev.inGap_noPend (d := overlongSent) rfl helloState.clk 8 (ceilDiv (wireTime (max 1 (overlongSent.portRate 8)) 84) 65536)
  have long : 0 < ceilDiv (wireTime (max 1 (overlongSent.portRate 8)) 84) 65536 := by decide
  obtain ⟨timed, blocked⟩ := overlongSent_opened
  rw [Dev.mayLeave_shedFrame, gap, gapFrom_blocked timed blocked _ _ (by omega)]
  simp

theorem Dev.macSend_waits {k : Clk} {o : Out} {d : Dev} (stays : d.mayLeave k o = false) : d.macSend k o = { d with ctl := d.ctl ++ [o] } := by
  simp [Dev.macSend, stays]

/-- A HELLO that is due is noted, and handed to the MAC. -/
theorem exec_shedHelloSend_due {s : State} (running : ready s = true) {p : Nat} (port : p < 1024) (enabled : s.dev.on Od.PORT_SHED_ENABLE p = true)
    (up : s.dev.link p = lkUP) (due : s.dev.n Rg.HELLO_SENT p = 0 ∨ s.dev.n Rg.HELLO_SENT p + 1999999 ≤ s.clk.tick) :
    exec (.shedHelloSend p) s =
      .next { s with dev := (s.dev.silent.put Rg.HELLO_SENT p (s.clk.tick + 1)).macSend s.clk (s.dev.shedFrame p 1 0 0 0) } :=
  State.runIf_eq running (decide_eq_true port) (if_pos ⟨enabled, up, due⟩)

/-- A frame that may leave has not been sent where nothing left. -/
theorem not_shedSent {keys : List Nat} {o : Out} {s t : State} (leaves : s.dev.mayLeave s.clk o = true) (out : t.dev.out = []) :
    ¬ shedSent keys o s t := by
  rintro ⟨-, -, sent, -⟩
  rw [if_pos leaves, out] at sent
  obtain ⟨sent, -⟩ := sent
  cases sent

/-- Refutes O14 by a store that holds a value beyond its object's type, which `ready` does not bar: the port's gate list then reaches into HELLO_SENT, so
that the note of the HELLO itself closes the gap in which it may leave. Without such a value the statement holds: `shedTimers_of_listTyped`. -/
theorem not_shedTimers : ¬ Obligations.ShedTimers := by
  intro h
  obtain ⟨hello, -⟩ := h helloState 8 (by decide) (by decide)
  obtain ⟨t, ran, sent, -⟩ := hello (by decide) (by decide) (.inl (by decide))
  have noted : helloState.dev.silent.put Rg.HELLO_SENT 8 (helloState.clk.tick + 1) = overlongSent := rfl
  rw [exec_shedHelloSend_due (by decide) (by decide) (by decide) (by decide) (.inl (by decide)), noted,
    Dev.macSend_waits (overlongSent_mayLeave _)] at ran
  cases ran
  exact not_shedSent (helloState_mayLeave _) rfl sent

/-- The device at the end of a shed window, its load reported and the next window begun (R77). -/
def Dev.shedWindowOver (k : Clk) (p : Nat) (d : Dev) : Dev :=
  (((d.put Od.PORT_SHED_LOAD p (max (d.n Rg.SHED_RX p) (d.n Rg.SHED_TX p) * 1000 / (d.portWidth p * d.portLane p * d.n Od.PORT_SHED_WINDOW p))).put
    Rg.SHED_START p k.tick).put Rg.SHED_RX p 0).put Rg.SHED_TX p 0

/-- The load of the window asks for half the lanes, and nothing bars it but the gates (R77, R78). -/
def Dev.shedWanted (k : Clk) (p : Nat) (d : Dev) : Bool :=
  let e := d.shedWindowOver k p
  e.link p == lkUP && e.canShed p && decide (e.n Od.PORT_SHED_MIN_LANES p < d.n Od.PORT_ACTIVE_LANES p) &&
    decide (max (d.n Rg.SHED_RX p) (d.n Rg.SHED_TX p) * 1000 <
      e.n Od.PORT_SHED_BELOW p * (d.n Od.PORT_ACTIVE_LANES p / 2 * d.portLane p * d.n Od.PORT_SHED_WINDOW p)) &&
    !(restoreWanted k d p || d.dues.contains (.restoreNow p)) &&
    (e.n Rg.REQ_TYPE p == 0 && e.n Rg.CHG_PHASE p == 0 && decide (e.n Rg.SHED_AFTER p ≤ k.tick))

/-- What a shed window's end does after it has begun the next: nothing, or ask for fewer lanes, or count that its gates bar it. -/
def Dev.shedAsk (k : Clk) (p : Nat) (d : Dev) : Dev :=
  let e := d.shedWindowOver k p
  let idle := e.n Rg.REQ_TYPE p == 0 && e.n Rg.CHG_PHASE p == 0 && decide (e.n Rg.SHED_AFTER p ≤ k.tick)
  if idle && e.link p == lkPARKED then e.parkAsk k p
  else if d.shedWanted k p then if (e.operList p).hasGap 4000 then e.request k p 2 (d.n Od.PORT_ACTIVE_LANES p / 2) else e.bump Od.PORT_SHED_BLOCKED p
  else e

theorem exec_shedWindowEnd_due {s : State} (running : ready s = true) {p : Nat} (port : p < 1024)
    (due : s.dev.n Rg.SHED_START p + s.dev.n Od.PORT_SHED_WINDOW p ≤ s.clk.tick) (lanes : 0 < s.dev.n Od.PORT_ACTIVE_LANES p) :
    exec (.shedWindowEnd p) s = .next { s with dev := s.dev.silent.shedAsk s.clk p } :=
  State.runIf_eq running (decide_eq_true port) (if_pos ⟨due, lanes⟩)

/-- An UP port whose load asks for fewer lanes, while its gates leave no gap: the shed is blocked (R83). -/
theorem Dev.shedAsk_blocked {k : Clk} {p : Nat} {d : Dev} (up : ((d.shedWindowOver k p).link p == lkPARKED) = false) (wanted : d.shedWanted k p = true)
    (noGap : ((d.shedWindowOver k p).operList p).hasGap 4000 = false) : d.shedAsk k p = (d.shedWindowOver k p).bump Od.PORT_SHED_BLOCKED p := by
  simp [Dev.shedAsk, up, wanted, noGap]

/-- The end of a shed window of port 8 at tick openEntry. -/
def windowState : State := { clk := { tick := openEntry }, dev := overlong }

/-- The device as that window's end leaves it before it asks for fewer lanes. -/
def overlongWindow : Dev := overlong.shedWindowOver windowState.clk 8

theorem overlongWindow_opened : overlongWindow.Opened :=
  Dev.opened_of (by decide) ⟨Rg.SHED_START.key 8 0 - Od.GATE_OPER_LIST.key 8 0, by decide, by decide⟩ (by decide)

theorem overlongWindow_noGap : (overlongWindow.operList 8).hasGap 4000 = false := by
  obtain ⟨timed, blocked⟩ := overlongWindow_opened
  exact GList.hasGap_blocked timed (by decide) blocked (by decide)

/-- Refutes O15 by the same store: the list reaches into SHED_START, so that the start of the next window takes the gap from it, and the shed is blocked.
Without such a value the statement holds: `shedWindowsAndHolds_of_listTyped`. -/
theorem not_shedWindowsAndHolds : ¬ Obligations.ShedWindowsAndHolds := by
  intro h
  obtain ⟨window, -⟩ := h windowState 8 (by decide) (by decide)
  obtain ⟨t, ran, -, -, -, -, -, -, asks⟩ := window (by decide) (by decide)
  obtain ⟨asked, -⟩ := asks (by decide) (by decide) (by decide) (by decide) (by decide) (by decide) (by decide) (by decide) (by decide)
    (GList.hasGap_idle overlong_idle 4000)
  have run := exec_shedWindowEnd_due (s := windowState) (p := 8) (by decide) (by decide) (by decide) (by decide)
  rw [Dev.shedAsk_blocked (d := windowState.dev.silent) (by decide) (by decide) overlongWindow_noGap] at run
  cases ran.symm.trans run
  exact absurd asked (by decide)

end Sys2Proof.Machine

namespace Sys2Proof.Machine
open Sys2Proof.Safety

/-! SUPPORT. Where the length of a port's gate list is of its type, writes beside the list leave its gaps as they are (R83, R343), and the timers of
shedding do what O14 says of them. -/

/-- The objects that a port's gate list is read from. -/
def gateObjs : List Obj :=
  [Od.GATE_OPER_LIST, Od.GATE_OPER_ENTRIES, Od.GATE_OPER_BASE_TIME, Od.GATE_OPER_CYCLE, Od.GATE_OPER_CYCLE_EXTENSION, Od.GATE_OPER_VIEW]

section
variable {d e : Dev} {p : Nat} (typed : d.n Od.GATE_OPER_ENTRIES p ≤ 65536)
  (reads : ∀ o ∈ gateObjs, ∀ f, f < 65536 → e.get o p f = d.get o p f)
include typed reads

theorem Dev.operList_kept : e.operList p = d.operList p := by
  have n (o : Obj) (known : o ∈ gateObjs) (f : Nat) (hf : f < 65536) : e.n o p f = d.n o p f := congrArg Int.toNat (reads o known f hf)
  have entries : e.elems Od.GATE_OPER_LIST p (e.n Od.GATE_OPER_ENTRIES p) = d.elems Od.GATE_OPER_LIST p (d.n Od.GATE_OPER_ENTRIES p) := by
    rw [n _ (by simp [gateObjs]) 0 (by decide)]
    refine List.map_congr_left fun f hf => n _ (by simp [gateObjs]) f ?_
    have := List.mem_range.mp hf
    omega
  simp only [Dev.operList, entries]
  rw [n Od.GATE_OPER_BASE_TIME (by simp [gateObjs]) 0 (by decide), n Od.GATE_OPER_CYCLE (by simp [gateObjs]) 0 (by decide),
    n Od.GATE_OPER_CYCLE_EXTENSION (by simp [gateObjs]) 0 (by decide), n Od.GATE_OPER_VIEW (by simp [gateObjs]) 0 (by decide)]

theorem Dev.inGap_kept (objs : d.objsOnly e) (k : Clk) (n : Nat) : e.inGap k p n = d.inGap k p n := by
  have same : bare e = bare d := objs
  have pend := congrArg Dev.gpend same
  have views := congrArg Dev.views same
  have pend : e.gpend = d.gpend := pend
  have views : e.views = d.views := views
  have now (v : Nat) : e.viewNow k v = d.viewNow k v := by simp only [Dev.viewNow, Dev.viewSet, Dev.viewSets, views]
  have view : e.n Od.GATE_OPER_VIEW p = d.n Od.GATE_OPER_VIEW p := congrArg Int.toNat (reads _ (by simp [gateObjs]) 0 (by decide))
  simp only [Dev.inGap, Dev.changeAt, Dev.viewSkew, Dev.gatePend, pend, now, view, Dev.operList_kept typed reads]

end

/-- Writes of registers beside the phase of a changeover leave a shedding frame's leave to go as it is (R81, R83). -/
theorem Dev.mayLeave_shed_kept {d e : Dev} {p : Nat} (port : p < 1024) (typed : d.n Od.GATE_OPER_ENTRIES p ≤ 65536) {keys : List Nat}
    (wrote : d.wrote keys e) (registers : ∀ k ∈ keys, 2 ^ 56 ≤ k) (phase : Rg.CHG_PHASE.key p 0 ∉ keys) (k : Clk) (x : Dev)
    (type seq target reason : Nat) :
    e.mayLeave k (x.shedFrame p type seq target reason) = d.mayLeave k (x.shedFrame p type seq target reason) := by
  obtain ⟨objs, reads⟩ := wrote
  have low {o : Obj} (object : o.idx * 256 + o.sub < 2 ^ 24) {j f : Nat} (hj : j < 65536) (hf : f < 65536) : e.get o j f = d.get o j f :=
    reads o j f fun written => by
      have := registers _ written
      unfold Obj.key at this
      omega
  have gates : ∀ o ∈ gateObjs, ∀ f, f < 65536 → e.get o p f = d.get o p f := fun o known f hf =>
    low ((show ∀ o ∈ gateObjs, o.idx * 256 + o.sub < 2 ^ 24 by decide) o known) (by omega) hf
  have lanes : e.n Od.PORT_ACTIVE_LANES p = d.n Od.PORT_ACTIVE_LANES p := congrArg Int.toNat (low (by decide) (by omega) (by decide))
  have rate : e.n Od.OCTET_RATE (p / 8) = d.n Od.OCTET_RATE (p / 8) := congrArg Int.toNat (low (by decide) (by omega) (by decide))
  have hold : e.n Rg.CHG_PHASE p = d.n Rg.CHG_PHASE p := congrArg Int.toNat (reads _ _ _ phase)
  simp only [Dev.mayLeave_shedFrame, Dev.inGap_kept typed gates objs, hold, Dev.portRate, Dev.portLane, lanes, rate]

/-- The window's counts that a shedding frame of port p writes as it leaves (R487). -/
def winKeys (p : Nat) : List Nat := [Rg.WIN.key p 2, Rg.WIN.key p 3]

theorem Dev.winTx_wrote (d : Dev) (p n : Nat) : d.wrote (winKeys p) (d.winTx p n) := by
  unfold Dev.winTx
  iterate 2 refine Dev.wrote_put ?_ _ _ _ _ (by simp [winKeys])
  exact Dev.wrote_refl _ d

theorem Dev.macEmit_shed (k : Clk) (d : Dev) {o : Out} (shed : o.kind = .shed) : d.macEmit k o = (d.winTx o.unit o.bytes.length).emit o := by
  have own : (OutKind.shed == OutKind.control) = false := rfl
  simp [Dev.macEmit, shed, own]

/-- A shedding frame handed to the MAC changes the window's counts alone. -/
theorem Dev.get_macSend_shed (k : Clk) (d : Dev) {o : Out} (shed : o.kind = .shed) {q : Obj} {i f : Nat} (unwritten : q.key i f ∉ winKeys o.unit) :
    (d.macSend k o).get q i f = d.get q i f := by
  unfold Dev.macSend
  split
  · rw [Dev.macEmit_shed k d shed]; exact (d.winTx_wrote _ _).2 q i f unwritten
  · rfl

theorem Dev.macSend_shed_same (k : Clk) (d : Dev) {o : Out} (shed : o.kind = .shed) : bare (d.macSend k o) = bare { d with ctl := (d.macSend k o).ctl } := by
  unfold Dev.macSend
  split
  · rw [Dev.macEmit_shed k d shed]; rfl
  · rfl

/-- A shedding frame sent after writes of objects that leave its leave to go as it was. -/
theorem shedSent_of {keys : List Nat} {s : State} {e : Dev} {o : Out} (wrote : s.dev.wrote keys e) (silent : e.out = []) (shed : o.kind = .shed)
    (same : e.mayLeave s.clk o = s.dev.mayLeave s.clk o) : shedSent keys o s { s with dev := e.macSend s.clk o } := by
  obtain ⟨objs, reads⟩ := wrote
  have waiting := Dev.objsOnly_ctl objs
  have objs : bare e = bare s.dev := objs
  refine ⟨⟨rfl, rfl, rfl⟩, ?_, ?_, fun q i f unwritten => ?_⟩
  · exact (e.macSend_shed_same s.clk shed).trans (congrArg (fun b : Dev => { b with ctl := (e.macSend s.clk o).ctl }) objs)
  · unfold Dev.macSend
    rw [same]
    split
    · rw [Dev.macEmit_shed s.clk e shed]
      exact ⟨by simp [Dev.winTx, Dev.put, silent], waiting⟩
    · exact ⟨silent, congrArg (· ++ [o]) waiting⟩
  · rw [List.mem_append, not_or] at unwritten
    exact (e.get_macSend_shed s.clk shed unwritten.2).trans (reads q i f unwritten.1)

theorem register_key {o : Obj} (register : 2 ^ 24 ≤ o.idx * 256 + o.sub) (i e : Nat) : 2 ^ 56 ≤ o.key i e := by unfold Obj.key; omega

theorem notin_winKeys {o : Obj} {p j : Nat} (port : p < 1024) (unit : j < 1024) (other : o.idx * 256 + o.sub ≠ Rg.WIN.idx * 256 + Rg.WIN.sub) :
    o.key j 0 ∉ winKeys p := by
  simp only [winKeys, List.mem_cons, List.not_mem_nil, or_false, not_or]
  exact ⟨key_ne_port unit other port (by decide) (by decide), key_ne_port unit other port (by decide) (by decide)⟩

/-- A HELLO that is due is noted and sent. -/
theorem exec_shedHelloSend_sent {s : State} (running : ready s = true) {p : Nat} (port : p < 1024) (typed : s.dev.n Od.GATE_OPER_ENTRIES p ≤ 65536)
    (enabled : s.dev.on Od.PORT_SHED_ENABLE p = true) (up : s.dev.link p = lkUP)
    (due : s.dev.n Rg.HELLO_SENT p = 0 ∨ s.dev.n Rg.HELLO_SENT p + 1999999 ≤ s.clk.tick) :
    ∃ t, exec (.shedHelloSend p) s = .next t ∧ shedSent [Rg.HELLO_SENT.key p 0] (s.dev.shedFrame p 1 0 0 0) s t ∧
      t.dev.n Rg.HELLO_SENT p = s.clk.tick + 1 := by
  have wrote : s.dev.wrote [Rg.HELLO_SENT.key p 0] (s.dev.silent.put Rg.HELLO_SENT p (s.clk.tick + 1)) :=
    Dev.wrote_put (Dev.wrote_silent _ _) _ _ _ _ (by simp)
  refine ⟨_, exec_shedHelloSend_due running port enabled up due, shedSent_of wrote rfl rfl ?_, ?_⟩
  · refine Dev.mayLeave_shed_kept port typed wrote (fun k hk => ?_) ?_ _ _ _ _ _ _
    · rw [List.mem_singleton.mp hk]; exact register_key (by decide) _ _
    · simpa using key_ne_port port (by decide) port (by decide) (by decide)
  · exact (congrArg Int.toNat (Dev.get_macSend_shed _ _ rfl (notin_winKeys port port (by decide)))).trans (Dev.n_put_same _ _ _ _ _ rfl)

/-- After 6,000,000 ticks without a HELLO the peer is no longer capable (R76). -/
theorem exec_peerCapableTimeout {s : State} (running : ready s = true) {p : Nat} (port : p < 1024) (due : s.dev.n Rg.HELLO_SEEN p + 5999999 ≤ s.clk.tick) :
    ∃ t, exec (.peerCapableTimeout p) s = .next t ∧ onlyWrites [Od.PORT_SHED_PEER_CAPABLE.key p 0] s t ∧ t.dev.n Od.PORT_SHED_PEER_CAPABLE p = 0 :=
  ⟨_, State.runIf_eq running (decide_eq_true port) (if_pos due), onlyWrites_of (Dev.wrote_put (Dev.wrote_silent _ _) _ _ _ _ (by simp)),
    Dev.n_put_same _ _ _ _ _ rfl⟩

section
variable {s : State} (running : ready s = true) {p : Nat} (port : p < 1024) (asked : s.dev.on Rg.REQ_TYPE p = true)
  (due : s.dev.n Rg.REQ_TICK p + 2000 ≤ s.clk.tick)
include running port asked due

/-- A request without answer is sent again, at most three times (R80). -/
theorem exec_shedRequestTimeout_again (typed : s.dev.n Od.GATE_OPER_ENTRIES p ≤ 65536) (few : s.dev.n Rg.REQ_TRIES p ≤ 3) :
    ∃ t, exec (.shedRequestTimeout p) s = .next t ∧ shedSent [Rg.REQ_TICK.key p 0, Rg.REQ_TRIES.key p 0]
        (s.dev.shedFrame p (s.dev.n Rg.REQ_TYPE p) (s.dev.n Rg.REQ_SEQ p) (s.dev.n Rg.REQ_TARGET p) 0) s t ∧
      t.dev.n Rg.REQ_TICK p = s.clk.tick ∧ t.dev.n Rg.REQ_TRIES p = s.dev.n Rg.REQ_TRIES p + 1 := by
  have wrote : s.dev.wrote [Rg.REQ_TICK.key p 0, Rg.REQ_TRIES.key p 0]
      ((s.dev.silent.put Rg.REQ_TICK p s.clk.tick).put Rg.REQ_TRIES p (s.dev.n Rg.REQ_TRIES p + 1)) :=
    Dev.wrote_put (Dev.wrote_put (Dev.wrote_silent _ _) _ _ _ _ (by simp)) _ _ _ _ (by simp)
  have sent {q : Obj} (other : q.idx * 256 + q.sub ≠ Rg.WIN.idx * 256 + Rg.WIN.sub) (d : Dev) (type seq target : Nat) :
      (d.macSend s.clk (s.dev.shedFrame p type seq target 0)).n q p = d.n q p :=
    congrArg Int.toNat (Dev.get_macSend_shed _ _ rfl (notin_winKeys port port other))
  refine ⟨_, State.runIf_eq running (decide_eq_true port) ((if_pos ⟨asked, due⟩).trans (if_pos few)), shedSent_of wrote rfl rfl ?_,
    (sent (by decide) _ _ _ _).trans ?_, (sent (by decide) _ _ _ _).trans (Dev.n_put_same _ _ _ _ _ rfl)⟩
  · refine Dev.mayLeave_shed_kept port typed wrote (fun k hk => ?_) ?_ _ _ _ _ _ _
    · rcases List.mem_pair.mp hk with rfl | rfl
      · exact register_key (by decide) _ _
      · exact register_key (by decide) _ _
    · rw [List.mem_pair, not_or]
      exact ⟨key_ne_port port (by decide) port (by decide) (by decide), key_ne_port port (by decide) port (by decide) (by decide)⟩
  · rw [Dev.n_put_port _ port port (by decide)]
    exact Dev.n_put_same _ _ _ _ _ rfl

/-- A restore given up takes the port down at the next boundary (R80). -/
theorem exec_shedRequestTimeout_down (many : 3 < s.dev.n Rg.REQ_TRIES p) (restore : s.dev.n Od.PORT_ACTIVE_LANES p < s.dev.n Rg.REQ_TARGET p) :
    ∃ t, exec (.shedRequestTimeout p) s = .next t ∧ writesAndWaits [Rg.REQ_TYPE.key p 0] (.portDown p) s t ∧ t.dev.n Rg.REQ_TYPE p = 0 :=
  ⟨_, State.runIf_eq running (decide_eq_true port) ((if_pos ⟨asked, due⟩).trans ((if_neg (Nat.not_le.mpr many)).trans (if_pos restore))),
    writesAndWaits_of (s.dev.requestOver_wrote p), (Dev.n_later _ _ _ _ _).trans (Dev.n_requestOver _ p)⟩

/-- A shed given up is counted, and bars another for a shed window (R80). -/
theorem exec_shedRequestTimeout_givenUp (many : 3 < s.dev.n Rg.REQ_TRIES p) (shed : s.dev.n Rg.REQ_TARGET p ≤ s.dev.n Od.PORT_ACTIVE_LANES p) :
    ∃ t, exec (.shedRequestTimeout p) s = .next t ∧
      onlyWrites [Rg.REQ_TYPE.key p 0, Od.PORT_SHED_REFUSED.key p 0, Rg.SHED_AFTER.key p 0] s t ∧ t.dev.n Rg.REQ_TYPE p = 0 ∧
      t.dev.n Rg.SHED_AFTER p = s.clk.tick + s.dev.n Od.PORT_SHED_WINDOW p := by
  refine ⟨_, State.runIf_eq running (decide_eq_true port) ((if_pos ⟨asked, due⟩).trans ((if_neg (Nat.not_le.mpr many)).trans
    (if_neg (Nat.not_lt.mpr shed)))), onlyWrites_of ?_, ?_, Dev.n_put_same _ _ _ _ _ rfl⟩
  · exact Dev.wrote_put (Dev.wrote_bump (Dev.wrote_mono (s.dev.requestOver_wrote p) (by simp)) _ _ _ _ (by simp)) _ _ _ _ (by simp)
  · refine (Dev.n_put_port _ port port (by decide) _).trans ((Dev.n_put_port _ port port (by decide) _).trans (Dev.n_requestOver _ p))

end

/-- Lanes that woke for 32 ticks end their phase (R82). -/
theorem exec_laneWakeEnd {s : State} (running : ready s = true) {p : Nat} (port : p < 1024) (waking : s.dev.n Rg.CHG_PHASE p = 2)
    (due : s.dev.n Rg.CHG_TICK p + 32 ≤ s.clk.tick) :
    ∃ t, exec (.laneWakeEnd p) s = .next t ∧ onlyWrites [Rg.CHG_PHASE.key p 0] s t ∧ t.dev.n Rg.CHG_PHASE p = 1 :=
  ⟨_, State.runIf_eq running (decide_eq_true port) (if_pos ⟨waking, due⟩), onlyWrites_of (Dev.wrote_put (Dev.wrote_silent _ _) _ _ _ _ (by simp)),
    Dev.n_put_same _ _ _ _ _ rfl⟩

/-- The statement that `not_shedTimers` refutes, with the hypothesis it lacks: the length of the port's gate list is of its type. -/
theorem shedTimers_of_listTyped (s : State) (p : Nat) (running : ready s = true) (port : p < 1024) (typed : s.dev.n Od.GATE_OPER_ENTRIES p ≤ 65536) :
    (s.dev.on Od.PORT_SHED_ENABLE p = true → s.dev.link p = lkUP → s.dev.n Rg.HELLO_SENT p = 0 ∨ s.dev.n Rg.HELLO_SENT p + 1999999 ≤ s.clk.tick →
      ∃ t, exec (.shedHelloSend p) s = .next t ∧ shedSent [Rg.HELLO_SENT.key p 0] (s.dev.shedFrame p 1 0 0 0) s t ∧
        t.dev.n Rg.HELLO_SENT p = s.clk.tick + 1) ∧
    (s.dev.n Rg.HELLO_SEEN p + 5999999 ≤ s.clk.tick →
      ∃ t, exec (.peerCapableTimeout p) s = .next t ∧ onlyWrites [Od.PORT_SHED_PEER_CAPABLE.key p 0] s t ∧ t.dev.n Od.PORT_SHED_PEER_CAPABLE p = 0) ∧
    (s.dev.on Rg.REQ_TYPE p = true → s.dev.n Rg.REQ_TICK p + 2000 ≤ s.clk.tick →
      (s.dev.n Rg.REQ_TRIES p ≤ 3 →
        ∃ t, exec (.shedRequestTimeout p) s = .next t ∧ shedSent [Rg.REQ_TICK.key p 0, Rg.REQ_TRIES.key p 0]
            (s.dev.shedFrame p (s.dev.n Rg.REQ_TYPE p) (s.dev.n Rg.REQ_SEQ p) (s.dev.n Rg.REQ_TARGET p) 0) s t ∧
          t.dev.n Rg.REQ_TICK p = s.clk.tick ∧ t.dev.n Rg.REQ_TRIES p = s.dev.n Rg.REQ_TRIES p + 1) ∧
      (3 < s.dev.n Rg.REQ_TRIES p → s.dev.n Od.PORT_ACTIVE_LANES p < s.dev.n Rg.REQ_TARGET p →
        ∃ t, exec (.shedRequestTimeout p) s = .next t ∧ writesAndWaits [Rg.REQ_TYPE.key p 0] (.portDown p) s t ∧ t.dev.n Rg.REQ_TYPE p = 0) ∧
      (3 < s.dev.n Rg.REQ_TRIES p → s.dev.n Rg.REQ_TARGET p ≤ s.dev.n Od.PORT_ACTIVE_LANES p →
        ∃ t, exec (.shedRequestTimeout p) s = .next t ∧
          onlyWrites [Rg.REQ_TYPE.key p 0, Od.PORT_SHED_REFUSED.key p 0, Rg.SHED_AFTER.key p 0] s t ∧ t.dev.n Rg.REQ_TYPE p = 0 ∧
          t.dev.n Rg.SHED_AFTER p = s.clk.tick + s.dev.n Od.PORT_SHED_WINDOW p)) ∧
    (s.dev.n Rg.CHG_PHASE p = 2 → s.dev.n Rg.CHG_TICK p + 32 ≤ s.clk.tick →
      ∃ t, exec (.laneWakeEnd p) s = .next t ∧ onlyWrites [Rg.CHG_PHASE.key p 0] s t ∧ t.dev.n Rg.CHG_PHASE p = 1) :=
  ⟨exec_shedHelloSend_sent running port typed, exec_peerCapableTimeout running port,
    fun asked due => ⟨exec_shedRequestTimeout_again running port asked due typed, exec_shedRequestTimeout_down running port asked due,
      exec_shedRequestTimeout_givenUp running port asked due⟩, exec_laneWakeEnd running port⟩

end Sys2Proof.Machine

namespace Sys2Proof.Machine
open Sys2Proof.Safety

/-! SUPPORT. Windows and holds of shedding (R77, R81, R84), where the length of a port's gate list is of its type. -/

/-- Of the device d some objects have been written, those listed, and frames of the MACs may have left or wait besides. -/
def Dev.wroteSent (keys : List Nat) (d e : Dev) : Prop :=
  bare e = bare { d with ctl := e.ctl } ∧ ∀ (o : Obj) (i f : Nat), o.key i f ∉ keys → e.get o i f = d.get o i f

theorem Dev.wroteSent_of {keys : List Nat} {d e : Dev} (h : d.wrote keys e) : d.wroteSent keys e := by
  obtain ⟨objs, reads⟩ := h
  refine ⟨?_, reads⟩
  rw [Dev.objsOnly_ctl objs]
  exact objs

theorem Dev.wroteSent_macSend {keys : List Nat} {d e : Dev} (h : d.wroteSent keys e) (k : Clk) {o : Out} (shed : o.kind = .shed)
    (win : winKeys o.unit ⊆ keys) : d.wroteSent keys (e.macSend k o) := by
  obtain ⟨same, reads⟩ := h
  refine ⟨(e.macSend_shed_same k shed).trans (congrArg (fun b : Dev => { b with ctl := (e.macSend k o).ctl }) same), fun q i f unwritten => ?_⟩
  rw [Dev.get_macSend_shed k e shed fun written => unwritten (win written), reads q i f unwritten]

/-- The elements that a port's asking for a change of its lanes writes (R80, R83). -/
def askKeys (p : Nat) : List Nat :=
  [Rg.REQ_TYPE.key p 0, Rg.REQ_TARGET.key p 0, Rg.REQ_SEQ.key p 0, Rg.REQ_TICK.key p 0, Rg.REQ_TRIES.key p 0, Od.PORT_SHED_BLOCKED.key p 0] ++ winKeys p

theorem Dev.request_wroteSent (k : Clk) (p type target : Nat) (d : Dev) : d.wroteSent (askKeys p) (d.request k p type target) := by
  refine Dev.wroteSent_macSend (Dev.wroteSent_of ?_) k rfl (List.subset_append_right _ _)
  iterate 5 refine Dev.wrote_put ?_ _ _ _ _ (by simp [askKeys])
  exact Dev.wrote_refl _ d

theorem Dev.blocked_wroteSent (p : Nat) (d : Dev) : d.wroteSent (askKeys p) (d.bump Od.PORT_SHED_BLOCKED p) :=
  Dev.wroteSent_of (Dev.wrote_bump (Dev.wrote_refl _ d) _ _ _ _ (by simp [askKeys]))

theorem Dev.parkAsk_wroteSent (k : Clk) (p : Nat) (d : Dev) : d.wroteSent (askKeys p) (d.parkAsk k p) := by
  unfold Dev.parkAsk
  split
  · split
    · exact d.request_wroteSent k p 2 1
    · exact d.blocked_wroteSent p
  · exact Dev.wroteSent_of (Dev.wrote_refl _ d)

/-- The request outstanding after a port has asked. -/
theorem Dev.request_reads (k : Clk) {p : Nat} (port : p < 1024) (type target : Nat) (d : Dev) :
    (d.request k p type target).n Rg.REQ_TYPE p = type ∧ (d.request k p type target).n Rg.REQ_TARGET p = target ∧
      (d.request k p type target).n Rg.REQ_TICK p = k.tick := by
  have sent {q : Obj} (other : q.idx * 256 + q.sub ≠ Rg.WIN.idx * 256 + Rg.WIN.sub) (e x : Dev) (seq : Nat) :
      (e.macSend k (x.shedFrame p type seq target 0)).n q p = e.n q p :=
    congrArg Int.toNat (Dev.get_macSend_shed _ _ rfl (notin_winKeys port port other))
  refine ⟨(sent (by decide) _ _ _).trans ?_, (sent (by decide) _ _ _).trans ?_, (sent (by decide) _ _ _).trans ?_⟩
  · iterate 4 rw [Dev.n_put_port _ port port (by decide)]
    exact Dev.n_put_same _ _ _ _ _ rfl
  · iterate 3 rw [Dev.n_put_port _ port port (by decide)]
    exact Dev.n_put_same _ _ _ _ _ rfl
  · rw [Dev.n_put_port _ port port (by decide)]
    exact Dev.n_put_same _ _ _ _ _ rfl

theorem Dev.shedAsk_wroteSent (k : Clk) (p : Nat) (d : Dev) : (d.shedWindowOver k p).wroteSent (askKeys p) (d.shedAsk k p) := by
  unfold Dev.shedAsk
  dsimp only
  split
  · exact Dev.parkAsk_wroteSent k p _
  split
  · split
    · exact Dev.request_wroteSent k p 2 _ _
    · exact Dev.blocked_wroteSent p _
  · exact Dev.wroteSent_of (Dev.wrote_refl _ _)

theorem Dev.wroteSent_n {keys : List Nat} {d e : Dev} (h : d.wroteSent keys e) {o : Obj} {i f : Nat} (unwritten : o.key i f ∉ keys) :
    e.n o i f = d.n o i f := congrArg Int.toNat (h.2 o i f unwritten)

/-- An element of a port that is none of those its asking writes. -/
theorem notin_askKeys {o : Obj} {p j : Nat} (port : p < 1024) (unit : j < 1024)
    (other : ∀ q ∈ [Rg.REQ_TYPE, Rg.REQ_TARGET, Rg.REQ_SEQ, Rg.REQ_TICK, Rg.REQ_TRIES, Od.PORT_SHED_BLOCKED, Rg.WIN],
      o.idx * 256 + o.sub ≠ q.idx * 256 + q.sub) : o.key j 0 ∉ askKeys p := by
  intro written
  have apart {q : Obj} (known : o.idx * 256 + o.sub ≠ q.idx * 256 + q.sub) : o.key j 0 ≠ q.key p 0 := key_ne_port unit known port (by decide) (by decide)
  simp only [List.mem_cons, List.not_mem_nil, or_false, forall_eq_or_imp, forall_eq] at other
  obtain ⟨type, target, seq, tick, tries, barred, win⟩ := other
  rcases List.mem_append.mp written with ask | sent
  · simp only [List.mem_cons, List.not_mem_nil, or_false, apart type, apart target, apart seq, apart tick, apart tries, apart barred] at ask
  · exact notin_winKeys port unit win sent

section
variable (k : Clk) {p : Nat} (port : p < 1024) (d : Dev)
include port

/-- The window's end changes the load it reports and the next window's start and counts. -/
theorem Dev.n_shedWindowOver_other {q : Obj} {j : Nat} (unit : j < 1024)
    (other : ∀ o ∈ [Od.PORT_SHED_LOAD, Rg.SHED_START, Rg.SHED_RX, Rg.SHED_TX], o.idx * 256 + o.sub ≠ q.idx * 256 + q.sub) :
    (d.shedWindowOver k p).n q j = d.n q j := by
  simp only [List.mem_cons, List.not_mem_nil, or_false, forall_eq_or_imp, forall_eq] at other
  obtain ⟨load, start, rx, tx⟩ := other
  rw [Dev.shedWindowOver, Dev.n_put_port _ port unit tx, Dev.n_put_port _ port unit rx, Dev.n_put_port _ port unit start, Dev.n_put_port _ port unit load]

theorem Dev.shedWindowOver_reads : (d.shedWindowOver k p).n Rg.SHED_START p = k.tick ∧ (d.shedWindowOver k p).n Rg.SHED_RX p = 0 ∧
    (d.shedWindowOver k p).n Rg.SHED_TX p = 0 ∧
    (d.shedWindowOver k p).get Od.PORT_SHED_LOAD p = Od.PORT_SHED_LOAD.ty.norm ((max (d.n Rg.SHED_RX p) (d.n Rg.SHED_TX p) * 1000 /
      (d.portWidth p * d.portLane p * d.n Od.PORT_SHED_WINDOW p) : Nat) : Int) := by
  refine ⟨?_, ?_, Dev.n_put_same _ _ _ _ _ rfl, ?_⟩
  · rw [Dev.shedWindowOver, Dev.n_put_port _ port port (by decide), Dev.n_put_port _ port port (by decide)]
    exact Dev.n_put_same _ _ _ _ _ rfl
  · rw [Dev.shedWindowOver, Dev.n_put_port _ port port (by decide)]
    exact Dev.n_put_same _ _ _ _ _ rfl
  · have apart {o : Obj} (other : o.idx * 256 + o.sub ≠ Od.PORT_SHED_LOAD.idx * 256 + Od.PORT_SHED_LOAD.sub) (e : Dev) (v : Nat) :
        (e.put o p v).get Od.PORT_SHED_LOAD p = e.get Od.PORT_SHED_LOAD p :=
      Dev.get_put_other _ _ _ _ _ _ _ _ (key_ne_port port other port (by decide) (by decide))
    rw [Dev.shedWindowOver, apart (by decide), apart (by decide), apart (by decide)]
    exact Dev.get_put_same _ _ _ _ _

end

/-- The end of a shed window: its load reported, the next begun, whatever the port then asks for. -/
theorem exec_shedWindowEnd_begins {s : State} (running : ready s = true) {p : Nat} (port : p < 1024)
    (due : s.dev.n Rg.SHED_START p + s.dev.n Od.PORT_SHED_WINDOW p ≤ s.clk.tick) (lanes : 0 < s.dev.n Od.PORT_ACTIVE_LANES p) :
    ∃ t, exec (.shedWindowEnd p) s = .next t ∧ outsideKept s t ∧ bare t.dev = bare { s.dev with ctl := t.dev.ctl } ∧ t.dev.n Rg.SHED_START p = s.clk.tick ∧
      t.dev.n Rg.SHED_RX p = 0 ∧ t.dev.n Rg.SHED_TX p = 0 ∧
      t.dev.get Od.PORT_SHED_LOAD p = Od.PORT_SHED_LOAD.ty.norm ((max (s.dev.n Rg.SHED_RX p) (s.dev.n Rg.SHED_TX p) * 1000 /
        (s.dev.portWidth p * s.dev.portLane p * s.dev.n Od.PORT_SHED_WINDOW p) : Nat) : Int) := by
  have asks := Dev.shedAsk_wroteSent s.clk p s.dev.silent
  obtain ⟨start, rx, tx, load⟩ := Dev.shedWindowOver_reads s.clk port s.dev.silent
  obtain ⟨same, reads⟩ := asks
  refine ⟨_, exec_shedWindowEnd_due running port due lanes, ⟨rfl, rfl, rfl⟩, same, ?_, ?_, ?_, ?_⟩
  · exact (Dev.wroteSent_n ⟨same, reads⟩ (notin_askKeys port port (by decide))).trans start
  · exact (Dev.wroteSent_n ⟨same, reads⟩ (notin_askKeys port port (by decide))).trans rx
  · exact (Dev.wroteSent_n ⟨same, reads⟩ (notin_askKeys port port (by decide))).trans tx
  · exact (reads _ _ _ (notin_askKeys port port (by decide))).trans load

/-- The objects that the window's end writes. -/
theorem gateObjs_window : ∀ o ∈ gateObjs, ∀ q ∈ [Od.PORT_SHED_LOAD, Rg.SHED_START, Rg.SHED_RX, Rg.SHED_TX],
    q.idx * 256 + q.sub ≠ o.idx * 256 + o.sub := by decide

theorem Dev.operList_shedWindowOver (k : Clk) {p : Nat} (port : p < 1024) {d : Dev} (typed : d.n Od.GATE_OPER_ENTRIES p ≤ 65536) :
    (d.shedWindowOver k p).operList p = d.operList p := by
  refine Dev.operList_kept typed fun o known f hf => ?_
  have apart {q : Obj} (written : q ∈ [Od.PORT_SHED_LOAD, Rg.SHED_START, Rg.SHED_RX, Rg.SHED_TX]) : q.key p 0 ≠ o.key p f :=
    Obj.key_ne (gateObjs_window o known q written) (by omega) (by omega) (by decide) hf
  rw [Dev.shedWindowOver, Dev.get_put_other _ _ _ _ _ _ _ _ (apart (by simp)), Dev.get_put_other _ _ _ _ _ _ _ _ (apart (by simp)),
    Dev.get_put_other _ _ _ _ _ _ _ _ (apart (by simp)), Dev.get_put_other _ _ _ _ _ _ _ _ (apart (by simp))]

theorem Dev.canShed_shedWindowOver (k : Clk) {p : Nat} (port : p < 1024) (d : Dev) : (d.shedWindowOver k p).canShed p = d.canShed p := by
  have width : (d.shedWindowOver k p).portWidth p = d.portWidth p := by
    rw [Dev.portWidth, Dev.n_shedWindowOver_other k port d (by omega) (by decide)]; rfl
  simp only [Dev.canShed, width, Dev.pam4, Dev.on, Dev.n_shedWindowOver_other k port d (q := Od.OCTET_RATE) (j := p / 8) (by omega) (by decide),
    Dev.n_shedWindowOver_other k port d (q := Od.PORT_SHED_ENABLE) port (by decide),
    Dev.n_shedWindowOver_other k port d (q := Od.PORT_SHED_PEER_CAPABLE) port (by decide)]

/-- An UP port above its fewest lanes whose load is below the threshold asks for half its lanes, where nothing bars it. -/
theorem Dev.shedAsk_asks (k : Clk) {p : Nat} (port : p < 1024) {d : Dev} (typed : d.n Od.GATE_OPER_ENTRIES p ≤ 65536) (up : d.link p = lkUP)
    (capable : d.canShed p = true) (above : d.n Od.PORT_SHED_MIN_LANES p < d.n Od.PORT_ACTIVE_LANES p)
    (low : max (d.n Rg.SHED_RX p) (d.n Rg.SHED_TX p) * 1000 <
      d.n Od.PORT_SHED_BELOW p * (d.n Od.PORT_ACTIVE_LANES p / 2 * d.portLane p * d.n Od.PORT_SHED_WINDOW p))
    (content : restoreWanted k d p = false) (free : d.dues.contains (.restoreNow p) = false) (unasked : d.n Rg.REQ_TYPE p = 0)
    (still : d.n Rg.CHG_PHASE p = 0) (unbarred : d.n Rg.SHED_AFTER p ≤ k.tick) (gap : (d.operList p).hasGap 4000 = true) :
    d.shedAsk k p = (d.shedWindowOver k p).request k p 2 (d.n Od.PORT_ACTIVE_LANES p / 2) := by
  have same {q : Obj}
      (other : ∀ o ∈ [Od.PORT_SHED_LOAD, Rg.SHED_START, Rg.SHED_RX, Rg.SHED_TX], o.idx * 256 + o.sub ≠ q.idx * 256 + q.sub) :=
    Dev.n_shedWindowOver_other k port d (q := q) port other
  have link : (d.shedWindowOver k p).link p = lkUP := (same (by decide)).trans up
  have unparked : (lkUP == lkPARKED) = false := by decide
  have wanted : d.shedWanted k p = true := by
    simp only [Dev.shedWanted, link, Dev.canShed_shedWindowOver k port, capable, same (q := Od.PORT_SHED_MIN_LANES) (by decide), above,
      same (q := Od.PORT_SHED_BELOW) (by decide), low, content, free, same (q := Rg.REQ_TYPE) (by decide), unasked,
      same (q := Rg.CHG_PHASE) (by decide), still, same (q := Rg.SHED_AFTER) (by decide), unbarred]
    decide
  simp [Dev.shedAsk, link, unparked, wanted, Dev.operList_shedWindowOver k port typed, gap]

/-- Such a port's request stands after the end of its shed window. -/
theorem exec_shedWindowEnd_asks {s : State} (running : ready s = true) {p : Nat} (port : p < 1024) (typed : s.dev.n Od.GATE_OPER_ENTRIES p ≤ 65536)
    (due : s.dev.n Rg.SHED_START p + s.dev.n Od.PORT_SHED_WINDOW p ≤ s.clk.tick) (up : s.dev.link p = lkUP) (capable : s.dev.canShed p = true)
    (above : s.dev.n Od.PORT_SHED_MIN_LANES p < s.dev.n Od.PORT_ACTIVE_LANES p)
    (low : max (s.dev.n Rg.SHED_RX p) (s.dev.n Rg.SHED_TX p) * 1000 <
      s.dev.n Od.PORT_SHED_BELOW p * (s.dev.n Od.PORT_ACTIVE_LANES p / 2 * s.dev.portLane p * s.dev.n Od.PORT_SHED_WINDOW p))
    (content : restoreWanted s.clk s.dev p = false) (free : s.dev.dues.contains (.restoreNow p) = false) (unasked : s.dev.n Rg.REQ_TYPE p = 0)
    (still : s.dev.n Rg.CHG_PHASE p = 0) (unbarred : s.dev.n Rg.SHED_AFTER p ≤ s.clk.tick) (gap : (s.dev.operList p).hasGap 4000 = true) :
    ∃ t, exec (.shedWindowEnd p) s = .next t ∧ t.dev.n Rg.REQ_TYPE p = 2 ∧ t.dev.n Rg.REQ_TARGET p = s.dev.n Od.PORT_ACTIVE_LANES p / 2 ∧
      t.dev.n Rg.REQ_TICK p = s.clk.tick := by
  have ran := exec_shedWindowEnd_due running port due (by omega)
  rw [Dev.shedAsk_asks s.clk port (d := s.dev.silent) typed up capable above low content free unasked still unbarred gap] at ran
  exact ⟨_, ran, Dev.request_reads s.clk port 2 _ _⟩

theorem Dev.wroteSent_ite {keys : List Nat} {d a b : Dev} {c : Prop} [Decidable c] (ha : d.wroteSent keys a) (hb : d.wroteSent keys b) :
    d.wroteSent keys (if c then a else b) := by split <;> assumption

/-- The device at the end of a restore window, its sent bits kept and the next begun (R77, R80). -/
def Dev.restoreWindowOver (k : Clk) (p : Nat) (d : Dev) : Dev :=
  (((d.put Rg.LAST_TX p (d.n Rg.RESTORE_TX p)).put Rg.RESTORE_START p k.tick).put Rg.RESTORE_RX p 0).put Rg.RESTORE_TX p 0

/-- What the port then asks for changes its request alone. -/
theorem exec_restoreWindowEnd_due {s : State} (running : ready s = true) {p : Nat} (port : p < 1024)
    (due : s.dev.n Rg.RESTORE_START p + s.dev.n Od.PORT_SHED_RESTORE_WINDOW p ≤ s.clk.tick) :
    ∃ e, exec (.restoreWindowEnd p) s = .next { s with dev := e } ∧ (s.dev.silent.restoreWindowOver s.clk p).wroteSent (askKeys p) e :=
  ⟨_, State.runIf_eq running (decide_eq_true port) (if_pos due),
    Dev.wroteSent_ite (Dev.request_wroteSent _ _ _ _ (s.dev.silent.restoreWindowOver s.clk p)) (Dev.wroteSent_of (Dev.wrote_refl _ _))⟩

/-- The end of a restore window keeps its sent bits as the latest load and begins the next. -/
theorem exec_restoreWindowEnd_begins {s : State} (running : ready s = true) {p : Nat} (port : p < 1024)
    (due : s.dev.n Rg.RESTORE_START p + s.dev.n Od.PORT_SHED_RESTORE_WINDOW p ≤ s.clk.tick) :
    ∃ t, exec (.restoreWindowEnd p) s = .next t ∧ outsideKept s t ∧ bare t.dev = bare { s.dev with ctl := t.dev.ctl } ∧
      t.dev.n Rg.RESTORE_START p = s.clk.tick ∧ t.dev.n Rg.LAST_TX p = s.dev.n Rg.RESTORE_TX p ∧ t.dev.n Rg.RESTORE_RX p = 0 ∧
      t.dev.n Rg.RESTORE_TX p = 0 := by
  obtain ⟨e, ran, asks⟩ := exec_restoreWindowEnd_due running port due
  refine ⟨_, ran, ⟨rfl, rfl, rfl⟩, asks.1, ?_, ?_, ?_, ?_⟩
  · refine (Dev.wroteSent_n asks (notin_askKeys port port (by decide))).trans ?_
    rw [Dev.restoreWindowOver, Dev.n_put_port _ port port (by decide), Dev.n_put_port _ port port (by decide)]
    exact Dev.n_put_same _ _ _ _ _ rfl
  · refine (Dev.wroteSent_n asks (notin_askKeys port port (by decide))).trans ?_
    rw [Dev.restoreWindowOver, Dev.n_put_port _ port port (by decide), Dev.n_put_port _ port port (by decide), Dev.n_put_port _ port port (by decide)]
    exact Dev.n_put_same _ _ _ _ _ rfl
  · refine (Dev.wroteSent_n asks (notin_askKeys port port (by decide))).trans ?_
    rw [Dev.restoreWindowOver, Dev.n_put_port _ port port (by decide)]
    exact Dev.n_put_same _ _ _ _ _ rfl
  · exact (Dev.wroteSent_n asks (notin_askKeys port port (by decide))).trans (Dev.n_put_same _ _ _ _ _ rfl)

/-! SUPPORT. The hold of a changeover (R81, R84, R286). -/

theorem Dev.dropCtl_inService {d : Dev} {p : Nat} (up : d.inService p = true) : d.dropCtl p = d := by
  simp [Dev.dropCtl, up]

/-- The objects of a trunk port's credit. -/
def creditObjs : List Obj := [Rg.CREDIT_G, Rg.CREDIT_U, Od.FAB_CREDIT_GRANTED]

/-- What the writes of a port's credit leave alone. -/
theorem Dev.get_put_credit (d : Dev) {p c : Nat} (port : p < 1024) (hc : c < 8) {o q : Obj} (credit : o ∈ creditObjs) {j f : Nat} (hj : j < 65536)
    (hf : f < 65536) (other : ∀ o ∈ creditObjs, o.idx * 256 + o.sub ≠ q.idx * 256 + q.sub) (v : Nat) : (d.put o p v c).get q j f = d.get q j f :=
  Dev.get_put_other _ _ _ _ _ _ _ _ (Obj.key_ne (other o credit) (by omega) hj (by omega) hf)

/-- A port's credit is void. -/
def Dev.creditVoid (p : Nat) (d : Dev) : Dev :=
  d.each (List.range 8) fun d c => ((d.put Rg.CREDIT_G p 0 c).put Rg.CREDIT_U p 0 c).put Od.FAB_CREDIT_GRANTED p 0 c

/-- The copies in transmission of a port have no debit of credit any more. -/
def Dev.debitVoid (p : Nat) (d : Dev) : Dev := { d with tx := d.tx.map fun (t : TxCopy) => if t.port == p then { t with debit := 0 } else t }

theorem Dev.leaveUp_eq (d : Dev) (p : Nat) : d.leaveUp p = (d.creditVoid p).debitVoid p := rfl

@[simp] theorem Dev.debitVoid_out (d : Dev) (p : Nat) : (d.debitVoid p).out = d.out := rfl
@[simp] theorem Dev.get_debitVoid (d : Dev) (p : Nat) (o : Obj) (i e : Nat) : (d.debitVoid p).get o i e = d.get o i e := rfl

section
variable {p : Nat} (port : p < 1024) (d : Dev) {q : Obj} {j f : Nat} (hj : j < 65536) (hf : f < 65536)
  (other : ∀ o ∈ creditObjs, o.idx * 256 + o.sub ≠ q.idx * 256 + q.sub)
include port hj hf other

theorem Dev.get_leaveUp : (d.leaveUp p).get q j f = d.get q j f := by
  rw [Dev.leaveUp_eq, Dev.get_debitVoid]
  refine Dev.each_get (List.range 8) _ q j f (fun e c hc => ?_) d
  have hc := List.mem_range.mp hc
  rw [Dev.get_put_credit _ port hc (by simp [creditObjs]) hj hf other, Dev.get_put_credit _ port hc (by simp [creditObjs]) hj hf other,
    Dev.get_put_credit _ port hc (by simp [creditObjs]) hj hf other]

theorem Dev.get_enterUp : (d.enterUp p).get q j f = d.get q j f := by
  refine Dev.each_get (List.range 8) _ q j f (fun e c hc => ?_) d
  have hc := List.mem_range.mp hc
  cases e.creditClass p c
  · rfl
  · exact Dev.get_put_credit _ port hc (by simp [creditObjs]) hj hf other _

end

theorem Dev.creditVoid_objsOnly (d : Dev) (p : Nat) : d.objsOnly (d.creditVoid p) := by
  unfold Dev.creditVoid
  exact Dev.objsOnly_each _ _ (fun d _ _ => Dev.objsOnly_put (Dev.objsOnly_put (Dev.objsOnly_put (Dev.objsOnly_refl d) _ _ _ _) _ _ _ _) _ _ _ _) d

theorem Dev.objsOnly_debitVoid {d e : Dev} (h : d.objsOnly e) (p : Nat) : bare (e.debitVoid p) = bare (d.debitVoid p) :=
  congrArg (Dev.debitVoid p) (show bare e = bare d from h)

theorem Dev.leaveUp_same (d : Dev) (p : Nat) : bare (d.leaveUp p) = bare (d.debitVoid p) := by
  rw [Dev.leaveUp_eq]
  exact Dev.objsOnly_debitVoid (d.creditVoid_objsOnly p) p

theorem Dev.enterUp_objsOnly (d : Dev) (p : Nat) : d.objsOnly (d.enterUp p) :=
  Dev.objsOnly_each _ _ (fun d c _ => by cases d.creditClass p c <;> rfl) d

theorem creditObjs_link : ∀ o ∈ creditObjs, o.idx * 256 + o.sub ≠ Od.PORT_LINK_STATE.idx * 256 + Od.PORT_LINK_STATE.sub := by decide

section
variable (k : Clk) {d : Dev} {p : Nat} (port : p < 1024)
include port

/-- The link state of a port held or returned, as its writes find it. -/
theorem Dev.link_put_served (d : Dev) {st : Nat} (served : st ∈ [lkUP, lkCHANGEOVER]) :
    ((d.put Od.PORT_LINK_STATE p st).put Od.PORT_HOLD_STATE p 0).link p = st := by
  rw [Dev.link, Dev.n_put_port _ port port (by decide)]
  exact Dev.n_put_same _ _ _ _ _ ((show ∀ st ∈ [lkUP, lkCHANGEOVER], Od.PORT_LINK_STATE.ty.norm (st : Nat) = (st : Nat) by decide) st served)

/-- A port that leaves UP for a hold stays in service; its credit is void. -/
theorem Dev.setLink_hold (up : d.link p = lkUP) :
    d.setLink k p lkCHANGEOVER = ((d.put Od.PORT_LINK_STATE p lkCHANGEOVER).put Od.PORT_HOLD_STATE p 0).leaveUp p := by
  have link := Dev.link_put_served port d (st := lkCHANGEOVER) (by decide)
  have held : (((d.put Od.PORT_LINK_STATE p lkCHANGEOVER).put Od.PORT_HOLD_STATE p 0).leaveUp p).link p = lkCHANGEOVER :=
    (Dev.link_of_get (Dev.get_leaveUp port _ (by omega) (by decide) creditObjs_link)).trans link
  have state : (d.put Od.PORT_LINK_STATE p lkCHANGEOVER).inService p = true := by
    simp [Dev.inService, Dev.link, Dev.n_put_same _ _ _ _ _ (show Od.PORT_LINK_STATE.ty.norm (lkCHANGEOVER : Nat) = (lkCHANGEOVER : Nat) by decide)]
  have keep := Dev.dropCtl_inService (d := ((d.put Od.PORT_LINK_STATE p lkCHANGEOVER).put Od.PORT_HOLD_STATE p 0).leaveUp p) (p := p)
    (by simp [Dev.inService, held])
  have left : lkCHANGEOVER ≠ lkUP := by decide
  simp [Dev.setLink, up, state, left, keep]

/-- And returns from it. -/
theorem Dev.setLink_return (held : d.link p = lkCHANGEOVER) :
    d.setLink k p lkUP = ((d.put Od.PORT_LINK_STATE p lkUP).put Od.PORT_HOLD_STATE p 0).enterUp p := by
  have link := Dev.link_put_served port d (st := lkUP) (by decide)
  have up : (((d.put Od.PORT_LINK_STATE p lkUP).put Od.PORT_HOLD_STATE p 0).enterUp p).link p = lkUP :=
    (Dev.link_of_get (Dev.get_enterUp port _ (by omega) (by decide) creditObjs_link)).trans link
  have state : (d.put Od.PORT_LINK_STATE p lkUP).inService p = true := by
    simp [Dev.inService, Dev.link, Dev.n_put_same _ _ _ _ _ (show Od.PORT_LINK_STATE.ty.norm (lkUP : Nat) = (lkUP : Nat) by decide)]
  have keep := Dev.dropCtl_inService (d := ((d.put Od.PORT_LINK_STATE p lkUP).put Od.PORT_HOLD_STATE p 0).enterUp p) (p := p)
    (by simp [Dev.inService, up])
  have left : lkCHANGEOVER ≠ lkUP := by decide
  simp [Dev.setLink, held, state, left, keep]

end

/-- The device as its hold begins: SWITCHED has left, the hold is noted (R81). -/
def Dev.holdBegun (k : Clk) (p : Nat) (d : Dev) : Dev :=
  (((d.winTx p (d.shedFrame p 5 0 (d.n Rg.CHG_TARGET p) 0).bytes.length).emit (d.shedFrame p 5 0 (d.n Rg.CHG_TARGET p) 0)).put Rg.CHG_PHASE p 3).put
    Rg.CHG_TICK p k.tick

theorem Dev.holdBegun_objsOnly (k : Clk) (p : Nat) (d : Dev) : d.objsOnly (d.holdBegun k p) := by
  obtain ⟨objs, -⟩ := d.winTx_wrote p (d.shedFrame p 5 0 (d.n Rg.CHG_TARGET p) 0).bytes.length
  exact Dev.objsOnly_put (Dev.objsOnly_put (Dev.objsOnly_emit objs _) _ _ _ _) _ _ _ _

/-- The hold's beginning leaves every other object as it was. -/
theorem Dev.n_holdBegun_other (k : Clk) {p : Nat} (port : p < 1024) (d : Dev) {q : Obj} {j : Nat} (unit : j < 1024)
    (other : ∀ o ∈ [Rg.CHG_PHASE, Rg.CHG_TICK], o.idx * 256 + o.sub ≠ q.idx * 256 + q.sub)
    (win : q.idx * 256 + q.sub ≠ Rg.WIN.idx * 256 + Rg.WIN.sub) : (d.holdBegun k p).n q j = d.n q j := by
  simp only [List.mem_cons, List.not_mem_nil, or_false, forall_eq_or_imp, forall_eq] at other
  obtain ⟨phase, tick⟩ := other
  rw [Dev.holdBegun, Dev.n_put_port _ port unit tick, Dev.n_put_port _ port unit phase, Dev.n_emit]
  exact Dev.wrote_n (d.winTx_wrote _ _) (notin_winKeys port unit win)

theorem Dev.creditVoid_out (d : Dev) (p : Nat) : (d.creditVoid p).out = d.out := by
  unfold Dev.creditVoid
  refine Dev.each_keeps (P := fun e => e.out = d.out) (d := d) (List.range 8) (fun e c _ silent => ?_) rfl
  simpa using silent

theorem Dev.leaveUp_out (d : Dev) (p : Nat) : (d.leaveUp p).out = d.out := by
  rw [Dev.leaveUp_eq, Dev.debitVoid_out, Dev.creditVoid_out]

/-- SWITCHED leaves outside a hold. -/
theorem Dev.macSend_switched (k : Clk) {d : Dev} {p : Nat} (outside : d.n Rg.CHG_PHASE p = 1) (x : Dev) (seq target reason : Nat) :
    d.macSend k (x.shedFrame p 5 seq target reason) =
      (d.winTx p (x.shedFrame p 5 seq target reason).bytes.length).emit (x.shedFrame p 5 seq target reason) := by
  have leaves : d.mayLeave k (x.shedFrame p 5 seq target reason) = true := by simp [Dev.mayLeave_shedFrame, outside]
  rw [Dev.macSend, if_pos leaves, Dev.macEmit_shed k d rfl]
  rfl

section
variable {s : State} (running : ready s = true) {p : Nat} (port : p < 1024)
include running port

/-- A hold that lies in a gap begins on an UP port. -/
theorem exec_changeoverHoldStart_up (phase : s.dev.n Rg.CHG_PHASE p = 1) (up : s.dev.link p = lkUP) (clear : ∀ x ∈ s.dev.tx, x.port = p → 1 < x.path)
    (gap : s.dev.inGap s.clk p 4000 = true) (list : (s.dev.operList p).hasGap 4000 = true) (last : s.dev.laterGap s.clk p = false) :
    exec (.changeoverHoldStart p) s = .next { s with dev :=
      (((s.dev.silent.holdBegun s.clk p).put Od.PORT_LINK_STATE p lkCHANGEOVER).put Od.PORT_HOLD_STATE p 0).leaveUp p } := by
  have serves : s.dev.silent.receives p = true := by simp [Dev.receives, show s.dev.silent.link p = lkUP from up]
  have free : (s.dev.silent.tx.all fun t => t.port != p || decide (1 < t.path)) = true := by
    refine List.all_eq_true.mpr fun x hx => ?_
    by_cases own : x.port = p
    · simp [clear x hx own]
    · simp [own]
  have gap : s.dev.silent.inGap s.clk p 4000 = true := gap
  have list : (s.dev.silent.operList p).hasGap 4000 = true := list
  have last : s.dev.silent.laterGap s.clk p = false := last
  have phase : s.dev.silent.n Rg.CHG_PHASE p = 1 := phase
  have begun : (s.dev.silent.holdBegun s.clk p).link p = lkUP := (Dev.n_holdBegun_other s.clk port _ port (by decide) (by decide)).trans up
  refine State.runIf_eq running (decide_eq_true port) ((if_pos ⟨phase, serves, free, .inl (by simp [gap, last])⟩).trans ?_)
  simp only [list, Bool.not_true, Bool.and_false, Dev.when_false, Dev.macSend_switched s.clk phase]
  exact (if_pos begun).trans (Dev.setLink_hold s.clk port begun)

/-- The hold of an UP port: SWITCHED sent, the port in CHANGEOVER, its credit void (R81, R291). -/
theorem exec_changeoverHoldStart_begins (phase : s.dev.n Rg.CHG_PHASE p = 1) (up : s.dev.link p = lkUP) (clear : ∀ x ∈ s.dev.tx, x.port = p → 1 < x.path)
    (gap : s.dev.inGap s.clk p 4000 = true) (list : (s.dev.operList p).hasGap 4000 = true) (last : s.dev.laterGap s.clk p = false) :
    ∃ t, exec (.changeoverHoldStart p) s = .next t ∧ outsideKept s t ∧ bare t.dev = bare { s.dev with tx := (s.dev.leaveUp p).tx } ∧
      t.dev.link p = lkCHANGEOVER ∧ t.dev.n Rg.CHG_PHASE p = 3 ∧ t.dev.n Rg.CHG_TICK p = s.clk.tick ∧
      t.dev.out = [s.dev.shedFrame p 5 0 (s.dev.n Rg.CHG_TARGET p) 0] := by
  have credit {q : Obj} (other : ∀ o ∈ creditObjs, o.idx * 256 + o.sub ≠ q.idx * 256 + q.sub) (e : Dev) : (e.leaveUp p).n q p = e.n q p :=
    congrArg Int.toNat (Dev.get_leaveUp port e (by omega) (by decide) other)
  refine ⟨_, exec_changeoverHoldStart_up running port phase up clear gap list last, ⟨rfl, rfl, rfl⟩, ?_, ?_, ?_, ?_, ?_⟩
  · have tx : (s.dev.leaveUp p).tx = (s.dev.debitVoid p).tx := congrArg (List.map _) (Dev.objsOnly_tx (s.dev.creditVoid_objsOnly p))
    rw [tx]
    have begun := Dev.objsOnly_trans s.dev.objsOnly_silent (s.dev.silent.holdBegun_objsOnly s.clk p)
    exact (Dev.leaveUp_same _ p).trans (Dev.objsOnly_debitVoid (Dev.objsOnly_put (Dev.objsOnly_put begun _ _ _ _) _ _ _ _) p)
  · exact (credit (by decide) _).trans (Dev.link_put_served port _ (by decide))
  · refine (credit (by decide) _).trans ?_
    rw [Dev.n_put_port _ port port (by decide), Dev.n_put_port _ port port (by decide), Dev.holdBegun, Dev.n_put_port _ port port (by decide)]
    exact Dev.n_put_same _ _ _ _ _ rfl
  · refine (credit (by decide) _).trans ?_
    rw [Dev.n_put_port _ port port (by decide), Dev.n_put_port _ port port (by decide)]
    exact Dev.n_put_same _ _ _ _ _ rfl
  · exact Dev.leaveUp_out _ p

end

/-- The new count applies (R81, R84): the change counted, the lanes of the port set, the changeover over. -/
def Dev.countApplied (p n : Nat) (d : Dev) : Dev :=
  (((if d.n Od.PORT_ACTIVE_LANES p < n then d.bump Od.PORT_SHED_RESTORES p else d.bump Od.PORT_SHED_SHEDS p).put Od.PORT_ACTIVE_LANES p n).put
    Rg.RX_LANES p n).put Rg.CHG_PHASE p 0

/-- And its lanes: n in use, the others off. -/
def Dev.lanesApplied (p n : Nat) (d : Dev) : Dev := (d.setLanes p n 2).setLanes (p + n) (d.portWidth p - n) 3

theorem Dev.countApplied_objsOnly (p n : Nat) (d : Dev) : d.objsOnly (d.countApplied p n) := by
  have counted : d.objsOnly (if d.n Od.PORT_ACTIVE_LANES p < n then d.bump Od.PORT_SHED_RESTORES p else d.bump Od.PORT_SHED_SHEDS p) := by
    split <;> exact Dev.objsOnly_bump (Dev.objsOnly_refl d) _ _ _ _
  exact Dev.objsOnly_put (Dev.objsOnly_put (Dev.objsOnly_put counted _ _ _ _) _ _ _ _) _ _ _ _

theorem Dev.lanesApplied_objsOnly (p n : Nat) (d : Dev) : d.objsOnly (d.lanesApplied p n) :=
  Dev.objsOnly_trans (Dev.setLanes_objsOnly d _ _ _) (Dev.setLanes_objsOnly _ _ _ _)

section
variable {p n : Nat} (port : p < 1024) (within : n ≤ 8) (d : Dev)
include port

/-- The change of count leaves every object of the port but its own. -/
theorem Dev.n_countApplied_other {q : Obj}
    (other : ∀ o ∈ [Od.PORT_SHED_RESTORES, Od.PORT_SHED_SHEDS, Od.PORT_ACTIVE_LANES, Rg.RX_LANES, Rg.CHG_PHASE],
      o.idx * 256 + o.sub ≠ q.idx * 256 + q.sub) : (d.countApplied p n).n q p = d.n q p := by
  simp only [List.mem_cons, List.not_mem_nil, or_false, forall_eq_or_imp, forall_eq] at other
  obtain ⟨restores, sheds, lanes, rx, phase⟩ := other
  rw [Dev.countApplied, Dev.n_put_port _ port port phase, Dev.n_put_port _ port port rx, Dev.n_put_port _ port port lanes]
  split
  · exact Dev.n_put_port _ port port restores _
  · exact Dev.n_put_port _ port port sheds _

include within

theorem Dev.countApplied_reads : (d.countApplied p n).n Od.PORT_ACTIVE_LANES p = n ∧ (d.countApplied p n).n Rg.RX_LANES p = n ∧
    (d.countApplied p n).n Rg.CHG_PHASE p = 0 := by
  have lanes : Od.PORT_ACTIVE_LANES.ty.norm n = n := by show ObjTy.norm .u8 n = n; simp only [ObjTy.norm]; omega
  refine ⟨?_, ?_, Dev.n_put_same _ _ _ _ _ rfl⟩
  · rw [Dev.countApplied, Dev.n_put_port _ port port (by decide), Dev.n_put_port _ port port (by decide)]
    exact Dev.n_put_same _ _ _ _ _ lanes
  · rw [Dev.countApplied, Dev.n_put_port _ port port (by decide)]
    exact Dev.n_put_same _ _ _ _ _ rfl

theorem Dev.n_lanesApplied {q : Obj} (other : Od.LANE_STATE.idx * 256 + Od.LANE_STATE.sub ≠ q.idx * 256 + q.sub) :
    (d.lanesApplied p n).n q p = d.n q p := by
  have width := d.portWidth_le p
  have first := Dev.setLanes_get d p n 2 q p 0 other (by omega) (by decide) (by omega)
  have rest := Dev.setLanes_get (d.setLanes p n 2) (p + n) (d.portWidth p - n) 3 q p 0 other (by omega) (by decide) (by omega)
  exact congrArg Int.toNat (rest.trans first)

end

/-- The objects of the windows of R77. -/
def windowObjs : List Obj := [Rg.SHED_START, Rg.SHED_RX, Rg.SHED_TX, Rg.RESTORE_START, Rg.RESTORE_RX, Rg.RESTORE_TX]

theorem Dev.n_windows_other (k : Clk) {p : Nat} (port : p < 1024) (d : Dev) {q : Obj}
    (other : ∀ o ∈ windowObjs, o.idx * 256 + o.sub ≠ q.idx * 256 + q.sub) : (d.windows k p).n q p = d.n q p := by
  simp only [windowObjs, List.mem_cons, List.not_mem_nil, or_false, forall_eq_or_imp, forall_eq] at other
  obtain ⟨start, rx, tx, start', rx', tx'⟩ := other
  rw [Dev.windows, Dev.n_put_port _ port port tx', Dev.n_put_port _ port port rx', Dev.n_put_port _ port port start', Dev.n_put_port _ port port tx,
    Dev.n_put_port _ port port rx, Dev.n_put_port _ port port start]

theorem Dev.windows_objsOnly (k : Clk) (p : Nat) (d : Dev) : d.objsOnly (d.windows k p) := by
  unfold Dev.windows
  iterate 6 apply Dev.objsOnly_put
  exact Dev.objsOnly_refl d

/-- The device as a port returns to UP from its hold. -/
def Dev.holdEnded (k : Clk) (p n : Nat) (d : Dev) : Dev :=
  ((((((d.countApplied p n).lanesApplied p n).put Od.PORT_LINK_STATE p lkUP).put Od.PORT_HOLD_STATE p 0).enterUp p).put Rg.WAKING p 0).windows k p

theorem Dev.holdEnded_objsOnly (k : Clk) (p n : Nat) (d : Dev) : d.objsOnly (d.holdEnded k p n) := by
  have lanes := Dev.objsOnly_trans (d.countApplied_objsOnly p n) (Dev.lanesApplied_objsOnly p n _)
  have up := Dev.objsOnly_trans (Dev.objsOnly_put (Dev.objsOnly_put lanes Od.PORT_LINK_STATE p 0 lkUP) Od.PORT_HOLD_STATE p 0 0) (Dev.enterUp_objsOnly _ p)
  exact Dev.objsOnly_trans (Dev.objsOnly_put up Rg.WAKING p 0 0) (Dev.windows_objsOnly k p _)

theorem Dev.n_holdEnded (k : Clk) {p n : Nat} (port : p < 1024) (d : Dev) {q : Obj}
    (other : ∀ o ∈ windowObjs ++ creditObjs ++ [Rg.WAKING, Od.PORT_HOLD_STATE, Od.LANE_STATE], o.idx * 256 + o.sub ≠ q.idx * 256 + q.sub) :
    (d.holdEnded k p n).n q p = (((d.countApplied p n).lanesApplied p n).put Od.PORT_LINK_STATE p lkUP).n q p := by
  rw [Dev.holdEnded, Dev.n_windows_other k port _ fun o known => other o (by simp [known]), Dev.n_put_port _ port port (other _ (by simp))]
  refine (congrArg Int.toNat (Dev.get_enterUp port _ (by omega) (by decide) fun o known => other o (by simp [known]))).trans ?_
  exact Dev.n_put_port _ port port (other _ (by simp)) _

theorem Dev.parkAsk_up (k : Clk) {d : Dev} {p : Nat} (up : d.link p = lkUP) : d.parkAsk k p = d := by
  have unparked : (lkUP == lkPARKED) = false := by decide
  simp [Dev.parkAsk, up, unparked]

section
variable {s : State} (running : ready s = true) {p : Nat} (port : p < 1024) (phase : s.dev.n Rg.CHG_PHASE p = 3)
  (due : s.dev.n Rg.CHG_TICK p + 8 ≤ s.clk.tick) (held : s.dev.link p = lkCHANGEOVER) (unparked : s.dev.on Od.PORT_PARK p = false)
  (within : s.dev.n Rg.CHG_TARGET p ≤ s.dev.portWidth p)
include running port phase due held unparked within

/-- A port held in CHANGEOVER, its PORT.PARK 0, returns to UP on the agreed count. -/
theorem exec_changeoverHoldEnd_up :
    exec (.changeoverHoldEnd p) s = .next { s with dev := s.dev.silent.holdEnded s.clk p (s.dev.n Rg.CHG_TARGET p) } := by
  have width := s.dev.portWidth_le p
  have target : min (s.dev.silent.n Rg.CHG_TARGET p) (s.dev.silent.portWidth p) = s.dev.n Rg.CHG_TARGET p := Nat.min_eq_left within
  have serves : s.dev.silent.receives p = true := by simp [Dev.receives, show s.dev.silent.link p = lkCHANGEOVER from held]
  have applied {q : Obj} (other : ∀ o ∈ [Od.PORT_SHED_RESTORES, Od.PORT_SHED_SHEDS, Od.PORT_ACTIVE_LANES, Rg.RX_LANES, Rg.CHG_PHASE],
      o.idx * 256 + o.sub ≠ q.idx * 256 + q.sub) (lane : Od.LANE_STATE.idx * 256 + Od.LANE_STATE.sub ≠ q.idx * 256 + q.sub) :
      ((s.dev.silent.countApplied p (s.dev.n Rg.CHG_TARGET p)).lanesApplied p (s.dev.n Rg.CHG_TARGET p)).n q p = s.dev.n q p :=
    (Dev.n_lanesApplied port (by omega) _ lane).trans (Dev.n_countApplied_other port _ other)
  have link := (applied (q := Od.PORT_LINK_STATE) (by decide) (by decide)).trans held
  have park : ((s.dev.silent.countApplied p (s.dev.n Rg.CHG_TARGET p)).lanesApplied p (s.dev.n Rg.CHG_TARGET p)).on Od.PORT_PARK p = false := by
    rw [Dev.on, applied (by decide) (by decide)]; exact unparked
  have up : (s.dev.silent.holdEnded s.clk p (s.dev.n Rg.CHG_TARGET p)).link p = lkUP :=
    (Dev.n_holdEnded s.clk port _ (by decide)).trans (Dev.n_put_same _ _ _ _ _ (by decide))
  refine State.runIf_eq running (decide_eq_true port) ((if_pos ⟨phase, serves, due⟩).trans ?_)
  simp only [target]
  generalize hx : (s.dev.silent.countApplied p (s.dev.n Rg.CHG_TARGET p)).lanesApplied p (s.dev.n Rg.CHG_TARGET p) = x at link park
  have returned : x.setLink s.clk p (if x.on Od.PORT_PARK p then lkPARKED else lkUP) =
      ((x.put Od.PORT_LINK_STATE p lkUP).put Od.PORT_HOLD_STATE p 0).enterUp p := by
    rw [park]; exact Dev.setLink_return s.clk port link
  subst hx
  exact (congrArg (fun e : Dev => ((e.put Rg.WAKING p 0).windows s.clk p).parkAsk s.clk p) returned).trans (Dev.parkAsk_up s.clk up)

/-- The end of such a hold: transmitter and receiver on the agreed count, the port UP (R84). -/
theorem exec_changeoverHoldEnd_returns :
    ∃ t, exec (.changeoverHoldEnd p) s = .next t ∧ outsideKept s t ∧ bare t.dev = bare s.dev ∧ t.dev.link p = lkUP ∧ t.dev.n Rg.CHG_PHASE p = 0 ∧
      t.dev.n Od.PORT_ACTIVE_LANES p = s.dev.n Rg.CHG_TARGET p ∧ t.dev.n Rg.RX_LANES p = s.dev.n Rg.CHG_TARGET p := by
  have width := s.dev.portWidth_le p
  have eight : s.dev.n Rg.CHG_TARGET p ≤ 8 := by omega
  obtain ⟨lanes, rx, still⟩ := Dev.countApplied_reads port eight s.dev.silent
  have read {q : Obj} (other : ∀ o ∈ windowObjs ++ creditObjs ++ [Rg.WAKING, Od.PORT_HOLD_STATE, Od.LANE_STATE], o.idx * 256 + o.sub ≠ q.idx * 256 + q.sub)
      (state : Od.PORT_LINK_STATE.idx * 256 + Od.PORT_LINK_STATE.sub ≠ q.idx * 256 + q.sub) :
      (s.dev.silent.holdEnded s.clk p (s.dev.n Rg.CHG_TARGET p)).n q p = (s.dev.silent.countApplied p (s.dev.n Rg.CHG_TARGET p)).n q p :=
    (Dev.n_holdEnded s.clk port _ other).trans ((Dev.n_put_port _ port port state _).trans (Dev.n_lanesApplied port eight _ (other _ (by simp))))
  refine ⟨_, exec_changeoverHoldEnd_up running port phase due held unparked within, ⟨rfl, rfl, rfl⟩, ?_, ?_, ?_, ?_, ?_⟩
  · exact Dev.objsOnly_trans s.dev.objsOnly_silent (Dev.holdEnded_objsOnly s.clk p _ _)
  · exact (Dev.n_holdEnded s.clk port _ (by decide)).trans (Dev.n_put_same _ _ _ _ _ (by decide))
  · exact (read (by decide) (by decide)).trans still
  · exact (read (by decide) (by decide)).trans lanes
  · exact (read (by decide) (by decide)).trans rx

end

/-- The statement that `not_shedWindowsAndHolds` refutes, with the hypothesis it lacks: the length of the port's gate list is of its type. -/
theorem shedWindowsAndHolds_of_listTyped (s : State) (p : Nat) (running : ready s = true) (port : p < 1024)
    (typed : s.dev.n Od.GATE_OPER_ENTRIES p ≤ 65536) :
    (s.dev.n Rg.SHED_START p + s.dev.n Od.PORT_SHED_WINDOW p ≤ s.clk.tick → 0 < s.dev.n Od.PORT_ACTIVE_LANES p →
      ∃ t, exec (.shedWindowEnd p) s = .next t ∧ outsideKept s t ∧ bare t.dev = bare { s.dev with ctl := t.dev.ctl } ∧ t.dev.n Rg.SHED_START p = s.clk.tick ∧
        t.dev.n Rg.SHED_RX p = 0 ∧ t.dev.n Rg.SHED_TX p = 0 ∧
        t.dev.get Od.PORT_SHED_LOAD p = Od.PORT_SHED_LOAD.ty.norm ((max (s.dev.n Rg.SHED_RX p) (s.dev.n Rg.SHED_TX p) * 1000 /
          (s.dev.portWidth p * s.dev.portLane p * s.dev.n Od.PORT_SHED_WINDOW p) : Nat) : Int) ∧
        (s.dev.link p = lkUP → s.dev.canShed p = true → s.dev.n Od.PORT_SHED_MIN_LANES p < s.dev.n Od.PORT_ACTIVE_LANES p →
          max (s.dev.n Rg.SHED_RX p) (s.dev.n Rg.SHED_TX p) * 1000 <
            s.dev.n Od.PORT_SHED_BELOW p * (s.dev.n Od.PORT_ACTIVE_LANES p / 2 * s.dev.portLane p * s.dev.n Od.PORT_SHED_WINDOW p) →
          restoreWanted s.clk s.dev p = false → s.dev.dues.contains (.restoreNow p) = false → s.dev.n Rg.REQ_TYPE p = 0 → s.dev.n Rg.CHG_PHASE p = 0 →
          s.dev.n Rg.SHED_AFTER p ≤ s.clk.tick → (s.dev.operList p).hasGap 4000 = true →
          t.dev.n Rg.REQ_TYPE p = 2 ∧ t.dev.n Rg.REQ_TARGET p = s.dev.n Od.PORT_ACTIVE_LANES p / 2 ∧ t.dev.n Rg.REQ_TICK p = s.clk.tick)) ∧
    (s.dev.n Rg.RESTORE_START p + s.dev.n Od.PORT_SHED_RESTORE_WINDOW p ≤ s.clk.tick →
      ∃ t, exec (.restoreWindowEnd p) s = .next t ∧ outsideKept s t ∧ bare t.dev = bare { s.dev with ctl := t.dev.ctl } ∧ t.dev.n Rg.RESTORE_START p = s.clk.tick ∧
        t.dev.n Rg.LAST_TX p = s.dev.n Rg.RESTORE_TX p ∧ t.dev.n Rg.RESTORE_RX p = 0 ∧ t.dev.n Rg.RESTORE_TX p = 0) ∧
    (s.dev.n Rg.CHG_PHASE p = 1 → s.dev.link p = lkUP → (∀ x ∈ s.dev.tx, x.port = p → 1 < x.path) → s.dev.inGap s.clk p 4000 = true →
      (s.dev.operList p).hasGap 4000 = true → s.dev.laterGap s.clk p = false →
      ∃ t, exec (.changeoverHoldStart p) s = .next t ∧ outsideKept s t ∧ bare t.dev = bare { s.dev with tx := (s.dev.leaveUp p).tx } ∧ t.dev.link p = lkCHANGEOVER ∧
        t.dev.n Rg.CHG_PHASE p = 3 ∧ t.dev.n Rg.CHG_TICK p = s.clk.tick ∧ t.dev.out = [s.dev.shedFrame p 5 0 (s.dev.n Rg.CHG_TARGET p) 0]) ∧
    (s.dev.n Rg.CHG_PHASE p = 3 → s.dev.n Rg.CHG_TICK p + 8 ≤ s.clk.tick → s.dev.link p = lkCHANGEOVER → s.dev.on Od.PORT_PARK p = false →
      s.dev.n Rg.CHG_TARGET p ≤ s.dev.portWidth p →
      ∃ t, exec (.changeoverHoldEnd p) s = .next t ∧ outsideKept s t ∧ bare t.dev = bare s.dev ∧ t.dev.link p = lkUP ∧ t.dev.n Rg.CHG_PHASE p = 0 ∧
        t.dev.n Od.PORT_ACTIVE_LANES p = s.dev.n Rg.CHG_TARGET p ∧ t.dev.n Rg.RX_LANES p = s.dev.n Rg.CHG_TARGET p) := by
  refine ⟨fun due lanes => ?_, exec_restoreWindowEnd_begins running port, exec_changeoverHoldStart_begins running port,
    exec_changeoverHoldEnd_returns running port⟩
  obtain ⟨t, ran, outside, same, start, rx, tx, load⟩ := exec_shedWindowEnd_begins running port due lanes
  refine ⟨t, ran, outside, same, start, rx, tx, load, fun up capable above low content free unasked still unbarred gap => ?_⟩
  obtain ⟨u, ran', asks⟩ := exec_shedWindowEnd_asks running port typed due up capable above low content free unasked still unbarred gap
  cases ran.symm.trans ran'
  exact asks

end Sys2Proof.Machine

namespace Sys2Proof.Machine
open Sys2Proof.Safety

/-! SUPPORT. Chains of writes at known objects: what they leave alone. -/

/-- Every key of a list is one of an element of these objects. -/
def keysWithin (objs : List Obj) (keys : List Nat) : Prop :=
  ∀ k ∈ keys, ∃ q ∈ objs, ∃ i e, i < 65536 ∧ e < 65536 ∧ k = q.key i e

/-- An element of another object has none of the keys. -/
theorem keysWithin_notin {objs : List Obj} {keys : List Nat} (within : keysWithin objs keys) {o : Obj} {i f : Nat} (hi : i < 65536) (hf : f < 65536)
    (apart : ∀ q ∈ objs, o.idx * 256 + o.sub ≠ q.idx * 256 + q.sub) : o.key i f ∉ keys := by
  intro written
  obtain ⟨q, known, j, e, hj, he, same⟩ := within _ written
  exact Obj.key_ne (apart q known) hi hj hf he same

/-- The device e differs from d in elements of these objects, and in what left it, alone. -/
def Dev.touched (objs : List Obj) (d e : Dev) : Prop := ∃ keys, keysWithin objs keys ∧ d.wrote keys e

theorem Dev.touched_refl (objs : List Obj) (d : Dev) : d.touched objs d := ⟨[], by simp [keysWithin], Dev.wrote_refl [] d⟩

theorem Dev.touched_silent (objs : List Obj) (d : Dev) : d.touched objs d.silent := ⟨[], by simp [keysWithin], Dev.wrote_silent [] d⟩

section
variable {objs : List Obj} {d e : Dev} (h : d.touched objs e)
include h

theorem Dev.touched_set {o : Obj} (known : o ∈ objs) {i f : Nat} (hi : i < 65536) (hf : f < 65536) (v : Int) : d.touched objs (e.set o i v f) := by
  obtain ⟨keys, within, wrote⟩ := h
  refine ⟨o.key i f :: keys, fun k hk => ?_, Dev.wrote_set (Dev.wrote_mono wrote (List.subset_cons_self _ _)) _ _ _ _ List.mem_cons_self⟩
  rcases List.mem_cons.mp hk with rfl | hk
  · exact ⟨o, known, i, f, hi, hf, rfl⟩
  · exact within k hk

theorem Dev.touched_put {o : Obj} (known : o ∈ objs) {i f : Nat} (hi : i < 65536) (hf : f < 65536) (v : Nat) : d.touched objs (e.put o i v f) :=
  Dev.touched_set h known hi hf _

theorem Dev.touched_mono {more : List Obj} (sub : objs ⊆ more) : d.touched more e := by
  obtain ⟨keys, within, wrote⟩ := h
  refine ⟨keys, fun k hk => ?_, wrote⟩
  obtain ⟨q, known, place⟩ := within k hk
  exact ⟨q, sub known, place⟩

theorem Dev.touched_trans {g : Dev} {more : List Obj} (next : e.touched more g) : d.touched (objs ++ more) g := by
  obtain ⟨ks, inFirst, first⟩ := Dev.touched_mono h (List.subset_append_left objs more)
  obtain ⟨ls, inLast, last⟩ := Dev.touched_mono next (List.subset_append_right objs more)
  exact ⟨ks ++ ls, fun k hk => (List.mem_append.mp hk).elim (inFirst k) (inLast k),
    Dev.wrote_trans (Dev.wrote_mono first (List.subset_append_left _ _)) (Dev.wrote_mono last (List.subset_append_right _ _))⟩

theorem Dev.touched_objsOnly : d.objsOnly e := by
  obtain ⟨_, -, objs, -⟩ := h
  exact objs

section
variable {o : Obj} {i f : Nat} (hi : i < 65536) (hf : f < 65536) (apart : ∀ q ∈ objs, o.idx * 256 + o.sub ≠ q.idx * 256 + q.sub)
include hi hf apart

theorem Dev.get_touched : e.get o i f = d.get o i f := by
  obtain ⟨keys, within, -, reads⟩ := h
  exact reads o i f (keysWithin_notin within hi hf apart)

theorem Dev.n_touched : e.n o i f = d.n o i f := by rw [Dev.n, Dev.get_touched h hi hf apart]; rfl

theorem Dev.on_touched : e.on o i f = d.on o i f := by rw [Dev.on, Dev.n_touched h hi hf apart]; rfl

end

/-- Writes of other objects than INTEG.FLIP_ARM bring no stored word into error. -/
theorem Dev.plainWords_touched (apart : ∀ q ∈ objs, Od.INTEG_FLIP_ARM.idx * 256 + Od.INTEG_FLIP_ARM.sub ≠ q.idx * 256 + q.sub)
    (plain : plainWords d = true) : plainWords e = true := by
  obtain ⟨keys, within, wrote⟩ := h
  exact Dev.wrote_plainWords wrote (keysWithin_notin within (by decide) (by decide) apart) plain

end

theorem plainWords_unarmed {d : Dev} (h : plainWords d = true) : d.on Od.INTEG_FLIP_ARM 0 = false := by
  simp only [plainWords, Bool.and_eq_true, Bool.not_eq_true'] at h
  exact h.2

theorem Dev.objsOnly_rx {d e : Dev} (h : d.objsOnly e) : e.rx = d.rx := by
  have same := congrArg Dev.rx (show bare e = bare d from h)
  exact same

theorem Dev.objsOnly_mgmtIn {d e : Dev} (h : d.objsOnly e) : e.mgmtIn = d.mgmtIn := by
  have same := congrArg Dev.mgmtIn (show bare e = bare d from h)
  exact same

theorem Dev.objsOnly_frame {d e : Dev} (h : d.objsOnly e) (id : Nat) : e.frame id = d.frame id := by
  have same := congrArg (fun b => b.frame id) (show bare e = bare d from h)
  exact same

theorem Dev.objsOnly_gatePend {d e : Dev} (h : d.objsOnly e) (stream : Bool) (u : Nat) : e.gatePend stream u = d.gatePend stream u := by
  have same := congrArg (fun b => b.gatePend stream u) (show bare e = bare d from h)
  exact same

/-- A command that writes objects alone. -/
theorem bare_next {s : State} {objs : List Obj} {e : Dev} (h : s.dev.silent.touched objs e) : bare ({ s with dev := e } : State).dev = bare s.dev :=
  Dev.touched_objsOnly h

/-! SUPPORT. Counter pairs (R118) among other writes. -/

/-- The device e has in a counter pair one frame of n bytes more than d. -/
def Dev.counts (o : Obj) (i n : Nat) (d e : Dev) : Prop := e.n o i 0 = wrap48 (d.n o i 0) 1 ∧ e.n o i 1 = wrap48 (d.n o i 1) n

theorem countedPair_next {s : State} {o : Obj} {i n : Nat} {e : Dev} (h : s.dev.silent.counts o i n e) : countedPair o i n s { s with dev := e } := h

/-- A counter pair of frames: a pair of 48-bit counts other than the arming of a flip and than these objects. -/
def frameCounter (others : List Obj) (o : Obj) : Prop :=
  o.ty = .u64 ∧ ∀ q ∈ Od.INTEG_FLIP_ARM :: others, o.idx * 256 + o.sub ≠ q.idx * 256 + q.sub

section
variable {o : Obj} {i : Nat} (hi : i < 65536)
include hi

theorem Dev.pair_touched {others : List Obj} (counter : frameCounter others o) {d : Dev} (plain : plainWords d = true) (n : Nat) :
    d.touched [o] (d.pair o i n) ∧ (d.pair o i n).out = d.out ∧ d.counts o i n (d.pair o i n) := by
  obtain ⟨word, apart⟩ := counter
  have unarmed (e : Nat) (he : e < 2) : o.key i e ≠ Od.INTEG_FLIP_ARM.key 0 0 :=
    Obj.key_ne (apart _ List.mem_cons_self) hi (by omega) (by omega) (by omega)
  obtain ⟨wrote, out, counts⟩ := Dev.pair_plain plain word (i := i) unarmed n
  refine ⟨⟨_, fun k hk => ?_, wrote⟩, out, counts⟩
  rcases List.mem_pair.mp hk with rfl | rfl
  · exact ⟨o, by simp, i, 0, hi, by decide, rfl⟩
  · exact ⟨o, by simp, i, 1, hi, by decide, rfl⟩

/-- A frame counted once, between writes that leave its pair alone. -/
theorem Dev.pair_counts {before after : List Obj} (counter : frameCounter (before ++ after) o) {d e g : Dev} {n : Nat} (first : d.touched before e)
    (plain : plainWords e = true) (last : (e.pair o i n).touched after g) : d.counts o i n g := by
  obtain ⟨-, -, frames, bytes⟩ := Dev.pair_touched hi counter plain n
  obtain ⟨-, apart⟩ := counter
  have same (x : Nat) (hx : x < 2) : e.n o i x = d.n o i x :=
    Dev.n_touched first hi (by omega) fun q hq => apart q (by simp [hq])
  have same' (x : Nat) (hx : x < 2) : g.n o i x = (e.pair o i n).n o i x :=
    Dev.n_touched last hi (by omega) fun q hq => apart q (by simp [hq])
  exact ⟨by rw [same' 0 (by decide), frames, same 0 (by decide)], by rw [same' 1 (by decide), bytes, same 1 (by decide)]⟩

end

/-! SUPPORT. A frame received counts in the loads of its port (R77, R487) and in a pair. -/

/-- The loads of a port's reception. -/
def rxLoadObjs : List Obj := [Rg.WIN, Rg.SHED_RX, Rg.RESTORE_RX]

section
variable {d : Dev} {p : Nat} (port : p < 1024)
include port

theorem Dev.rxLoad_touched (d : Dev) (n : Nat) : d.touched rxLoadObjs (d.rxLoad p n) := by
  unfold Dev.rxLoad Dev.winRx Dev.loadRx
  iterate 4 refine Dev.touched_put ?_ (by simp [rxLoadObjs]) (by omega) (by decide) _
  exact Dev.touched_refl _ d

theorem Dev.rxLoad_plain (plain : plainWords d = true) (n : Nat) : plainWords (d.rxLoad p n) = true :=
  Dev.plainWords_touched (d.rxLoad_touched port n) (by decide) plain

/-- What the count of a received frame of n bytes does. -/
theorem Dev.rxLoad_pair (plain : plainWords d = true) {o : Obj} (counter : frameCounter rxLoadObjs o) (n : Nat) :
    d.touched (rxLoadObjs ++ [o]) ((d.rxLoad p n).pair o p n) ∧ d.counts o p n ((d.rxLoad p n).pair o p n) := by
  have load := d.rxLoad_touched port n
  have plain' := Dev.rxLoad_plain port plain n
  obtain ⟨counted, -⟩ := Dev.pair_touched (show p < 65536 by omega) counter plain' n
  exact ⟨Dev.touched_trans load counted, Dev.pair_counts (before := rxLoadObjs) (after := []) (by omega) counter load plain' (Dev.touched_refl [] _)⟩

end

end Sys2Proof.Machine

namespace Sys2Proof.Machine
open Sys2Proof.Safety

/-! SUPPORT. A frame reaches its port's MAC (R88 steps 1 to 6). -/

/-- The frame that joins the MAC: what its EtherType makes it, with the settings of its port (R88). -/
def Dev.joining (k : Clk) (p : Nat) (bs : List Byte) (sub : Nat) (d : Dev) : RxFrame :=
  let f : RxFrame := { port := p, entry := k.clock, bytes := bs, keepBad := d.on Od.PORT_KEEP_BAD p, mtu := d.n Od.PORT_MTU p }
  let x := d.macDesc p bs { stamp := d.rxStamp k p sub, rxLength := min bs.length 16383 }
  if be16 bs 12 = 0x88B5 then { f with kind := 2, desc := x }
  else if be16 bs 12 = 0x8808 then { f with kind := 1, desc := x }
  else { f with desc := { x.tagged bs with cls := d.n Od.PORT_PFC_CLASS_MAP p x.outerPcp } }

theorem Dev.meet_nil (k : Clk) (n : Nat) (r : Faulted) (d : Dev) : d.meet k n [] r = (r, d) := rfl

theorem Dev.wakeTest_disabled {d : Dev} {p : Nat} (asleep : d.n Od.PORT_WAKE_ENABLE p = 0) (bs : List Byte) : d.wakeTest p bs = d :=
  if_neg fun h => h.2 asleep

/-- An express frame at a port whose express path brings none yet joins the MAC's frames last. -/
theorem Dev.receive_joins {k : Clk} {d : Dev} {p : Nat} {bs : List Byte} (receives : d.receives p = true) (awake : d.link p ≠ lkPARKED)
    (asleep : d.n Od.PORT_WAKE_ENABLE p = 0) (unhit : d.faultEntries k p 0 = []) (free : ∀ f ∈ d.rx, f.port = p → f.pre = false → 2 ≤ f.phase)
    (taken : be16 bs 12 = 0x8808 ∨ be16 bs 12 = 0x88B5 ∨ (d.maint = false ∧ d.matMode p = false)) (sub : Nat) :
    d.receive k p bs [] false false sub = { d with rx := d.rx ++ [d.joining k p bs sub] } := by
  have idle : d.rx.any (fun f => f.port == p && f.pre == false && decide (f.phase < 2)) = false := by
    rw [List.any_eq_false]
    intro f hf
    simp only [Bool.and_eq_true, beq_iff_eq, decide_eq_true_eq, not_and, not_lt, and_imp]
    exact free f hf
  simp only [Dev.receive, List.isEmpty_nil, Bool.not_true, receives, idle, Bool.false_and, Bool.or_false, Bool.false_eq_true, if_false, unhit,
    Dev.meet_nil, Faulted.apply, List.foldl_nil, Dev.each_nil, Dev.wakeTest_disabled asleep, assembled, if_true, Dev.joining]
  by_cases shed : be16 bs 12 = 0x88B5
  · rw [if_pos shed, if_pos shed]
  · rw [if_neg shed, if_neg shed, if_neg awake]
    by_cases control : be16 bs 12 = 0x8808
    · rw [if_pos control, if_pos control]
    · obtain ⟨live, front⟩ : d.maint = false ∧ d.matMode p = false := by simpa [shed, control] using taken
      rw [if_neg control, if_neg control, if_neg (by simp [live]), if_neg (by simp [front])]

/-- A recognised R-TAG leaves what the MAC put in the descriptor (R90, R230). -/
theorem Desc.tagged_keeps (x : Desc) (bs : List Byte) :
    (x.tagged bs).stamp = x.stamp ∧ (x.tagged bs).rxLength = x.rxLength ∧ (x.tagged bs).srcPort = x.srcPort ∧ (x.tagged bs).tagCount = x.tagCount := by
  unfold Desc.tagged; split <;> exact ⟨rfl, rfl, rfl, rfl⟩

section
variable {k : Clk} {d : Dev} {p : Nat} {bs : List Byte} {sub : Nat}

theorem Dev.joining_control (control : be16 bs 12 = 0x8808) :
    (d.joining k p bs sub).port = p ∧ (d.joining k p bs sub).kind = 1 ∧ (d.joining k p bs sub).phase = 0 ∧ (d.joining k p bs sub).bytes = bs := by
  simp [Dev.joining, control]

theorem Dev.joining_shed (shed : be16 bs 12 = 0x88B5) :
    (d.joining k p bs sub).port = p ∧ (d.joining k p bs sub).kind = 2 ∧ (d.joining k p bs sub).phase = 0 ∧ (d.joining k p bs sub).bytes = bs := by
  simp [Dev.joining, shed]

/-- Any other frame is data: the settings, the length and the stamp of its start, its tags (R90, R99, R388). -/
theorem Dev.joining_data (noControl : be16 bs 12 ≠ 0x8808) (noShed : be16 bs 12 ≠ 0x88B5) :
    ∃ f, d.joining k p bs sub = f ∧ f.port = p ∧ f.kind = 0 ∧ f.phase = 0 ∧ f.pre = false ∧ f.errs = 0 ∧ f.bytes = bs ∧ f.mtu = d.n Od.PORT_MTU p ∧
      f.keepBad = d.on Od.PORT_KEEP_BAD p ∧ f.desc.stamp = d.rxStamp k p sub ∧ f.desc.rxLength = min bs.length 16383 ∧ f.desc.srcPort = p ∧
      f.desc.tagCount = (tagsOf (d.n Od.PORT_RX_TPID_S p) bs).1 := by
  unfold Dev.joining
  rw [if_neg noShed, if_neg noControl]
  obtain ⟨stamp, length, source, tags⟩ := Desc.tagged_keeps (d.macDesc p bs { stamp := d.rxStamp k p sub, rxLength := min bs.length 16383 }) bs
  exact ⟨_, rfl, rfl, rfl, rfl, rfl, rfl, rfl, rfl, rfl, stamp, length, source, tags⟩

end

/-- Settles O16: the frame that joins is `Dev.joining`; it arrives in the clock of its command (log entry 50). -/
theorem framesReachTheMac : Obligations.FramesReachTheMac := by
  intro s p bs sub running port receives awake asleep unhit free taken
  have joins : s.dev.silent.receive s.clk p bs [] false false sub = { s.dev.silent with rx := s.dev.rx ++ [s.dev.joining s.clk p bs sub] } :=
    Dev.receive_joins (d := s.dev.silent) receives awake asleep unhit free taken sub
  have awake' : s.dev.silent.link p ≠ lkPARKED := awake
  refine ⟨_, s.dev.joining s.clk p bs sub, State.runIf_eq running (decide_eq_true port) ((if_neg fun h => awake' h.1).trans joins), ⟨rfl, rfl, rfl⟩, rfl,
    fun _ _ _ => rfl, Dev.joining_control, Dev.joining_shed, fun noControl noShed => ?_⟩
  obtain ⟨f, same, fields⟩ := Dev.joining_data (k := s.clk) (d := s.dev) (p := p) (sub := sub) noControl noShed
  rw [same]
  exact fields

end Sys2Proof.Machine

namespace Sys2Proof.Machine
open Sys2Proof.Safety

/-! SUPPORT. The end of a frame at its MAC, and the tail check (R88 step 8, R91 to R98, R135). -/

/-- The first of the MAC's frames is found where it passes. -/
theorem Dev.findRx_first {d : Dev} {f : RxFrame} {l : List RxFrame} (first : d.rx = f :: l) {test : RxFrame → Bool} (passes : test f = true) :
    d.findRx test = some (0, f) := by
  simp [Dev.findRx, first, List.zipIdx_cons, passes]

/-- With no frame for the dictionary engine it takes none. -/
theorem Dev.takeMgmt_idle {d : Dev} (idle : d.mgmtIn = []) (k : Clk) (m : Memory) : d.takeMgmt k m = d := by
  simp only [Dev.takeMgmt, idle, List.isEmpty_nil, if_true, Dev.each_nil]
  rw [← idle]

section
variable {s : State} (running : ready s = true) {f : RxFrame} {l : List RxFrame} (first : s.dev.rx = f :: l) (port : f.port < 1024)
include running first port

/-- The end of the first of the MAC's frames, still being received and of no replay. -/
theorem exec_frameEnd_first (begun : f.phase = 0) (live : f.desc.replay = false) {e : Dev} (ends : s.dev.silent.frameEnd s.clk 0 f = e)
    (idle : e.mgmtIn = []) : exec (.frameEnd f.port f.pre) s = .next { s with dev := e } := by
  refine State.runIf_eq running (decide_eq_true port) ?_
  have found := Dev.findRx_first (d := s.dev.silent) first
    (test := fun g => decide (g.phase < 2) && g.port == f.port && g.pre == f.pre &&
      (!g.desc.replay || decide (g.entry + g.tail ≤ (s.dev.silent.rk s.clk).clock))) (by simp [begun, live])
  simp only [found, live, Bool.false_eq_true, if_false, ends]
  exact Dev.takeMgmt_idle idle s.clk s.mem

theorem exec_tailCheck_first (ended : f.phase = 3) {e : Dev} (checks : s.dev.silent.tailCheck s.clk 0 f = e) (idle : e.mgmtIn = []) :
    exec (.tailCheck f.port) s = .next { s with dev := e } := by
  refine State.runIf_eq running (decide_eq_true port) ?_
  have found := Dev.findRx_first (d := s.dev.silent) first (test := fun g => g.phase == 3 && g.port == f.port) (by simp [ended])
  simp only [found, checks]
  exact Dev.takeMgmt_idle idle s.clk s.mem

end

theorem Dev.counts_setRx {d e : Dev} {o : Obj} {i n : Nat} (h : d.counts o i n e) (j : Nat) (f : RxFrame) : d.counts o i n (e.setRx j f) := h

theorem Dev.counts_dropRx {d e : Dev} {o : Obj} {i n : Nat} (h : d.counts o i n e) (j : Nat) : d.counts o i n (e.dropRx j) := h

@[simp] theorem Dev.setRx_mgmtIn (d : Dev) (j : Nat) (f : RxFrame) : (d.setRx j f).mgmtIn = d.mgmtIn := rfl

@[simp] theorem Dev.dropRx_mgmtIn (d : Dev) (j : Nat) : (d.dropRx j).mgmtIn = d.mgmtIn := rfl

theorem Dev.journalled_dropRx (d : Dev) (i p : Nat) : (d.dropRx i).journalled p = d.journalled p := rfl

section
variable {k : Clk} {d : Dev} {f : RxFrame} {i : Nat} (live : f.desc.replay = false) (data : f.kind = 0) (begun : f.phase = 0)
include live data begun

/-- A right data frame not yet handed over is counted and handed over. -/
theorem Dev.frameEnd_right (right : f.endErrors = 0) :
    d.frameEnd k i f = let e := (d.rxLoad f.port f.wire.length).pair Od.PORT_RX_GOOD f.port f.wire.length
      e.setRx i (e.handed { f with errs := 0, phase := 2, entry := k.clock }) := by
  simp [Dev.frameEnd, live, data, begun, right]

/-- A whole bad one that nobody keeps is counted in the counter of its first flag and leaves the MAC (R97). -/
theorem Dev.frameEnd_bad {x : Nat × Obj} (flag : errCounters.find? (fun y => bit f.endErrors y.1) = some x) (whole : f.whole = true)
    (unkept : f.keepBad = false) (creditless : f.creditCls = 8)
    (unjournalled : ((d.rxLoad f.port f.wire.length).pair x.2 f.port f.wire.length).journalled f.port = false) :
    d.frameEnd k i f = ((d.rxLoad f.port f.wire.length).pair x.2 f.port f.wire.length).dropRx i := by
  have bad : f.endErrors ≠ 0 := by
    intro right
    have set := List.find?_some flag
    simp [right, bit] at set
  have whole' : ({ f with errs := f.endErrors } : RxFrame).whole = true := by
    simp only [RxFrame.whole, Bool.or_eq_true, bit_eq_testBit, RxFrame.endErrors, Nat.testBit_or] at whole ⊢
    tauto
  have counts (e : Dev) (n : Nat) : e.countError f.port f.endErrors n = e.pair x.2 f.port n := by rw [Dev.countError, flag]
  simp only [Dev.frameEnd, live, Bool.false_eq_true, if_false, show f.kind ≠ 2 by simp [data]]
  rw [if_neg (by simp [data]), if_neg (by simp [begun]), if_pos ⟨bad, whole'⟩, if_neg bad, counts, unkept, Dev.when_false, creditless,
    show decide (8 < 8) = false from rfl, Dev.when_false,
    Dev.journalled_dropRx, unjournalled, if_neg Bool.false_ne_true]

end

/-- A frame handed over has been walked; of it nothing but what the hand-over captures differs (R92, R121). -/
theorem Dev.handed_keeps (d : Dev) (f : RxFrame) : (d.handed f).walk.isSome = true ∧
    { d.handed f with walk := f.walk, malAction := f.malAction, hostRing := f.hostRing, slowRing := f.slowRing } = f := by
  unfold Dev.handed
  split
  case isTrue walked => exact ⟨walked, rfl⟩
  case isFalse => exact ⟨rfl, rfl⟩

/-- A tail check that finds nothing late, of a frame with no record and no delivery, takes it from the MAC. -/
theorem Dev.tailCheck_removes {k : Clk} {d : Dev} {f : RxFrame} {i : Nat} (unrecorded : f.fr = none) (undelivered : f.host = []) (unmanaged : f.mgmt = false)
    (right : f.desc.malformed = true ∨ tailReason f.spans f.lastEnd (f.bytes.length - 4) = 0) : d.tailCheck k i f = d.dropRx i := by
  have noReason : (if f.desc.malformed then 0 else tailReason f.spans f.lastEnd (f.bytes.length - 4)) = 0 := by
    rcases right with malformed | right
    · simp [malformed]
    · simp [right]
  simp [Dev.tailCheck, noReason, unrecorded, Dev.atEnd, undelivered, unmanaged]

/-- After writes of objects the MAC's frames are replaced as if there had been none. -/
theorem Dev.bare_rx {d e : Dev} (h : d.objsOnly e) (r : List RxFrame) : bare { e with rx := r } = bare { d with rx := r } :=
  congrArg (fun b : Dev => { b with rx := r }) (show bare e = bare d from h)

theorem Dev.bare_setRx {d e : Dev} (h : d.objsOnly e) {f : RxFrame} {l : List RxFrame} (first : d.rx = f :: l) (g : RxFrame) :
    bare (e.setRx 0 g) = bare { d with rx := g :: l } := by
  rw [Dev.setRx, Dev.objsOnly_rx h, first]; exact Dev.bare_rx h _

theorem Dev.bare_dropRx {d e : Dev} (h : d.objsOnly e) {f : RxFrame} {l : List RxFrame} (first : d.rx = f :: l) :
    bare (e.dropRx 0) = bare { d with rx := l } := by
  rw [Dev.dropRx, Dev.objsOnly_rx h, first]; exact Dev.bare_rx h _

/-- The counters of R97 are counters of received frames. -/
theorem errCounters_rxCounter : ∀ x ∈ errCounters, frameCounter rxLoadObjs x.2 ∧ ∀ q ∈ rxLoadObjs ++ [x.2],
    Od.JOURNAL_PORTS.idx * 256 + Od.JOURNAL_PORTS.sub ≠ q.idx * 256 + q.sub := by unfold frameCounter; decide +kernel

/-- Writes of other objects than JOURNAL.PORTS leave which ports are journalled (R514). -/
theorem Dev.journalled_touched {objs : List Obj} {d e : Dev} (h : d.touched objs e) {p : Nat} (port : p < 1024)
    (apart : ∀ q ∈ objs, Od.JOURNAL_PORTS.idx * 256 + Od.JOURNAL_PORTS.sub ≠ q.idx * 256 + q.sub) : e.journalled p = d.journalled p := by
  rw [Dev.journalled, Dev.n_touched h (by decide) (by omega) apart]; rfl

section
variable {s : State} {f : RxFrame} {l : List RxFrame} (running : ready s = true) (plain : plainWords s.dev = true) (idle : s.dev.mgmtIn = [])
  (first : s.dev.rx = f :: l) (port : f.port < 1024) (live : f.desc.replay = false)
include running plain idle first port live

/-- The end of a right data frame not yet handed over (R92, R96). -/
theorem exec_frameEnd_right (data : f.kind = 0) (begun : f.phase = 0) (right : f.endErrors = 0) :
    ∃ t g, exec (.frameEnd f.port f.pre) s = .next t ∧ outsideKept s t ∧ countedPair Od.PORT_RX_GOOD f.port f.wire.length s t ∧
      bare t.dev = bare { s.dev with rx := g :: l } ∧ g.walk.isSome = true ∧
      { g with walk := f.walk, malAction := f.malAction, hostRing := f.hostRing, slowRing := f.slowRing } =
        { f with errs := 0, phase := 2, entry := s.clk.clock } := by
  obtain ⟨touched, counts⟩ := Dev.rxLoad_pair (d := s.dev.silent) port plain (o := Od.PORT_RX_GOOD) ⟨rfl, by decide⟩ f.wire.length
  have objs := Dev.touched_objsOnly touched
  obtain ⟨walked, same⟩ := Dev.handed_keeps ((s.dev.silent.rxLoad f.port f.wire.length).pair Od.PORT_RX_GOOD f.port f.wire.length)
    { f with errs := 0, phase := 2, entry := s.clk.clock }
  refine ⟨_, _, exec_frameEnd_first running first port begun live (Dev.frameEnd_right live data begun right) ?_, ⟨rfl, rfl, rfl⟩,
    countedPair_next (Dev.counts_setRx counts _ _), Dev.bare_setRx objs first _, walked, same⟩
  rw [Dev.setRx_mgmtIn, Dev.objsOnly_mgmtIn objs]; exact idle

/-- The end of a whole bad one that nobody keeps (R96, R97). -/
theorem exec_frameEnd_bad (data : f.kind = 0) (begun : f.phase = 0) (whole : f.whole = true) (unkept : f.keepBad = false) (creditless : f.creditCls = 8)
    (unjournalled : s.dev.journalled f.port = false) {x : Nat × Obj} (flag : errCounters.find? (fun y => bit f.endErrors y.1) = some x) :
    ∃ t, exec (.frameEnd f.port f.pre) s = .next t ∧ outsideKept s t ∧ countedPair x.2 f.port f.wire.length s t ∧
      bare t.dev = bare { s.dev with rx := l } := by
  obtain ⟨counter, apart⟩ := errCounters_rxCounter x (List.mem_of_find?_eq_some flag)
  obtain ⟨touched, counts⟩ := Dev.rxLoad_pair (d := s.dev.silent) port plain counter f.wire.length
  have objs := Dev.touched_objsOnly touched
  have unjournalled' := (Dev.journalled_touched touched port apart).trans unjournalled
  refine ⟨_, exec_frameEnd_first running first port begun live (Dev.frameEnd_bad live data begun flag whole unkept creditless unjournalled') ?_,
    ⟨rfl, rfl, rfl⟩, countedPair_next (Dev.counts_dropRx counts _), Dev.bare_dropRx objs first⟩
  rw [Dev.dropRx_mgmtIn, Dev.objsOnly_mgmtIn objs]; exact idle

end

/-- Settles O17: a frame's end counts it (`Dev.frameEnd_right`, `Dev.frameEnd_bad`); the tail check, one command with the deliveries that waited for the
frame's end (log entry 64), takes it from the MAC. -/
theorem framesEnd : Obligations.FramesEnd := by
  intro s f l running plain idle first port live data
  refine ⟨exec_frameEnd_right running plain idle first port live data, fun begun whole unkept creditless unjournalled x flag => ?_,
    fun ended unrecorded undelivered unmanaged right => ?_⟩
  · exact exec_frameEnd_bad running plain idle first port live data begun whole unkept creditless unjournalled flag
  · exact ⟨_, exec_tailCheck_first running first port ended (Dev.tailCheck_removes unrecorded undelivered unmanaged right) idle, ⟨rfl, rfl, rfl⟩,
      Dev.bare_dropRx (Dev.objsOnly_silent _) first, fun _ _ _ _ => rfl⟩

end Sys2Proof.Machine

namespace Sys2Proof.Machine
open Sys2Proof.Safety

/-! SUPPORT. A gated queue's list lies below the arming of a flip in the store, where nothing of a MAC control frame's count is written (R83, R108). -/

/-- Two names of one element, of one default, read the same. -/
theorem Dev.get_of_key {o q : Obj} {i j e f : Nat} (same : o.key i e = q.key j f) (dflt : o.default i e = q.default j f) (d : Dev) :
    d.get o i e = d.get q j f := by simp [Dev.get, Store.rd, same, dflt]

theorem operList_default (p e : Nat) : Od.GATE_OPER_LIST.default p e = 0 := by cases e <;> rfl

theorem Dev.gated_false {d : Dev} {p o : Nat} :
    (d.operList p).gated o = false ↔ ∀ e < d.n Od.GATE_OPER_ENTRIES p, gateBit (d.n Od.GATE_OPER_LIST p e) o = true := by
  simp only [GList.gated, List.any_eq_false, Dev.mem_operList, Bool.not_eq_true', Bool.not_eq_false, forall_exists_index, and_imp]
  exact ⟨fun h e he => h _ e he rfl, fun h v e he same => same ▸ h e he⟩

/-- Where no flip is armed, a list that gates not every queue ends ahead of INTEG.FLIP_ARM in the store, whatever its length reads. -/
theorem Dev.entries_below_flipArm {d : Dev} (unarmed : d.on Od.INTEG_FLIP_ARM 0 = false) {p o : Nat} (port : p < 1024)
    (ungated : (d.operList p).gated o = false) {e : Nat} (he : e < d.n Od.GATE_OPER_ENTRIES p) :
    Od.GATE_OPER_LIST.key p e < Od.INTEG_FLIP_ARM.key 0 0 := by
  by_contra above
  have reach : ∃ x ≤ e, Od.GATE_OPER_LIST.key p x = Od.INTEG_FLIP_ARM.key 0 0 := by
    refine ⟨Od.INTEG_FLIP_ARM.key 0 0 - Od.GATE_OPER_LIST.key p 0, ?_, ?_⟩ <;> simp only [Obj.key, Od.INTEG_FLIP_ARM, Od.GATE_OPER_LIST] at above ⊢ <;> omega
  obtain ⟨x, hx, same⟩ := reach
  have opened := Dev.gated_false.mp ungated x (by omega)
  have zero : d.n Od.GATE_OPER_LIST p x = 0 := by
    rw [Dev.n, Dev.get_of_key same ((operList_default p x).trans rfl)]
    simpa [Dev.on, Dev.n] using unarmed
  rw [zero] at opened
  simp [gateBit, bit] at opened

/-- The objects that the count of a MAC control frame received writes. -/
def controlObjs : List Obj := Od.PORT_RX_PAUSE :: Od.PORT_RX_PFC :: Od.PORT_RX_PFC_PRIORITY :: rxLoadObjs

/-- None of them lies between the gate lists and INTEG.FLIP_ARM in the store. -/
theorem controlObjs_apart {keys : List Nat} (within : keysWithin controlObjs keys) {p e : Nat}
    (low : Od.GATE_OPER_LIST.key p e < Od.INTEG_FLIP_ARM.key 0 0) : Od.GATE_OPER_LIST.key p e ∉ keys := by
  have sides : ∀ q ∈ controlObjs, (q.idx * 256 + q.sub + 1) * 2 ^ 32 ≤ Od.GATE_OPER_LIST.key 0 0 ∨
      Od.INTEG_FLIP_ARM.key 0 0 ≤ (q.idx * 256 + q.sub) * 2 ^ 32 := by decide
  have first : Od.GATE_OPER_LIST.key 0 0 ≤ Od.GATE_OPER_LIST.key p e := by unfold Obj.key; omega
  intro written
  obtain ⟨q, known, i, f, hi, hf, same⟩ := within _ written
  have place : q.key i f = (q.idx * 256 + q.sub) * 2 ^ 32 + i * 2 ^ 16 + f := by unfold Obj.key; omega
  rcases sides q known with below | above <;> omega

section
variable {d e : Dev} (h : d.touched controlObjs e) (unarmed : d.on Od.INTEG_FLIP_ARM 0 = false)
include h unarmed

/-- A queue that no entry gates is gated by no count of a MAC control frame. -/
theorem Dev.queueGated_control {q : Nat} (ungated : d.queueGated q = false) : e.queueGated q = false := by
  unfold Dev.queueGated at ungated ⊢
  by_cases front : q < 16384
  · simp only [front, decide_true, Bool.true_and] at ungated ⊢
    refine Dev.gated_false.mpr fun x hx => ?_
    rw [Dev.n_touched h (by omega) (by decide) (by decide)] at hx
    obtain ⟨keys, within, wrote⟩ := h
    rw [Dev.wrote_n wrote (controlObjs_apart within (Dev.entries_below_flipArm unarmed (by omega) ungated hx))]
    exact Dev.gated_false.mp ungated x hx
  · simp [front]

/-- A class that is not immune stays so (R108). -/
theorem Dev.immune_control {p c : Nat} (port : p < 1024) (hc : c < 8) (obeys : d.immune p c = false) : e.immune p c = false := by
  unfold Dev.immune at obeys ⊢
  rw [Dev.n_touched h (by omega) (by omega) (by decide)]
  split at obeys
  · simp only [Bool.or_eq_false_iff] at obeys ⊢
    exact ⟨Dev.queueGated_control h unarmed obeys.1, Dev.queueGated_control h unarmed obeys.2⟩
  · cases obeys
  · rfl

end

/-! SUPPORT. MAC control frames received (R104 to R108). -/

theorem Dev.control_inService {d : Dev} {p : Nat} (up : d.inService p = true) (n : Nat) (f : Dev → Dev) : d.control p n f = f (d.rxLoad p n) := by
  have awake : d.link p ≠ lkPARKED := by
    intro parked
    simp [Dev.inService, parked] at up
    revert up; decide
  have receives : d.receives p = true := by
    simp only [Dev.inService, Dev.receives, Bool.or_eq_true] at up ⊢
    exact .inl up
  simp only [Dev.control, if_neg awake, receives, if_true]

theorem Dev.gateDue_idle {d : Dev} {p : Nat} (idle : d.gatePend false p = none) (k : Clk) : d.gateDue k p = d := by
  simp [Dev.gateDue, idle]

/-- The classes of a list are each loaded with q quanta (R105). -/
def Dev.loadHolds (k : Clk) (p q : Nat) (cs : List Nat) (d : Dev) : Dev := d.each cs (Dev.loadHold k p q)

def holdKeys (p : Nat) (cs : List Nat) : List Nat := cs.map fun c => Rg.PAUSE_UNTIL.key p c

theorem Dev.loadHolds_wrote (k : Clk) (p q : Nat) (cs : List Nat) (d : Dev) : d.wrote (holdKeys p cs) (d.loadHolds k p q cs) :=
  Dev.wrote_each cs (fun _ _ hc h => Dev.wrote_put h _ _ _ _ (List.mem_map_of_mem hc)) (Dev.wrote_refl _ d)

theorem Dev.loadHolds_touched (k : Clk) {p : Nat} (port : p < 1024) (q : Nat) {cs : List Nat} (classes : ∀ c ∈ cs, c < 8) (d : Dev) :
    d.touched [Rg.PAUSE_UNTIL] (d.loadHolds k p q cs) := by
  refine ⟨_, fun key hk => ?_, d.loadHolds_wrote k p q cs⟩
  obtain ⟨c, hc, rfl⟩ := List.mem_map.mp hk
  exact ⟨_, List.mem_singleton_self _, p, c, by omega, (classes c hc).trans (by decide), rfl⟩

/-- Writes of other objects than a port's lanes and rate leave how long a request holds (R84, R105). -/
theorem Dev.holdClocks_touched {objs : List Obj} {d e : Dev} (h : d.touched objs e) {p : Nat} (port : p < 1024)
    (apart : ∀ o ∈ [Od.PORT_ACTIVE_LANES, Od.OCTET_RATE], ∀ q ∈ objs, o.idx * 256 + o.sub ≠ q.idx * 256 + q.sub) (q : Nat) :
    e.holdClocks p q = d.holdClocks p q := by
  have lanes := Dev.n_touched (f := 0) h (show p < 65536 by omega) (by decide) (apart Od.PORT_ACTIVE_LANES (by simp))
  have rate := Dev.n_touched (f := 0) h (show p / 8 < 65536 by omega) (by decide) (apart Od.OCTET_RATE (by simp))
  simp only [Dev.holdClocks, Dev.portRate, Dev.portLane, lanes, rate]

/-- Every class of the list is held for the quanta's time. -/
theorem Dev.n_loadHolds (k : Clk) {p q : Nat} (port : p < 1024) (asks : q ≠ 0) {cs : List Nat} (classes : ∀ c ∈ cs, c < 8) {c : Nat} (hc : c ∈ cs)
    (d : Dev) : (d.loadHolds k p q cs).n Rg.PAUSE_UNTIL p c = k.clock + d.holdClocks p q := by
  induction cs generalizing d with
  | nil => cases hc
  | cons x cs ih =>
    have later : ∀ y ∈ cs, y < 8 := fun y hy => classes y (List.mem_cons_of_mem _ hy)
    by_cases again : c ∈ cs
    · have one := Dev.loadHolds_touched k port q (cs := [x]) (by simpa using classes x List.mem_cons_self) d
      have same := Dev.holdClocks_touched one port (by decide) q
      exact (ih later again (d.loadHold k p q x)).trans (congrArg (k.clock + ·) same)
    · have head : x = c := ((List.mem_cons.mp hc).resolve_right again).symm
      have unwritten : Rg.PAUSE_UNTIL.key p c ∉ holdKeys p cs := by
        intro written
        obtain ⟨y, hy, same⟩ := List.mem_map.mp written
        exact again ((Nat.add_left_cancel same : y = c) ▸ hy)
      have rest := Dev.wrote_n (Dev.loadHolds_wrote k p q cs (d.loadHold k p q x)) unwritten
      refine rest.trans ?_
      rw [head, Dev.loadHold, if_neg asks]
      exact Dev.n_put_same _ _ _ _ _ rfl

/-- Nothing is journalled of a request at a port that is not (R517). -/
theorem Dev.each_jflow_idle {d : Dev} {p : Nat} (unjournalled : d.journalled p = false) (k : Clk) (l : List Nat) (mask : Nat → Nat) :
    (d.each l fun d q => d.jflow k p 1 (mask q) q []) = d := by
  induction l with
  | nil => rfl
  | cons q l ih =>
    have same : d.jflow k p 1 (mask q) q [] = d := by simp [Dev.jflow, unjournalled]
    rw [Dev.each_cons, same, ih]

/-- A request obeyed at a port with no class immune holds each class it names (R105, R108). -/
theorem Dev.takeFlow_obeyed {k : Clk} {d : Dev} {p mode len q : Nat} {cs : List Nat} (calm : d.gatePend false p = none)
    (port : p < 1024) (classes : ∀ c ∈ cs, c < 8) (moded : d.n Od.PORT_FLOW_MODE p = mode) (enabled : d.on Od.PORT_FLOW_RX_ENABLE p = true)
    (live : d.maint = false) (obeys : ∀ c ∈ cs, d.immune p c = false) (unjournalled : d.journalled p = false) :
    d.takeFlow k p mode len (cs.map fun c => (c, q)) = d.loadHolds k p q cs := by
  have all : (cs.map fun c => (c, q)).filter (fun x => (d.n Od.PORT_FLOW_MODE p == mode && d.on Od.PORT_FLOW_RX_ENABLE p && !d.maint) && !d.immune p x.1) =
      cs.map fun c => (c, q) := by
    refine List.filter_eq_self.mpr fun x hx => ?_
    obtain ⟨c, hc, rfl⟩ := List.mem_map.mp hx
    simp [moded, enabled, live, obeys c hc]
  have holds : d.each (cs.map fun c => (c, q)) (fun d x => d.loadHold k p x.2 x.1) = d.loadHolds k p q cs := by
    simp [Dev.each, Dev.loadHolds, List.foldl_map]
  have still : (d.loadHolds k p q cs).journalled p = false :=
    (Dev.journalled_touched (d.loadHolds_touched k port q classes) port (by decide)).trans unjournalled
  simp only [Dev.takeFlow, Dev.gateDue_idle calm, all, Nat.lt_irrefl, decide_false, Dev.when_false, holds, Dev.each_jflow_idle still]

end Sys2Proof.Machine

namespace Sys2Proof.Machine
open Sys2Proof.Safety

/-! SUPPORT. The commands of MAC control, of pause timers and of verification (R104 to R106, R110). -/

/-- The enable vector of one priority names it alone. -/
theorem enables_one : ∀ i < 8, (List.range 8).filter (bit (2 ^ i % 256)) = [i] := by decide

theorem filter_range_one : ∀ m < 8, (List.range 8).filter (fun c => m == c) = [m] := by decide

/-- A PFC frame that names priority i is a request of its class with the quanta of i (R104, R105). -/
theorem Dev.pfcFrame_one {k : Clk} {d e : Dev} {p i q len : Nat} {qs : List Nat} (priority : i < 8) (named : qs[i]? = some q)
    (counted : d.bump48 Od.PORT_RX_PFC_PRIORITY p i = e) (cls : e.n Od.PORT_PFC_CLASS_MAP p i < 8) :
    d.pfcFrame k p (2 ^ i % 256) qs len = (e.pair Od.PORT_RX_PFC p len).takeFlow k p 2 len ([e.n Od.PORT_PFC_CLASS_MAP p i].map fun c => (c, q)) := by
  have names (c : Nat) : [i].filter (fun j => e.n Od.PORT_PFC_CLASS_MAP p j == c) = if e.n Od.PORT_PFC_CLASS_MAP p i == c then [i] else [] := by
    rw [List.filter_cons]; rfl
  have nonempty (c : Nat) : (!(if e.n Od.PORT_PFC_CLASS_MAP p i == c then [i] else []).isEmpty) = (e.n Od.PORT_PFC_CLASS_MAP p i == c) := by
    split <;> simp_all
  simp only [Dev.pfcFrame, enables_one i priority, Dev.each_cons, Dev.each_nil, counted, names, nonempty, filter_range_one _ cls]
  simp [List.getD_eq_getElem?_getD, named]

/-- The count of a PFC frame that names priority i. -/
def Dev.pfcNamed (p i : Nat) (d : Dev) : Dev := (d.rxLoad p 64).bump48 Od.PORT_RX_PFC_PRIORITY p i

theorem Dev.pfcNamed_touched {d : Dev} (plain : plainWords d = true) {p i : Nat} (port : p < 1024) (priority : i < 8) :
    d.touched (Od.PORT_RX_PFC_PRIORITY :: rxLoadObjs) (d.pfcNamed p i) := by
  rw [Dev.pfcNamed, Dev.bump48_plain (Dev.rxLoad_plain port plain 64) (Obj.key_ne (by decide) (by omega) (by omega) (by omega) (by omega))]
  exact Dev.touched_put (Dev.touched_mono (d.rxLoad_touched port 64) (List.subset_cons_self _ _)) List.mem_cons_self (by omega) (by omega) _

section
variable {s : State} {p : Nat} (port : p < 1024)
include port

/-- What a request obeyed does after the count of its frame: the classes it names are held (R105). -/
theorem Dev.takeFlow_holds {e : Dev} (counted : s.dev.touched controlObjs e) (unarmed : s.dev.on Od.INTEG_FLIP_ARM 0 = false)
    (unjournalled : s.dev.journalled p = false) (calm : s.dev.gatePend false p = none) {mode q : Nat} (asks : 0 < q)
    (moded : s.dev.n Od.PORT_FLOW_MODE p = mode) (enabled : s.dev.on Od.PORT_FLOW_RX_ENABLE p = true) (live : s.dev.maint = false) {cs : List Nat}
    (classes : ∀ c ∈ cs, c < 8) (obeys : ∀ c, c < 8 → s.dev.immune p c = false) (len : Nat) :
    e.takeFlow s.clk p mode len (cs.map fun c => (c, q)) = e.loadHolds s.clk p q cs ∧ bare (e.loadHolds s.clk p q cs) = bare s.dev ∧
      ∀ c ∈ cs, (e.loadHolds s.clk p q cs).n Rg.PAUSE_UNTIL p c = s.clk.clock + s.dev.holdClocks p q := by
  have objs := Dev.touched_objsOnly counted
  refine ⟨Dev.takeFlow_obeyed ?_ port classes ?_ ?_ ?_ (fun c hc => ?_) ?_,
    Dev.objsOnly_trans objs (Dev.touched_objsOnly (e.loadHolds_touched s.clk port q classes)), fun c hc => ?_⟩
  · exact (Dev.objsOnly_gatePend objs false p).trans calm
  · exact (Dev.n_touched counted (by omega) (by decide) (by decide)).trans moded
  · exact (Dev.on_touched counted (by omega) (by decide) (by decide)).trans enabled
  · exact (Dev.on_touched counted (by decide) (by decide) (by decide)).trans live
  · exact Dev.immune_control counted unarmed port (classes c hc) (obeys c (classes c hc))
  · exact (Dev.journalled_touched counted port (by decide)).trans unjournalled
  · rw [Dev.n_loadHolds s.clk port asks.ne' classes hc, Dev.holdClocks_touched counted port (by decide)]

/-- The holding of classes leaves the counts of frames. -/
theorem Dev.counts_loadHolds {d e : Dev} {o : Obj} {n : Nat} (h : d.counts o p n e) (k : Clk) (q : Nat) {cs : List Nat} (classes : ∀ c ∈ cs, c < 8)
    (apart : ∀ q ∈ [Rg.PAUSE_UNTIL], o.idx * 256 + o.sub ≠ q.idx * 256 + q.sub) : d.counts o p n (e.loadHolds k p q cs) := by
  obtain ⟨frames, bytes⟩ := h
  have same (x : Nat) (hx : x < 2) : (e.loadHolds k p q cs).n o p x = e.n o p x :=
    Dev.n_touched (e.loadHolds_touched k port q classes) (by omega) (by omega) apart
  exact ⟨(same 0 (by decide)).trans frames, (same 1 (by decide)).trans bytes⟩

variable (running : ready s = true) (plain : plainWords s.dev = true) (up : s.dev.inService p = true)
include running plain up

/-- Another MAC control frame is counted (R104). -/
theorem exec_macControlOther_counts (n : Nat) : ∃ t, exec (.macControlOther p n) s = .next t ∧ outsideKept s t ∧ bare t.dev = bare s.dev ∧
    countedPair Od.PORT_RX_MAC_CONTROL_OTHER p n s t := by
  have ran : exec (.macControlOther p n) s =
      .next { s with dev := (s.dev.silent.rxLoad p n).pair Od.PORT_RX_MAC_CONTROL_OTHER p n } :=
    State.runIf_eq running (decide_eq_true port) (Dev.control_inService (d := s.dev.silent) up n _)
  obtain ⟨touched, counts⟩ := Dev.rxLoad_pair (d := s.dev.silent) port plain (o := Od.PORT_RX_MAC_CONTROL_OTHER) ⟨rfl, by decide⟩ n
  exact ⟨_, ran, ⟨rfl, rfl, rfl⟩, bare_next touched, countedPair_next counts⟩

variable (unjournalled : s.dev.journalled p = false) (calm : s.dev.gatePend false p = none)
include unjournalled calm

/-- A PAUSE frame obeyed holds every class and is counted (R104, R105). -/
theorem exec_pauseFrameReceived_holds {q : Nat} (asks : 0 < q) (word : q < 65536) (mode : s.dev.n Od.PORT_FLOW_MODE p = 1)
    (enabled : s.dev.on Od.PORT_FLOW_RX_ENABLE p = true) (live : s.dev.maint = false) (obeys : ∀ c, c < 8 → s.dev.immune p c = false) :
    ∃ t, exec (.pauseFrameReceived p q) s = .next t ∧ outsideKept s t ∧ bare t.dev = bare s.dev ∧ countedPair Od.PORT_RX_PAUSE p 64 s t ∧
      ∀ c, c < 8 → t.dev.n Rg.PAUSE_UNTIL p c = s.clk.clock + s.dev.holdClocks p q := by
  obtain ⟨touched, counts⟩ := Dev.rxLoad_pair (d := s.dev.silent) port plain (o := Od.PORT_RX_PAUSE) ⟨rfl, by decide⟩ 64
  have control := Dev.touched_mono (Dev.touched_trans (Dev.touched_silent [] s.dev) touched) (more := controlObjs) (by simp [controlObjs, rxLoadObjs])
  have classes : ∀ c ∈ List.range 8, c < 8 := fun c => List.mem_range.mp
  obtain ⟨holds, same, held⟩ := Dev.takeFlow_holds port control (plainWords_unarmed plain) unjournalled calm asks mode enabled live classes obeys 64
  have ran : exec (.pauseFrameReceived p q) s = .next { s with dev :=
      ((s.dev.silent.rxLoad p 64).pair Od.PORT_RX_PAUSE p 64).loadHolds s.clk p q (List.range 8) } := by
    refine State.runIf_eq running (decide_eq_true port) ((Dev.control_inService (d := s.dev.silent) up 64 _).trans ?_)
    rw [Nat.mod_eq_of_lt word]
    exact holds
  exact ⟨_, ran, ⟨rfl, rfl, rfl⟩, same, countedPair_next (Dev.counts_loadHolds port counts _ _ classes (by decide)),
    fun c hc => held c (List.mem_range.mpr hc)⟩

/-- A PFC frame obeyed that names one priority holds the class of it and is counted (R104, R105). -/
theorem exec_pfcFrameReceived_holds {i q : Nat} {qs : List Nat} (priority : i < 8) (named : qs[i]? = some q) (asks : 0 < q) (word : q < 65536)
    (cls : s.dev.n Od.PORT_PFC_CLASS_MAP p i < 8) (mode : s.dev.n Od.PORT_FLOW_MODE p = 2) (enabled : s.dev.on Od.PORT_FLOW_RX_ENABLE p = true)
    (live : s.dev.maint = false) (obeys : ∀ c, c < 8 → s.dev.immune p c = false) :
    ∃ t, exec (.pfcFrameReceived p (2 ^ i) qs) s = .next t ∧ outsideKept s t ∧ bare t.dev = bare s.dev ∧ countedPair Od.PORT_RX_PFC p 64 s t ∧
      t.dev.n Rg.PAUSE_UNTIL p (s.dev.n Od.PORT_PFC_CLASS_MAP p i) = s.clk.clock + s.dev.holdClocks p q := by
  have names := Dev.pfcNamed_touched (d := s.dev.silent) plain port priority
  have plain' := Dev.plainWords_touched names (by decide) plain
  have counter : frameCounter (Od.PORT_RX_PFC_PRIORITY :: rxLoadObjs) Od.PORT_RX_PFC := ⟨rfl, by decide⟩
  obtain ⟨counted, -⟩ := Dev.pair_touched (show p < 65536 by omega) counter plain' 64
  have counts := Dev.pair_counts (before := Od.PORT_RX_PFC_PRIORITY :: rxLoadObjs) (after := []) (by omega) counter names plain'
    (Dev.touched_refl [] ((s.dev.silent.pfcNamed p i).pair Od.PORT_RX_PFC p 64))
  have since := Dev.touched_trans (Dev.touched_silent [] s.dev) names
  have control := Dev.touched_mono (Dev.touched_trans since counted) (more := controlObjs) (by simp [controlObjs, rxLoadObjs])
  have map : (s.dev.silent.pfcNamed p i).n Od.PORT_PFC_CLASS_MAP p i = s.dev.n Od.PORT_PFC_CLASS_MAP p i :=
    Dev.n_touched since (by omega) (by omega) (by decide)
  have classes : ∀ c ∈ [s.dev.n Od.PORT_PFC_CLASS_MAP p i], c < 8 := by simpa using cls
  obtain ⟨holds, same, held⟩ := Dev.takeFlow_holds port control (plainWords_unarmed plain) unjournalled calm asks mode enabled live classes obeys 64
  have ran : exec (.pfcFrameReceived p (2 ^ i) qs) s = .next { s with dev :=
      ((s.dev.silent.pfcNamed p i).pair Od.PORT_RX_PFC p 64).loadHolds s.clk p q [s.dev.n Od.PORT_PFC_CLASS_MAP p i] } := by
    refine State.runIf_eq running (decide_eq_true port) ((Dev.control_inService (d := s.dev.silent) up 64 _).trans ?_)
    rw [Dev.pfcFrame_one (q := q) priority (by simp [named, Nat.mod_eq_of_lt word]) (show _ = s.dev.silent.pfcNamed p i from rfl) (by rw [map]; exact cls), map]
    exact holds
  exact ⟨_, ran, ⟨rfl, rfl, rfl⟩, same, countedPair_next (Dev.counts_loadHolds port counts _ _ classes (by decide)), held _ (List.mem_singleton_self _)⟩

end

/-- Outside a replay the rules go by the device's own clock. -/
theorem Dev.rk_live {d : Dev} (live : d.replaying = false) (k : Clk) : d.rk k = k := by
  rw [Dev.rk, live, if_neg Bool.false_ne_true]

/-- A hold timer that has run out is cleared (R106). -/
theorem exec_pauseTimerExpiry_clears {s : State} (running : ready s = true) {p c : Nat} (port : p < 1024) (hc : c < 8) (live : s.dev.replaying = false)
    (due : s.dev.n Rg.PAUSE_UNTIL p c ≤ s.clk.clock) :
    ∃ t, exec (.pauseTimerExpiry p c) s = .next t ∧ onlyWrites [Rg.PAUSE_UNTIL.key p c] s t ∧ t.dev.n Rg.PAUSE_UNTIL p c = 0 := by
  have clock : s.dev.silent.rk s.clk = s.clk := Dev.rk_live (d := s.dev.silent) live s.clk
  have due' : s.dev.silent.n Rg.PAUSE_UNTIL p c ≤ (s.dev.silent.rk s.clk).clock := by rw [clock]; exact due
  exact ⟨_, State.runIf_eq running (by simp [okPort, port, hc]) (if_pos due'),
    onlyWrites_of (Dev.wrote_put (Dev.wrote_silent _ s.dev) _ _ _ _ (List.mem_singleton_self _)), Dev.n_put_same _ _ _ _ _ rfl⟩

section
variable {s : State} (running : ready s = true) {p : Nat} (port : p < 1024) (up : s.dev.inService p = true)
include running port up

/-- An answer to verification succeeds (R110). -/
theorem exec_preemptionVerification_respond (verifying : s.dev.n Od.PORT_PREEMPT_STATUS p = 1) :
    ∃ t, exec (.preemptionVerification p .respond) s = .next t ∧ onlyWrites [Od.PORT_PREEMPT_STATUS.key p 0] s t ∧
      t.dev.n Od.PORT_PREEMPT_STATUS p = 2 := by
  have begun : s.dev.silent.verifying p = true := by
    have up' : s.dev.silent.inService p = true := up
    simp [Dev.verifying, verifying, up']
  have ran : exec (.preemptionVerification p .respond) s = .next { s with dev := s.dev.silent.put Od.PORT_PREEMPT_STATUS p 2 } :=
    State.runIf_eq running (decide_eq_true port) (by simp only [begun, Dev.when_true])
  exact ⟨_, ran, onlyWrites_of (Dev.wrote_put (Dev.wrote_silent _ s.dev) _ _ _ _ (List.mem_singleton_self _)), Dev.n_put_same _ _ _ _ _ rfl⟩

/-- A third attempt that no answer ended fails (R110). -/
theorem exec_preemptionVerification_third (verifying : s.dev.n Od.PORT_PREEMPT_STATUS p = 1)
    (due : s.dev.n Rg.VERIFY_TICK p + 2000 * s.dev.n Od.PORT_PREEMPT_VERIFY_TIME p ≤ s.clk.tick + 1) (tries : s.dev.n Rg.VERIFY_TRIES p = 2) :
    ∃ t, exec (.preemptionVerification p .none) s = .next t ∧
      onlyWrites [Rg.VERIFY_TRIES.key p 0, Rg.VERIFY_TICK.key p 0, Od.PORT_PREEMPT_STATUS.key p 0] s t ∧
      t.dev.n Rg.VERIFY_TRIES p = 3 ∧ t.dev.n Od.PORT_PREEMPT_STATUS p = 3 := by
  have begun : s.dev.silent.verifying p = true := by
    have up' : s.dev.silent.inService p = true := up
    simp [Dev.verifying, verifying, up']
  have ran : exec (.preemptionVerification p .none) s = .next { s with dev :=
      ((s.dev.silent.put Rg.VERIFY_TRIES p 3).put Rg.VERIFY_TICK p (s.clk.tick + 1)).put Od.PORT_PREEMPT_STATUS p 3 } :=
    State.runIf_eq running (decide_eq_true port) (by simp [begun, due, tries])
  refine ⟨_, ran, onlyWrites_of ?_, ?_, Dev.n_put_same _ _ _ _ _ rfl⟩
  · iterate 3 refine Dev.wrote_put ?_ _ _ _ _ (by simp)
    exact Dev.wrote_silent _ s.dev
  · rw [Dev.n_put_port _ port port (by decide), Dev.n_put_port _ port port (by decide)]
    exact Dev.n_put_same _ _ _ _ _ rfl

/-- The peer's verify is answered in this clock where the answer may leave; an mPacket counts nowhere (R110; log entry 49). -/
theorem exec_preemptionVerification_verify {o : Out} (answer : o = { kind := .control, unit := p, vals := [16, 1] })
    (enabled : s.dev.on Od.PORT_PREEMPT_ENABLE p = true) (live : s.dev.maint = false) (leaves : s.dev.mayLeave s.clk o = true) :
    ∃ t, exec (.preemptionVerification p .verify) s = .next t ∧ onlyWrites [] s t ∧ o ∈ t.dev.out := by
  subst answer
  have leaves' : s.dev.silent.mayLeave s.clk { kind := .control, unit := p, vals := [16, 1] } = true := leaves
  have up' : s.dev.silent.inService p = true := up
  have live' : s.dev.silent.maint = false := live
  have sends : s.dev.silent.verifyAnswer s.clk p = s.dev.silent.emit { kind := .control, unit := p, vals := [16, 1] } := by
    simp [Dev.verifyAnswer, enabled, up', live', Dev.macSend, leaves', Dev.macEmit]
  exact ⟨_, State.runIf_eq running (decide_eq_true port) sends, onlyWrites_of (Dev.wrote_emit (Dev.wrote_silent _ s.dev) _), by simp⟩

end

/-- Settles O18: a request obeyed holds its classes (`Dev.takeFlow_holds`), since no count of its frame makes a class immune (`Dev.immune_control`). That the
peer's verify is answered whatever PORT.PREEMPT.STATUS reads, and that these frames count 64 bytes, are the model's choices (log entries 49, 105). -/
theorem macControlFrames : Obligations.MacControlFrames := by
  intro s p running plain port up unjournalled calm
  refine ⟨fun q asks word mode enabled live obeys => ?_, fun i q qs priority named asks word cls mode enabled live obeys => ?_, fun n => ?_,
    fun c hc live due => exec_pauseTimerExpiry_clears running port hc live due, fun verifying => ⟨?_, fun due tries => ?_⟩,
    fun o answer enabled live leaves => exec_preemptionVerification_verify running port up answer enabled live leaves⟩
  · exact exec_pauseFrameReceived_holds port running plain up unjournalled calm asks word mode enabled live obeys
  · exact exec_pfcFrameReceived_holds port running plain up unjournalled calm priority named asks word cls mode enabled live obeys
  · exact exec_macControlOther_counts port running plain up n
  · exact exec_preemptionVerification_respond running port up verifying
  · exact exec_preemptionVerification_third running port up verifying due tries

end Sys2Proof.Machine

namespace Sys2Proof.Machine
open Sys2Proof.Safety

/-! SUPPORT. The last byte of a copy (R89, R262, R330). -/

/-- A token pair of a shaper after a copy of c bytes, overhead with it (R330). -/
def Dev.taken (b : Obj) (i c : Nat) (d : Dev) : Dev := (d.set b i (d.get b i 0 - (c * 65536 : Nat)) 0).set b i (d.get b i 1 - (c * 65536 : Nat)) 1

theorem Dev.taken_touched (d : Dev) (b : Obj) {i : Nat} (hi : i < 65536) (c : Nat) : d.touched [b] (d.taken b i c) :=
  Dev.touched_set (Dev.touched_set (Dev.touched_refl _ d) (by simp) hi (by decide) _) (by simp) hi (by decide) _

theorem Dev.get_taken (d : Dev) (b : Obj) (i c : Nat) {e : Nat} (he : e < 2) :
    (d.taken b i c).get b i e = b.ty.norm (d.get b i e - (c * 65536 : Nat)) := by
  match e with
  | 0 => exact (Dev.get_set_other _ _ _ _ _ _ _ _ (b.key_ne_elem (by decide))).trans (Dev.get_set_same _ _ _ _ _)
  | 1 => exact Dev.get_set_same _ _ _ _ _

/-- A queue's deficit or tag after a copy of c bytes, as the mode of its level asks (R330). -/
def Dev.levelCharged (p q c : Nat) (d : Dev) : Dev :=
  match d.n Od.SCHED_LEVEL_MODE p (d.n Od.SCHED_LEVEL q) with
  | 1 => d.set Od.SCHED_DEFICIT q (d.get Od.SCHED_DEFICIT q - c)
  | 2 => d.put Od.SCHED_TAG q ((d.n Od.SCHED_TAG q + ceilDiv (c * 65536) (d.n Od.SCHED_WEIGHT q)) % 2 ^ 64)
  | _ => d

theorem Dev.charge_eq (d : Dev) (p o n : Nat) :
    d.charge p o n = Dev.levelCharged p (16 * p + o) (n + d.n Od.SCHED_OVERHEAD p)
      (((d.taken Od.SHAPER_TOKENS (16 * p + o) (n + d.n Od.SCHED_OVERHEAD p)).taken Od.PSHAPER_TOKENS p (n + d.n Od.SCHED_OVERHEAD p)).flipAny 9
        (sorusOf p) Od.SHAPER_TOKENS (16 * p + o) 0) := by
  unfold Dev.charge Dev.taken
  generalize n + d.n Od.SCHED_OVERHEAD p = c
  dsimp only
  generalize Dev.flipAny _ _ _ _ _ _ = e
  rfl

theorem Dev.levelCharged_touched (d : Dev) (p : Nat) {q : Nat} (queue : q < 16384) (c : Nat) :
    d.touched [Od.SCHED_DEFICIT, Od.SCHED_TAG] (d.levelCharged p q c) ∧ (d.levelCharged p q c).out = d.out := by
  unfold Dev.levelCharged
  split
  · exact ⟨Dev.touched_set (Dev.touched_refl _ d) (by simp) (by omega) (by decide) _, rfl⟩
  · exact ⟨Dev.touched_put (Dev.touched_refl _ d) (by simp) (by omega) (by decide) _, rfl⟩
  · exact ⟨Dev.touched_refl _ d, rfl⟩

/-- The objects that the charge of a copy writes. -/
def chargeObjs : List Obj := [Od.SHAPER_TOKENS, Od.PSHAPER_TOKENS, Od.SCHED_DEFICIT, Od.SCHED_TAG]

section
variable {p q : Nat} (port : p < 1024) (queue : q < 16384) (own : q / 16 = p)
include port queue own

/-- What the charge of a copy of n bytes of queue q does: the four buckets fall by its bytes and the overhead (R330). -/
theorem Dev.charge_takes {d : Dev} (unarmed : d.on Od.INTEG_FLIP_ARM 0 = false) (n : Nat) :
    d.touched chargeObjs (d.charge p (q % 16) n) ∧ (d.charge p (q % 16) n).out = d.out ∧ ∀ e, e < 2 →
      (d.charge p (q % 16) n).get Od.SHAPER_TOKENS q e =
        Od.SHAPER_TOKENS.ty.norm (d.get Od.SHAPER_TOKENS q e - ((n + d.n Od.SCHED_OVERHEAD p) * 65536 : Nat)) ∧
      (d.charge p (q % 16) n).get Od.PSHAPER_TOKENS p e =
        Od.PSHAPER_TOKENS.ty.norm (d.get Od.PSHAPER_TOKENS p e - ((n + d.n Od.SCHED_OVERHEAD p) * 65536 : Nat)) := by
  have place : 16 * p + q % 16 = q := by omega
  generalize overhead : n + d.n Od.SCHED_OVERHEAD p = c
  have first := d.taken_touched Od.SHAPER_TOKENS (show q < 65536 by omega) c
  have second := (d.taken Od.SHAPER_TOKENS q c).taken_touched Od.PSHAPER_TOKENS (show p < 65536 by omega) c
  obtain ⟨last, out⟩ := ((d.taken Od.SHAPER_TOKENS q c).taken Od.PSHAPER_TOKENS p c).levelCharged_touched p queue c
  have unarmed' : ((d.taken Od.SHAPER_TOKENS q c).taken Od.PSHAPER_TOKENS p c).on Od.INTEG_FLIP_ARM 0 = false :=
    (Dev.on_touched (Dev.touched_trans first second) (by decide) (by decide) (by decide)).trans unarmed
  have charged : d.charge p (q % 16) n = ((d.taken Od.SHAPER_TOKENS q c).taken Od.PSHAPER_TOKENS p c).levelCharged p q c := by
    rw [Dev.charge_eq, place, overhead, Dev.flipAny_unarmed unarmed']
  rw [charged]
  refine ⟨Dev.touched_trans (Dev.touched_trans first second) last, out, fun e he => ⟨?_, ?_⟩⟩
  · rw [Dev.get_touched (Dev.touched_trans second last) (by omega) (by omega) (by decide), Dev.get_taken _ _ _ _ he]
  · rw [Dev.get_touched last (by omega) (by omega) (by decide), Dev.get_taken _ _ _ _ he, Dev.get_touched first (by omega) (by omega) (by decide)]

end

/-- The device as the last byte of a copy leaves: the copy gone from those in transmission, its frame out with its FCS (R89). -/
def Dev.copyOut (x : TxCopy) (d : Dev) : Dev :=
  ({ d with tx := d.tx.erase x, now := { d.now with ended := d.now.ended ++ [(x.port, x.path)] } } : Dev).emit
    { kind := .frame, unit := x.port, vals := [x.path], bytes := x.frame ++ fcsBytes x.frame }

/-- The counts of a copy of l bytes, its load and its charge (R118, R330). -/
def Dev.copyCounted (p q frag l : Nat) (d : Dev) : Dev :=
  ((((d.pair Od.PORT_TX_GOOD p l).pair Od.PORT_PREEMPT_TX_FRAGMENTS p (if frag = 0 then l else l - frag)).txLoad p l).charge p (q % 16) l).pair
    Od.SCHED_QUEUE_SENT q l

theorem fcsBytes_length (bs : List Byte) : (fcsBytes bs).length = 4 := by simp [fcsBytes]

theorem Dev.maint_sent (d : Dev) (l : List TxCopy) (i : Instant) : ({ d with tx := l, now := i } : Dev).maint = d.maint := rfl

/-- The last byte of a whole, right and uncut preemptible copy without credit debit. -/
theorem Dev.copyEnd_whole {k : Clk} {d : Dev} {x : TxCopy} {f : FrameRec} {e : Dev} (path : x.path = 1) (record : d.frame x.copy.fr = some f)
    (right : f.tailMark = false) (uncut : x.cut = none) (small : x.giant = false) (unstomped : x.stomp = false) (unharmed : x.xors = [])
    (debitless : x.debit = 0) (headless : x.header = []) (uncommitted : x.committed = false) (live : d.maint = false)
    (counted : (d.copyOut x).copyCounted x.port x.copy.queue x.frag (x.frame.length + 4) = e) (calm : e.gatePend false x.port = none) :
    d.copyEnd k x = (e.when (e.overran k x (x.copy.queue % 16) (x.frame.length + 4 + e.n Od.SCHED_OVERHEAD x.port)) fun d =>
      d.bump Od.GATE_OVERRUNS x.port).release k (ownerOf x.copy.queue) x.copy.fr := by
  have ends : d.copyEnd k x = ((e.gateDue k x.port).when ((e.gateDue k x.port).overran k x (x.copy.queue % 16)
      (x.frame.length + 4 + (e.gateDue k x.port).n Od.SCHED_OVERHEAD x.port)) fun d => d.bump Od.GATE_OVERRUNS x.port).release k
        (ownerOf x.copy.queue) x.copy.fr := by
    subst counted
    simp only [Dev.copyEnd, Dev.copyOut, Dev.copyCounted, record, right, unstomped, small, uncut, headless, uncommitted, unharmed, debitless, path,
      Dev.maint_sent, live, List.isEmpty_nil, if_true, if_false, Bool.false_eq_true, Bool.or_false, List.take_length, List.length_append, fcsBytes_length,
      List.foldl_nil, Option.isSome_none, Dev.when_false, Dev.when_true, Bool.not_false, beq_self_eq_true, Nat.one_ne_zero]
  rw [ends, Dev.gateDue_idle calm]

/-- The loads of a port's transmission. -/
def txLoadObjs : List Obj := [Rg.WIN, Rg.SHED_TX, Rg.RESTORE_TX]

theorem Dev.txLoad_touched (d : Dev) {p : Nat} (port : p < 1024) (n : Nat) : d.touched txLoadObjs (d.txLoad p n) := by
  unfold Dev.txLoad Dev.winTx Dev.loadTx
  iterate 4 refine Dev.touched_put ?_ (by simp [txLoadObjs]) (by omega) (by decide) _
  exact Dev.touched_refl _ d

theorem Dev.txLoad_out (d : Dev) (p n : Nat) : (d.txLoad p n).out = d.out := rfl

/-- The objects that a copy's counts write between its two pairs. -/
def sentObjs : List Obj := (Od.PORT_PREEMPT_TX_FRAGMENTS :: txLoadObjs) ++ chargeObjs

section
variable {p q : Nat} (port : p < 1024) (queue : q < 16384) (own : q / 16 = p)
include port queue own

/-- What the counts of a copy do: its two pairs count it and its buckets fall, whatever GATE.OVERRUNS counts after. -/
theorem Dev.copyCounted_counts {d e g : Dev} (plain : plainWords d = true) {frag l : Nat} (counted : d.copyCounted p q frag l = e)
    (overran : e.touched [Od.GATE_OVERRUNS] g) (silent : g.out = e.out) :
    d.objsOnly g ∧ g.out = d.out ∧ d.counts Od.PORT_TX_GOOD p l g ∧ d.counts Od.SCHED_QUEUE_SENT q l g ∧ ∀ e, e < 2 →
      g.get Od.SHAPER_TOKENS q e = Od.SHAPER_TOKENS.ty.norm (d.get Od.SHAPER_TOKENS q e - ((l + d.n Od.SCHED_OVERHEAD p) * 65536 : Nat)) ∧
      g.get Od.PSHAPER_TOKENS p e = Od.PSHAPER_TOKENS.ty.norm (d.get Od.PSHAPER_TOKENS p e - ((l + d.n Od.SCHED_OVERHEAD p) * 65536 : Nat)) := by
  subst counted
  have good : frameCounter (sentObjs ++ [Od.SCHED_QUEUE_SENT, Od.GATE_OVERRUNS]) Od.PORT_TX_GOOD := ⟨rfl, by decide⟩
  have sent : frameCounter ((Od.PORT_TX_GOOD :: sentObjs) ++ [Od.GATE_OVERRUNS]) Od.SCHED_QUEUE_SENT := ⟨rfl, by decide⟩
  have part : frameCounter [] Od.PORT_PREEMPT_TX_FRAGMENTS := ⟨rfl, by decide⟩
  have port' : p < 65536 := by omega
  obtain ⟨first, out₁, -⟩ := Dev.pair_touched port' good plain l
  have plain₁ := Dev.plainWords_touched first (by decide) plain
  obtain ⟨second, out₂, -⟩ := Dev.pair_touched port' part plain₁ (if frag = 0 then l else l - frag)
  have loaded := Dev.touched_trans second (Dev.txLoad_touched _ port l)
  have plain₃ := Dev.plainWords_touched loaded (by decide) plain₁
  obtain ⟨charged, out₄, taken⟩ := Dev.charge_takes port queue own (plainWords_unarmed plain₃) l
  have between := Dev.touched_trans loaded charged
  have plain₄ := Dev.plainWords_touched charged (by decide) plain₃
  obtain ⟨last, out₅, -⟩ := Dev.pair_touched (show q < 65536 by omega) sent plain₄ l
  have upTo := Dev.touched_trans first loaded
  have after := Dev.touched_trans last overran
  refine ⟨Dev.touched_objsOnly (Dev.touched_trans (Dev.touched_trans first between) after), ?_, ?_, ?_, fun e he => ⟨?_, ?_⟩⟩
  · exact silent.trans (out₅.trans (out₄.trans ((Dev.txLoad_out _ p l).trans (out₂.trans out₁))))
  · exact Dev.pair_counts (before := []) port' good (Dev.touched_refl [] d) plain (Dev.touched_trans between after)
  · exact Dev.pair_counts (by omega) sent (Dev.touched_trans first between) plain₄ overran
  · rw [Dev.get_touched after (by omega) (by omega) (by decide), (taken e he).1, Dev.get_touched upTo (by omega) (by omega) (by decide),
      Dev.n_touched upTo port' (by decide) (by decide)]
  · rw [Dev.get_touched after (by omega) (by omega) (by decide), (taken e he).2, Dev.get_touched upTo (by omega) (by omega) (by decide),
      Dev.n_touched upTo port' (by decide) (by decide)]

end

/-- A record's reference released by a copy of queue q (R262). -/
def FrameRec.releasedBy (k : Clk) (q : Nat) (f : FrameRec) : FrameRec :=
  { f with refs := f.refs - 1, relClock := k.clock + 1, lastOwner := if f.relClock = k.clock + 1 then max q f.lastOwner else q }

theorem Dev.release_held {k : Clk} {d : Dev} {q id : Nat} {f : FrameRec} (queue : q < 16384) (record : d.frame id = some f) (held : f.refs ≠ 0) :
    d.release k (ownerOf q) id = d.updFrame id (FrameRec.releasedBy k q) := by
  simp only [Dev.release, record, if_neg held, ownerOf, if_pos queue]
  rfl

theorem Dev.counts_updFrame {d e : Dev} {o : Obj} {i n : Nat} (h : d.counts o i n e) (id : Nat) (g : FrameRec → FrameRec) :
    d.counts o i n (e.updFrame id g) := h

/-- After writes of objects a record changes as if there had been none. -/
theorem Dev.bare_updFrame {d e : Dev} (h : d.objsOnly e) (id : Nat) (g : FrameRec → FrameRec) : bare (e.updFrame id g) = bare (d.updFrame id g) :=
  congrArg (fun b : Dev => b.updFrame id g) (show bare e = bare d from h)

/-- The command finds the copy whose last byte passes, outside a replay. -/
theorem exec_copyLastByte_ended {s : State} (running : ready s = true) {x : TxCopy} (port : x.port < 1024) (live : s.dev.replaying = false)
    (sending : s.dev.txOn x.port 1 = some x) (ended : s.dev.ended s.clk x = true) :
    exec (.copyLastByte x.port 1) s = .next { s with dev := s.dev.silent.copyEnd s.clk x } := by
  have clock : s.dev.silent.rk s.clk = s.clk := Dev.rk_live (d := s.dev.silent) live s.clk
  have sending' : s.dev.silent.txOn x.port 1 = some x := sending
  have ended' : s.dev.silent.ended s.clk x = true := ended
  refine State.runIf_eq running (decide_eq_true port) ?_
  simp only [Nat.one_lt_two, if_true, sending', clock, ended']

/-! SUPPORT. The leaving of a copy's bytes changes no object, no record and no gate list, and brings no stored word into error. -/

theorem Dev.plainWords_copyOut (d : Dev) (x : TxCopy) : plainWords (d.copyOut x) = plainWords d := rfl

theorem Dev.frame_copyOut (d : Dev) (x : TxCopy) (id : Nat) : (d.copyOut x).frame id = d.frame id := rfl

theorem Dev.gatePend_copyOut (d : Dev) (x : TxCopy) (stream : Bool) (u : Nat) : (d.copyOut x).gatePend stream u = d.gatePend stream u := rfl

theorem Dev.counts_copyOut {d e : Dev} {x : TxCopy} {o : Obj} {i n : Nat} (h : (d.copyOut x).counts o i n e) : d.counts o i n e := h

/-- An overrun, if it is one, is counted (R357). -/
theorem Dev.overrun_touched (d : Dev) {p : Nat} (port : p < 1024) (late : Bool) :
    d.touched [Od.GATE_OVERRUNS] (d.when late fun d => d.bump Od.GATE_OVERRUNS p) ∧ (d.when late fun d => d.bump Od.GATE_OVERRUNS p).out = d.out := by
  cases late with
  | false => exact ⟨Dev.touched_refl _ d, rfl⟩
  | true => exact ⟨Dev.touched_put (Dev.touched_refl _ d) (by simp) (by omega) (by decide) _, rfl⟩

/-- Settles O20: the copy's counts and charge write objects alone (`Dev.copyCounted_counts`), and its reference is released. -/
theorem copiesLeave : Obligations.CopiesLeave := by
  intro s x f running plain noReplay port queue own sending path ended record _ held uncut right small unstomped unharmed debitless headless uncommitted live
    calm _ _
  have plain' := (s.dev.silent.plainWords_copyOut x).trans plain
  generalize counted : (s.dev.silent.copyOut x).copyCounted x.port x.copy.queue x.frag (x.frame.length + 4) = e
  obtain ⟨written, -⟩ := Dev.copyCounted_counts port queue own plain' counted (Dev.touched_refl _ e) rfl
  have calm' : e.gatePend false x.port = none :=
    (Dev.objsOnly_gatePend written _ _).trans ((s.dev.silent.gatePend_copyOut x _ _).trans calm)
  have ends := Dev.copyEnd_whole (k := s.clk) (d := s.dev.silent) path record right uncut small unstomped unharmed debitless headless uncommitted live
    counted calm'
  generalize e.overran s.clk x (x.copy.queue % 16) (x.frame.length + 4 + e.n Od.SCHED_OVERHEAD x.port) = late at ends
  obtain ⟨overran, silent⟩ := e.overrun_touched port late
  generalize (e.when late fun d => d.bump Od.GATE_OVERRUNS x.port) = g at ends overran silent
  obtain ⟨objs, out, good, sent, taken⟩ := Dev.copyCounted_counts port queue own plain' counted overran silent
  have record' : g.frame x.copy.fr = some f := (Dev.objsOnly_frame objs _).trans ((s.dev.silent.frame_copyOut x _).trans record)
  rw [Dev.release_held queue record' held] at ends
  have ran := exec_copyLastByte_ended running port noReplay sending ended
  rw [ends] at ran
  have left : bare (s.dev.silent.copyOut x) =
      bare { s.dev with tx := s.dev.tx.erase x, now := { s.dev.now with ended := s.dev.now.ended ++ [(x.port, 1)] } } := by
    rw [Dev.copyOut, path]; rfl
  have sentOut : g.out = [{ kind := .frame, unit := x.port, vals := [1], bytes := x.frame ++ fcsBytes x.frame }] := by
    rw [out, Dev.copyOut, path]; rfl
  refine ⟨_, ran, ⟨rfl, rfl, rfl⟩, ?_, sentOut, countedPair_next (Dev.counts_updFrame (Dev.counts_copyOut good) _ _),
    countedPair_next (Dev.counts_updFrame (Dev.counts_copyOut sent) _ _), taken⟩
  exact Dev.bare_updFrame (objs.trans left) _ _

end Sys2Proof.Machine

namespace Sys2Proof.Machine
open Sys2Proof.Safety

/-! SUPPORT. What a write finds and leaves where no stored word is in error, and one that its checks refuse (R457, R517, R566). -/

/-- With no word in error and no journal recording, the effect of a write finds the device as it stood. -/
theorem Dev.writeBegun_plain {d : Dev} (plain : plainWords d = true) (copies : d.dictPoison = []) (unrecorded : d.n Od.JOURNAL_STATE 0 ≠ 2) (k : Clk)
    (o : Obj) (w : WriteOp) : d.writeBegun k o w = d := by
  obtain ⟨poison, -⟩ := plainWords_lists plain
  have whole : d.healWrite o w = d := by simp [Dev.healWrite, copies, poison]
  simp [Dev.writeBegun, whole, Dev.journalWriteOp, Dev.recording, unrecorded]

/-- A check of a write that names no word of a tree slot and no tick plan leaves nothing behind, refused or not (R49, R163). -/
theorem Dev.noteCheck_other {w : WriteOp} (slotless : w.idx * 256 + w.sub ∉ [0x341002, 0x341003, 0x341004]) (planless : planKey (w.idx * 256 + w.sub) = false)
    (d : Dev) (status : Nat) (f : Dev) : d.noteCheck w status f = d := by
  simp only [List.mem_cons, List.not_mem_nil, or_false] at slotless
  simp [Dev.noteCheck, slotless, planless]

/-- Such a write that its checks refuse changes nothing at a boundary (R566). -/
theorem State.rowAny_refused {s : State} (running : ready s = true) (boundary : s.clk.c = 0) {w : WriteOp}
    (slotless : w.idx * 256 + w.sub ∉ [0x341002, 0x341003, 0x341004]) (planless : planKey (w.idx * 256 + w.sub) = false)
    (bar : s.dev.silent.post w false s.mem s.dev.silent (s.dev.silent.stands w) ≠ 0) : ∃ t, s.rowAny w = .next t ∧ onlyWrites [] s t := by
  have refused : s.dev.silent.writeNow s.clk 2 w s.mem = (s.mem, s.dev.silent) := by
    simp [Dev.writeNow, bar, Dev.noteCheck_other slotless planless]
  exact ⟨_, State.rowAny_next running boundary refused, onlyWrites_of (Dev.wrote_atOpen (Dev.wrote_silent _ _))⟩

/-! SUPPORT. Writes of CLASS.DEFAULT_ACTION (R9, R158). -/

theorem objOf_defaultAction : objOf 0x3480 1 = some Od.CLASS_DEFAULT_ACTION := by decide +kernel

/-- The write of a port's default action. -/
def actionWrite (p : Nat) (data : List Byte) : WriteOp := { idx := 0x3480, inst := p, sub := 1, data := data }

theorem actionWrite_asksNothing (p : Nat) (data : List Byte) : (actionWrite p data).asksNothing := by
  simp only [WriteOp.asksNothing, actionWrite]; decide

theorem actionWrite_slotless (p : Nat) (data : List Byte) :
    (actionWrite p data).idx * 256 + (actionWrite p data).sub ∉ [0x341002, 0x341003, 0x341004] := by
  simp only [actionWrite]; decide

theorem actionWrite_object (p : Nat) (data : List Byte) :
    objOf (actionWrite p data).idx (actionWrite p data).sub = some Od.CLASS_DEFAULT_ACTION := objOf_defaultAction

/-- One or both words suit the object. -/
theorem actionWrite_pre {p : Nat} (port : p < 1024) {data : List Byte} (size : data.length = 8 ∨ data.length = 16) : (actionWrite p data).pre 2 = 0 := by
  rw [WriteOp.pre, actionWrite_object]
  rcases size with size | size <;>
    simp [actionWrite, Obj.hasInst, Od.CLASS_DEFAULT_ACTION, WriteOp.role, WriteOp.fits, Obj.isBytes, Obj.size, ObjTy.bytes, size, Nat.le_of_lt_succ port]

theorem actionWrite_elems (p : Nat) (data : List Byte) : (actionWrite p data).elems Od.CLASS_DEFAULT_ACTION =
    (List.range (data.length / 8)).map fun i => (i, ((ofBytesLE ((data.drop (8 * i)).take 8) : Nat) : Int)) := by
  simp [WriteOp.elems, actionWrite, Od.CLASS_DEFAULT_ACTION, ObjTy.bytes, ObjTy.decode]

/-- The words as the device keeps them: the reserved bits of A0 and of A1 read as zero (R9, R153). -/
theorem defaultAction_written (e : Nat) (old : Int) (v : Nat) :
    Od.CLASS_DEFAULT_ACTION.written e old v = ((if e = 0 then maskOut v 6 0 else maskOut v 9 0 : Nat) : Int) := by
  simp [Obj.written, Od.CLASS_DEFAULT_ACTION, Obj.kept9]

theorem Dev.store_oneActionWord (d : Dev) (p : Nat) {data : List Byte} (size : data.length = 8) :
    d.store Od.CLASS_DEFAULT_ACTION (actionWrite p data) = d.put Od.CLASS_DEFAULT_ACTION p (maskOut (ofBytesLE (data.take 8)) 6 0) := by
  rw [Dev.store, if_neg (by decide), actionWrite_elems, size]
  exact congrArg (d.set Od.CLASS_DEFAULT_ACTION p) (defaultAction_written _ _ _)

theorem Dev.store_bothActionWords (d : Dev) (p : Nat) {data : List Byte} (size : data.length = 16) :
    d.store Od.CLASS_DEFAULT_ACTION (actionWrite p data) = (d.put Od.CLASS_DEFAULT_ACTION p (maskOut (ofBytesLE (data.take 8)) 6 0)).put
      Od.CLASS_DEFAULT_ACTION p (maskOut (ofBytesLE ((data.drop 8).take 8)) 9 0) 1 := by
  rw [Dev.store, if_neg (by decide), actionWrite_elems, size]
  show (d.set _ p (Od.CLASS_DEFAULT_ACTION.written 0 _ (ofBytesLE (data.take 8) : Nat)) 0).set _ p _ 1 = _
  rw [defaultAction_written, defaultAction_written]
  rfl

theorem maskOut_le (x hi lo : Nat) : maskOut x hi lo ≤ x := Nat.sub_le _ _

theorem ofBytesLE_word (bs : List Byte) : ofBytesLE (bs.take 8) < 2 ^ 64 :=
  (ofBytesLE_lt _).trans_le (Nat.pow_le_pow_right (n := 256) (by decide) (List.length_take_le 8 bs))

theorem Dev.n_put_actionWord (d : Dev) (p e : Nat) {v : Nat} (word : v < 2 ^ 64) :
    (d.put Od.CLASS_DEFAULT_ACTION p v e).n Od.CLASS_DEFAULT_ACTION p e = v :=
  Dev.n_put_same _ _ _ _ _ (ObjTy.norm_u64_top (Nat.le_sub_one_of_lt word))

theorem Dev.n_put_secondActionWord (d : Dev) (p v : Nat) :
    (d.put Od.CLASS_DEFAULT_ACTION p v 1).n Od.CLASS_DEFAULT_ACTION p 0 = d.n Od.CLASS_DEFAULT_ACTION p 0 :=
  Dev.n_put_other _ _ _ _ _ _ _ _ (Obj.key_ne_elem _ (by decide))

/-- The A0 word that a write of one or both words leaves. -/
theorem Dev.n_store_action (d : Dev) (p : Nat) {data : List Byte} (size : data.length = 8 ∨ data.length = 16) :
    (d.store Od.CLASS_DEFAULT_ACTION (actionWrite p data)).n Od.CLASS_DEFAULT_ACTION p 0 = maskOut (ofBytesLE (data.take 8)) 6 0 := by
  have word := (maskOut_le _ 6 0).trans_lt (ofBytesLE_word data)
  rcases size with size | size
  · rw [Dev.store_oneActionWord d p size, Dev.n_put_actionWord _ _ _ word]
  · rw [Dev.store_bothActionWords d p size, Dev.n_put_secondActionWord, Dev.n_put_actionWord _ _ _ word]

/-- The reserved bits of A0 are none of its ACTION's. -/
theorem action_maskOut (a0 : Nat) : bits (maskOut a0 6 0) 63 60 = bits a0 63 60 := by
  simp only [bits, maskOut]; omega

/-- The other checks look at the ACTION alone (R158). -/
theorem actionWrite_post {p : Nat} {data : List Byte} (size : data.length = 8 ∨ data.length = 16) (m : Memory) {a : Dev} (present : a.portExists p = true)
    (d f : Dev) : d.post (actionWrite p data) false m a f = if bits (ofBytesLE (data.take 8)) 63 60 < 5 then 0 else 7 := by
  have value (e : Dev) : Dev.valueOk Od.CLASS_DEFAULT_ACTION (actionWrite p data) a e f =
      decide (bits (e.n Od.CLASS_DEFAULT_ACTION p 0) 63 60 < 5) := by
    simp [Dev.valueOk, Od.CLASS_DEFAULT_ACTION, actionWrite]
    all_goals rfl
  have state : d.stateBar Od.CLASS_DEFAULT_ACTION (actionWrite p data) false m a = 0 := by simp [Dev.stateBar, Od.CLASS_DEFAULT_ACTION]
  have plan : planKey (Od.CLASS_DEFAULT_ACTION.idx * 256 + Od.CLASS_DEFAULT_ACTION.sub) = false := by decide
  have timed : d.timeBar Od.CLASS_DEFAULT_ACTION (actionWrite p data) = 0 := by simp [Dev.timeBar, Od.CLASS_DEFAULT_ACTION]
  have notLive : Od.CLASS_DEFAULT_ACTION.live = false := rfl
  have here : a.portExists (actionWrite p data).inst = true := present
  rw [Dev.post, actionWrite_object]
  simp only [notLive, Bool.false_eq_true, if_false, value, Dev.n_store_action a p size, action_maskOut, state, plan, timed, here]
  by_cases known : bits (ofBytesLE (data.take 8)) 63 60 < 5 <;>
    simp [known, Od.CLASS_DEFAULT_ACTION, Obj.fixedBytes, Obj.isBytes, Obj.admits]

theorem Dev.store_action_touched (d : Dev) {p : Nat} (port : p < 1024) {data : List Byte} (size : data.length = 16) :
    d.touched [Od.CLASS_DEFAULT_ACTION] (d.store Od.CLASS_DEFAULT_ACTION (actionWrite p data)) := by
  have inst : p < 65536 := by omega
  rw [Dev.store_bothActionWords d p size]
  exact Dev.touched_put (Dev.touched_put (Dev.touched_refl _ d) (by simp) inst (by decide) _) (by simp) inst (by decide) _

/-- With no flip armed the write's values enter the store, and no more follows. -/
theorem Dev.effect_action (k : Clk) {d : Dev} (unarmed : d.on Od.INTEG_FLIP_ARM 0 = false) {p : Nat} (port : p < 1024) {data : List Byte}
    (size : data.length = 16) :
    d.effect k Od.CLASS_DEFAULT_ACTION (actionWrite p data) [actionWrite p data] [] 0 false = d.store Od.CLASS_DEFAULT_ACTION (actionWrite p data) := by
  have stored : d.effect k Od.CLASS_DEFAULT_ACTION (actionWrite p data) [actionWrite p data] [] 0 false =
      (d.store Od.CLASS_DEFAULT_ACTION (actionWrite p data)).flipAny 7 8 Od.CLASS_DEFAULT_ACTION p 0 := by
    simp [Dev.effect, Od.CLASS_DEFAULT_ACTION, actionWrite]
  rw [stored, Dev.flipAny_unarmed]
  exact (Dev.on_touched (d.store_action_touched port size) (by decide) (by decide) (by decide)).trans unarmed

/-- A write whose ACTION is 5 or above is refused (R158). -/
theorem exec_actionWrite_refused {s : State} (running : ready s = true) (boundary : s.clk.c = 0) {p : Nat} (present : s.dev.portExists p = true)
    {data : List Byte} (size : data.length = 8 ∨ data.length = 16) (unknown : 5 ≤ bits (ofBytesLE (data.take 8)) 63 60) :
    ∃ t, exec (.objectWrite 0x3480 p 1 0 data) s = .next t ∧ onlyWrites [] s t := by
  obtain ⟨-, -, planless⟩ := actionWrite_asksNothing p data
  refine State.rowAny_refused (w := actionWrite p data) running boundary (actionWrite_slotless p data) planless ?_
  rw [actionWrite_post (a := s.dev.silent) size _ present, if_neg (by omega)]
  decide

/-- A write of both words whose ACTION is below 5 leaves them in the store (R158). -/
theorem exec_actionWrite_stored {s : State} (running : ready s = true) (boundary : s.clk.c = 0) (plain : plainWords s.dev = true)
    (copies : s.dev.dictPoison = []) (c : calm s) (unrecorded : s.dev.n Od.JOURNAL_STATE 0 ≠ 2) {p : Nat} (port : p < 1024)
    (present : s.dev.portExists p = true) {data : List Byte} (size : data.length = 16) (known : bits (ofBytesLE (data.take 8)) 63 60 < 5) :
    exec (.objectWrite 0x3480 p 1 0 data) s =
      .next { s with dev := (s.dev.silent.store Od.CLASS_DEFAULT_ACTION (actionWrite p data)).atOpen } := by
  refine State.rowAny_next running boundary (Dev.writeNow_calm (actionWrite_asksNothing p data) (actionWrite_object p data)
    (actionWrite_pre port (.inr size)) ?_ ?_ (Dev.objsOnly_calm (Dev.touched_objsOnly (s.dev.silent.store_action_touched port size)) c))
  · exact (actionWrite_post (.inr size) _ (a := s.dev.silent) present _ _).trans (if_pos known)
  · rw [Dev.writeBegun_plain (d := s.dev.silent) plain copies unrecorded]
    exact Dev.effect_action s.clk (d := s.dev.silent) (plainWords_unarmed plain) port size

/-- Settles O6: a write's ACTION alone decides its checks (`actionWrite_post`); a write that passes stores its words. -/
theorem defaultActionWrites : Obligations.DefaultActionWrites := by
  intro s p running boundary plain copies c unrecorded port present
  refine ⟨fun data size unknown => exec_actionWrite_refused running boundary present size unknown, fun a0 a1 word0 word1 known => ?_⟩
  have size : (bytesLE 8 a0 ++ bytesLE 8 a1).length = 16 := by simp
  have first : ofBytesLE ((bytesLE 8 a0 ++ bytesLE 8 a1).take 8) = a0 := by
    rw [List.take_left' (bytesLE_length 8 a0), ofBytesLE_bytesLE]; exact Nat.mod_eq_of_lt word0
  have second : ofBytesLE (((bytesLE 8 a0 ++ bytesLE 8 a1).drop 8).take 8) = a1 := by
    rw [List.drop_left' (bytesLE_length 8 a0), List.take_of_length_le (bytesLE_length 8 a1).le, ofBytesLE_bytesLE]; exact Nat.mod_eq_of_lt word1
  have ran := exec_actionWrite_stored running boundary plain copies c unrecorded port present size (by rwa [first])
  have stored := s.dev.silent.store_bothActionWords p size
  rw [first, second] at stored
  rw [stored] at ran
  refine ⟨_, ran, onlyWrites_of (Dev.wrote_atOpen ?_), ?_, ?_⟩
  · exact Dev.wrote_put (Dev.wrote_put (Dev.wrote_silent _ _) _ _ _ _ (by simp)) _ _ _ _ (by simp)
  · exact (Dev.n_put_secondActionWord _ p _).trans (Dev.n_put_actionWord _ p 0 ((maskOut_le a0 6 0).trans_lt word0))
  · exact Dev.n_put_actionWord _ p 1 ((maskOut_le a1 9 0).trans_lt word1)

end Sys2Proof.Machine

namespace Sys2Proof.Machine
open Sys2Proof.Safety

/-! SUPPORT. Words of tree memory as DATA writes store them (R162, R168). -/

/-- No copy of a word of the tree is in error, and nothing will bring one into error. -/
def Dev.treeWhole (d : Dev) : Prop := plainWords d = true ∧ d.treePoison = []

theorem Dev.objsOnly_tree {d e : Dev} (h : d.objsOnly e) : e.tree = d.tree := by
  have same := congrArg Dev.tree (show bare e = bare d from h)
  exact same

theorem Dev.objsOnly_treePoison {d e : Dev} (h : d.objsOnly e) : e.treePoison = d.treePoison := by
  have same := congrArg Dev.treePoison (show bare e = bare d from h)
  exact same

theorem Dev.objsOnly_treeWord {d e : Dev} (h : d.objsOnly e) (x w : Nat) : e.treeWord x w = d.treeWord x w := by
  rw [Dev.treeWord, Dev.objsOnly_tree h]; rfl

/-- Writes of other objects than INTEG.FLIP_ARM bring no copy into error. -/
theorem Dev.treeWhole_touched {objs : List Obj} {d e : Dev} (h : d.touched objs e)
    (apart : ∀ q ∈ objs, Od.INTEG_FLIP_ARM.idx * 256 + Od.INTEG_FLIP_ARM.sub ≠ q.idx * 256 + q.sub) (whole : d.treeWhole) : e.treeWhole := by
  obtain ⟨plain, sound⟩ := whole
  exact ⟨Dev.plainWords_touched h apart plain, (Dev.objsOnly_treePoison (Dev.touched_objsOnly h)).trans sound⟩

/-- There a store need not visit the copies one by one (R168, R469). -/
theorem Dev.treeWhole.copiesAlike {d : Dev} (whole : d.treeWhole) : (d.treePoison.isEmpty && d.flipped.isEmpty && !d.on Od.INTEG_FLIP_ARM 0) = true := by
  obtain ⟨plain, sound⟩ := whole
  rw [sound, (plainWords_lists plain).2, plainWords_unarmed plain]; rfl

/-- Marking the retained copies of parked sori writes their marks alone. -/
theorem Dev.treeStale_touched (d : Dev) : d.touched [Rg.TREE_STALE] d.treeStale := by
  refine Dev.each_keeps (P := d.touched [Rg.TREE_STALE]) _ (fun e x member marked => ?_) (Dev.touched_refl _ d)
  have sorus : x < 8 := List.mem_range.mp (List.mem_filter.mp member).1
  exact Dev.touched_put marked (by simp) (by omega) (by decide) _

theorem Dev.lineTold_touched (d : Dev) {x line : Nat} (slot : x < 2) (inside : line < 98304) (v : Nat) : d.touched [Rg.TREE_TOLD] (d.lineTold x line v) := by
  unfold Dev.lineTold
  dsimp only
  split
  · exact Dev.touched_refl _ d
  · exact Dev.touched_put (Dev.touched_refl _ d) (by simp) (by omega) (by omega) _

/-- The tree of the device with one word of a slot replaced. -/
def Dev.treeSet (x : Nat) (w : Nat × Nat) (d : Dev) : Dev :=
  { d with tree := if w.2 = 0 then d.tree.del (x * slotWords + w.1) else d.tree.put (x * slotWords + w.1) w.2 }

theorem Dev.treeWord_treeSet_same (d : Dev) (x : Nat) (w : Nat × Nat) : (d.treeSet x w).treeWord x w.1 = w.2 := by
  unfold Dev.treeWord Dev.treeSet
  simp only [slotWords]
  split
  · next zero => rw [Store.find_del_same, zero]; rfl
  · rw [Store.find_put_same]; rfl

theorem Dev.treeWord_treeSet_other (d : Dev) {x y a : Nat} {w : Nat × Nat} (other : x * slotWords + w.1 ≠ y * slotWords + a) :
    (d.treeSet x w).treeWord y a = d.treeWord y a := by
  unfold Dev.treeWord Dev.treeSet
  simp only [slotWords] at *
  split
  · rw [Store.find_del_other _ other]
  · rw [Store.find_put_other _ _ other]

section
variable {d : Dev} (whole : d.treeWhole) {x : Nat} (slot : x < 2)
include whole slot

/-- Where no copy is in error a word is stored in the tree, and its line's report is open again. -/
theorem Dev.treeStore_touched {w : Nat × Nat} (inside : w.1 < slotWords) : (d.treeSet x w).touched [Rg.TREE_TOLD] (d.treeStore x w) := by
  have line : w.1 / 4 < 98304 := by simp only [slotWords] at inside; omega
  have told := (d.treeSet x w).lineTold_touched slot line 0
  have stored : d.treeStore x w = (d.treeSet x w).lineTold x (w.1 / 4) 0 := if_pos (Dev.treeWhole_touched told (by decide) whole).copiesAlike
  rwa [stored]

theorem Dev.treeStore_whole {w : Nat × Nat} (inside : w.1 < slotWords) : (d.treeStore x w).treeWhole :=
  Dev.treeWhole_touched (d := d.treeSet x w) (Dev.treeStore_touched whole slot inside) (by decide) whole

theorem Dev.treeWord_treeStore_same {w : Nat × Nat} (inside : w.1 < slotWords) : (d.treeStore x w).treeWord x w.1 = w.2 :=
  (Dev.objsOnly_treeWord (Dev.touched_objsOnly (Dev.treeStore_touched whole slot inside)) x w.1).trans (d.treeWord_treeSet_same x w)

theorem Dev.treeWord_treeStore_other {w : Nat × Nat} (inside : w.1 < slotWords) {y a : Nat} (other : x * slotWords + w.1 ≠ y * slotWords + a) :
    (d.treeStore x w).treeWord y a = d.treeWord y a :=
  (Dev.objsOnly_treeWord (Dev.touched_objsOnly (Dev.treeStore_touched whole slot inside)) y a).trans (d.treeWord_treeSet_other other)

/-- Words stored in turn leave every word they do not name. -/
theorem Dev.treeWord_each_other {l : List (Nat × Nat)} (inside : ∀ w ∈ l, w.1 < slotWords) {y a : Nat}
    (other : ∀ w ∈ l, x * slotWords + w.1 ≠ y * slotWords + a) : (d.each l (Dev.treeStore x)).treeWord y a = d.treeWord y a := by
  induction l generalizing d with
  | nil => rfl
  | cons w l ih =>
    obtain ⟨here, later⟩ := List.forall_mem_cons.mp inside
    obtain ⟨otherHere, otherLater⟩ := List.forall_mem_cons.mp other
    rw [Dev.each_cons, ih (Dev.treeStore_whole whole slot here) later otherLater, Dev.treeWord_treeStore_other whole slot here otherHere]

/-- Words stored in turn at different places each read back. -/
theorem Dev.treeWord_each_stored {l : List (Nat × Nat)} (inside : ∀ w ∈ l, w.1 < slotWords) (distinct : (l.map Prod.fst).Nodup) {w : Nat × Nat}
    (stored : w ∈ l) : (d.each l (Dev.treeStore x)).treeWord x w.1 = w.2 := by
  induction l generalizing d with
  | nil => exact absurd stored List.not_mem_nil
  | cons v l ih =>
    obtain ⟨here, later⟩ := List.forall_mem_cons.mp inside
    obtain ⟨fresh, distinct⟩ := List.nodup_cons.mp distinct
    have whole' := Dev.treeStore_whole whole slot here
    rw [Dev.each_cons]
    rcases List.mem_cons.mp stored with rfl | stored
    · have other : ∀ u ∈ l, x * slotWords + u.1 ≠ x * slotWords + w.1 := fun u hu same =>
        fresh (List.mem_map.mpr ⟨u, hu, Nat.add_left_cancel same⟩)
      rw [Dev.treeWord_each_other whole' slot later other, Dev.treeWord_treeStore_same whole slot here]
    · exact ih whole' later distinct stored

end

/-! SUPPORT. The words of a DATA write and where they go (R162). -/

theorem wordsLE_length (bs : List Byte) : (wordsLE bs).length = bs.length / 8 := by simp [wordsLE]

theorem wordsLE_getElem? {bs : List Byte} {j : Nat} (hj : j < bs.length / 8) : (wordsLE bs)[j]? = some (ofBytesLE ((bs.drop (8 * j)).take 8)) := by
  simp [wordsLE, hj]

/-- Words take consecutive places from an offset on. -/
def placedAt (o : Nat) (ws : List Nat) : List (Nat × Nat) := ws.zipIdx.map fun x => (o + x.2, x.1)

theorem placedAt_places (o : Nat) (ws : List Nat) : (placedAt o ws).map Prod.fst = (List.range ws.length).map (o + ·) := by
  rw [placedAt, List.map_map, List.range_eq_range', ← List.zipIdx_map_snd 0 ws, List.map_map]; rfl

theorem placedAt_nodup (o : Nat) (ws : List Nat) : ((placedAt o ws).map Prod.fst).Nodup := by
  rw [placedAt_places]
  exact List.nodup_range.map fun _ _ => Nat.add_left_cancel

theorem placedAt_inside {o : Nat} {ws : List Nat} {w : Nat × Nat} (placed : w ∈ placedAt o ws) : w.1 < o + ws.length := by
  have place : w.1 ∈ (List.range ws.length).map (o + ·) := placedAt_places o ws ▸ List.mem_map_of_mem placed
  obtain ⟨j, inside, same⟩ := List.mem_map.mp place
  have := List.mem_range.mp inside
  omega

theorem mem_placedAt {o j v : Nat} {ws : List Nat} (word : ws[j]? = some v) : (o + j, v) ∈ placedAt o ws :=
  List.mem_map.mpr ⟨(v, j), List.mk_mem_zipIdx_iff_getElem?.mpr word, rfl⟩

/-! SUPPORT. Objects of a tree slot. -/

/-- A write of one object of a slot changes no other. -/
theorem Dev.n_put_slot (d : Dev) {o q : Obj} {x e f : Nat} (slot : x < 2) (other : o.idx * 256 + o.sub ≠ q.idx * 256 + q.sub) (he : e < 65536)
    (hf : f < 65536) (v : Nat) : (d.put o x v e).n q x f = d.n q x f :=
  Dev.n_put_other _ _ _ _ _ _ _ _ (Obj.key_ne other (by omega) (by omega) he hf)

theorem Dev.slotBar_le (x : Nat) (d : Dev) : d.slotBar x ≤ 4 := by
  unfold Dev.slotBar
  split_ifs <;> decide

theorem below_two {x : Nat} (slot : x < 2) : decide (x < 2) = true := decide_eq_true slot

/-! SUPPORT. A swap of slots is staged (R165). -/

theorem exec_classSwap_staged {s : State} (running : ready s = true) {x : Nat} (slot : x < 2) (named : s.dev.swapOk x = true)
    (awake : s.dev.idle = false) :
    ∃ t, exec (.classSwap x) s = .next t ∧ onlyWrites [] { s with
      dev := s.dev.stage { tick := s.clk.tick + 2, ops := [{ idx := 0x3400, inst := 0, sub := 2, data := bytesLE 1 x }] } } t := by
  have may : (s.dev.silent.swapOk x && !s.dev.silent.idle) = true := by
    show (s.dev.swapOk x && !s.dev.idle) = true
    rw [named, awake]; rfl
  exact ⟨_, State.runIf_eq running (below_two slot) (if_pos may), ⟨rfl, rfl, rfl⟩, rfl, fun _ _ _ _ => rfl⟩

/-! SUPPORT. What bars a write of a slot, DATA or SEAL (R163). -/

/-- A write of slot x that does f where nothing bars it: in idle it is refused, in a barred slot it sets the reason. -/
def Dev.slotWrite (x : Nat) (f : Dev → Dev) (d : Dev) : Dev :=
  if d.idle then d else if d.slotBar x ≠ 0 then d.put Od.CLASS_SLOT_LAST_REFUSAL x (d.slotBar x) else f d

theorem Dev.slotWrite_open {d : Dev} {x : Nat} (awake : d.idle = false) (unbarred : d.slotBar x = 0) (f : Dev → Dev) : d.slotWrite x f = f d := by
  simp [Dev.slotWrite, awake, unbarred]

theorem Dev.slotWrite_barred {d : Dev} {x : Nat} (awake : d.idle = false) (barred : d.slotBar x ≠ 0) (f : Dev → Dev) :
    d.slotWrite x f = d.put Od.CLASS_SLOT_LAST_REFUSAL x (d.slotBar x) := by
  simp [Dev.slotWrite, awake, barred]

theorem exec_slotDataWrite_next {s : State} (running : ready s = true) (boundary : s.clk.c = 0) {x : Nat} (slot : x < 2) (bs : List Byte) :
    exec (.slotDataWrite x bs) s = .next { s with
      dev := (s.dev.silent.slotWrite x fun d => if slotFits (d.n Od.CLASS_SLOT_OFFSET x) bs.length then d.slotData x bs else d).atOpen } :=
  State.rowD_eq running boundary (below_two slot) [wr Od.CLASS_SLOT_DATA x bs]
    (f := fun _ d => d.slotWrite x fun d => if slotFits (d.n Od.CLASS_SLOT_OFFSET x) bs.length then d.slotData x bs else d) rfl

theorem exec_slotSeal_next {s : State} (running : ready s = true) (boundary : s.clk.c = 0) {x : Nat} (slot : x < 2) {rules lines crc : Nat}
    (passes : sealOk rules lines crc = true) :
    exec (.slotSeal x rules lines crc) s = .next { s with
      dev := (s.dev.silent.slotWrite x fun d => d.slotSeal s.clk x rules lines (crc % 2 ^ 32)).atOpen } :=
  State.rowD_eq running boundary (ok := decide (x < 2) && sealOk rules lines crc) (by rw [below_two slot, passes]; rfl)
    [wr Od.CLASS_SLOT_SEAL x (bytesLE 4 rules ++ bytesLE 4 lines ++ bytesLE 4 crc)]
    (f := fun k d => d.slotWrite x fun d => d.slotSeal k x rules lines (crc % 2 ^ 32)) rfl

/-! SUPPORT. DATA writes of a slot (R162). -/

/-- A DATA write applies: its words in their places, the offset behind them, the slot LOADING. -/
theorem Dev.slotData_eq (d : Dev) (x : Nat) {bs : List Byte} (nonempty : wordsLE bs ≠ []) :
    d.slotData x bs = ((d.each (placedAt (d.n Od.CLASS_SLOT_OFFSET x) (wordsLE bs)) (Dev.treeStore x)).treeStale.put Od.CLASS_SLOT_OFFSET x
      (d.n Od.CLASS_SLOT_OFFSET x + (wordsLE bs).length)).put Od.CLASS_SLOT_STATE x slLOADING := if_neg (by simpa using nonempty)

/-- After it the tree holds what storing the words in turn leaves. -/
theorem Dev.treeWord_slotData (d : Dev) (x : Nat) {bs : List Byte} (nonempty : wordsLE bs ≠ []) (y a : Nat) :
    (d.slotData x bs).treeWord y a = (d.each (placedAt (d.n Od.CLASS_SLOT_OFFSET x) (wordsLE bs)) (Dev.treeStore x)).treeWord y a := by
  rw [Dev.slotData_eq d x nonempty]
  exact Dev.objsOnly_treeWord (Dev.objsOnly_put (Dev.objsOnly_put (Dev.touched_objsOnly (Dev.treeStale_touched _)) _ _ _ _) _ _ _ _) y a

theorem Dev.n_slotData_offset (d : Dev) {x : Nat} (slot : x < 2) {bs : List Byte} (nonempty : wordsLE bs ≠ [])
    (fits : d.n Od.CLASS_SLOT_OFFSET x + (wordsLE bs).length ≤ slotWords) :
    (d.slotData x bs).n Od.CLASS_SLOT_OFFSET x = d.n Od.CLASS_SLOT_OFFSET x + (wordsLE bs).length := by
  rw [Dev.slotData_eq d x nonempty, Dev.n_put_slot _ slot (by decide) (by decide) (by decide)]
  exact Dev.n_put_same _ _ _ _ _ (ObjTy.norm_u32_top (fits.trans (by decide)))

theorem Dev.n_slotData_state (d : Dev) (x : Nat) {bs : List Byte} (nonempty : wordsLE bs ≠ []) :
    (d.slotData x bs).n Od.CLASS_SLOT_STATE x = slLOADING := by
  rw [Dev.slotData_eq d x nonempty]
  exact Dev.n_put_same _ _ _ _ _ rfl

section
variable {d : Dev} (whole : d.treeWhole) {x : Nat} (slot : x < 2) {bs : List Byte} {n : Nat} (size : bs.length = 8 * n)
  (fits : d.n Od.CLASS_SLOT_OFFSET x + n ≤ slotWords)
include whole slot size fits

theorem Dev.treeWord_slotData_stored {j : Nat} (hj : j < n) :
    (d.slotData x bs).treeWord x (d.n Od.CLASS_SLOT_OFFSET x + j) = ofBytesLE ((bs.drop (8 * j)).take 8) := by
  have words : bs.length / 8 = n := by omega
  have placed := mem_placedAt (o := d.n Od.CLASS_SLOT_OFFSET x) (wordsLE_getElem? (words ▸ hj))
  have nonempty : wordsLE bs ≠ [] := fun none => by simp [none, placedAt] at placed
  have inside : ∀ w ∈ placedAt (d.n Od.CLASS_SLOT_OFFSET x) (wordsLE bs), w.1 < slotWords := fun w hw =>
    (placedAt_inside hw).trans_le (by rwa [wordsLE_length, words])
  exact (d.treeWord_slotData x nonempty x _).trans (Dev.treeWord_each_stored whole slot inside (placedAt_nodup _ _) placed)

theorem Dev.treeWord_slotData_otherSlot (nonempty : wordsLE bs ≠ []) {w : Nat} (hw : w < slotWords) :
    (d.slotData x bs).treeWord (1 - x) w = d.treeWord (1 - x) w := by
  have inside : ∀ v ∈ placedAt (d.n Od.CLASS_SLOT_OFFSET x) (wordsLE bs), v.1 < slotWords := fun v hv =>
    (placedAt_inside hv).trans_le (by rw [wordsLE_length]; omega)
  refine (d.treeWord_slotData x nonempty _ _).trans (Dev.treeWord_each_other whole slot inside fun v hv => ?_)
  have := inside v hv
  simp only [slotWords] at this hw ⊢
  omega

end

/-- Data of whole words that the slot has room for. -/
theorem slotFits_words {o n b : Nat} (size : b = 8 * n) (fits : o + n ≤ slotWords) : slotFits o b = true := by
  have words : b / 8 = n := by omega
  simp [slotFits, words, fits]
  omega

theorem exec_slotDataWrite_loads {s : State} (running : ready s = true) (boundary : s.clk.c = 0) (whole : s.dev.treeWhole) {x : Nat} (slot : x < 2)
    {bs : List Byte} {n : Nat} (size : bs.length = 8 * n) (more : 0 < n) (awake : s.dev.idle = false) (unbarred : s.dev.slotBar x = 0)
    (fits : s.dev.n Od.CLASS_SLOT_OFFSET x + n ≤ slotWords) :
    ∃ t, exec (.slotDataWrite x bs) s = .next t ∧ outsideKept s t ∧ t.dev.n Od.CLASS_SLOT_OFFSET x = s.dev.n Od.CLASS_SLOT_OFFSET x + n ∧
      t.dev.n Od.CLASS_SLOT_STATE x = slLOADING ∧
      (∀ j, j < n → t.dev.treeWord x (s.dev.n Od.CLASS_SLOT_OFFSET x + j) = ofBytesLE ((bs.drop (8 * j)).take 8)) ∧
      ∀ w, w < slotWords → t.dev.treeWord (1 - x) w = s.dev.treeWord (1 - x) w := by
  have words : (wordsLE bs).length = n := by rw [wordsLE_length]; omega
  have nonempty : wordsLE bs ≠ [] := List.ne_nil_of_length_pos (words ▸ more)
  have ran := exec_slotDataWrite_next running boundary slot bs
  rw [Dev.slotWrite_open (d := s.dev.silent) awake unbarred, if_pos (slotFits_words (o := s.dev.silent.n Od.CLASS_SLOT_OFFSET x) size fits)] at ran
  exact ⟨_, ran, ⟨rfl, rfl, rfl⟩, (s.dev.silent.n_slotData_offset slot nonempty (words.symm ▸ fits)).trans (congrArg _ words),
    s.dev.silent.n_slotData_state x nonempty, fun _ hj => Dev.treeWord_slotData_stored (d := s.dev.silent) whole slot size fits hj,
    fun _ hw => Dev.treeWord_slotData_otherSlot (d := s.dev.silent) whole slot size fits nonempty hw⟩

/-- DATA for a slot that takes none sets the reason alone (R163). -/
theorem exec_slotDataWrite_barred {s : State} (running : ready s = true) (boundary : s.clk.c = 0) {x : Nat} (slot : x < 2) (bs : List Byte)
    (awake : s.dev.idle = false) (barred : s.dev.slotBar x ≠ 0) :
    ∃ t, exec (.slotDataWrite x bs) s = .next t ∧ onlyWrites [Od.CLASS_SLOT_LAST_REFUSAL.key x 0] s t ∧
      t.dev.n Od.CLASS_SLOT_LAST_REFUSAL x = s.dev.slotBar x := by
  have ran := exec_slotDataWrite_next running boundary slot bs
  rw [Dev.slotWrite_barred (d := s.dev.silent) awake barred] at ran
  refine ⟨_, ran, onlyWrites_of (Dev.wrote_atOpen (Dev.wrote_put (Dev.wrote_silent _ _) _ _ _ _ (by simp))), ?_⟩
  have := Dev.slotBar_le x s.dev.silent
  exact Dev.n_put_same _ _ _ _ _ (by simp only [Od.CLASS_SLOT_LAST_REFUSAL, ObjTy.norm]; omega)

/-! SUPPORT. SEAL writes of a slot (R164). -/

/-- Clearing an object leaves every other object as it was. -/
theorem Dev.n_clearObj_other (d : Dev) {o q : Obj} (other : q.idx * 256 + q.sub ≠ o.idx * 256 + o.sub) {j f : Nat} (hj : j < 65536) (hf : f < 65536) :
    (d.clearObj o).n q j f = d.n q j f := by
  have address : keyObj (q.key j f) = q.idx * 256 + q.sub := by simp only [keyObj, Obj.key]; omega
  simp only [Dev.n, Dev.get, Store.rd, Dev.clearObj]
  rw [Store.find_filter _ _ _ (by intro v; simpa [address] using other)]

/-- The four objects of the rule counters (R173). -/
def ruleObjs : List Obj := [Od.CLASS_RULE_HITS0, Od.CLASS_RULE_HITS1, Od.CLASS_RULE_HITS2, Od.CLASS_RULE_HITS3]

theorem ruleObj_mem (x rule : Nat) : (ruleObj x rule).1 ∈ ruleObjs := by
  unfold ruleObj ruleObjs
  dsimp only
  split_ifs <;> simp

theorem Dev.n_zeroRules_other (d : Dev) (x : Nat) {q : Obj} (other : ∀ o ∈ ruleObjs, q.idx * 256 + q.sub ≠ o.idx * 256 + o.sub) {j f : Nat}
    (hj : j < 65536) (hf : f < 65536) : (d.zeroRules x).n q j f = d.n q j f :=
  (Dev.n_clearObj_other _ (other _ (ruleObj_mem x 65536)) hj hf).trans (Dev.n_clearObj_other d (other _ (ruleObj_mem x 0)) hj hf)

/-- The slot's objects as a SEAL write sets them. -/
def Dev.sealSet (k : Clk) (x rules lines crc : Nat) (d : Dev) : Dev :=
  ((((d.put Od.CLASS_SLOT_SEAL x rules 0).put Od.CLASS_SLOT_SEAL x lines 1).put Od.CLASS_SLOT_SEAL x crc 2).put Od.CLASS_SLOT_STATE x
    slCHECKING).put Rg.SEAL_CLOCK x (k.raw / 64 + 1)

/-- The objects whose values it sets. -/
def sealObjs : List Obj := [Od.CLASS_SLOT_SEAL, Od.CLASS_SLOT_STATE, Rg.SEAL_CLOCK]

theorem sealObjs_apart : ∀ q ∈ sealObjs, ∀ o ∈ Rg.TREE_STALE :: ruleObjs, q.idx * 256 + q.sub ≠ o.idx * 256 + o.sub := by decide

/-- What else a SEAL write does, to the rule counters and to the marks of retained copies, leaves these objects as set. -/
theorem Dev.n_slotSeal (k : Clk) {x : Nat} (slot : x < 2) (rules lines crc : Nat) (d : Dev) {q : Obj} (known : q ∈ sealObjs) {f : Nat} (hf : f < 65536) :
    (d.slotSeal k x rules lines crc).n q x f = (d.sealSet k x rules lines crc).n q x f := by
  have inst : x < 65536 := by omega
  obtain ⟨unmarked, uncounted⟩ := List.forall_mem_cons.mp (sealObjs_apart q known)
  exact (Dev.n_touched (Dev.treeStale_touched _) inst hf (List.forall_mem_singleton.mpr unmarked)).trans
    (Dev.n_zeroRules_other _ x uncounted inst hf)

theorem Dev.tree_slotSeal (k : Clk) (x rules lines crc : Nat) (d : Dev) : (d.slotSeal k x rules lines crc).tree = d.tree := by
  have same := Dev.objsOnly_tree (Dev.touched_objsOnly (Dev.treeStale_touched ((d.sealSet k x rules lines crc).zeroRules x)))
  exact same

/-- A write of one word of a SEAL changes no other. -/
theorem Dev.n_put_seal_other (d : Dev) (x v : Nat) {e f : Nat} (other : e ≠ f) :
    (d.put Od.CLASS_SLOT_SEAL x v e).n Od.CLASS_SLOT_SEAL x f = d.n Od.CLASS_SLOT_SEAL x f :=
  Dev.n_put_other _ _ _ _ _ _ _ _ (Obj.key_ne_elem _ other)

theorem Dev.n_put_seal_same (d : Dev) (x e : Nat) {v : Nat} (word : v < 2 ^ 32) : (d.put Od.CLASS_SLOT_SEAL x v e).n Od.CLASS_SLOT_SEAL x e = v :=
  Dev.n_put_same _ _ _ _ _ (ObjTy.norm_u32_top (Nat.le_sub_one_of_lt word))

section
variable (k : Clk) {x : Nat} (slot : x < 2) (rules lines crc : Nat) (d : Dev)
include slot

theorem Dev.n_slotSeal_state : (d.slotSeal k x rules lines crc).n Od.CLASS_SLOT_STATE x = slCHECKING := by
  rw [Dev.n_slotSeal k slot rules lines crc d (by simp [sealObjs]) (by decide), Dev.sealSet, Dev.n_put_slot _ slot (by decide) (by decide) (by decide)]
  exact Dev.n_put_same _ _ _ _ _ rfl

theorem Dev.n_slotSeal_clock : (d.slotSeal k x rules lines crc).n Rg.SEAL_CLOCK x = k.raw / 64 + 1 :=
  (Dev.n_slotSeal k slot rules lines crc d (by simp [sealObjs]) (by decide)).trans (Dev.n_put_same _ _ _ _ _ rfl)

end

/-- The counts of a SEAL that passes are within a slot. -/
theorem sealOk_counts {rules lines crc : Nat} (passes : sealOk rules lines crc = true) : rules ≤ 98304 ∧ lines ≤ 98304 := by
  simp only [sealOk, Bool.and_eq_true, decide_eq_true_eq] at passes
  obtain ⟨⟨counts, -⟩, -⟩ := passes
  exact counts

/-- The three words of the seal stand as written. -/
theorem Dev.n_slotSeal_seal (k : Clk) {x : Nat} (slot : x < 2) {rules lines crc : Nat} (fewRules : rules ≤ 98304) (fewLines : lines ≤ 98304)
    (word : crc < 2 ^ 32) (d : Dev) : (d.slotSeal k x rules lines crc).n Od.CLASS_SLOT_SEAL x 0 = rules ∧
      (d.slotSeal k x rules lines crc).n Od.CLASS_SLOT_SEAL x 1 = lines ∧ (d.slotSeal k x rules lines crc).n Od.CLASS_SLOT_SEAL x 2 = crc := by
  have kept (e : Nat) (he : e < 65536) : (d.slotSeal k x rules lines crc).n Od.CLASS_SLOT_SEAL x e =
      (((d.put Od.CLASS_SLOT_SEAL x rules 0).put Od.CLASS_SLOT_SEAL x lines 1).put Od.CLASS_SLOT_SEAL x crc 2).n Od.CLASS_SLOT_SEAL x e := by
    rw [Dev.n_slotSeal k slot rules lines crc d (by simp [sealObjs]) he, Dev.sealSet, Dev.n_put_slot _ slot (by decide) (by decide) he,
      Dev.n_put_slot _ slot (by decide) (by decide) he]
  rw [kept 0 (by decide), kept 1 (by decide), kept 2 (by decide)]
  refine ⟨?_, ?_, Dev.n_put_seal_same _ _ _ word⟩
  · rw [Dev.n_put_seal_other _ _ _ (by decide), Dev.n_put_seal_other _ _ _ (by decide), Dev.n_put_seal_same _ _ _ (by omega)]
  · rw [Dev.n_put_seal_other _ _ _ (by decide), Dev.n_put_seal_same _ _ _ (by omega)]

theorem exec_slotSeal_checks {s : State} (running : ready s = true) (boundary : s.clk.c = 0) {x : Nat} (slot : x < 2) {rules lines crc : Nat}
    (awake : s.dev.idle = false) (unbarred : s.dev.slotBar x = 0) (passes : sealOk rules lines crc = true) (word : crc < 2 ^ 32) :
    ∃ t, exec (.slotSeal x rules lines crc) s = .next t ∧ outsideKept s t ∧ t.dev.n Od.CLASS_SLOT_STATE x = slCHECKING ∧
      t.dev.n Od.CLASS_SLOT_SEAL x 0 = rules ∧ t.dev.n Od.CLASS_SLOT_SEAL x 1 = lines ∧ t.dev.n Od.CLASS_SLOT_SEAL x 2 = crc ∧
      t.dev.n Rg.SEAL_CLOCK x = s.clk.raw / 64 + 1 ∧ t.dev.tree = s.dev.tree := by
  obtain ⟨fewRules, fewLines⟩ := sealOk_counts passes
  have ran := exec_slotSeal_next running boundary slot passes
  rw [Dev.slotWrite_open (d := s.dev.silent) awake unbarred, Nat.mod_eq_of_lt word] at ran
  have state := Dev.n_slotSeal_state s.clk slot rules lines crc s.dev.silent
  have clock := Dev.n_slotSeal_clock s.clk slot rules lines crc s.dev.silent
  have tree := Dev.tree_slotSeal s.clk x rules lines crc s.dev.silent
  obtain ⟨first, second, third⟩ := Dev.n_slotSeal_seal s.clk slot fewRules fewLines word s.dev.silent
  generalize s.dev.silent.slotSeal s.clk x rules lines crc = e at ran state clock tree first second third
  exact ⟨_, ran, ⟨rfl, rfl, rfl⟩, state, first, second, third, clock, tree⟩

/-! SUPPORT. The end of a seal check (R164). -/

theorem exec_sealCheckEnd_decides {s : State} (running : ready s = true) {x : Nat} (slot : x < 2) (checked : s.dev.sealChecked s.clk x = true) :
    ∃ t, exec (.sealCheckEnd x) s = .next t ∧ onlyWrites [Od.CLASS_SLOT_COMPUTED_CRC.key x 0, Od.CLASS_SLOT_STATE.key x 0] s t ∧
      t.dev.get Od.CLASS_SLOT_COMPUTED_CRC x = Od.CLASS_SLOT_COMPUTED_CRC.ty.norm (s.dev.slotCrc x : Nat) ∧
      t.dev.n Od.CLASS_SLOT_STATE x = if s.dev.slotCrc x = s.dev.n Od.CLASS_SLOT_SEAL x 2 then slREADY else slFAILED := by
  refine ⟨_, State.runIf_eq running (below_two slot) (if_pos checked),
    onlyWrites_of (Dev.wrote_put (Dev.wrote_put (Dev.wrote_silent _ _) _ _ _ _ (by simp)) _ _ _ _ (by simp)), ?_, ?_⟩
  · refine (Dev.get_put_other _ _ _ _ _ _ _ _ (Obj.key_ne (by decide) ?_ ?_ (by decide) (by decide))).trans (Dev.get_put_same _ _ _ _ _) <;> omega
  · refine Dev.n_put_same _ _ _ _ _ ?_
    split <;> rfl

/-- Settles O37, command by command: the words of data are stored in turn at different places (`Dev.treeWord_each_stored`), and what a seal's objects
are set to its other effects leave (`Dev.n_slotSeal`). -/
theorem treeSlotsLoad : Obligations.TreeSlotsLoad := by
  intro s x running plain sound slot
  refine ⟨exec_classSwap_staged running slot, ?_, ?_, ?_, exec_sealCheckEnd_decides running slot⟩
  · intro bs n boundary size more awake unbarred fits
    exact exec_slotDataWrite_loads running boundary ⟨plain, sound⟩ slot size more awake unbarred fits
  · intro bs boundary awake barred
    exact exec_slotDataWrite_barred running boundary slot bs awake barred
  · intro rules lines crc boundary awake unbarred passes word
    exact exec_slotSeal_checks running boundary slot awake unbarred passes word

end Sys2Proof.Machine

namespace Sys2Proof.Machine
open Sys2Proof.Safety

/-! SUPPORT. What the exact-match table holds depends on no object, what a bucket holds on the hash seed alone (R177, R189). -/

section
variable {d e : Dev} (objs : d.objsOnly e)
include objs

theorem Dev.objsOnly_em : e.em = d.em := by
  have same := congrArg Dev.em (show bare e = bare d from objs)
  exact same

theorem Dev.objsOnly_emPend : e.emPend = d.emPend := by
  have same := congrArg Dev.emPend (show bare e = bare d from objs)
  exact same

theorem Dev.objsOnly_flipped : e.flipped = d.flipped := by
  have same := congrArg Dev.flipped (show bare e = bare d from objs)
  exact same

theorem Dev.objsOnly_emPoison : e.emPoison = d.emPoison := by
  have same := congrArg Dev.emPoison (show bare e = bare d from objs)
  exact same

theorem Dev.objsOnly_hbmPoison : e.hbmPoison = d.hbmPoison := by
  have same := congrArg Dev.hbmPoison (show bare e = bare d from objs)
  exact same

theorem Dev.objsOnly_emWord (p w : Nat) : e.emWord p w = d.emWord p w := by rw [Dev.emWord, Dev.objsOnly_em objs]; rfl

end

/-! SUPPORT. A write of the shadow (R206). -/

/-- The ranges that n entries from entry o on lie in are noted as changed in this tick. -/
def Dev.shadowNoted (k : Clk) (o n : Nat) (d : Dev) : Dev :=
  d.each (List.range n) fun d i => d.put Rg.SHADOW_CHANGED ((o + i) / 16384) k.tick ((o + i) % 16384 / 512)

theorem Dev.shadowNoted_touched (k : Clk) {o n : Nat} (room : o + n ≤ 4194304) (d : Dev) : d.touched [Rg.SHADOW_CHANGED] (d.shadowNoted k o n) := by
  refine Dev.each_keeps (P := d.touched [Rg.SHADOW_CHANGED]) _ (fun e i member noted => ?_) (Dev.touched_refl _ d)
  have entry := List.mem_range.mp member
  exact Dev.touched_put noted (by simp) (by omega) (by omega) _

/-- Data of whole entries that the shadow has room for: what the write does to HBM and to the device. -/
theorem Dev.shadowWrite_fits (k : Clk) (m : Memory) {d : Dev} {bs : List Byte} {n : Nat} (size : bs.length = 16 * n) (nonempty : 0 < n) (few : n ≤ 2048)
    (room : d.n Od.EM_SHADOW_OFFSET 0 + n ≤ 4194304) :
    (d.shadowWrite k bs m).1 = m.wrBytes (d.n Od.EM_SHADOW_BASE 0 + 16 * d.n Od.EM_SHADOW_OFFSET 0) bs ∧
      (d.hbmWrite (d.n Od.EM_SHADOW_BASE 0 + 16 * d.n Od.EM_SHADOW_OFFSET 0) bs.length).objsOnly (d.shadowWrite k bs m).2 ∧
      (d.shadowWrite k bs m).2.n Od.EM_SHADOW_OFFSET 0 = d.n Od.EM_SHADOW_OFFSET 0 + n := by
  have entries : bs.length / 16 = n := by omega
  have taken : ¬ (bs.length % 16 ≠ 0 ∨ bs.length = 0 ∨ 32768 < bs.length ∨ 4194304 < d.n Od.EM_SHADOW_OFFSET 0 + n) := by omega
  have written : d.shadowWrite k bs m = (m.wrBytes (d.n Od.EM_SHADOW_BASE 0 + 16 * d.n Od.EM_SHADOW_OFFSET 0) bs,
      ((d.hbmWrite (d.n Od.EM_SHADOW_BASE 0 + 16 * d.n Od.EM_SHADOW_OFFSET 0) bs.length).put Od.EM_SHADOW_OFFSET 0
        (d.n Od.EM_SHADOW_OFFSET 0 + n)).shadowNoted k (d.n Od.EM_SHADOW_OFFSET 0) n) := by
    unfold Dev.shadowWrite
    simp only [entries]
    exact if_neg taken
  have noted := ((d.hbmWrite (d.n Od.EM_SHADOW_BASE 0 + 16 * d.n Od.EM_SHADOW_OFFSET 0) bs.length).put Od.EM_SHADOW_OFFSET 0
    (d.n Od.EM_SHADOW_OFFSET 0 + n)).shadowNoted_touched k room
  rw [written]
  refine ⟨rfl, Dev.objsOnly_trans (Dev.objsOnly_put (Dev.objsOnly_refl _) _ _ _ _) (Dev.touched_objsOnly noted), ?_⟩
  exact (Dev.n_touched noted (by decide) (by decide) (by decide)).trans
    (Dev.n_put_same _ _ _ _ _ (ObjTy.norm_u32_top (room.trans (by decide))))

theorem exec_shadowDataWrite_next {s : State} (running : ready s = true) (boundary : s.clk.c = 0) (bs : List Byte) :
    exec (.shadowDataWrite bs) s = .next { s with
      mem := (s.dev.silent.shadowWrite s.clk bs s.mem).1, dev := (s.dev.silent.shadowWrite s.clk bs s.mem).2.atOpen } :=
  State.row_next (ready_halted running) boundary (ok := true) rfl [wr Od.EM_SHADOW_DATA 0 bs] fun k m d => d.shadowWrite k bs m

theorem exec_shadowDataWrite_fits {s : State} (running : ready s = true) (boundary : s.clk.c = 0) {bs : List Byte} {n : Nat}
    (size : bs.length = 16 * n) (nonempty : 0 < n) (few : n ≤ 2048) (room : s.dev.n Od.EM_SHADOW_OFFSET 0 + n ≤ 4194304) :
    ∃ t, exec (.shadowDataWrite bs) s = .next t ∧ t.clk = s.clk ∧ t.pending = s.pending ∧
      bare t.dev = bare (s.dev.hbmWrite (s.dev.n Od.EM_SHADOW_BASE 0 + 16 * s.dev.n Od.EM_SHADOW_OFFSET 0) bs.length) ∧
      t.mem = s.mem.wrBytes (s.dev.n Od.EM_SHADOW_BASE 0 + 16 * s.dev.n Od.EM_SHADOW_OFFSET 0) bs ∧
      t.dev.n Od.EM_SHADOW_OFFSET 0 = s.dev.n Od.EM_SHADOW_OFFSET 0 + n := by
  have ran := exec_shadowDataWrite_next running boundary bs
  obtain ⟨mem, objs, offset⟩ := Dev.shadowWrite_fits s.clk s.mem (d := s.dev.silent) size nonempty few room
  generalize s.dev.silent.shadowWrite s.clk bs s.mem = r at ran mem objs offset
  exact ⟨_, ran, rfl, rfl, (bare_atOpen _).trans objs, mem, offset⟩

/-! SUPPORT. The compare of a bank (R207 to R210). -/

/-- The compare of bank b takes n slots of its grant, and notes when it begins a range. -/
def Dev.compareGoes (k : Clk) (b n : Nat) (d : Dev) : Dev :=
  (if d.n Rg.SHADOW_POS b = 0 then d.put Rg.SHADOW_BEGAN b (k.tick + 1) else d).put Rg.SHADOW_SPENT b (d.n Rg.SHADOW_SPENT b + n)

theorem Dev.n_put_bank (d : Dev) {o q : Obj} {b j f : Nat} (bank : b < 256) (other : o.idx * 256 + o.sub ≠ q.idx * 256 + q.sub) (hj : j < 65536)
    (hf : f < 65536) (v : Nat) : (d.put o b v).n q j f = d.n q j f :=
  Dev.n_put_other _ _ _ _ _ _ _ _ (Obj.key_ne other (by omega) hj (by decide) hf)

theorem Dev.compareGoes_wrote (k : Clk) (b n : Nat) (d : Dev) : d.wrote [Rg.SHADOW_BEGAN.key b 0, Rg.SHADOW_SPENT.key b 0] (d.compareGoes k b n) :=
  Dev.wrote_put (Dev.wrote_ite (Dev.wrote_put (Dev.wrote_refl _ d) _ _ _ _ (by simp)) (Dev.wrote_refl _ d)) _ _ _ _ (by simp)

theorem Dev.n_compareGoes_spent (k : Clk) (b n : Nat) (d : Dev) : (d.compareGoes k b n).n Rg.SHADOW_SPENT b = d.n Rg.SHADOW_SPENT b + n :=
  Dev.n_put_same _ _ _ _ _ rfl

/-- A range whose signatures differ is marked, and counted among those of the pass (R208, R209). -/
def Dev.rangeMarked (b r : Nat) (d : Dev) : Dev :=
  let w := (32 * b + r) / 64
  let d := d.put Od.EM_SHADOW_MISMATCH 0 (setBit (d.n Od.EM_SHADOW_MISMATCH 0 w) ((32 * b + r) % 64)) w
  let low := d.n Rg.SHADOW_LOW 0
  (d.put Rg.SHADOW_SET 0 (d.n Rg.SHADOW_SET 0 + 1)).put Rg.SHADOW_LOW 0 (if low = 0 then 32 * b + r + 1 else min low (32 * b + r + 1))

/-- The compare of bank b moves on from range r. -/
def Dev.rangeOver (b r : Nat) (d : Dev) : Dev := (d.put Rg.SHADOW_NEXT b (r + 1)).put Rg.SHADOW_POS b 0

theorem Dev.rangeMarked_objsOnly (b r : Nat) (d : Dev) : d.objsOnly (d.rangeMarked b r) :=
  Dev.objsOnly_put (Dev.objsOnly_put (Dev.objsOnly_put (Dev.objsOnly_refl d) _ _ _ _) _ _ _ _) _ _ _ _

theorem Dev.rangeOver_objsOnly (b r : Nat) (d : Dev) : d.objsOnly (d.rangeOver b r) :=
  Dev.objsOnly_put (Dev.objsOnly_put (Dev.objsOnly_refl d) _ _ _ _) _ _ _ _

/-- No change waits and no word is in error that a compare would read (R208, R459). -/
structure Dev.TableWhole (d : Dev) : Prop where
  pend : d.emPend = []
  flipped : d.flipped = []
  poison : d.emPoison = []
  hbm : d.hbmPoison = []

theorem Dev.TableWhole.objs {d e : Dev} (whole : d.TableWhole) (objs : d.objsOnly e) : e.TableWhole :=
  ⟨(Dev.objsOnly_emPend objs).trans whole.pend, (Dev.objsOnly_flipped objs).trans whole.flipped, (Dev.objsOnly_emPoison objs).trans whole.poison,
    (Dev.objsOnly_hbmPoison objs).trans whole.hbm⟩

/-- The CRCs of a range in the table and in the shadow agree (R207). -/
def Dev.rangeAgrees (b r : Nat) (m : Memory) (d : Dev) : Prop :=
  crc32 ((List.range 512).flatMap fun i => d.shadowEntry (b * 16384 + r * 512 + i)) =
    crc32 (m.rdBytes (d.n Od.EM_SHADOW_BASE 0 + 16 * (b * 16384 + r * 512)) 8192)

section
variable {d : Dev} {b r : Nat} (bank : b < 256)
include bank

theorem Dev.n_rangeOver_next (d : Dev) : (d.rangeOver b r).n Rg.SHADOW_NEXT b = r + 1 :=
  (Dev.n_put_bank _ bank (by decide) (by omega) (by decide) _).trans (Dev.n_put_same _ _ _ _ _ rfl)

/-- What judging a range does that nothing has changed or spoiled, and that is not its bank's last. -/
theorem Dev.shadowJudge_whole (k : Clk) (m : Memory) (whole : d.TableWhole) (still : d.n Rg.SHADOW_CHANGED b r < d.n Rg.SHADOW_BEGAN b) (more : r < 31) :
    (d.rangeAgrees b r m → d.shadowJudge k b r m = d.rangeOver b r) ∧
      (¬ d.rangeAgrees b r m → d.shadowJudge k b r m = (d.rangeMarked b r).rangeOver b r) := by
  obtain ⟨pend, flipped, poison, hbm⟩ := whole
  have unmoved : decide (d.n Rg.SHADOW_BEGAN b ≤ d.n Rg.SHADOW_CHANGED b r) = false := decide_eq_false (by omega)
  have unread (a n : Nat) : d.hbmRead a n = d := by
    have none : (d.hbmPoison.filter fun u => decide (a ≤ u + 31 ∧ u < a + n)) = [] := by rw [hbm]; rfl
    rw [Dev.hbmRead, none, List.map_nil, List.append_nil]
  have unflipped (x n : Nat) : d.readFlips 2 8 x n = d := by rw [Dev.readFlips, flipped]; rfl
  have sound : ((List.range 512).any fun i => d.emBad (b * 16384 + r * 512 + i)) = false :=
    List.any_eq_false.mpr fun i _ => by simp [Dev.emBad, poison]
  have soundHbm (a n : Nat) : d.hbmBad a n = false := by rw [Dev.hbmBad, hbm]; rfl
  have under (e : Dev) : ¬ ((List.range 256).all fun i => (e.rangeOver b r).n Rg.SHADOW_NEXT i == 32) = true := fun through => by
    have last := List.all_eq_true.mp through b (List.mem_range.mpr bank)
    rw [e.n_rangeOver_next bank, beq_iff_eq] at last
    omega
  constructor
  · intro agree
    have same := bne_eq_false_iff_eq.mpr agree
    simp only [Dev.shadowJudge, unmoved, unread, unflipped, pend, sound, soundHbm, same, List.any_nil, Bool.or_self, Bool.false_eq_true, if_false]
    exact if_neg (under d)
  · intro differ
    have apart := bne_iff_ne.mpr differ
    simp only [Dev.shadowJudge, unmoved, unread, unflipped, pend, sound, soundHbm, apart, List.any_nil, Bool.or_self, Bool.false_or, Bool.false_eq_true,
      if_false, if_true]
    exact if_neg (under (d.rangeMarked b r))

theorem Dev.n_rangeOver_other (d : Dev) {q : Obj} (other : ∀ o ∈ [Rg.SHADOW_NEXT, Rg.SHADOW_POS], o.idx * 256 + o.sub ≠ q.idx * 256 + q.sub) {j f : Nat}
    (hj : j < 65536) (hf : f < 65536) : (d.rangeOver b r).n q j f = d.n q j f :=
  (Dev.n_put_bank _ bank (other _ (by simp)) hj hf _).trans (Dev.n_put_bank _ bank (other _ (by simp)) hj hf _)

theorem Dev.n_compareGoes_began (k : Clk) (n : Nat) (d : Dev) :
    (d.compareGoes k b n).n Rg.SHADOW_BEGAN b = if d.n Rg.SHADOW_POS b = 0 then k.tick + 1 else d.n Rg.SHADOW_BEGAN b := by
  rw [Dev.compareGoes, Dev.n_put_bank _ bank (by decide) (by omega) (by decide)]
  split
  · exact Dev.n_put_same _ _ _ _ _ rfl
  · rfl

theorem Dev.compareGoes_touched (k : Clk) (n : Nat) (d : Dev) : d.touched [Rg.SHADOW_BEGAN, Rg.SHADOW_SPENT] (d.compareGoes k b n) := by
  refine ⟨_, fun x hx => ?_, d.compareGoes_wrote k b n⟩
  rcases List.mem_pair.mp hx with rfl | rfl
  · exact ⟨Rg.SHADOW_BEGAN, by simp, b, 0, by omega, by decide, rfl⟩
  · exact ⟨Rg.SHADOW_SPENT, by simp, b, 0, by omega, by decide, rfl⟩

/-- An enabled compare with slots left goes on by n entries of range r, and judges the range where that ends it. -/
theorem Dev.shadowCompare_goes (k : Clk) (m : Memory) {d : Dev} {n : Nat} (enabled : d.on Od.EM_SHADOW_ENABLE 0 = true) (range : d.n Rg.SHADOW_NEXT b = r)
    (more : r < 31) (slots : min (512 - d.n Rg.SHADOW_POS b) (d.emGrant k 3 - d.n Rg.SHADOW_SPENT b) = n) (moves : n ≠ 0) :
    d.shadowCompare k b m =
      if d.n Rg.SHADOW_POS b + n < 512 then (d.compareGoes k b n).put Rg.SHADOW_POS b (d.n Rg.SHADOW_POS b + n)
      else (d.compareGoes k b n).shadowJudge k b r m := by
  have spent : (if d.n Rg.SHADOW_POS b = 0 then d.put Rg.SHADOW_BEGAN b (k.tick + 1) else d).n Rg.SHADOW_SPENT b = d.n Rg.SHADOW_SPENT b := by
    split
    · exact Dev.n_put_bank _ bank (by decide) (by omega) (by decide) _
    · rfl
  have goes : ¬ ((!d.on Od.EM_SHADOW_ENABLE 0) = true ∨ n = 0 ∨ 32 ≤ r) := by rw [enabled]; simp [moves]; omega
  unfold Dev.shadowCompare
  simp only [range, slots, spent]
  exact if_neg goes

/-- A range that the compare has gone through agrees or not as it did before: the compare's own registers are not of it. -/
theorem Dev.rangeAgrees_goes (k : Clk) (n : Nat) (m : Memory) (d : Dev) : (d.compareGoes k b n).rangeAgrees b r m ↔ d.rangeAgrees b r m := by
  have touched := d.compareGoes_touched bank k n
  have base := Dev.n_touched touched (o := Od.EM_SHADOW_BASE) (i := 0) (f := 0) (by decide) (by decide) (by decide)
  have scope := Dev.n_touched touched (o := Od.EM_SHADOW_SCOPE) (i := 0) (f := 0) (by decide) (by decide) (by decide)
  have word := Dev.objsOnly_emWord (Dev.touched_objsOnly touched)
  simp only [Dev.rangeAgrees, Dev.shadowEntry, base, scope, word]

end

theorem bit_setBit (v : Nat) {n : Nat} (h : n < 64) : bit (setBit v n % 2 ^ 64) n = true := by
  rw [bit_eq_testBit, Nat.testBit_mod_two_pow, setBit, Nat.testBit_or, Nat.testBit_two_pow_self]
  simp [h]

/-- A marked range's bit of EM.SHADOW.MISMATCH is set. -/
theorem Dev.rangeMarked_bit {b r : Nat} (bank : b < 256) (more : r < 31) (d : Dev) :
    bit ((d.rangeMarked b r).n Od.EM_SHADOW_MISMATCH 0 ((32 * b + r) / 64)) ((32 * b + r) % 64) = true := by
  have word : (32 * b + r) / 64 < 65536 := by omega
  have apart {o : Obj} (other : o.idx * 256 + o.sub ≠ Od.EM_SHADOW_MISMATCH.idx * 256 + Od.EM_SHADOW_MISMATCH.sub) (e : Dev) (v : Nat) :
      (e.put o 0 v).n Od.EM_SHADOW_MISMATCH 0 ((32 * b + r) / 64) = e.n Od.EM_SHADOW_MISMATCH 0 ((32 * b + r) / 64) :=
    Dev.n_put_other _ _ _ _ _ _ _ _ (Obj.key_ne other (by decide) (by decide) (by decide) word)
  have set (v : Nat) : (d.put Od.EM_SHADOW_MISMATCH 0 v ((32 * b + r) / 64)).n Od.EM_SHADOW_MISMATCH 0 ((32 * b + r) / 64) = v % 2 ^ 64 := by
    rw [Dev.n, Dev.get_put_same]
    simp only [Od.EM_SHADOW_MISMATCH, ObjTy.norm]; omega
  rw [Dev.rangeMarked, apart (by decide), apart (by decide), set]
  exact bit_setBit _ (Nat.mod_lt _ (by decide))

section
variable {s : State} (running : ready s = true) {b r p n : Nat} (bank : b < 256) (range : s.dev.n Rg.SHADOW_NEXT b = r) (more : r < 31)
  (enabled : s.dev.on Od.EM_SHADOW_ENABLE 0 = true) (place : s.dev.n Rg.SHADOW_POS b = p)
  (slots : min (512 - p) (s.dev.emGrant s.clk 3 - s.dev.n Rg.SHADOW_SPENT b) = n) (moves : n ≠ 0)
include running bank range more enabled place slots moves

theorem exec_shadowCompareRange_next : exec (.shadowCompareRange b) s = .next { s with
    dev := if p + n < 512 then (s.dev.silent.compareGoes s.clk b n).put Rg.SHADOW_POS b (p + n)
      else (s.dev.silent.compareGoes s.clk b n).shadowJudge s.clk b r s.mem } := by
  subst place
  have ran : exec (.shadowCompareRange b) s = .next { s with dev := s.dev.silent.shadowCompare s.clk b s.mem } :=
    State.runM_next (ready_halted running) (decide_eq_true bank) fun k m d => (m, d.shadowCompare k b m)
  rw [ran, Dev.shadowCompare_goes bank s.clk s.mem (d := s.dev.silent) enabled range more slots moves]
  rfl

theorem exec_shadowCompareRange_within (within : p + n < 512) :
    ∃ t, exec (.shadowCompareRange b) s = .next t ∧ onlyWrites [Rg.SHADOW_BEGAN.key b 0, Rg.SHADOW_SPENT.key b 0, Rg.SHADOW_POS.key b 0] s t ∧
      t.dev.n Rg.SHADOW_POS b = p + n ∧ t.dev.n Rg.SHADOW_SPENT b = s.dev.n Rg.SHADOW_SPENT b + n := by
  have ran := exec_shadowCompareRange_next running bank range more enabled place slots moves
  rw [if_pos within] at ran
  have goes := Dev.wrote_trans (Dev.wrote_silent _ s.dev) (s.dev.silent.compareGoes_wrote s.clk b n)
  refine ⟨_, ran, onlyWrites_of (Dev.wrote_put (Dev.wrote_mono goes (by simp)) _ _ _ _ (by simp)), Dev.n_put_same _ _ _ _ _ rfl, ?_⟩
  exact (Dev.n_put_bank _ bank (by decide) (by omega) (by decide) _).trans (s.dev.silent.n_compareGoes_spent s.clk b n)

section
variable (ends : p + n = 512) (still : s.dev.n Rg.SHADOW_CHANGED b r < if p = 0 then s.clk.tick + 1 else s.dev.n Rg.SHADOW_BEGAN b)
  (whole : s.dev.TableWhole)
include ends still whole

/-- The compare reaches the end of a range that nothing has changed or spoiled. -/
theorem exec_shadowCompareRange_judges :
    (s.dev.rangeAgrees b r s.mem →
      exec (.shadowCompareRange b) s = .next { s with dev := (s.dev.silent.compareGoes s.clk b n).rangeOver b r }) ∧
    (¬ s.dev.rangeAgrees b r s.mem →
      exec (.shadowCompareRange b) s = .next { s with dev := ((s.dev.silent.compareGoes s.clk b n).rangeMarked b r).rangeOver b r }) := by
  have ran := exec_shadowCompareRange_next running bank range more enabled place slots moves
  rw [if_neg (by omega)] at ran
  have touched := s.dev.silent.compareGoes_touched bank s.clk n
  have unmoved : (s.dev.silent.compareGoes s.clk b n).n Rg.SHADOW_CHANGED b r < (s.dev.silent.compareGoes s.clk b n).n Rg.SHADOW_BEGAN b := by
    rw [Dev.n_touched touched (by omega) (by omega) (by decide), s.dev.silent.n_compareGoes_began bank s.clk n]
    subst place
    exact still
  have same := s.dev.silent.rangeAgrees_goes (r := r) bank s.clk n s.mem
  obtain ⟨agree, differ⟩ := Dev.shadowJudge_whole bank s.clk s.mem (whole.objs (Dev.touched_objsOnly touched)) unmoved more
  exact ⟨fun h => by rw [ran, agree (same.mpr h)], fun h => by rw [ran, differ fun g => h (same.mp g)]⟩

theorem exec_shadowCompareRange_agrees (agree : s.dev.rangeAgrees b r s.mem) :
    ∃ t, exec (.shadowCompareRange b) s = .next t ∧
      onlyWrites [Rg.SHADOW_NEXT.key b 0, Rg.SHADOW_BEGAN.key b 0, Rg.SHADOW_SPENT.key b 0, Rg.SHADOW_POS.key b 0] s t ∧
      t.dev.n Rg.SHADOW_NEXT b = r + 1 ∧ t.dev.n Rg.SHADOW_POS b = 0 := by
  obtain ⟨ran, -⟩ := exec_shadowCompareRange_judges running bank range more enabled place slots moves ends still whole
  have goes := Dev.wrote_trans (Dev.wrote_silent _ s.dev) (s.dev.silent.compareGoes_wrote s.clk b n)
  refine ⟨_, ran agree, onlyWrites_of ?_, Dev.n_rangeOver_next bank _, Dev.n_put_same _ _ _ _ _ rfl⟩
  exact Dev.wrote_put (Dev.wrote_put (Dev.wrote_mono goes (by simp)) _ _ _ _ (by simp)) _ _ _ _ (by simp)

theorem exec_shadowCompareRange_differs (differ : ¬ s.dev.rangeAgrees b r s.mem) :
    ∃ t, exec (.shadowCompareRange b) s = .next t ∧ outsideKept s t ∧ bare t.dev = bare s.dev ∧
      bit (t.dev.n Od.EM_SHADOW_MISMATCH 0 ((32 * b + r) / 64)) ((32 * b + r) % 64) = true ∧ t.dev.n Rg.SHADOW_NEXT b = r + 1 := by
  obtain ⟨-, ran⟩ := exec_shadowCompareRange_judges running bank range more enabled place slots moves ends still whole
  have objs := Dev.objsOnly_trans (Dev.objsOnly_silent s.dev) (Dev.touched_objsOnly (s.dev.silent.compareGoes_touched bank s.clk n))
  have next := ran differ
  generalize s.dev.silent.compareGoes s.clk b n = e at next objs
  refine ⟨_, next, ⟨rfl, rfl, rfl⟩, ?_, ?_, Dev.n_rangeOver_next bank _⟩
  · exact Dev.objsOnly_trans (Dev.objsOnly_trans objs (e.rangeMarked_objsOnly b r)) (Dev.rangeOver_objsOnly b r _)
  · exact (congrArg (bit · _) (Dev.n_rangeOver_other bank _ (by decide) (by decide) (by omega))).trans (e.rangeMarked_bit bank more)

end
end

/-- Settles O36: the write's places in HBM and its notes of changed ranges do not meet, and a judged range (`Dev.shadowJudge_whole`) finds what the
compare's own registers are not part of (`Dev.rangeAgrees_goes`). -/
theorem tableShadow : Obligations.TableShadow := by
  intro s running
  refine ⟨fun bs n boundary size nonempty few room => exec_shadowDataWrite_fits running boundary size nonempty few room, ?_⟩
  intro b r p n bank range more enabled place slots moves
  refine ⟨exec_shadowCompareRange_within running bank range more enabled place slots moves, fun ends still pend flipped poison hbm => ⟨?_, ?_⟩⟩
  · exact exec_shadowCompareRange_agrees running bank range more enabled place slots moves ends still ⟨pend, flipped, poison, hbm⟩
  · exact exec_shadowCompareRange_differs running bank range more enabled place slots moves ends still ⟨pend, flipped, poison, hbm⟩

end Sys2Proof.Machine

namespace Sys2Proof.Machine
open Sys2Proof.Safety

/-! SUPPORT. What the entries of a bucket are goes by the table, its changes and the hash seed (R177, R189, R201). -/

section
variable {d e : Dev} (objs : d.objsOnly e)
include objs

theorem Dev.objsOnly_emKey (p : Nat) : e.emKey p = d.emKey p := by
  have same := congrArg (fun b => b.emKey p) (show bare e = bare d from objs)
  exact same

section
variable (seed : e.n Od.EM_HASH_SEED 0 = d.n Od.EM_HASH_SEED 0)
include seed

omit objs in
theorem Dev.emBase_kept (key : Nat) : e.emBase key = d.emBase key := by rw [Dev.emBase, seed]; rfl

theorem Dev.emWay_kept (key : Nat) : e.emWay key = d.emWay key := by
  have same := congrArg (fun b => (ways (d.emBase key)).find? fun p => !b.emBadNow p && bit (b.emKey p) 63 && sameKey (b.emKey p) key)
    (show bare e = bare d from objs)
  rw [Dev.emWay, Dev.emBase_kept seed]
  exact same

theorem Dev.emBucketBad_kept (key : Nat) : e.emBucketBad key = d.emBucketBad key := by
  have same := congrArg (fun b => (ways (d.emBase key)).any b.emBadNow) (show bare e = bare d from objs)
  rw [Dev.emBucketBad, Dev.emBase_kept seed]
  exact same

end
end

/-! SUPPORT. The retired positions (R471), and the ways that are free for an insert (R192). -/

theorem Dev.retired_iff {d : Dev} {p : Nat} :
    d.retired p = true ↔ ∃ e, e < d.n Od.INTEG_EM_RETIRED_COUNT 0 ∧ d.n Od.INTEG_EM_RETIRED_LIST 0 e = p := by
  simp [Dev.retired]

/-- Where the count of retired positions is of its type, writes of other objects retire no position. -/
theorem Dev.retired_touched {objs : List Obj} {d e : Dev} (h : d.touched objs e) (typed : d.n Od.INTEG_EM_RETIRED_COUNT 0 ≤ 65536)
    (apart : ∀ o ∈ [Od.INTEG_EM_RETIRED_COUNT, Od.INTEG_EM_RETIRED_LIST], ∀ q ∈ objs, o.idx * 256 + o.sub ≠ q.idx * 256 + q.sub) (p : Nat) :
    e.retired p = d.retired p := by
  have count := Dev.n_touched h (i := 0) (f := 0) (by decide) (by decide) (apart Od.INTEG_EM_RETIRED_COUNT (by simp))
  have listed (x : Nat) (hx : x < d.n Od.INTEG_EM_RETIRED_COUNT 0) : e.n Od.INTEG_EM_RETIRED_LIST 0 x = d.n Od.INTEG_EM_RETIRED_LIST 0 x :=
    Dev.n_touched h (by decide) (by omega) (apart Od.INTEG_EM_RETIRED_LIST (by simp))
  rw [Bool.eq_iff_iff, Dev.retired_iff, Dev.retired_iff, count]
  exact exists_congr fun x => and_congr_right fun hx => by rw [listed x hx]

theorem Dev.emFree_touched {objs : List Obj} {d e : Dev} (h : d.touched objs e) (typed : d.n Od.INTEG_EM_RETIRED_COUNT 0 ≤ 65536)
    (apart : ∀ o ∈ [Od.INTEG_EM_RETIRED_COUNT, Od.INTEG_EM_RETIRED_LIST], ∀ q ∈ objs, o.idx * 256 + o.sub ≠ q.idx * 256 + q.sub) :
    e.emFree = d.emFree := by
  funext p
  rw [Dev.emFree, Dev.objsOnly_emKey (Dev.touched_objsOnly h), Dev.retired_touched h typed apart]; rfl

/-! SUPPORT. A change of an entry where no flip is armed (R188, R469). -/

theorem Dev.flip_unarmed {d : Dev} (unarmed : d.on Od.INTEG_FLIP_ARM 0 = false) (mem die addr data : Nat) : d.flip mem die addr data = (0, d) := by
  simp [Dev.flip, unarmed]

/-- A change joins those of the tick, its reserved bits zero; the journal's table records are then l. -/
def Dev.changePends (c : EmChange) (l : List (Nat × List Byte)) (d : Dev) : Dev :=
  { d with emPend := d.emPend ++ [{ c with result := c.result / 2 ^ 17 * 2 ^ 17, flips := [] }], jtab := l }

theorem Dev.jtable_jtab (k : Clk) (pos origin bs key result : Nat) (d : Dev) : ∃ l, d.jtable k pos origin bs key result = { d with jtab := l } := by
  unfold Dev.jtable
  split
  · exact ⟨_, rfl⟩
  · exact ⟨d.jtab, rfl⟩

theorem Dev.emChange_unarmed (k : Clk) (origin : Nat) (c : EmChange) {d : Dev} (unarmed : d.on Od.INTEG_FLIP_ARM 0 = false) :
    ∃ l, d.emChange k origin c = if bit c.key 63 then d.changePends c l else (d.changePends c l).settleRetire c.pos := by
  simp only [Dev.emChange, Dev.flip_unarmed unarmed]
  obtain ⟨l, tab⟩ := Dev.jtable_jtab k c.pos origin
    ((if (if c.hit = 2 then d.emWord c.pos 2 else c.hit) = 0 then 0 else 1) + if (if c.seen = 2 then d.emWord c.pos 3 else c.seen) = 0 then 0 else 2)
    c.key (c.result / 2 ^ 17 * 2 ^ 17) { d with emPend := d.emPend ++ [{ c with result := c.result / 2 ^ 17 * 2 ^ 17, flips := [] }] }
  refine ⟨l, ?_⟩
  simp only [Dev.changePends]
  rw [← tab]
  rfl

theorem Obj.key_first_le (o : Obj) (i e : Nat) : o.key i 0 ≤ o.key i e := Nat.add_le_add_left (Nat.zero_le e) _

/-- What settles a retirement writes elements of the list of retired positions (R471). -/
theorem Dev.settleRetire_keeps (pos : Nat) (d : Dev) : d.objsOnly (d.settleRetire pos) ∧
    ∀ (o : Obj) (i e : Nat), o.key i e < Od.INTEG_EM_RETIRED_LIST.key 0 0 → (d.settleRetire pos).get o i e = d.get o i e := by
  constructor
  · refine Dev.objsOnly_each _ _ (fun e x _ => ?_) d
    split
    · exact Dev.objsOnly_put (Dev.objsOnly_refl e) _ _ _ _
    · exact Dev.objsOnly_refl e
  · intro o i f below
    refine Dev.each_get _ _ o i f (fun e x _ => ?_) d
    split
    · exact Dev.get_put_other _ _ _ _ _ _ _ _ (below.trans_le (Obj.key_first_le _ _ _)).ne'
    · rfl

section
variable (k : Clk) (origin : Nat) (c : EmChange) {d : Dev} (unarmed : d.on Od.INTEG_FLIP_ARM 0 = false)
include unarmed

/-- Of the device a change leaves all but what waits for the next tick, the journal's table records, and objects from the list of retired positions on. -/
theorem Dev.emChange_keeps : (∃ l, (d.changePends c l).objsOnly (d.emChange k origin c)) ∧
    ∀ (o : Obj) (i e : Nat), o.key i e < Od.INTEG_EM_RETIRED_LIST.key 0 0 → (d.emChange k origin c).get o i e = d.get o i e := by
  obtain ⟨l, changed⟩ := Dev.emChange_unarmed k origin c unarmed
  rw [changed]
  split
  · exact ⟨⟨l, Dev.objsOnly_refl _⟩, fun _ _ _ _ => rfl⟩
  · obtain ⟨objs, reads⟩ := (d.changePends c l).settleRetire_keeps c.pos
    exact ⟨⟨l, objs⟩, reads⟩

theorem Dev.emChange_emPend : (d.emChange k origin c).emPend = d.emPend ++ [{ c with result := c.result / 2 ^ 17 * 2 ^ 17, flips := [] }] := by
  obtain ⟨⟨_, objs⟩, -⟩ := Dev.emChange_keeps k origin c unarmed
  exact (Dev.objsOnly_emPend objs).trans rfl

theorem Dev.emChange_em : (d.emChange k origin c).em = d.em := by
  obtain ⟨⟨_, objs⟩, -⟩ := Dev.emChange_keeps k origin c unarmed
  exact (Dev.objsOnly_em objs).trans rfl

end
end Sys2Proof.Machine

namespace Sys2Proof.Machine
open Sys2Proof.Safety

/-! SUPPORT. The records of a batch, and what completes one (R200 to R202). -/

theorem Dev.batchPut_objsOnly (i off : Nat) (bs : List Byte) (d : Dev) : d.objsOnly (d.batchPut i off bs) :=
  Dev.objsOnly_each _ _ (fun e _ _ => Dev.objsOnly_put (Dev.objsOnly_refl e) _ _ _ _) d

theorem Dev.batchPut_touched {i off : Nat} {bs : List Byte} (inside : 48 * i + off + bs.length ≤ 65536) (d : Dev) :
    d.touched [Od.EM_CMD_BATCH] (d.batchPut i off bs) := by
  refine Dev.each_keeps (P := d.touched [Od.EM_CMD_BATCH]) _ (fun e x member put => ?_) (Dev.touched_refl _ d)
  have place := List.snd_lt_of_mem_zipIdx member
  exact Dev.touched_put put (by simp) (by decide) (by omega) _

/-- Bytes written back read back, and leave the others. -/
theorem Dev.n_batchPut (i off j : Nat) (bs : List Byte) (d : Dev) : (d.batchPut i off bs).n Od.EM_CMD_BATCH 0 (48 * i + j) =
    if off ≤ j ∧ j < off + bs.length then (bs.getD (j - off) 0).toNat else d.n Od.EM_CMD_BATCH 0 (48 * i + j) := by
  have run : d.batchPut i off bs = (bs.zipIdx (48 * i + off)).foldl (fun d x => d.set Od.EM_CMD_BATCH 0 x.1.toNat x.2) d := by
    rw [← Nat.add_zero (48 * i + off), ← List.map_snd_add_zipIdx_eq_zipIdx, List.foldl_map]
    simp only [Dev.batchPut, Dev.each, Dev.put, Prod.map, id, Nat.add_comm]
  have byte (b : Byte) : (Od.EM_CMD_BATCH.ty.norm b.toNat).toNat = b.toNat := by
    have := b.isLt
    simp only [Od.EM_CMD_BATCH, ObjTy.norm]; omega
  rw [Dev.n, run, Dev.get_setBytes]
  split
  · rw [if_pos (by omega), byte, show 48 * i + j - (48 * i + off) = j - off by omega]
  · rw [if_neg (by omega)]; rfl

/-- The batch's count of completed records goes up, and its next record is the one after record i (R202, R204). -/
def Dev.batchCounted (k : Clk) (i : Nat) (d : Dev) : Dev :=
  ((d.put Rg.EM_NEXT 0 (i + 1)).put Od.EM_CMD_STATUS 0 ((d.put Rg.EM_NEXT 0 (i + 1)).n Od.EM_CMD_STATUS 0 1 + 1) 1).put Rg.EM_CHANGED 0 (k.tick + 1)

/-- A record completes: its status is written back and counted, and where it is not DONE counted once more. -/
theorem Dev.batchDone_eq (k : Clk) (i st : Nat) (e : Dev) : ∃ v, Dev.batchDone k i (st, e) =
    if st = 1 then (e.batchPut i 34 [BitVec.ofNat 8 st]).batchCounted k i
    else ((e.batchPut i 34 [BitVec.ofNat 8 st]).batchCounted k i).put Od.EM_CMD_STATUS 0 v 2 := by
  refine ⟨((e.batchPut i 34 [BitVec.ofNat 8 st]).batchCounted k i).n Od.EM_CMD_STATUS 0 2 + 1, ?_⟩
  by_cases done : st = 1
  · rw [if_pos done, done]; rfl
  · rw [if_neg done, Dev.batchDone, bne_iff_ne.mpr done]; rfl

theorem Dev.n_put_scalar (d : Dev) {o q : Obj} (other : o.idx * 256 + o.sub ≠ q.idx * 256 + q.sub) {e f : Nat} (he : e < 65536) (hf : f < 65536)
    (v : Nat) : (d.put o 0 v e).n q 0 f = d.n q 0 f :=
  Dev.n_put_other _ _ _ _ _ _ _ _ (Obj.key_ne other (by decide) (by decide) he hf)

theorem Dev.batchCounted_objsOnly (k : Clk) (i : Nat) (d : Dev) : d.objsOnly (d.batchCounted k i) :=
  Dev.objsOnly_put (Dev.objsOnly_put (Dev.objsOnly_put (Dev.objsOnly_refl d) _ _ _ _) _ _ _ _) _ _ _ _

theorem Dev.batchCounted_reads (k : Clk) (i : Nat) (d : Dev) : (d.batchCounted k i).n Rg.EM_NEXT 0 = i + 1 ∧
    (d.batchCounted k i).get Od.EM_CMD_STATUS 0 1 = Od.EM_CMD_STATUS.ty.norm (d.n Od.EM_CMD_STATUS 0 1 + 1 : Nat) ∧
    ∀ j, j < 65536 → (d.batchCounted k i).n Od.EM_CMD_BATCH 0 j = d.n Od.EM_CMD_BATCH 0 j := by
  unfold Dev.batchCounted
  refine ⟨?_, ?_, fun j hj => ?_⟩
  · rw [Dev.n_put_scalar _ (by decide) (by decide) (by decide), Dev.n_put_scalar _ (by decide) (by decide) (by decide)]
    exact Dev.n_put_same _ _ _ _ _ rfl
  · rw [Dev.get_put_other _ _ _ _ _ _ _ _ (by decide), Dev.get_put_same, Dev.n_put_scalar _ (by decide) (by decide) (by decide)]
  · rw [Dev.n_put_scalar _ (by decide) (by decide) hj, Dev.n_put_scalar _ (by decide) (by decide) hj, Dev.n_put_scalar _ (by decide) (by decide) hj]

theorem Dev.batchDone_objsOnly (k : Clk) (i st : Nat) (e : Dev) : e.objsOnly (Dev.batchDone k i (st, e)) := by
  obtain ⟨v, done⟩ := e.batchDone_eq k i st
  have counted := Dev.objsOnly_trans (e.batchPut_objsOnly i 34 [BitVec.ofNat 8 st]) (Dev.batchCounted_objsOnly k i _)
  rw [done]
  split
  · exact counted
  · exact Dev.objsOnly_put counted _ _ _ _

/-- What the completion of a record with a status leaves to be read. -/
theorem Dev.batchDone_reads (k : Clk) {i st : Nat} (index : i < 512) (status : st < 256) (e : Dev) :
    (Dev.batchDone k i (st, e)).n Rg.EM_NEXT 0 = i + 1 ∧ (Dev.batchDone k i (st, e)).n Od.EM_CMD_BATCH 0 (48 * i + 34) = st ∧
      (Dev.batchDone k i (st, e)).get Od.EM_CMD_STATUS 0 1 = Od.EM_CMD_STATUS.ty.norm (e.n Od.EM_CMD_STATUS 0 1 + 1 : Nat) ∧
      ∀ j, j < 48 → j ≠ 34 → (Dev.batchDone k i (st, e)).n Od.EM_CMD_BATCH 0 (48 * i + j) = e.n Od.EM_CMD_BATCH 0 (48 * i + j) := by
  obtain ⟨v, done⟩ := e.batchDone_eq k i st
  have counts : (e.batchPut i 34 [BitVec.ofNat 8 st]).n Od.EM_CMD_STATUS 0 1 = e.n Od.EM_CMD_STATUS 0 1 :=
    Dev.n_touched (e.batchPut_touched (by simp; omega)) (by decide) (by decide) (by decide)
  obtain ⟨next, counted, bytes⟩ := (e.batchPut i 34 [BitVec.ofNat 8 st]).batchCounted_reads k i
  generalize g_eq : (e.batchPut i 34 [BitVec.ofNat 8 st]).batchCounted k i = g at done next counted bytes
  have same : (Dev.batchDone k i (st, e)).n Rg.EM_NEXT 0 = g.n Rg.EM_NEXT 0 ∧
      (Dev.batchDone k i (st, e)).get Od.EM_CMD_STATUS 0 1 = g.get Od.EM_CMD_STATUS 0 1 ∧
      ∀ j, j < 65536 → (Dev.batchDone k i (st, e)).n Od.EM_CMD_BATCH 0 j = g.n Od.EM_CMD_BATCH 0 j := by
    rw [done]
    split
    · exact ⟨rfl, rfl, fun _ _ => rfl⟩
    · exact ⟨Dev.n_put_scalar _ (by decide) (by decide) (by decide) _, Dev.get_put_other _ _ _ _ _ _ _ _ (by decide),
        fun _ hj => Dev.n_put_scalar _ (by decide) (by decide) hj _⟩
  obtain ⟨sameNext, sameCount, sameByte⟩ := same
  refine ⟨sameNext.trans next, ?_, by rw [sameCount, counted, counts], fun j hj other => ?_⟩
  · rw [sameByte _ (by omega), bytes _ (by omega), Dev.n_batchPut, if_pos (by simp)]
    simpa using status
  · rw [sameByte _ (by omega), bytes _ (by omega), Dev.n_batchPut, if_neg (by simp; omega)]

/-- A record completed by a device that has kept the table and the count of completed records. -/
theorem recordDone_of {s : State} {i st : Nat} (index : i < 512) (status : st < 256) {e : Dev} (table : e.em = s.dev.em)
    (counted : e.n Od.EM_CMD_STATUS 0 1 = s.dev.n Od.EM_CMD_STATUS 0 1) : recordDone i st s { s with dev := Dev.batchDone s.clk i (st, e) } := by
  obtain ⟨next, done, count, -⟩ := e.batchDone_reads s.clk index status
  exact ⟨⟨rfl, rfl, rfl⟩, next, done, by rw [count, counted], (Dev.objsOnly_em (e.batchDone_objsOnly s.clk i st)).trans table⟩

/-! SUPPORT. The position and the words of the entry that a record finds (R201). -/

theorem Dev.emFound_fst (i pos : Nat) (words : Bool) (d : Dev) : (d.emFound i pos words).1 = 1 := by cases words <;> rfl

theorem Dev.n_emFound_pos (i pos : Nat) (words : Bool) (d : Dev) : (d.emFound i pos words).2.n Od.EM_CMD_BATCH 0 (48 * i + 36) = pos % 256 := by
  have place : (d.batchPut i 36 (bytesLE 4 pos)).n Od.EM_CMD_BATCH 0 (48 * i + 36) = pos % 256 := by
    rw [Dev.n_batchPut, if_pos (by simp)]
    simp [bytesLE]
  cases words with
  | false => exact place
  | true =>
    simp only [Dev.emFound, if_true]
    rw [Dev.n_batchPut, if_neg (by simp), Dev.n_batchPut, if_neg (by simp), place]

theorem Dev.emFound_touched {i : Nat} (index : i < 512) (pos : Nat) (words : Bool) (d : Dev) :
    d.touched [Od.EM_CMD_BATCH] (d.emFound i pos words).2 := by
  have place := d.batchPut_touched (i := i) (off := 36) (bs := bytesLE 4 pos) (by simp; omega)
  cases words with
  | false => exact place
  | true =>
    exact Dev.touched_mono (Dev.touched_trans (Dev.touched_trans place (Dev.batchPut_touched (by simp; omega) _)) (Dev.batchPut_touched (by simp; omega) _))
      (by simp)

end Sys2Proof.Machine

namespace Sys2Proof.Machine
open Sys2Proof.Safety

/-! SUPPORT. The batch's next record is carried out (R201, R204). -/

/-- The device once a record has taken n command slots of bank b. -/
def Dev.slotsTaken (b n : Nat) (d : Dev) : Dev := d.put Rg.EM_SPENT b (d.n Rg.EM_SPENT b + n)

theorem Dev.slotsTaken_touched {b : Nat} (bank : b < 256) (n : Nat) (d : Dev) : d.touched [Rg.EM_SPENT] (d.slotsTaken b n) :=
  Dev.touched_put (Dev.touched_refl _ d) (by simp) (by omega) (by decide) _

/-- No record is skipped where the next has a listed opcode, or none is left (R201). -/
theorem Dev.batchSkip_none {d : Dev}
    (h : d.n Rg.EM_NEXT 0 < d.n Rg.EM_RUN 0 → 0 < ((d.batchRec (d.n Rg.EM_NEXT 0)).getD 32 0).toNat ∧ ((d.batchRec (d.n Rg.EM_NEXT 0)).getD 32 0).toNat < 7)
    (k : Clk) (n : Nat) : d.batchSkip k n = d := by
  cases n with
  | zero => rfl
  | succ n =>
    refine if_neg fun ⟨_, left, unlisted⟩ => ?_
    have listed := h left
    omega

section
variable {s : State} {op i b n : Nat} (next : recordNext s op i b n) (listed : 0 < op ∧ op < 7)
include next listed

theorem recordNext_unskipped : s.dev.silent.batchSkip s.clk 512 = s.dev.silent := by
  obtain ⟨-, rfl, -, -, opcode, -⟩ := next
  refine Dev.batchSkip_none (fun _ => ?_) _ _
  change 0 < ((s.dev.batchRec (s.dev.n Rg.EM_NEXT 0)).getD 32 0).toNat ∧ ((s.dev.batchRec (s.dev.n Rg.EM_NEXT 0)).getD 32 0).toNat < 7
  rwa [opcode]

omit listed in
theorem recordNext_batchAt : s.dev.silent.batchAt op = true := by
  obtain ⟨running, rfl, left, -, opcode, -⟩ := next
  change (s.dev.n Od.EM_CMD_STATUS 0 0 == 1 && decide (s.dev.n Rg.EM_NEXT 0 < s.dev.n Rg.EM_RUN 0) &&
    ((s.dev.batchRec (s.dev.n Rg.EM_NEXT 0)).getD 32 0).toNat == op) = true
  rw [running, opcode, decide_eq_true left]
  simp

/-- A record of one entry takes its slots and completes. -/
theorem recordNext_batchRun (cost : s.dev.recCost op (s.dev.batchRec i) = some (b, n)) (f : Nat → List Byte → Dev → Nat × Dev) :
    s.dev.silent.batchRun s.clk op f = Dev.batchDone s.clk i (f i (s.dev.batchRec i) (s.dev.silent.slotsTaken b n)) := by
  have unskipped := recordNext_unskipped next listed
  have at_ := recordNext_batchAt next
  obtain ⟨-, rfl, -, -, -, -, slots, unserved⟩ := next
  have may : ¬ (s.dev.silent.emGrant s.clk 0 < s.dev.silent.n Rg.EM_SPENT b + n ∨ s.dev.silent.on Rg.EM_SERVED b = true) := by
    change ¬ (s.dev.emGrant s.clk 0 < s.dev.n Rg.EM_SPENT b + n ∨ s.dev.on Rg.EM_SERVED b = true)
    rw [unserved]; simp; omega
  have priced : s.dev.silent.recCost op (s.dev.silent.batchRec (s.dev.silent.n Rg.EM_NEXT 0)) = some (b, n) := cost
  simp only [Dev.batchRun, unskipped, at_, priced]
  exact if_neg may

/-- A scan that completes with a status completes its record; one whose opcode is no scan's has none. -/
theorem recordNext_batchScan (f : Nat → List Byte → Dev → Option Nat × Dev) {st : Nat} {e : Dev}
    (completes : f i (s.dev.batchRec i) s.dev.silent = (some st, e)) : s.dev.silent.batchScan s.clk op f = Dev.batchDone s.clk i (st, e) := by
  have unskipped := recordNext_unskipped next listed
  have at_ := recordNext_batchAt next
  obtain ⟨-, rfl, -⟩ := next
  have scan : f (s.dev.silent.n Rg.EM_NEXT 0) (s.dev.silent.batchRec (s.dev.silent.n Rg.EM_NEXT 0)) s.dev.silent = (some st, e) := completes
  simp only [Dev.batchScan, unskipped, at_, scan]
  rfl

end

/-- A record by its key, rightly formed, costs its key's bank two slots, and a READ one. -/
theorem Dev.recCost_byKey {d : Dev} {op key res : Nat} {r : List Byte} (named : key = recKey r) (word : res = recResult r) (typed : keyOk key = true)
    (admitted : resultOk res = true) (byKey : recAt r = false) : d.recCost op r = some (d.emBase key / 16384, if op = 3 then 1 else 2) := by
  subst named word
  simp [Dev.recCost, byKey, typed, admitted]

/-! SUPPORT. What a record of one entry does, of a device that has paid for it (R201). -/

section
variable {d : Dev} {k : Clk} {i key res p : Nat} (typed : keyOk key = true) (admitted : resultOk res = true)
include typed admitted

theorem Dev.emInsert_free (absent : d.emWay key = none) (readable : d.emBucketBad key = false) (free : (ways (d.emBase key)).find? d.emFree = some p) :
    d.emInsert k i key res false = (d.cmdChange k { pos := p, key := setBit key 63, result := res }).emFound i p false := by
  simp [Dev.emInsert, typed, admitted, absent, readable, free]

theorem Dev.emDelete_found (pos : Nat) (found : d.emWay key = some p) :
    d.emDelete k i key res pos false = (d.cmdChange k { pos := p, key := 0, result := 0 }).emFound i p false := by
  simp [Dev.emDelete, typed, admitted, found]

theorem Dev.emDelete_absent (pos : Nat) (absent : d.emWay key = none) (readable : d.emBucketBad key = false) :
    d.emDelete k i key res pos false = (2, d) := by
  simp [Dev.emDelete, typed, admitted, absent, readable]

theorem Dev.emRead_found (pos : Nat) (found : d.emWay key = some p) : d.emRead i key res pos false = d.emFound i p true := by
  simp [Dev.emRead, typed, admitted, found]

theorem Dev.emRead_absent (pos : Nat) (absent : d.emWay key = none) (readable : d.emBucketBad key = false) :
    d.emRead i key res pos false = (2, d) := by
  simp [Dev.emRead, typed, admitted, absent, readable]

theorem Dev.emReplace_found (pos : Nat) (found : d.emWay key = some p) : d.emReplace k i key res pos false =
    (d.cmdChange k { pos := p, key := if bit key 60 then setBit (d.emKey p) 60 else clearBit (d.emKey p) 60, result := res, hit := 2 }).emFound i p false := by
  simp [Dev.emReplace, typed, admitted, found]

theorem Dev.emReplace_absent (pos : Nat) (absent : d.emWay key = none) (readable : d.emBucketBad key = false) :
    d.emReplace k i key res pos false = (2, d) := by
  simp [Dev.emReplace, typed, admitted, absent, readable]

end

/-! SUPPORT. A record of one entry is done: DONE with the change it made, DONE with the entry it read, or NOT_FOUND (R202). -/

theorem Dev.slotsTaken_status {b : Nat} (bank : b < 256) (n : Nat) (d : Dev) :
    (d.slotsTaken b n).n Od.EM_CMD_STATUS 0 1 = d.n Od.EM_CMD_STATUS 0 1 :=
  Dev.n_touched (d.slotsTaken_touched bank n) (by decide) (by decide) (by decide)

/-- The slots taken leave what an entry's bucket holds. -/
theorem Dev.slotsTaken_bucket {b : Nat} (bank : b < 256) (n key : Nat) (d : Dev) : (d.slotsTaken b n).emBase key = d.emBase key ∧
    (d.slotsTaken b n).emWay key = d.emWay key ∧ (d.slotsTaken b n).emBucketBad key = d.emBucketBad key := by
  have seed := Dev.n_touched (d.slotsTaken_touched bank n) (o := Od.EM_HASH_SEED) (i := 0) (f := 0) (by decide) (by decide) (by decide)
  have objs := Dev.touched_objsOnly (d.slotsTaken_touched bank n)
  exact ⟨Dev.emBase_kept seed key, Dev.emWay_kept objs seed key, Dev.emBucketBad_kept objs seed key⟩

section
variable {s : State} {b i : Nat} (bank : b < 256) (index : i < 512)
include bank index

theorem recordDone_changed (plain : plainWords s.dev = true) (n p : Nat) (c : EmChange) {r : Nat × Dev}
    (does : r = ((s.dev.silent.slotsTaken b n).cmdChange s.clk c).emFound i p false) :
    recordDone i 1 s { s with dev := Dev.batchDone s.clk i r } ∧
      (Dev.batchDone s.clk i r).emPend = s.dev.emPend ++ [{ c with result := c.result / 2 ^ 17 * 2 ^ 17, flips := [] }] := by
  have taken := s.dev.silent.slotsTaken_touched bank n
  have counted := s.dev.silent.slotsTaken_status bank n
  generalize s.dev.silent.slotsTaken b n = d at does taken counted
  have unarmed : d.on Od.INTEG_FLIP_ARM 0 = false := plainWords_unarmed (Dev.plainWords_touched taken (by decide) plain)
  have status := (Dev.emChange_keeps s.clk 1 c unarmed).2 Od.EM_CMD_STATUS 0 1 (by decide)
  have pend : (d.cmdChange s.clk c).emPend = d.emPend ++ _ := Dev.emChange_emPend s.clk 1 c unarmed
  have em : (d.cmdChange s.clk c).em = d.em := Dev.emChange_em s.clk 1 c unarmed
  have sameStatus : (d.cmdChange s.clk c).n Od.EM_CMD_STATUS 0 1 = d.n Od.EM_CMD_STATUS 0 1 := congrArg Int.toNat status
  generalize d.cmdChange s.clk c = e at does pend em sameStatus
  have found := e.emFound_touched index p false
  have done : r = (1, r.2) := Prod.ext (by rw [does, Dev.emFound_fst]) rfl
  rw [← does] at found
  generalize r.2 = g at done found
  subst done
  constructor
  · refine recordDone_of index (by decide) ?_ ?_
    · rw [Dev.objsOnly_em (Dev.touched_objsOnly found), em, Dev.objsOnly_em (Dev.touched_objsOnly taken)]; rfl
    · rw [Dev.n_touched found (by decide) (by decide) (by decide), sameStatus, counted]; rfl
  · rw [Dev.objsOnly_emPend (g.batchDone_objsOnly s.clk i 1), Dev.objsOnly_emPend (Dev.touched_objsOnly found), pend,
      Dev.objsOnly_emPend (Dev.touched_objsOnly taken)]; rfl

theorem recordDone_read (n p : Nat) {r : Nat × Dev} (does : r = (s.dev.silent.slotsTaken b n).emFound i p true) :
    recordDone i 1 s { s with dev := Dev.batchDone s.clk i r } ∧ (Dev.batchDone s.clk i r).emPend = s.dev.emPend ∧
      (Dev.batchDone s.clk i r).n Od.EM_CMD_BATCH 0 (48 * i + 36) = p % 256 := by
  have taken := s.dev.silent.slotsTaken_touched bank n
  have counted := s.dev.silent.slotsTaken_status bank n
  generalize s.dev.silent.slotsTaken b n = d at does taken counted
  have found := d.emFound_touched index p true
  have place := d.n_emFound_pos i p true
  have done : r = (1, r.2) := Prod.ext (by rw [does, Dev.emFound_fst]) rfl
  rw [← does] at found place
  generalize r.2 = g at done found place
  subst done
  obtain ⟨-, -, -, bytes⟩ := g.batchDone_reads s.clk index (st := 1) (by decide)
  refine ⟨recordDone_of index (by decide) ?_ ?_, ?_, ?_⟩
  · rw [Dev.objsOnly_em (Dev.touched_objsOnly found), Dev.objsOnly_em (Dev.touched_objsOnly taken)]; rfl
  · rw [Dev.n_touched found (by decide) (by decide) (by decide), counted]; rfl
  · rw [Dev.objsOnly_emPend (g.batchDone_objsOnly s.clk i 1), Dev.objsOnly_emPend (Dev.touched_objsOnly found),
      Dev.objsOnly_emPend (Dev.touched_objsOnly taken)]; rfl
  · rw [bytes 36 (by decide) (by decide), place]

theorem recordDone_absent (n : Nat) {r : Nat × Dev} (does : r = (2, s.dev.silent.slotsTaken b n)) :
    recordDone i 2 s { s with dev := Dev.batchDone s.clk i r } ∧ (Dev.batchDone s.clk i r).emPend = s.dev.emPend := by
  have taken := s.dev.silent.slotsTaken_touched bank n
  have counted := s.dev.silent.slotsTaken_status bank n
  subst does
  generalize s.dev.silent.slotsTaken b n = d at taken counted
  constructor
  · refine recordDone_of index (by decide) ?_ (counted.trans rfl)
    rw [Dev.objsOnly_em (Dev.touched_objsOnly taken)]; rfl
  · rw [Dev.objsOnly_emPend (d.batchDone_objsOnly s.clk i 2), Dev.objsOnly_emPend (Dev.touched_objsOnly taken)]; rfl

end

/-! SUPPORT. The rows of a batch by their opcodes, for a record by its key (R201). -/

section
variable {s : State} (running : ready s = true) {i key res p : Nat} (named : key = recKey (s.dev.batchRec i))
  (word : res = recResult (s.dev.batchRec i)) (typed : keyOk key = true) (admitted : resultOk res = true) (byKey : recAt (s.dev.batchRec i) = false)
include running named word typed admitted byKey

omit running in
theorem recordNext_byKey {op : Nat} (next : recordNext s op i (s.dev.emBase key / 16384) (if op = 3 then 1 else 2)) (listed : 0 < op ∧ op < 7)
    (f : Nat → List Byte → Dev → Nat × Dev) : s.dev.silent.batchRun s.clk op f =
      Dev.batchDone s.clk i (f i (s.dev.batchRec i) (s.dev.silent.slotsTaken (s.dev.emBase key / 16384) (if op = 3 then 1 else 2))) :=
  recordNext_batchRun next listed (Dev.recCost_byKey named word typed admitted byKey) f

theorem exec_emInsert_next (next : recordNext s 1 i (s.dev.emBase key / 16384) 2) : exec .emInsert s = .next { s with
    dev := Dev.batchDone s.clk i ((s.dev.silent.slotsTaken (s.dev.emBase key / 16384) 2).emInsert s.clk i key res false) } := by
  refine State.run_eq running ?_
  rw [recordNext_byKey named word typed admitted byKey next (by decide), ← named, ← word, byKey]
  rfl

theorem exec_emDelete_next (next : recordNext s 2 i (s.dev.emBase key / 16384) 2) : exec .emDelete s = .next { s with
    dev := Dev.batchDone s.clk i ((s.dev.silent.slotsTaken (s.dev.emBase key / 16384) 2).emDelete s.clk i key res (recPos (s.dev.batchRec i)) false) } := by
  refine State.run_eq running ?_
  rw [recordNext_byKey named word typed admitted byKey next (by decide), ← named, ← word, byKey]
  rfl

theorem exec_emRead_next (next : recordNext s 3 i (s.dev.emBase key / 16384) 1) : exec .emRead s = .next { s with
    dev := Dev.batchDone s.clk i ((s.dev.silent.slotsTaken (s.dev.emBase key / 16384) 1).emRead i key res (recPos (s.dev.batchRec i)) false) } := by
  refine State.run_eq running ?_
  rw [recordNext_byKey named word typed admitted byKey next (by decide), ← named, ← word, byKey]
  rfl

theorem exec_emReplace_next (next : recordNext s 4 i (s.dev.emBase key / 16384) 2) : exec .emReplace s = .next { s with
    dev := Dev.batchDone s.clk i ((s.dev.silent.slotsTaken (s.dev.emBase key / 16384) 2).emReplace s.clk i key res (recPos (s.dev.batchRec i)) false) } := by
  refine State.run_eq running ?_
  rw [recordNext_byKey named word typed admitted byKey next (by decide), ← named, ← word, byKey]
  rfl

/-- INSERT of a key that its readable bucket lacks changes the lowest way that is free once the record's slots are taken. -/
theorem exec_emInsert_takes (plain : plainWords s.dev = true) (next : recordNext s 1 i (s.dev.emBase key / 16384) 2) (absent : s.dev.emWay key = none)
    (readable : s.dev.emBucketBad key = false)
    (free : (ways (s.dev.emBase key)).find? (s.dev.silent.slotsTaken (s.dev.emBase key / 16384) 2).emFree = some p) :
    ∃ t, exec .emInsert s = .next t ∧ recordDone i 1 s t ∧
      t.dev.emPend = s.dev.emPend ++ [{ pos := p, key := setBit key 63, result := res / 2 ^ 17 * 2 ^ 17 }] := by
  have ran := exec_emInsert_next running named word typed admitted byKey next
  obtain ⟨-, -, -, index, -, bank, -⟩ := next
  obtain ⟨base, way, bad⟩ := s.dev.silent.slotsTaken_bucket bank 2 key
  refine ⟨_, ran, recordDone_changed bank index plain 2 p { pos := p, key := setBit key 63, result := res } ?_⟩
  exact Dev.emInsert_free typed admitted (way.trans absent) (bad.trans readable) (by rw [base]; exact free)

section
variable (next : recordNext s 2 i (s.dev.emBase key / 16384) 2)
include next

theorem exec_emDelete_found (plain : plainWords s.dev = true) (found : s.dev.emWay key = some p) :
    ∃ t, exec .emDelete s = .next t ∧ recordDone i 1 s t ∧ t.dev.emPend = s.dev.emPend ++ [{ pos := p, key := 0, result := 0 }] := by
  have ran := exec_emDelete_next running named word typed admitted byKey next
  obtain ⟨-, -, -, index, -, bank, -⟩ := next
  obtain ⟨-, way, -⟩ := s.dev.silent.slotsTaken_bucket bank 2 key
  obtain ⟨done, pend⟩ := recordDone_changed bank index plain 2 p { pos := p, key := 0, result := 0 }
    (Dev.emDelete_found (k := s.clk) (i := i) typed admitted (recPos (s.dev.batchRec i)) (way.trans found))
  exact ⟨_, ran, done, by simpa only [Nat.zero_div, Nat.zero_mul] using pend⟩

theorem exec_emDelete_absent (absent : s.dev.emWay key = none) (readable : s.dev.emBucketBad key = false) :
    ∃ t, exec .emDelete s = .next t ∧ recordDone i 2 s t ∧ t.dev.emPend = s.dev.emPend := by
  have ran := exec_emDelete_next running named word typed admitted byKey next
  obtain ⟨-, -, -, index, -, bank, -⟩ := next
  obtain ⟨-, way, bad⟩ := s.dev.silent.slotsTaken_bucket bank 2 key
  refine ⟨_, ran, recordDone_absent bank index 2 ?_⟩
  exact Dev.emDelete_absent typed admitted _ (way.trans absent) (bad.trans readable)

end

section
variable (next : recordNext s 3 i (s.dev.emBase key / 16384) 1)
include next

theorem exec_emRead_found (found : s.dev.emWay key = some p) :
    ∃ t, exec .emRead s = .next t ∧ recordDone i 1 s t ∧ t.dev.emPend = s.dev.emPend ∧ t.dev.n Od.EM_CMD_BATCH 0 (48 * i + 36) = p % 256 := by
  have ran := exec_emRead_next running named word typed admitted byKey next
  obtain ⟨-, -, -, index, -, bank, -⟩ := next
  obtain ⟨-, way, -⟩ := s.dev.silent.slotsTaken_bucket bank 1 key
  refine ⟨_, ran, recordDone_read bank index 1 p ?_⟩
  exact Dev.emRead_found typed admitted _ (way.trans found)

theorem exec_emRead_absent (absent : s.dev.emWay key = none) (readable : s.dev.emBucketBad key = false) :
    ∃ t, exec .emRead s = .next t ∧ recordDone i 2 s t ∧ t.dev.emPend = s.dev.emPend := by
  have ran := exec_emRead_next running named word typed admitted byKey next
  obtain ⟨-, -, -, index, -, bank, -⟩ := next
  obtain ⟨-, way, bad⟩ := s.dev.silent.slotsTaken_bucket bank 1 key
  refine ⟨_, ran, recordDone_absent bank index 1 ?_⟩
  exact Dev.emRead_absent typed admitted _ (way.trans absent) (bad.trans readable)

end

section
variable (next : recordNext s 4 i (s.dev.emBase key / 16384) 2)
include next

theorem exec_emReplace_found (plain : plainWords s.dev = true) (found : s.dev.emWay key = some p) :
    ∃ t, exec .emReplace s = .next t ∧ recordDone i 1 s t ∧ t.dev.emPend = s.dev.emPend ++
      [⟨p, if bit key 60 then setBit (s.dev.emKey p) 60 else clearBit (s.dev.emKey p) 60, res / 2 ^ 17 * 2 ^ 17, 2, 0, []⟩] := by
  have ran := exec_emReplace_next running named word typed admitted byKey next
  obtain ⟨-, -, -, index, -, bank, -⟩ := next
  obtain ⟨-, way, -⟩ := s.dev.silent.slotsTaken_bucket bank 2 key
  have kw : (s.dev.silent.slotsTaken (s.dev.emBase key / 16384) 2).emKey p = s.dev.emKey p :=
    Dev.objsOnly_emKey (Dev.touched_objsOnly (s.dev.silent.slotsTaken_touched bank 2)) p
  refine ⟨_, ran, recordDone_changed bank index plain 2 p
    { pos := p, key := if bit key 60 then setBit (s.dev.emKey p) 60 else clearBit (s.dev.emKey p) 60, result := res, hit := 2 } ?_⟩
  rw [Dev.emReplace_found typed admitted _ (way.trans found), kw]

theorem exec_emReplace_absent (absent : s.dev.emWay key = none) (readable : s.dev.emBucketBad key = false) :
    ∃ t, exec .emReplace s = .next t ∧ recordDone i 2 s t ∧ t.dev.emPend = s.dev.emPend := by
  have ran := exec_emReplace_next running named word typed admitted byKey next
  obtain ⟨-, -, -, index, -, bank, -⟩ := next
  obtain ⟨-, way, bad⟩ := s.dev.silent.slotsTaken_bucket bank 2 key
  refine ⟨_, ran, recordDone_absent bank index 2 ?_⟩
  exact Dev.emReplace_absent typed admitted _ (way.trans absent) (bad.trans readable)

end
end
end Sys2Proof.Machine

namespace Sys2Proof.Machine
open Sys2Proof.Safety

/-! SUPPORT. A SEARCH or FLUSH whose scan has visited every bank (R201). -/

/-- Such a scan goes nowhere further. -/
theorem Dev.scanGo_through {d : Dev} (through : ∀ b, b < 256 → d.n Rg.EM_SCAN b = 2048) (k : Clk) (op : Nat) (hits : Dev → Nat → List Nat) :
    d.scanGo k op hits = (true, d) := by
  have stays (turn : Dev → Nat → Dev) (still : ∀ b, b < 256 → turn d b = d) : d.each (List.range 256) turn = d :=
    Dev.each_keeps (P := (· = d)) _ (fun e b bank same => by rw [same]; exact still b (List.mem_range.mp bank)) rfl
  unfold Dev.scanGo
  simp only
  rw [stays _ fun b bank => if_pos (.inl (through b bank).ge)]
  exact Prod.ext (List.all_eq_true.mpr fun b bank => beq_iff_eq.mpr (through b (List.mem_range.mp bank))) rfl

/-- The registers of a scan. -/
def scanObjs : List Obj := [Rg.EM_SCAN, Rg.EM_BEST, Rg.EM_BEST_KEY, Rg.EM_BEST_RESULT, Rg.EM_BEST_BITS, Rg.EM_REMOVED]

theorem Dev.scanEnd_objsOnly (d : Dev) : d.objsOnly d.scanEnd := Dev.objsOnly_each scanObjs _ (fun e _ _ => Dev.objsOnly_refl e) d

theorem Dev.n_scanEnd_other (d : Dev) {q : Obj} (other : ∀ o ∈ scanObjs, q.idx * 256 + q.sub ≠ o.idx * 256 + o.sub) {j f : Nat} (hj : j < 65536)
    (hf : f < 65536) : d.scanEnd.n q j f = d.n q j f :=
  Dev.each_keeps (P := fun e => e.n q j f = d.n q j f) scanObjs
    (fun e o known same => (e.n_clearObj_other (other o known) hj hf).trans same) rfl

/-- A scan's record is done, its answer e written back. -/
theorem recordDone_scanned {s : State} {i st : Nat} (index : i < 512) (status : st < 256) {e : Dev} (answer : s.dev.silent.touched [Od.EM_CMD_BATCH] e) :
    recordDone i st s { s with dev := Dev.batchDone s.clk i (st, e.scanEnd) } ∧
      (Dev.batchDone s.clk i (st, e.scanEnd)).emPend = s.dev.emPend ∧
      ∀ j, j < 48 → j ≠ 34 → (Dev.batchDone s.clk i (st, e.scanEnd)).n Od.EM_CMD_BATCH 0 (48 * i + j) = e.n Od.EM_CMD_BATCH 0 (48 * i + j) := by
  have objs := Dev.objsOnly_trans (Dev.touched_objsOnly answer) e.scanEnd_objsOnly
  obtain ⟨-, -, -, bytes⟩ := e.scanEnd.batchDone_reads s.clk index status
  refine ⟨recordDone_of index status ((Dev.objsOnly_em objs).trans rfl) ?_, ?_, fun j hj other => ?_⟩
  · rw [e.n_scanEnd_other (by decide) (by decide) (by decide), Dev.n_touched answer (by decide) (by decide) (by decide)]; rfl
  · rw [Dev.objsOnly_emPend (e.scanEnd.batchDone_objsOnly s.clk i st), Dev.objsOnly_emPend objs]; rfl
  · rw [bytes j hj other, e.n_scanEnd_other (by decide) (by decide) (by omega)]

/-- The best match of a SEARCH is written back: its words, its bits and its position p (R201). -/
def Dev.searchAnswer (i p : Nat) (d : Dev) : Dev :=
  ((d.batchPut i 0 (bytesLE 8 (d.n Rg.EM_BEST_KEY 0) ++ bytesLE 8 (d.n Rg.EM_BEST_RESULT 0))).batchPut i 35
    [BitVec.ofNat 8 (d.n Rg.EM_BEST_BITS 0)]).batchPut i 36 (bytesLE 4 p)

theorem Dev.searchAnswer_touched {i : Nat} (index : i < 512) (p : Nat) (d : Dev) : d.touched [Od.EM_CMD_BATCH] (d.searchAnswer i p) :=
  Dev.touched_mono (Dev.touched_trans (Dev.touched_trans (Dev.batchPut_touched (by simp; omega) d) (Dev.batchPut_touched (by simp; omega) _))
    (Dev.batchPut_touched (by simp; omega) _)) (by simp)

section
variable {d : Dev} (through : ∀ b, b < 256 → d.n Rg.EM_SCAN b = 2048) (k : Clk) (i km rm : Nat) {key res : Nat}
include through

theorem Dev.emSearch_none {pos : Nat} (good : scanBad key res pos = false) (best : d.n Rg.EM_BEST 0 = 0) :
    d.emSearch k i key res km rm pos = (some 2, d.scanEnd) := by
  simp [Dev.emSearch, good, Dev.scanGo_through through, best]

theorem Dev.emSearch_best {pos p : Nat} (good : scanBad key res pos = false) (best : d.n Rg.EM_BEST 0 = p + 1) :
    d.emSearch k i key res km rm pos = (some 1, (d.searchAnswer i p).scanEnd) := by
  simp [Dev.emSearch, good, Dev.scanGo_through through, best, Dev.searchAnswer]

theorem Dev.emFlush_through (statics : Bool) (good : scanBad key res 0 = false) :
    d.emFlush k i key res km rm statics = (some 1, (d.batchPut i 40 (bytesLE 4 (d.n Rg.EM_REMOVED 0))).scanEnd) := by
  simp [Dev.emFlush, good, Dev.scanGo_through through]

end

section
variable {s : State} (running : ready s = true) {i : Nat} (through : ∀ b, b < 256 → s.dev.n Rg.EM_SCAN b = 2048)
include running through

section
variable (next : recordNext s 5 i 0 0)
  (good : scanBad (recKey (s.dev.batchRec i)) (recResult (s.dev.batchRec i)) (recPos (s.dev.batchRec i)) = false)
include next good

theorem exec_emSearch_none (best : s.dev.n Rg.EM_BEST 0 = 0) :
    ∃ t, exec .emSearch s = .next t ∧ recordDone i 2 s t ∧ t.dev.emPend = s.dev.emPend := by
  have ran : exec .emSearch s = _ := State.run_eq running (recordNext_batchScan next (by decide) _
    (Dev.emSearch_none (d := s.dev.silent) through s.clk i (recKeyMask (s.dev.batchRec i)) (recResultMask (s.dev.batchRec i)) good best))
  obtain ⟨-, -, -, index, -⟩ := next
  obtain ⟨done, pend, -⟩ := recordDone_scanned index (st := 2) (by decide) (Dev.touched_refl _ s.dev.silent)
  exact ⟨_, ran, done, pend⟩

theorem exec_emSearch_best {p : Nat} (best : s.dev.n Rg.EM_BEST 0 = p + 1) :
    ∃ t, exec .emSearch s = .next t ∧ recordDone i 1 s t ∧ t.dev.emPend = s.dev.emPend ∧ t.dev.n Od.EM_CMD_BATCH 0 (48 * i + 36) = p % 256 := by
  have ran : exec .emSearch s = _ := State.run_eq running (recordNext_batchScan next (by decide) _
    (Dev.emSearch_best (d := s.dev.silent) through s.clk i (recKeyMask (s.dev.batchRec i)) (recResultMask (s.dev.batchRec i)) good best))
  obtain ⟨-, -, -, index, -⟩ := next
  obtain ⟨done, pend, bytes⟩ := recordDone_scanned index (st := 1) (by decide) (s.dev.silent.searchAnswer_touched index p)
  refine ⟨_, ran, done, pend, (bytes 36 (by decide) (by decide)).trans ?_⟩
  rw [Dev.searchAnswer, Dev.n_batchPut, if_pos (by simp)]
  simp [bytesLE]

end

theorem exec_emFlush_through (next : recordNext s 6 i 0 0)
    (good : scanBad (recKey (s.dev.batchRec i)) (recResult (s.dev.batchRec i)) 0 = false) :
    ∃ t, exec .emFlush s = .next t ∧ recordDone i 1 s t ∧ t.dev.emPend = s.dev.emPend ∧
      t.dev.n Od.EM_CMD_BATCH 0 (48 * i + 40) = s.dev.n Rg.EM_REMOVED 0 % 256 := by
  have ran : exec .emFlush s = _ := State.run_eq running (recordNext_batchScan next (by decide) _
    (Dev.emFlush_through (d := s.dev.silent) through s.clk i (recKeyMask (s.dev.batchRec i)) (recResultMask (s.dev.batchRec i))
      (bit ((s.dev.batchRec i).getD 33 0).toNat 1) good))
  obtain ⟨-, -, -, index, -⟩ := next
  obtain ⟨done, pend, bytes⟩ := recordDone_scanned index (st := 1) (by decide)
    (s.dev.silent.batchPut_touched (i := i) (off := 40) (bs := bytesLE 4 (s.dev.silent.n Rg.EM_REMOVED 0)) (by simp; omega))
  refine ⟨_, ran, done, pend, (bytes 40 (by decide) (by decide)).trans ?_⟩
  rw [Dev.n_batchPut, if_pos (by simp)]
  simp [bytesLE]

end

/-! SUPPORT. The end of a batch (R204). -/

theorem exec_emBatchDone_over {s : State} (running : ready s = true) (batch : s.dev.n Od.EM_CMD_STATUS 0 0 = 1)
    (done : s.dev.n Rg.EM_NEXT 0 = s.dev.n Rg.EM_RUN 0) (visible : s.dev.n Rg.EM_CHANGED 0 ≤ s.clk.tick) :
    ∃ t, exec .emBatchDone s = .next t ∧ onlyWrites [Od.EM_CMD_STATUS.key 0 0, Od.EM_CMD_DONE_TICK.key 0 0] s t ∧
      t.dev.n Od.EM_CMD_STATUS 0 0 = 0 ∧ t.dev.get Od.EM_CMD_DONE_TICK 0 = Od.EM_CMD_DONE_TICK.ty.norm (s.clk.tick : Nat) := by
  have unskipped : s.dev.silent.batchSkip s.clk 512 = s.dev.silent :=
    Dev.batchSkip_none (d := s.dev.silent) (fun left => absurd done left.ne) _ _
  have ends : s.dev.silent.emBatchDone s.clk = (s.dev.silent.put Od.EM_CMD_STATUS 0 0 0).put Od.EM_CMD_DONE_TICK 0 s.clk.tick := by
    unfold Dev.emBatchDone
    simp only [unskipped]
    exact if_pos ⟨batch, done, visible⟩
  refine ⟨_, State.run_eq running ends, onlyWrites_of (Dev.wrote_put (Dev.wrote_put (Dev.wrote_silent _ _) _ _ _ _ (by simp)) _ _ _ _ (by simp)), ?_,
    Dev.get_put_same _ _ _ _ _⟩
  exact (Dev.n_put_scalar _ (by decide) (by decide) (by decide) _).trans (Dev.n_put_same _ _ _ _ _ rfl)

end Sys2Proof.Machine

namespace Sys2Proof.Machine
open Sys2Proof.Safety

/-! SUPPORT. A count of retired positions beyond its type: the list of positions reaches into the registers that lie above it in the store. -/

/-- A position that no value of the store spells is not retired. -/
theorem Dev.retired_false {d : Dev} {p : Nat} (unstored : ∀ y ∈ d.objs, y.2.toNat ≠ p) (position : p < 4194304) : d.retired p = false := by
  refine Bool.eq_false_iff.mpr fun retired => ?_
  obtain ⟨e, -, listed⟩ := Dev.retired_iff.mp retired
  unfold Dev.n Dev.get Store.rd at listed
  cases found : d.objs.find (Od.INTEG_EM_RETIRED_LIST.key 0 e) with
  | none =>
    have free : Od.INTEG_EM_RETIRED_LIST.default 0 e = 4294967295 := by cases e <;> rfl
    rw [found, Option.getD_none, free] at listed
    omega
  | some v =>
    rw [found] at listed
    exact unstored _ (Store.mem_of_find found) listed

theorem Dev.emFree_iff {d : Dev} {p : Nat} : d.emFree p = true ↔ bit (d.emKey p) 63 = false ∧ d.retired p = false := by
  simp [Dev.emFree]

/-- The lowest way of a bucket, where it is free. -/
theorem find_ways_first {base : Nat} {f : Nat → Bool} (free : f base = true) : (ways base).find? f = some base :=
  List.find?_cons_of_pos free

/-- The second, where the lowest is not free. -/
theorem find_ways_second {base : Nat} {f : Nat → Bool} (taken : f base = false) (free : f (base + 1) = true) : (ways base).find? f = some (base + 1) :=
  (List.find?_cons_of_neg (by simp [taken])).trans (List.find?_cons_of_pos free)

/-- The key word of MAC address 0 in filtering database 87, whose bucket begins at 9944 in bank 0 (R176, R177). -/
def fidKey : Nat := 2 ^ 61 + 87 * 2 ^ 48

/-- A device whose INTEG.EM.RETIRED_COUNT, a U16, holds 2⁶⁰, which no write of the object leaves (`Dev.get_set_same`), and in bank 0 has taken 9942
slots of a kind, counted in o, of 10000 granted. -/
def overcounted (o : Obj) (kind : Nat) (more : List (Nat × Int)) : Dev :=
  { objs := [(Od.TICK_PLAN_EM.key 0 kind, 10000), (Od.INTEG_EM_RETIRED_COUNT.key 0 0, 1152921504606846976), (o.key 0 0, 9942)] ++ more }

/-- Its batch of one record, an INSERT of this key. -/
def insertState : State :=
  { dev := overcounted Rg.EM_SPENT 0 [(Od.EM_CMD_BATCH.key 0 6, 87), (Od.EM_CMD_BATCH.key 0 7, 32), (Od.EM_CMD_BATCH.key 0 32, 1),
      (Od.EM_CMD_STATUS.key 0 0, 1), (Rg.EM_RUN.key 0 0, 1)] }

theorem insertState_free : (ways (insertState.dev.emBase fidKey)).find? insertState.dev.emFree = some 9944 := by
  have base : insertState.dev.emBase fidKey = 9944 := by decide +kernel
  rw [base]
  exact find_ways_first (Dev.emFree_iff.mpr ⟨by decide, Dev.retired_false (by decide) (by decide)⟩)

/-- The record's two slots spell the lowest way of its bucket where the list of retired positions reaches. -/
theorem insertState_taken : (ways (insertState.dev.emBase fidKey)).find?
    (insertState.dev.silent.slotsTaken (insertState.dev.emBase fidKey / 16384) 2).emFree = some 9945 := by
  have base : insertState.dev.emBase fidKey = 9944 := by decide +kernel
  rw [base]
  refine find_ways_second (Bool.eq_false_iff.mpr fun free => ?_) (Dev.emFree_iff.mpr ⟨by decide, Dev.retired_false (by decide) (by decide)⟩)
  obtain ⟨-, unretired⟩ := Dev.emFree_iff.mp free
  refine absurd (Dev.retired_iff.mpr ⟨Rg.EM_SPENT.key 0 0 - Od.INTEG_EM_RETIRED_LIST.key 0 0, ?_, ?_⟩) (Bool.eq_false_iff.mp unretired)
  · decide
  · decide

theorem insertState_next : recordNext insertState 1 0 (insertState.dev.emBase fidKey / 16384) 2 := by unfold recordNext; decide +kernel

/-- Refutes O34 by a store that holds a value beyond its object's type, which `ready` does not bar: the list of retired positions then reaches into the
count of command slots taken, so that the slots of an INSERT themselves retire the way that was free. Without such a value the statement holds:
`tableBatches_of_countTyped`. -/
theorem not_tableBatches : ¬ Obligations.TableBatches := by
  intro h
  obtain ⟨records, -⟩ := h insertState 0 (by decide) (by decide)
  obtain ⟨insert, -⟩ := records fidKey 0 9944 (by decide) (by decide) (by decide) (by decide) (by decide)
  obtain ⟨t, ran, -, pend⟩ := insert insertState_next (by decide) (by decide) insertState_free
  obtain ⟨u, ran', -, pend'⟩ := exec_emInsert_takes (s := insertState) (key := fidKey) (res := 0) (by decide) (by decide) (by decide) (by decide)
    (by decide) (by decide) (by decide) insertState_next (by decide) (by decide) insertState_taken
  cases ran.symm.trans ran'
  rw [pend'] at pend
  exact absurd pend (by decide)

/-- The statement that `not_tableBatches` refutes, with the hypothesis it lacks: the count of retired positions is of its type. -/
theorem tableBatches_of_countTyped (s : State) (i : Nat) (running : ready s = true) (plain : plainWords s.dev = true)
    (typed : s.dev.n Od.INTEG_EM_RETIRED_COUNT 0 ≤ 65536) :
    (∀ key res p, key = recKey (s.dev.batchRec i) → res = recResult (s.dev.batchRec i) → keyOk key = true → resultOk res = true →
      recAt (s.dev.batchRec i) = false →
      (recordNext s 1 i (s.dev.emBase key / 16384) 2 → s.dev.emWay key = none → s.dev.emBucketBad key = false →
        (ways (s.dev.emBase key)).find? s.dev.emFree = some p →
        ∃ t, exec .emInsert s = .next t ∧ recordDone i 1 s t ∧
          t.dev.emPend = s.dev.emPend ++ [{ pos := p, key := setBit key 63, result := res / 2 ^ 17 * 2 ^ 17 }]) ∧
      (recordNext s 2 i (s.dev.emBase key / 16384) 2 →
        (s.dev.emWay key = some p →
          ∃ t, exec .emDelete s = .next t ∧ recordDone i 1 s t ∧ t.dev.emPend = s.dev.emPend ++ [{ pos := p, key := 0, result := 0 }]) ∧
        (s.dev.emWay key = none → s.dev.emBucketBad key = false →
          ∃ t, exec .emDelete s = .next t ∧ recordDone i 2 s t ∧ t.dev.emPend = s.dev.emPend)) ∧
      (recordNext s 3 i (s.dev.emBase key / 16384) 1 →
        (s.dev.emWay key = some p →
          ∃ t, exec .emRead s = .next t ∧ recordDone i 1 s t ∧ t.dev.emPend = s.dev.emPend ∧ t.dev.n Od.EM_CMD_BATCH 0 (48 * i + 36) = p % 256) ∧
        (s.dev.emWay key = none → s.dev.emBucketBad key = false →
          ∃ t, exec .emRead s = .next t ∧ recordDone i 2 s t ∧ t.dev.emPend = s.dev.emPend)) ∧
      (recordNext s 4 i (s.dev.emBase key / 16384) 2 →
        (s.dev.emWay key = some p →
          ∃ t, exec .emReplace s = .next t ∧ recordDone i 1 s t ∧ t.dev.emPend = s.dev.emPend ++
            [⟨p, if bit key 60 then setBit (s.dev.emKey p) 60 else clearBit (s.dev.emKey p) 60, res / 2 ^ 17 * 2 ^ 17, 2, 0, []⟩]) ∧
        (s.dev.emWay key = none → s.dev.emBucketBad key = false →
          ∃ t, exec .emReplace s = .next t ∧ recordDone i 2 s t ∧ t.dev.emPend = s.dev.emPend))) ∧
    ((∀ b, b < 256 → s.dev.n Rg.EM_SCAN b = 2048) →
      (recordNext s 5 i 0 0 → scanBad (recKey (s.dev.batchRec i)) (recResult (s.dev.batchRec i)) (recPos (s.dev.batchRec i)) = false →
        (s.dev.n Rg.EM_BEST 0 = 0 → ∃ t, exec .emSearch s = .next t ∧ recordDone i 2 s t ∧ t.dev.emPend = s.dev.emPend) ∧
        (∀ p, s.dev.n Rg.EM_BEST 0 = p + 1 →
          ∃ t, exec .emSearch s = .next t ∧ recordDone i 1 s t ∧ t.dev.emPend = s.dev.emPend ∧ t.dev.n Od.EM_CMD_BATCH 0 (48 * i + 36) = p % 256)) ∧
      (recordNext s 6 i 0 0 → scanBad (recKey (s.dev.batchRec i)) (recResult (s.dev.batchRec i)) 0 = false →
        ∃ t, exec .emFlush s = .next t ∧ recordDone i 1 s t ∧ t.dev.emPend = s.dev.emPend ∧
          t.dev.n Od.EM_CMD_BATCH 0 (48 * i + 40) = s.dev.n Rg.EM_REMOVED 0 % 256)) ∧
    (s.dev.n Od.EM_CMD_STATUS 0 0 = 1 → s.dev.n Rg.EM_NEXT 0 = s.dev.n Rg.EM_RUN 0 → s.dev.n Rg.EM_CHANGED 0 ≤ s.clk.tick →
      ∃ t, exec .emBatchDone s = .next t ∧ onlyWrites [Od.EM_CMD_STATUS.key 0 0, Od.EM_CMD_DONE_TICK.key 0 0] s t ∧
        t.dev.n Od.EM_CMD_STATUS 0 0 = 0 ∧ t.dev.get Od.EM_CMD_DONE_TICK 0 = Od.EM_CMD_DONE_TICK.ty.norm (s.clk.tick : Nat)) := by
  refine ⟨fun key res p named word keyed admitted byKey => ⟨fun next absent readable free => ?_, fun next => ⟨?_, ?_⟩, fun next => ⟨?_, ?_⟩,
    fun next => ⟨?_, ?_⟩⟩, fun through => ⟨fun next good => ⟨?_, fun p => ?_⟩, ?_⟩, exec_emBatchDone_over running⟩
  · refine exec_emInsert_takes running named word keyed admitted byKey plain next absent readable ?_
    obtain ⟨-, -, -, -, -, bank, -⟩ := next
    rwa [Dev.emFree_touched (s.dev.silent.slotsTaken_touched bank 2) typed (by decide)]
  · exact exec_emDelete_found running named word keyed admitted byKey next plain
  · exact exec_emDelete_absent running named word keyed admitted byKey next
  · exact exec_emRead_found running named word keyed admitted byKey next
  · exact exec_emRead_absent running named word keyed admitted byKey next
  · exact exec_emReplace_found running named word keyed admitted byKey next plain
  · exact exec_emReplace_absent running named word keyed admitted byKey next
  · exact exec_emSearch_none running through next good
  · exact exec_emSearch_best running through next good
  · exact exec_emFlush_through running through

end Sys2Proof.Machine

namespace Sys2Proof.Machine
open Sys2Proof.Safety

/-! SUPPORT. Grants and banks of the exact-match table (R46, R177). -/

/-- Writes of other objects leave the grants of a tick. -/
theorem Dev.emGrant_touched {objs : List Obj} {d e : Dev} (h : d.touched objs e)
    (apart : ∀ q ∈ objs, Od.TICK_PLAN_EM.idx * 256 + Od.TICK_PLAN_EM.sub ≠ q.idx * 256 + q.sub) (k : Clk) {x : Nat} (consumer : x < 5) :
    e.emGrant k x = d.emGrant k x := by
  have grant (y : Nat) (hy : y < 5) : e.n Od.TICK_PLAN_EM 0 y = d.n Od.TICK_PLAN_EM 0 y := Dev.n_touched h (by decide) (by omega) apart
  have grants : e.elems Od.TICK_PLAN_EM 0 5 = d.elems Od.TICK_PLAN_EM 0 5 :=
    List.map_congr_left fun y member => grant y (List.mem_range.mp member)
  simp only [Dev.emGrant, Dev.grantOf, grant x consumer, grants]

theorem Dev.emBase_bank (d : Dev) (key : Nat) : d.emBase key / 16384 < 256 := by
  unfold Dev.emBase
  dsimp only
  omega

/-! SUPPORT. A change of an entry where the count of retired positions is of its type. -/

theorem Dev.n_emChange_typed (k : Clk) (origin : Nat) (c : EmChange) {d : Dev} (unarmed : d.on Od.INTEG_FLIP_ARM 0 = false)
    (typed : d.n Od.INTEG_EM_RETIRED_COUNT 0 ≤ 65536) {o : Obj} {i f : Nat} (hi : i < 65536) (hf : f < 65536)
    (other : o.idx * 256 + o.sub ≠ Od.INTEG_EM_RETIRED_LIST.idx * 256 + Od.INTEG_EM_RETIRED_LIST.sub) :
    (d.emChange k origin c).n o i f = d.n o i f := by
  obtain ⟨l, changed⟩ := Dev.emChange_unarmed k origin c unarmed
  have settled : (d.changePends c l).touched [Od.INTEG_EM_RETIRED_LIST] ((d.changePends c l).settleRetire c.pos) := by
    refine Dev.each_keeps (P := (d.changePends c l).touched [Od.INTEG_EM_RETIRED_LIST]) _ (fun e x member kept => ?_) (Dev.touched_refl _ _)
    have place : x < d.n Od.INTEG_EM_RETIRED_COUNT 0 := List.mem_range.mp member
    split
    · exact Dev.touched_put kept (by simp) (by decide) (by omega) _
    · exact kept
  rw [changed]
  split
  · rfl
  · exact (Dev.n_touched settled hi hf (List.forall_mem_singleton.mpr other)).trans rfl

/-! SUPPORT. The learning of a tick (R191, R192). -/

/-- A 64-bit count reads its sum, saturated. -/
theorem Dev.n_bump_word (d : Dev) {o : Obj} (word : o.ty = .u64) (i n : Nat) : (d.bump o i n).n o i = satAdd o.ty.top (d.n o i) n :=
  Dev.n_bump_same d o i n (by rw [word]; exact fun _ => ObjTy.norm_u64_top)

/-- A request takes two learning slots of bank b (R191). -/
def Dev.learnPaid (b : Nat) (d : Dev) : Dev :=
  (d.put Rg.LEARN_SPENT b (d.n Rg.LEARN_SPENT b + 2)).put Rg.EM_SERVED b (max 2 (d.n Rg.EM_SERVED b))

/-- A request is carried out where its bank has learning slots left, else it overflows (R191). -/
def Dev.learnTurn (k : Clk) (d : Dev) (r : LearnReq) : Dev :=
  if d.emGrant k 1 < d.n Rg.LEARN_SPENT (d.emBase r.key / 16384) + 2 then d.bump Od.EM_LEARN_OVERFLOW 0
  else (d.learnPaid (d.emBase r.key / 16384)).learnOne k r

/-- The learning of a tick with no broadcast record waiting, outside maintenance. -/
theorem Dev.learnAll_live (k : Clk) {d : Dev} (live : d.maint = false) (unsynced : d.matApply = []) : d.learnAll k =
    (({ d with learn := d.learn.filter fun r => decide (k.tick ≤ r.tick) } : Dev).bump Od.EM_LEARN_OVERFLOW 0
      (d.learn.filter fun r => decide (r.tick + 1 < k.tick)).length).each (learnOrder (d.learn.filter fun r => decide (r.tick + 1 = k.tick)))
        (Dev.learnTurn k) := by
  have synced (e : Dev) : e.each (List.range d.matApply.length) (fun d _ => d.syncNext k) = e := by rw [unsynced]; rfl
  have awake : ¬ ({ d with learn := d.learn.filter fun r => decide (k.tick ≤ r.tick) } : Dev).maint = true := Bool.eq_false_iff.mp live
  unfold Dev.learnAll
  dsimp only
  rw [if_neg awake, synced]
  rfl

/-- The learning of a tick before its requests: none waits any more, none of an earlier tick overflows. -/
def Dev.learnBegun (d : Dev) : Dev := ({ d with learn := [] } : Dev).bump Od.EM_LEARN_OVERFLOW 0 0

theorem Dev.learnAll_one {d : Dev} {k : Clk} {r : LearnReq} (one : d.learn = [r]) (before : r.tick + 1 = k.tick) (live : d.maint = false)
    (unsynced : d.matApply = []) : d.learnAll k = d.learnBegun.learnTurn k r := by
  have old : (d.learn.filter fun r => decide (r.tick + 1 < k.tick)) = [] := by rw [one]; simp; omega
  have due : (d.learn.filter fun r => decide (r.tick + 1 = k.tick)) = [r] := by rw [one]; simp [before]
  have ahead : (d.learn.filter fun r => decide (k.tick ≤ r.tick)) = [] := by rw [one]; simp; omega
  rw [Dev.learnAll_live k live unsynced, old, due, ahead]
  rfl

theorem Dev.learnAll_none {d : Dev} (none : d.learn = []) (unsynced : d.matApply = []) (k : Clk) :
    d.wrote [Od.EM_LEARN_OVERFLOW.key 0 0] (d.learnAll k) := by
  have nothing (f : LearnReq → Bool) : d.learn.filter f = [] := by rw [none]; rfl
  have same : { d with learn := d.learn.filter fun r => decide (k.tick ≤ r.tick) } = d := by rw [nothing, ← none]
  cases live : d.maint with
  | true =>
    have stays : d.learnAll k = { d with learn := d.learn.filter fun r => decide (k.tick ≤ r.tick) } := if_pos live
    rw [stays, same]
    exact Dev.wrote_refl _ d
  | false =>
    rw [Dev.learnAll_live k live unsynced, same, nothing, nothing]
    exact Dev.wrote_bump (Dev.wrote_refl _ d) _ _ _ _ (by simp)

/-! SUPPORT. One request with slots left, of a key that its bucket lacks (R192). -/

theorem Dev.learnBegun_touched (d : Dev) : ({ d with learn := [] } : Dev).touched [Od.EM_LEARN_OVERFLOW] d.learnBegun :=
  Dev.touched_put (Dev.touched_refl _ _) (by simp) (by decide) (by decide) _

theorem Dev.learnPaid_touched {b : Nat} (bank : b < 256) (d : Dev) : d.touched [Rg.LEARN_SPENT, Rg.EM_SERVED] (d.learnPaid b) :=
  Dev.touched_put (Dev.touched_put (Dev.touched_refl _ _) (by simp) (by omega) (by decide) _) (by simp) (by omega) (by decide) _

theorem Dev.n_learnPaid_spent {b : Nat} (bank : b < 256) (d : Dev) : (d.learnPaid b).n Rg.LEARN_SPENT b = d.n Rg.LEARN_SPENT b + 2 :=
  (Dev.n_put_bank _ bank (by decide) (by omega) (by decide) _).trans (Dev.n_put_same _ _ _ _ _ rfl)

/-- A word learned has no reserved bit (R175). -/
theorem Dev.learnedResult_whole (d : Dev) (port : Nat) : d.learnedResult port / 2 ^ 17 * 2 ^ 17 = d.learnedResult port := by
  unfold Dev.learnedResult
  omega

theorem Dev.ownUpdate_alone {d : Dev} (alone : d.on Od.MAT_ENABLE 0 = false) (k : Clk) (op key result : Nat) : d.ownUpdate k op key result = d := by
  simp [Dev.ownUpdate, alone]

/-- The change that learning makes of way p (R192). -/
def Dev.learnedChange (r : LearnReq) (p : Nat) (d : Dev) : EmChange := { pos := p, key := r.key, result := d.learnedResult r.port, hit := 1 }

section
variable (k : Clk) {d : Dev} (unarmed : d.on Od.INTEG_FLIP_ARM 0 = false) (alone : d.on Od.MAT_ENABLE 0 = false)
include unarmed alone

/-- A request for a key that its readable bucket lacks takes the lowest free way, and counts. -/
theorem Dev.learnOne_inserts {r : LearnReq} {p : Nat} (new : r.move = false) (absent : d.emWay r.key = none) (readable : d.emBucketBad r.key = false)
    (free : (ways (d.emBase r.key)).find? d.emFree = some p) :
    d.learnOne k r = (d.emChange k 2 (d.learnedChange r p)).bump Od.EM_LEARN_INSERTS 0 := by
  have kept : (d.emChange k 2 (d.learnedChange r p)).get Od.MAT_ENABLE 0 0 = d.get Od.MAT_ENABLE 0 0 :=
    (Dev.emChange_keeps k 2 (d.learnedChange r p) unarmed).2 Od.MAT_ENABLE 0 0 (by decide)
  have still : ((d.emChange k 2 (d.learnedChange r p)).bump Od.EM_LEARN_INSERTS 0).on Od.MAT_ENABLE 0 = false := by
    rw [Dev.bump, Dev.on_put_other _ _ _ _ _ _ _ _ (by decide), Dev.on, Dev.n, kept]
    exact alone
  have change : d.learnOne k r =
      ((d.emChange k 2 (d.learnedChange r p)).bump Od.EM_LEARN_INSERTS 0).ownUpdate k 1 r.key (d.learnedResult r.port) := by
    simp [Dev.learnOne, absent, new, readable, free, Dev.learnedChange]
  rw [change, Dev.ownUpdate_alone still]

end
end Sys2Proof.Machine

namespace Sys2Proof.Machine
open Sys2Proof.Safety

/-! SUPPORT. LEARNING_EXECUTE of one request (R191, R192). -/

/-- The objects of a request carried out, besides its change. -/
def learnObjs : List Obj := [Od.EM_LEARN_OVERFLOW, Rg.LEARN_SPENT, Rg.EM_SERVED]

theorem Dev.learnBegun_paid_touched {b : Nat} (bank : b < 256) (d : Dev) :
    ({ d with learn := [] } : Dev).touched learnObjs (d.learnBegun.learnPaid b) :=
  Dev.touched_trans d.learnBegun_touched (Dev.learnPaid_touched bank _)

theorem Dev.learnObjs_touched_plain {d e : Dev} (touched : d.touched learnObjs e) (plain : plainWords d = true)
    (alone : d.on Od.MAT_ENABLE 0 = false) : e.on Od.INTEG_FLIP_ARM 0 = false ∧ e.on Od.MAT_ENABLE 0 = false :=
  ⟨(Dev.on_touched touched (by decide) (by decide) (by decide)).trans (plainWords_unarmed plain),
    (Dev.on_touched touched (by decide) (by decide) (by decide)).trans alone⟩

theorem Dev.objsOnly_learn {d e : Dev} (objs : d.objsOnly e) : e.learn = d.learn := by
  have same := congrArg Dev.learn (show bare e = bare d from objs)
  exact same

theorem Dev.learnBegun_kept (d : Dev) (key b : Nat) (bank : b < 256) (k : Clk) : d.learnBegun.emBase key = d.emBase key ∧
    d.learnBegun.emGrant k 1 = d.emGrant k 1 ∧ d.learnBegun.n Rg.LEARN_SPENT b = d.n Rg.LEARN_SPENT b :=
  have kept := d.learnBegun_touched
  ⟨(Dev.emBase_kept (Dev.n_touched kept (by decide) (by decide) (by decide)) key).trans rfl,
    (Dev.emGrant_touched kept (by decide) k (by decide)).trans rfl,
    (Dev.n_touched kept (show b < 65536 by omega) (show 0 < 65536 by decide) (by decide)).trans rfl⟩

theorem Dev.learnTurn_begun (k : Clk) (d : Dev) (r : LearnReq) : d.learnBegun.learnTurn k r =
    if d.emGrant k 1 < d.n Rg.LEARN_SPENT (d.emBase r.key / 16384) + 2 then d.learnBegun.bump Od.EM_LEARN_OVERFLOW 0
    else (d.learnBegun.learnPaid (d.emBase r.key / 16384)).learnOne k r := by
  obtain ⟨base, grant, spent⟩ := d.learnBegun_kept r.key _ (d.emBase_bank r.key) k
  rw [Dev.learnTurn, base, grant, spent]

section
variable {s : State} (running : ready s = true) (live : s.dev.replaying = false) {r : LearnReq} (one : s.dev.learn = [r])
  (before : r.tick + 1 = s.clk.tick) (active : s.dev.maint = false) (unsynced : s.dev.matApply = [])
include running live one before active unsynced

theorem exec_learningExecute_one : exec .learningExecute s = .next { s with dev := s.dev.silent.learnBegun.learnTurn s.clk r } := by
  refine State.run_eq running ?_
  rw [Dev.rk_live (d := s.dev.silent) live]
  exact Dev.learnAll_one one before active unsynced

/-- A request without slots overflows (R191). -/
theorem exec_learningExecute_overflows (spent : s.dev.emGrant s.clk 1 < s.dev.n Rg.LEARN_SPENT (s.dev.emBase r.key / 16384) + 2) :
    ∃ t, exec .learningExecute s = .next t ∧ onlyWrites [Od.EM_LEARN_OVERFLOW.key 0 0] { s with dev := { s.dev with learn := [] } } t ∧
      t.dev.n Od.EM_LEARN_OVERFLOW 0 = satAdd Od.EM_LEARN_OVERFLOW.ty.top (s.dev.n Od.EM_LEARN_OVERFLOW 0) 1 := by
  have ran := exec_learningExecute_one running live one before active unsynced
  rw [Dev.learnTurn_begun, if_pos (show s.dev.silent.emGrant s.clk 1 < s.dev.silent.n Rg.LEARN_SPENT (s.dev.silent.emBase r.key / 16384) + 2 from spent)]
    at ran
  refine ⟨_, ran, ⟨⟨rfl, rfl, rfl⟩, rfl, ?_⟩, ?_⟩
  · exact (Dev.wrote_bump (Dev.wrote_bump (Dev.wrote_silent _ { s.dev with learn := [] }) _ _ _ _ (by simp)) _ _ _ _ (by simp)).2
  · have none : s.dev.silent.learnBegun.n Od.EM_LEARN_OVERFLOW 0 = satAdd Od.EM_LEARN_OVERFLOW.ty.top (s.dev.n Od.EM_LEARN_OVERFLOW 0) 0 :=
      Dev.n_bump_word _ rfl 0 0
    refine (Dev.n_bump_word _ rfl 0 1).trans ?_
    rw [none]
    simp only [satAdd]
    omega

section
variable (plain : plainWords s.dev = true) (slots : s.dev.n Rg.LEARN_SPENT (s.dev.emBase r.key / 16384) + 2 ≤ s.dev.emGrant s.clk 1)
  (new : r.move = false) (alone : s.dev.on Od.MAT_ENABLE 0 = false) (absent : s.dev.emWay r.key = none)
  (readable : s.dev.emBucketBad r.key = false) {e : Dev} (paid : s.dev.silent.learnBegun.learnPaid (s.dev.emBase r.key / 16384) = e) {p : Nat}
include plain slots new alone absent readable paid

/-- A request with slots for a key that its readable bucket lacks takes the lowest way that is free once its slots are taken. -/
theorem exec_learningExecute_takes (free : (ways (s.dev.emBase r.key)).find? e.emFree = some p) : exec .learningExecute s = .next { s with
    dev := (e.emChange s.clk 2 (e.learnedChange r p)).bump Od.EM_LEARN_INSERTS 0 } ∧
    ((e.emChange s.clk 2 (e.learnedChange r p)).bump Od.EM_LEARN_INSERTS 0).emPend = s.dev.emPend ++ [e.learnedChange r p] := by
  have ran := exec_learningExecute_one running live one before active unsynced
  rw [Dev.learnTurn_begun, if_neg (show ¬ s.dev.silent.emGrant s.clk 1 < s.dev.silent.n Rg.LEARN_SPENT (s.dev.silent.emBase r.key / 16384) + 2 from
    Nat.not_lt.mpr slots)] at ran
  have touched := s.dev.silent.learnBegun_paid_touched (s.dev.emBase_bank r.key)
  rw [paid] at touched
  have ran' : exec .learningExecute s = .next { s with dev := e.learnOne s.clk r } := by rw [ran, ← paid]; rfl
  have objs := Dev.touched_objsOnly touched
  have seed := Dev.n_touched touched (o := Od.EM_HASH_SEED) (i := 0) (f := 0) (by decide) (by decide) (by decide)
  obtain ⟨unarmed, single⟩ := Dev.learnObjs_touched_plain touched plain alone
  have base : e.emBase r.key = s.dev.emBase r.key := Dev.emBase_kept seed r.key
  rw [ran', Dev.learnOne_inserts s.clk unarmed single new
    ((Dev.emWay_kept objs seed r.key).trans absent) ((Dev.emBucketBad_kept objs seed r.key).trans readable) (by rw [base]; exact free)]
  refine ⟨rfl, (Dev.emChange_emPend s.clk 2 _ unarmed).trans ?_⟩
  have pend : e.emPend = s.dev.emPend := (Dev.objsOnly_emPend objs).trans rfl
  rw [pend]
  simp only [Dev.learnedChange, Dev.learnedResult_whole]

/-- Where the count of retired positions is of its type and the request's port exists, that is the lowest free way, and the learned words are its port's. -/
theorem exec_learningExecute_inserts (typed : s.dev.n Od.INTEG_EM_RETIRED_COUNT 0 ≤ 65536) (port : r.port < 65536)
    (free : (ways (s.dev.emBase r.key)).find? s.dev.emFree = some p) :
    ∃ t, exec .learningExecute s = .next t ∧ outsideKept s t ∧ t.dev.learn = [] ∧ t.dev.em = s.dev.em ∧
      t.dev.n Rg.LEARN_SPENT (s.dev.emBase r.key / 16384) = s.dev.n Rg.LEARN_SPENT (s.dev.emBase r.key / 16384) + 2 ∧
      t.dev.emPend = s.dev.emPend ++ [{ pos := p, key := r.key, result := s.dev.learnedResult r.port, hit := 1 }] ∧
      t.dev.n Od.EM_LEARN_INSERTS 0 = satAdd Od.EM_LEARN_INSERTS.ty.top (s.dev.n Od.EM_LEARN_INSERTS 0) 1 := by
  have bank := s.dev.emBase_bank r.key
  have touched := s.dev.silent.learnBegun_paid_touched bank
  have spent := s.dev.silent.learnBegun.n_learnPaid_spent bank
  obtain ⟨-, -, begun⟩ := s.dev.silent.learnBegun_kept r.key _ bank s.clk
  rw [paid] at touched spent
  have free' : (ways (s.dev.emBase r.key)).find? e.emFree = some p := by
    rw [Dev.emFree_touched touched typed (by decide)]; exact free
  obtain ⟨ran, pend⟩ := exec_learningExecute_takes running live one before active unsynced plain slots new alone absent readable paid free'
  obtain ⟨unarmed, single⟩ := Dev.learnObjs_touched_plain touched plain alone
  have count : e.n Od.INTEG_EM_RETIRED_COUNT 0 ≤ 65536 := (Dev.n_touched touched (by decide) (by decide) (by decide)).trans_le typed
  have dest : e.n Od.EM_PORT_LEARN_DEST r.port = s.dev.n Od.EM_PORT_LEARN_DEST r.port := (Dev.n_touched touched port (by decide) (by decide)).trans rfl
  have result : e.learnedResult r.port = s.dev.learnedResult r.port := by simp only [Dev.learnedResult, dest, single, alone, Bool.false_eq_true, if_false]
  have inserts : e.n Od.EM_LEARN_INSERTS 0 = s.dev.n Od.EM_LEARN_INSERTS 0 := (Dev.n_touched touched (by decide) (by decide) (by decide)).trans rfl
  have changed {o : Obj} {i : Nat} (hi : i < 65536)
      (other : o.idx * 256 + o.sub ≠ Od.INTEG_EM_RETIRED_LIST.idx * 256 + Od.INTEG_EM_RETIRED_LIST.sub) :
      (e.emChange s.clk 2 (e.learnedChange r p)).n o i = e.n o i := Dev.n_emChange_typed s.clk 2 _ unarmed count hi (by decide) other
  obtain ⟨⟨l, objs⟩, -⟩ := Dev.emChange_keeps s.clk 2 (e.learnedChange r p) unarmed
  refine ⟨_, ran, ⟨rfl, rfl, rfl⟩, ?_, ?_, ?_, ?_, ?_⟩
  · exact ((Dev.objsOnly_learn objs).trans rfl).trans ((Dev.objsOnly_learn (Dev.touched_objsOnly touched)).trans rfl)
  · exact (Dev.emChange_em s.clk 2 _ unarmed).trans ((Dev.objsOnly_em (Dev.touched_objsOnly touched)).trans rfl)
  · refine (Dev.n_put_other _ _ _ _ _ _ _ _ (Obj.key_ne (by decide) (by decide) (by omega) (by decide) (by decide))).trans ?_
    rw [changed (by omega) (by decide), spent, begun]
    rfl
  · exact pend.trans (by rw [Dev.learnedChange, result])
  · exact (Dev.n_bump_word _ rfl 0 1).trans (by rw [changed (by decide) (by decide), inserts])

end
end
end Sys2Proof.Machine

namespace Sys2Proof.Machine
open Sys2Proof.Safety

/-! SUPPORT. The sweeper (R197, R198). -/

theorem Dev.n_put_sweep (d : Dev) (b v : Nat) : (d.put Rg.SWEEP b v).n Rg.SWEEP b = v := Dev.n_put_same _ _ _ _ _ rfl

/-- Every bank of a list is put at its first bucket. -/
def Dev.sweepFrom (l : List Nat) (d : Dev) : Dev := d.each l fun d c => d.put Rg.SWEEP c 1

theorem Dev.sweepFrom_objsOnly (l : List Nat) (d : Dev) : d.objsOnly (d.sweepFrom l) :=
  Dev.objsOnly_each l _ (fun e _ _ => Dev.objsOnly_put (Dev.objsOnly_refl e) _ _ _ _) d

/-- A bank put there stays there while the others are. -/
theorem Dev.sweepFrom_keeps (l : List Nat) {d : Dev} {b : Nat} (h : d.n Rg.SWEEP b = 1) : (d.sweepFrom l).n Rg.SWEEP b = 1 := by
  refine Dev.each_keeps (P := fun e => e.n Rg.SWEEP b = 1) l (fun e c _ first => ?_) h
  by_cases same : c = b
  · rw [same, Dev.n_put_sweep]
  · rw [Dev.n_put_other _ _ _ _ _ _ _ _ (Obj.key_ne_inst _ same (by decide) (by decide)), first]

theorem Dev.n_sweepFrom {l : List Nat} {b : Nat} (member : b ∈ l) (d : Dev) : (d.sweepFrom l).n Rg.SWEEP b = 1 := by
  induction l generalizing d with
  | nil => cases member
  | cons c l ih =>
    rcases List.mem_cons.mp member with rfl | member
    · exact Dev.sweepFrom_keeps l (d.n_put_sweep b 1)
    · exact ih member _

theorem Dev.sweepStart_begins {d : Dev} {k : Clk} (still : d.sweeping = false) (early : d.on Rg.SWEEP_LATE 0 = false)
    (interval : d.n Od.EM_AGE_INTERVAL 0 ≠ 0) (due : k.tick % d.n Od.EM_AGE_INTERVAL 0 = 0) : d.sweepStart k = d.sweepFrom (List.range 256) := by
  simp [Dev.sweepStart, still, early, interval, due, Dev.sweepFrom]

theorem exec_sweepPassStart_begins {s : State} (running : ready s = true) (live : s.dev.replaying = false) (still : s.dev.sweeping = false)
    (early : s.dev.on Rg.SWEEP_LATE 0 = false) (interval : s.dev.n Od.EM_AGE_INTERVAL 0 ≠ 0) (due : s.clk.tick % s.dev.n Od.EM_AGE_INTERVAL 0 = 0) :
    ∃ t, exec .sweepPassStart s = .next t ∧ outsideKept s t ∧ bare t.dev = bare s.dev ∧ ∀ b, b < 256 → t.dev.n Rg.SWEEP b = 1 := by
  have begins : s.dev.silent.sweepStart (s.dev.silent.rk s.clk) = s.dev.silent.sweepFrom (List.range 256) := by
    rw [Dev.rk_live (d := s.dev.silent) live]
    exact Dev.sweepStart_begins (d := s.dev.silent) still early interval due
  have first (b : Nat) (bank : b < 256) := Dev.n_sweepFrom (List.mem_range.mpr bank) s.dev.silent
  have objs := s.dev.silent.sweepFrom_objsOnly (List.range 256)
  generalize s.dev.silent.sweepFrom (List.range 256) = e at begins first objs
  exact ⟨_, State.run_eq running begins, ⟨rfl, rfl, rfl⟩, objs, first⟩

/-- An object with a value stored for an instance has instances. -/
theorem Store.instsOf_of_find {st : Store} {o : Obj} {i e : Nat} {v : Int} (hi : i < 65536) (he : e < 65536) (found : st.find (o.key i e) = some v) :
    st.instsOf o ≠ [] := by
  have own : keyObj (o.key i e) = o.idx * 256 + o.sub := by unfold keyObj Obj.key; omega
  have member : (o.key i e, v) ∈ st.filter fun x => keyObj x.1 == o.idx * 256 + o.sub :=
    List.mem_filter.mpr ⟨Store.mem_of_find found, beq_iff_eq.mpr own⟩
  exact List.ne_nil_of_mem (List.mem_dedup.mpr (List.mem_map_of_mem member))

/-- A bank with buckets left to visit is a pass under way. -/
theorem Dev.sweeping_of_bank {d : Dev} {b : Nat} (bank : b < 256) (left : d.n Rg.SWEEP b ≠ 0) : d.sweeping = true := by
  unfold Dev.n Dev.get Store.rd at left
  cases found : d.objs.find (Rg.SWEEP.key b 0) with
  | none => rw [found] at left; exact absurd rfl left
  | some v =>
    have some := Store.instsOf_of_find (by omega : b < 65536) (by decide) found
    simpa [Dev.sweeping, Dev.insts] using some

/-- A way without a valid entry is left as it is. -/
theorem Dev.sweepEntry_invalid {d : Dev} {p : Nat} (invalid : bit (d.emKey p) 63 = false) : d.sweepEntry p = d := by
  simp [Dev.sweepEntry, invalid]

/-- A visit of a bucket without valid entries costs one slot and goes to the next. -/
def Dev.sweepMoved (b n : Nat) (d : Dev) : Dev :=
  ((d.put Rg.SWEEP b n).put Rg.SWEEP_SPENT b (d.n Rg.SWEEP_SPENT b + 1)).put Rg.EM_SERVED b 3

section
variable {b : Nat} (bank : b < 256) (n : Nat) (d : Dev)

theorem Dev.sweepMoved_wrote : d.wrote [Rg.SWEEP.key b 0, Rg.SWEEP_SPENT.key b 0, Rg.EM_SERVED.key b 0] (d.sweepMoved b n) := by
  iterate 3 refine Dev.wrote_put ?_ _ _ _ _ (by simp)
  exact Dev.wrote_refl _ d

include bank

theorem Dev.sweepMoved_reads : (d.sweepMoved b n).n Rg.SWEEP b = n ∧ (d.sweepMoved b n).n Rg.EM_SERVED b = 3 ∧
    (d.sweepMoved b n).n Rg.SWEEP_SPENT b = d.n Rg.SWEEP_SPENT b + 1 := by
  unfold Dev.sweepMoved
  refine ⟨?_, Dev.n_put_same _ _ _ _ _ rfl, ?_⟩
  · rw [Dev.n_put_bank _ bank (by decide) (by omega) (by decide), Dev.n_put_bank _ bank (by decide) (by omega) (by decide), Dev.n_put_sweep]
  · rw [Dev.n_put_bank _ bank (by decide) (by omega) (by decide)]
    exact Dev.n_put_same _ _ _ _ _ rfl

end

theorem keysWithin_singleton {o : Obj} {i f : Nat} (hi : i < 65536) (hf : f < 65536) : keysWithin [o] [o.key i f] :=
  List.forall_mem_singleton.mpr ⟨o, List.mem_singleton_self o, i, f, hi, hf, rfl⟩

/-- Where nothing waits to be learned, such a visit is made with a slot left in the grant. -/
theorem Dev.sweepVisit_moves {d e : Dev} {k : Clk} {b n : Nat} (bank : b < 256) (at_ : d.n Rg.SWEEP b = n + 1) (more : n < 2047) (awake : d.idle = false)
    (learnt : d.learnAll k = e) (grant : e.n Rg.SWEEP_SPENT b < e.emGrant k 2)
    (empty : ∀ p ∈ ways (b * 16384 + n * 8), bit (e.emKey p) 63 = false) : d.sweepVisit k b = e.sweepMoved b (n + 2) := by
  have visited : e.each (ways (b * 16384 + n * 8)) Dev.sweepEntry = e :=
    Dev.each_keeps (P := (· = e)) _ (fun x p member same => by rw [same]; exact Dev.sweepEntry_invalid (empty p member)) rfl
  obtain ⟨moved, -, -⟩ := e.sweepMoved_reads bank (n + 2)
  have underway := Dev.sweeping_of_bank bank (d := e.sweepMoved b (n + 2)) (by rw [moved]; omega)
  have result : ((e.put Rg.SWEEP b (if n + 1 = 2048 then 0 else n + 1 + 1)).put Rg.SWEEP_SPENT b (e.n Rg.SWEEP_SPENT b + 1)).put Rg.EM_SERVED b 3 =
      e.sweepMoved b (n + 2) := by rw [if_neg (by omega)]; rfl
  unfold Dev.sweepVisit
  simp only [at_, learnt, awake, Nat.add_sub_cancel, visited, Nat.sub_self, Nat.add_zero, result, underway]
  rw [if_neg (by simp), if_neg (by omega)]
  rfl

theorem exec_sweepVisit_empty {s : State} (running : ready s = true) (live : s.dev.replaying = false) {b n : Nat} (bank : b < 256)
    (place : s.dev.n Rg.SWEEP b = n + 1) (more : n < 2047) (awake : s.dev.idle = false) (none : s.dev.learn = []) (unsynced : s.dev.matApply = [])
    (grant : s.dev.n Rg.SWEEP_SPENT b < s.dev.emGrant s.clk 2) (empty : ∀ p ∈ ways (b * 16384 + n * 8), bit (s.dev.emKey p) 63 = false) :
    ∃ t, exec (.sweepVisit b) s = .next t ∧
      onlyWrites [Rg.SWEEP.key b 0, Rg.SWEEP_SPENT.key b 0, Rg.EM_SERVED.key b 0, Od.EM_LEARN_OVERFLOW.key 0 0] s t ∧
      t.dev.n Rg.SWEEP b = n + 2 ∧ t.dev.n Rg.EM_SERVED b = 3 ∧ t.dev.n Rg.SWEEP_SPENT b = s.dev.n Rg.SWEEP_SPENT b + 1 := by
  have learnt := Dev.learnAll_none (d := s.dev.silent) none unsynced s.clk
  have touched : s.dev.silent.touched [Od.EM_LEARN_OVERFLOW] (s.dev.silent.learnAll s.clk) :=
    ⟨_, keysWithin_singleton (by decide) (by decide), learnt⟩
  have objs := Dev.touched_objsOnly touched
  have spent : (s.dev.silent.learnAll s.clk).n Rg.SWEEP_SPENT b = s.dev.n Rg.SWEEP_SPENT b :=
    (Dev.n_touched touched (by omega) (by decide) (by decide)).trans rfl
  have granted : (s.dev.silent.learnAll s.clk).emGrant s.clk 2 = s.dev.emGrant s.clk 2 :=
    (Dev.emGrant_touched touched (by decide) s.clk (by decide)).trans rfl
  have visit : s.dev.silent.sweepVisit (s.dev.silent.rk s.clk) b = (s.dev.silent.learnAll s.clk).sweepMoved b (n + 2) := by
    rw [Dev.rk_live (d := s.dev.silent) live]
    exact Dev.sweepVisit_moves bank place more awake rfl (by rw [spent, granted]; exact grant)
      fun p member => (congrArg (bit · 63) (Dev.objsOnly_emKey objs p)).trans (empty p member)
  obtain ⟨moved, served, slots⟩ := (s.dev.silent.learnAll s.clk).sweepMoved_reads bank (n + 2)
  have began := Dev.wrote_trans (Dev.wrote_silent _ s.dev) learnt
  have moves := (s.dev.silent.learnAll s.clk).sweepMoved_wrote (b := b) (n + 2)
  refine ⟨_, State.runIf_eq running (decide_eq_true bank) visit, onlyWrites_of ?_, moved, served, slots.trans (by rw [spent])⟩
  exact Dev.wrote_trans (Dev.wrote_mono began (by simp)) (Dev.wrote_mono moves (by simp))

end Sys2Proof.Machine

namespace Sys2Proof.Machine
open Sys2Proof.Safety

/-! SUPPORT. The same overcounted store at the learning of a request. -/

/-- The one request of the tick before, for the key word `fidKey`, met by port 8. -/
def fidRequest : LearnReq := { tick := 0, key := fidKey, port := 8, len := 64 }

/-- The overcounted device at tick 1 with this request, the learning slots of bank 0 taken so far reaching where the list of retired positions reads. -/
def learnState : State :=
  { clk := { tick := 1 }, dev := { overcounted Rg.LEARN_SPENT 1 [] with learn := [fidRequest] } }

theorem learnState_base : learnState.dev.emBase fidRequest.key = 9944 := by decide +kernel

theorem learnState_free : (ways (learnState.dev.emBase fidRequest.key)).find? learnState.dev.emFree = some 9944 := by
  rw [learnState_base]
  exact find_ways_first (Dev.emFree_iff.mpr ⟨by decide, Dev.retired_false (by decide) (by decide)⟩)

/-- The request's two slots spell the lowest way of its bucket where the list of retired positions reaches. -/
theorem learnState_taken : (ways (learnState.dev.emBase fidRequest.key)).find?
    (learnState.dev.silent.learnBegun.learnPaid (learnState.dev.emBase fidRequest.key / 16384)).emFree = some 9945 := by
  rw [learnState_base]
  refine find_ways_second (Bool.eq_false_iff.mpr fun free => ?_) (Dev.emFree_iff.mpr ⟨by decide, Dev.retired_false (by decide) (by decide)⟩)
  obtain ⟨-, unretired⟩ := Dev.emFree_iff.mp free
  refine absurd (Dev.retired_iff.mpr ⟨Rg.LEARN_SPENT.key 0 0 - Od.INTEG_EM_RETIRED_LIST.key 0 0, ?_, ?_⟩) (Bool.eq_false_iff.mp unretired)
  · decide
  · decide

theorem learnState_slots : learnState.dev.n Rg.LEARN_SPENT (learnState.dev.emBase fidRequest.key / 16384) + 2 ≤ learnState.dev.emGrant learnState.clk 1 := by
  rw [learnState_base]
  decide

theorem learnState_absent : learnState.dev.emWay fidRequest.key = none ∧ learnState.dev.emBucketBad fidRequest.key = false := by
  decide +kernel

/-- Refutes O35 by the store that refutes O34 (`not_tableBatches`), with a value beyond its object's type: the list of retired positions then reaches
into the count of learning slots taken, so that the slots of a request themselves retire the way that was free. Without such a value, and with a
request of a port the device has, the statement holds: `tableLearnsAndAges_of_countTyped`. -/
theorem not_tableLearnsAndAges : ¬ Obligations.TableLearnsAndAges := by
  intro h
  obtain ⟨absent, readable⟩ := learnState_absent
  obtain ⟨learns, -⟩ := h learnState (by decide) (by decide) (by decide)
  obtain ⟨inserts, -⟩ := learns fidRequest _ rfl (by decide) (by decide) (by decide) rfl
  obtain ⟨t, ran, -, -, -, -, pend, -⟩ := inserts 9944 learnState_slots (by decide) (by decide) absent readable learnState_free
  obtain ⟨ran', pend'⟩ := exec_learningExecute_takes (s := learnState) (r := fidRequest) (by decide) (by decide) rfl (by decide) (by decide)
    (by decide) (by decide) learnState_slots (by decide) (by decide) absent readable rfl learnState_taken
  cases ran.symm.trans ran'
  have positions := congrArg (List.map EmChange.pos) (pend'.symm.trans pend)
  exact absurd positions (by decide)

/-- The statement that `not_tableLearnsAndAges` refutes, with the hypotheses it lacks: the count of retired positions is of its type, and the requests
to be learned are of ports. -/
theorem tableLearnsAndAges_of_countTyped (s : State) (running : ready s = true) (plain : plainWords s.dev = true) (live : s.dev.replaying = false)
    (typed : s.dev.n Od.INTEG_EM_RETIRED_COUNT 0 ≤ 65536) (ports : ∀ r ∈ s.dev.learn, r.port < 1024) :
    (∀ r b, s.dev.learn = [r] → r.tick + 1 = s.clk.tick → s.dev.maint = false → s.dev.matApply = [] → s.dev.emBase r.key / 16384 = b →
      (∀ p, s.dev.n Rg.LEARN_SPENT b + 2 ≤ s.dev.emGrant s.clk 1 → r.move = false → s.dev.on Od.MAT_ENABLE 0 = false → s.dev.emWay r.key = none → s.dev.emBucketBad r.key = false →
        (ways (s.dev.emBase r.key)).find? s.dev.emFree = some p →
        ∃ t, exec .learningExecute s = .next t ∧ outsideKept s t ∧ t.dev.learn = [] ∧ t.dev.em = s.dev.em ∧ t.dev.n Rg.LEARN_SPENT b = s.dev.n Rg.LEARN_SPENT b + 2 ∧
          t.dev.emPend = s.dev.emPend ++ [{ pos := p, key := r.key, result := s.dev.learnedResult r.port, hit := 1 }] ∧
          t.dev.n Od.EM_LEARN_INSERTS 0 = satAdd Od.EM_LEARN_INSERTS.ty.top (s.dev.n Od.EM_LEARN_INSERTS 0) 1) ∧
      (s.dev.emGrant s.clk 1 < s.dev.n Rg.LEARN_SPENT b + 2 →
        ∃ t, exec .learningExecute s = .next t ∧ onlyWrites [Od.EM_LEARN_OVERFLOW.key 0 0] { s with dev := { s.dev with learn := [] } } t ∧
          t.dev.n Od.EM_LEARN_OVERFLOW 0 = satAdd Od.EM_LEARN_OVERFLOW.ty.top (s.dev.n Od.EM_LEARN_OVERFLOW 0) 1)) ∧
    (s.dev.sweeping = false → s.dev.on Rg.SWEEP_LATE 0 = false → s.dev.n Od.EM_AGE_INTERVAL 0 ≠ 0 → s.clk.tick % s.dev.n Od.EM_AGE_INTERVAL 0 = 0 →
      ∃ t, exec .sweepPassStart s = .next t ∧ outsideKept s t ∧ bare t.dev = bare s.dev ∧ ∀ b, b < 256 → t.dev.n Rg.SWEEP b = 1) ∧
    (∀ b n, b < 256 → s.dev.n Rg.SWEEP b = n + 1 → n < 2047 → s.dev.idle = false → s.dev.learn = [] → s.dev.matApply = [] → s.dev.n Rg.SWEEP_SPENT b < s.dev.emGrant s.clk 2 →
      (∀ p ∈ ways (b * 16384 + n * 8), bit (s.dev.emKey p) 63 = false) →
      ∃ t, exec (.sweepVisit b) s = .next t ∧ onlyWrites [Rg.SWEEP.key b 0, Rg.SWEEP_SPENT.key b 0, Rg.EM_SERVED.key b 0, Od.EM_LEARN_OVERFLOW.key 0 0] s t ∧ t.dev.n Rg.SWEEP b = n + 2 ∧ t.dev.n Rg.EM_SERVED b = 3 ∧
        t.dev.n Rg.SWEEP_SPENT b = s.dev.n Rg.SWEEP_SPENT b + 1) := by
  refine ⟨fun r b one before active unsynced bank => ?_, exec_sweepPassStart_begins running live, fun b n bank place more awake none unsynced =>
    exec_sweepVisit_empty running live bank place more awake none unsynced⟩
  subst bank
  have port : r.port < 65536 := (ports r (one ▸ List.mem_singleton_self r)).trans (by decide)
  refine ⟨fun p slots new alone absent readable free => ?_, exec_learningExecute_overflows running live one before active unsynced⟩
  exact exec_learningExecute_inserts running live one before active unsynced plain slots new alone absent readable rfl typed port free

end Sys2Proof.Machine

namespace Sys2Proof.Machine
open Sys2Proof.Safety

/-! SUPPORT. Numbers written in turn to an array's elements, and writes at ports. -/

/-- A write at one port changes no other object of any port, whichever elements they are. -/
theorem Dev.get_put_port (d : Dev) {o q : Obj} {p j e : Nat} (port : p < 1024) (unit : j < 1024)
    (other : o.idx * 256 + o.sub ≠ q.idx * 256 + q.sub) (short : e < 65536) (v : Nat) : (d.put o p v).get q j e = d.get q j e :=
  Dev.get_put_other _ _ _ _ _ _ _ _ (Obj.key_ne other (by omega) (by omega) (by decide) short)

/-- Numbers written from element n on leave the elements before it. -/
theorem Dev.get_each_zipIdx_before (o : Obj) (i : Nat) (vs : List Nat) {n e : Nat} (before : e < n) (d : Dev) :
    (d.each (vs.zipIdx n) fun d x => d.put o i x.1 x.2).get o i e = d.get o i e := by
  refine Dev.each_get _ _ _ _ _ (fun d x member => ?_) d
  have place := List.le_snd_of_mem_zipIdx member
  exact Dev.get_put_other _ _ _ _ _ _ _ _ (Obj.key_ne_elem o (by omega))

/-- Numbers written from element n on each read back, as values of the object's type. -/
theorem Dev.get_each_zipIdx (o : Obj) (i : Nat) {vs : List Nat} {n e v : Nat} (listed : vs[e]? = some v) (d : Dev) :
    (d.each (vs.zipIdx n) fun d x => d.put o i x.1 x.2).get o i (n + e) = o.ty.norm v := by
  induction vs generalizing n e d with
  | nil => simp at listed
  | cons w vs ih =>
    rw [List.zipIdx_cons, Dev.each_cons]
    cases e with
    | zero =>
      obtain rfl : w = v := by simpa using listed
      exact (Dev.get_each_zipIdx_before o i vs (Nat.lt_succ_self n) _).trans (Dev.get_put_same _ _ _ _ _)
    | succ e =>
      rw [show n + (e + 1) = n + 1 + e by omega]
      exact ih (by simpa using listed) _

/-! SUPPORT. The install of a port's gate list and its change time (R346). -/

/-- A list joins those pending, its change time not yet fixed, and the port shows it. -/
def Dev.listCopied (p : Nat) (d : Dev) : Dev :=
  ({ d with gpend := d.gpend ++ [⟨false, p, 0, d.adminList p⟩] } : Dev).put Od.GATE_CONFIG_PENDING p 1

theorem Dev.n_listCopied_pending (p : Nat) (d : Dev) : (d.listCopied p).n Od.GATE_CONFIG_PENDING p = 1 := Dev.n_put_same _ _ _ _ _ rfl

theorem Dev.n_listCopied_lanes {p : Nat} (port : p < 1024) (d : Dev) :
    (d.listCopied p).n Od.PORT_ACTIVE_LANES p = d.n Od.PORT_ACTIVE_LANES p := Dev.n_put_port _ port port (by decide) 1

theorem Dev.portWidth_listCopied {p : Nat} (port : p < 1024) (d : Dev) : (d.listCopied p).portWidth p = d.portWidth p := by
  have mode : (d.listCopied p).n Od.OCTET_MODE (p / 8) = d.n Od.OCTET_MODE (p / 8) := Dev.n_put_port _ port (by omega) (by decide) 1
  rw [Dev.portWidth, mode]
  rfl

/-- Where the port has nothing pending and its full width, an install copies its list and asks for no restore (R346, R78). -/
theorem Dev.gateInstall_fullWidth {d : Dev} {p : Nat} (port : p < 1024) (idle : d.gatePend false p = none)
    (full : d.portWidth p ≤ d.n Od.PORT_ACTIVE_LANES p) : d.gateInstall p = d.listCopied p := by
  have unshed : ¬ (d.listCopied p).n Od.PORT_ACTIVE_LANES p < (d.listCopied p).portWidth p := by
    rw [Dev.n_listCopied_lanes port, Dev.portWidth_listCopied port]
    exact full.not_gt
  rw [Dev.gateInstall, if_neg (by simp [idle])]
  exact if_neg fun shed => unshed shed.1

theorem Dev.gatePend_one {d : Dev} {x : GPend} (one : d.gpend = [x]) : d.gatePend x.stream x.unit = some x := by
  simp [Dev.gatePend, one]

/-- Nothing is pending but one list of a port, with its change time. -/
def Dev.changeFixed (p ct : Nat) (g : GList) (d : Dev) : Dev := { d with gpend := [⟨false, p, ct, g⟩] }

/-- A view's parameters go by the sets kept alone. -/
theorem Dev.viewSet_of_views {d e : Dev} (same : e.views = d.views) (v : Nat) : e.viewSet v = d.viewSet v := by
  simp only [Dev.viewSet, Dev.viewSets, same]

/-- The only pending list, one of a port, gets its change time, which the port shows (R346). -/
theorem Dev.gateFix_one {d : Dev} {p ct : Nat} {g : GList} {k : Clk} (one : d.gpend = [⟨false, p, 0, g⟩])
    (time : changeTime g ((d.viewSet g.view).at k.raw) = ct) :
    d.gateFix k = (d.changeFixed p ct g).put Od.GATE_CONFIG_CHANGE_TIME p (nsTime80 ct) := by
  have shown : (((d.changeFixed p ct g).gatePend false p).map (·.ct)).getD 0 = ct := by
    rw [Dev.gatePend_one (d := d.changeFixed p ct g) rfl]
    rfl
  have fixes : (d.gpend.map fun (g : GPend) => if g.ct = 0 then { g with ct := changeTime g.list ((d.viewSet g.list.view).at k.raw) } else g) =
      [⟨false, p, ct, g⟩] := by rw [one, ← time]; rfl
  have new : ((d.gpend.filter (·.ct == 0)).filter fun (g : GPend) => !g.stream) = [⟨false, p, 0, g⟩] := by rw [one]; rfl
  unfold Dev.gateFix
  dsimp only
  rw [fixes, new, Dev.each_cons, Dev.each_nil]
  exact congrArg (fun n => (d.changeFixed p ct g).put Od.GATE_CONFIG_CHANGE_TIME p (nsTime80 n)) shown

/-- An install at a boundary where nothing is pending: the copied list waits with its change time. -/
theorem Dev.gateInstall_gateFix {k : Clk} {d : Dev} {p : Nat} (port : p < 1024) (idle : d.gpend = [])
    (full : d.portWidth p ≤ d.n Od.PORT_ACTIVE_LANES p) : (d.gateInstall p).gateFix k =
      ((d.listCopied p).changeFixed p (changeTime (d.adminList p) ((d.viewSet (d.adminList p).view).at k.raw)) (d.adminList p)).put
        Od.GATE_CONFIG_CHANGE_TIME p (nsTime80 (changeTime (d.adminList p) ((d.viewSet (d.adminList p).view).at k.raw))) := by
  have alone : d.gatePend false p = none := by simp [Dev.gatePend, idle]
  have copied : (d.listCopied p).gpend = [⟨false, p, 0, d.adminList p⟩] := congrArg (fun l => l ++ [(⟨false, p, 0, d.adminList p⟩ : GPend)]) idle
  rw [Dev.gateInstall_fullWidth port alone full, Dev.gateFix_one copied rfl, Dev.viewSet_of_views (d := d) (e := d.listCopied p) rfl]

theorem Dev.adminList_silent (d : Dev) (p : Nat) : d.silent.adminList p = d.adminList p := rfl

/-- Of the device but its objects, an install leaves the one pending list new. -/
theorem Dev.bare_put_changeFixed (d : Dev) (p ct : Nat) (g : GList) (o : Obj) (v : Nat) :
    bare (((d.silent.listCopied p).changeFixed p ct g).put o p v) = bare (d.changeFixed p ct g) := rfl

theorem Dev.n_changeFixed (d : Dev) (p ct : Nat) (g : GList) (o : Obj) (i : Nat) : (d.changeFixed p ct g).n o i = d.n o i := rfl

theorem exec_gateConfigInstall_opening {s : State} (running : ready s = true) {p : Nat} (port : p < 1024) (opens : s.clk.c = 0) :
    exec (.gateConfigInstall p) s = .next { s with dev := ((s.dev.silent.gateInstall p).gateFix s.clk).atOpen } := by
  change execGateConfigInstall p s = _
  unfold execGateConfigInstall
  exact State.rowD_eq running opens (decide_eq_true port) _ rfl

theorem exec_gateConfigInstall_copies {s : State} (running : ready s = true) {p : Nat} (port : p < 1024) (opens : s.clk.c = 0)
    (idle : s.dev.gpend = []) (full : s.dev.portWidth p ≤ s.dev.n Od.PORT_ACTIVE_LANES p) :
    ∃ t, exec (.gateConfigInstall p) s = .next t ∧ outsideKept s t ∧ t.dev.n Od.GATE_CONFIG_PENDING p = 1 ∧
      bare t.dev = bare (s.dev.changeFixed p
        (changeTime (s.dev.adminList p) ((s.dev.viewSet (s.dev.adminList p).view).at s.clk.raw)) (s.dev.adminList p)) := by
  have installed := Dev.gateInstall_gateFix (d := s.dev.silent) (k := s.clk) port idle full
  rw [Dev.adminList_silent, Dev.viewSet_of_views (d := s.dev) (e := s.dev.silent) rfl] at installed
  refine ⟨_, exec_gateConfigInstall_opening running port opens, ⟨rfl, rfl, rfl⟩, ?_⟩
  rw [Dev.n_atOpen, bare_atOpen, installed, Dev.bare_put_changeFixed, Dev.n_put_port _ port port (by decide), Dev.n_changeFixed]
  exact ⟨Dev.n_listCopied_pending p _, rfl⟩

/-! SUPPORT. A pending change is cancelled (R347), and one of a stream gate is made (R349). -/

/-- A port has no list pending any more. -/
def Dev.listDropped (p : Nat) (d : Dev) : Dev := { d with gpend := d.gpend.filter fun x => !(!x.stream && x.unit == p) }

theorem Dev.gateCancel_early {k : Clk} {d : Dev} {p : Nat} {g : GPend} (pending : d.gatePend false p = some g)
    (early : (d.viewSet g.list.view).at k.raw < g.ct * 65536) : d.gateCancel k p = (d.listDropped p).put Od.GATE_CONFIG_PENDING p 0 := by
  rw [Dev.gateCancel, pending]
  exact if_pos early

theorem exec_gateConfigCancel_opening {s : State} (running : ready s = true) {p : Nat} (port : p < 1024) (opens : s.clk.c = 0) :
    exec (.gateConfigCancel p) s = .next { s with dev := (s.dev.silent.gateCancel s.clk p).atOpen } := by
  change execGateConfigCancel p s = _
  unfold execGateConfigCancel
  exact State.rowD_eq running opens (decide_eq_true port) _ rfl

theorem exec_gateConfigCancel_drops {s : State} (running : ready s = true) {p : Nat} {g : GPend} (port : p < 1024) (opens : s.clk.c = 0)
    (pending : s.dev.gatePend false p = some g) (early : (s.dev.viewSet g.list.view).at s.clk.raw < g.ct * 65536) :
    ∃ t, exec (.gateConfigCancel p) s = .next t ∧ outsideKept s t ∧ t.dev.n Od.GATE_CONFIG_PENDING p = 0 ∧ bare t.dev = bare (s.dev.listDropped p) := by
  refine ⟨_, exec_gateConfigCancel_opening running port opens, ⟨rfl, rfl, rfl⟩, ?_⟩
  rw [Dev.n_atOpen, bare_atOpen, Dev.gateCancel_early (d := s.dev.silent) pending early]
  exact ⟨Dev.n_put_same _ _ _ _ _ rfl, rfl⟩

/-- The list that has taken over is a stream gate's list in force. -/
theorem Dev.streamOper_sgateChange (u : Nat) (g : GPend) (d : Dev) : (d.sgateChange u g).streamOper u = g.list := by
  have others : (d.sgate.filter (·.1 != u)).find? (·.1 == u) = none := by simp [List.find?_eq_none]
  simp [Dev.streamOper, Dev.sgateChange, List.find?_append, others]

theorem exec_streamGateListChange_due {s : State} (running : ready s = true) {u : Nat} {g : GPend} (unit : u < 256)
    (live : s.dev.replaying = false) (pending : s.dev.gatePend true u = some g) (due : g.ct * 65536 ≤ s.dev.viewNow s.clk g.list.view) :
    exec (.streamGateListChange u) s = .next { s with dev := s.dev.silent.sgateChange u g } := by
  have pending' : s.dev.silent.gatePend true u = some g := pending
  refine State.runIf_eq running (decide_eq_true unit) ?_
  rw [Dev.rk_live (d := s.dev.silent) live, pending']
  exact if_pos due

theorem exec_streamGateListChange_takes {s : State} (running : ready s = true) {u : Nat} {g : GPend} (unit : u < 256)
    (live : s.dev.replaying = false) (pending : s.dev.gatePend true u = some g) (due : g.ct * 65536 ≤ s.dev.viewNow s.clk g.list.view) :
    ∃ t, exec (.streamGateListChange u) s = .next t ∧ onlyWrites [] { s with dev := s.dev.sgateChange u g } t ∧ t.dev.streamOper u = g.list :=
  ⟨_, exec_streamGateListChange_due running unit live pending due, ⟨⟨rfl, rfl, rfl⟩, rfl, fun _ _ _ _ => rfl⟩,
    Dev.streamOper_sgateChange u g s.dev.silent⟩

/-! SUPPORT. A port's list takes over: its entries, its other values, its end of waiting and what it opens (R348, R353). -/

/-- The entries of a list become a port's operational ones, and no other is left. -/
def Dev.entriesTaken (p : Nat) (vs : List Nat) (d : Dev) : Dev :=
  (d.clearInst Od.GATE_OPER_LIST p).each vs.zipIdx fun d x => d.put Od.GATE_OPER_LIST p x.1 x.2

/-- The rest of a list becomes a port's. -/
def Dev.scalarsTaken (p : Nat) (g : GList) (d : Dev) : Dev :=
  ((((d.put Od.GATE_OPER_ENTRIES p g.entries.length).put Od.GATE_OPER_BASE_TIME p (nsTime80 g.base)).put Od.GATE_OPER_CYCLE p g.cycle).put
    Od.GATE_OPER_CYCLE_EXTENSION p g.ext).put Od.GATE_OPER_VIEW p g.view

/-- A change is made, and counted. -/
def Dev.changeCounted (p : Nat) (d : Dev) : Dev := (d.put Od.GATE_CONFIG_PENDING p 0).bump Od.GATE_CONFIG_CHANGES p

/-- How long each gate of a port's list stays open (R353). -/
def Dev.openRunsTold (p : Nat) (d : Dev) : Dev := d.each (List.range 16) fun e o => e.put Od.GATE_MAX_OPEN p ((d.operList p).maxOpen o) o

theorem Dev.gateChange_eq (p : Nat) (g : GPend) (d : Dev) :
    d.gateChange p g = ((((d.listDropped p).entriesTaken p g.list.entries).scalarsTaken p g.list).changeCounted p).openRunsTold p := rfl

theorem Dev.entriesTaken_objsOnly (p : Nat) (vs : List Nat) (d : Dev) : d.objsOnly (d.entriesTaken p vs) :=
  Dev.objsOnly_trans (Dev.objsOnly_clearInst (Dev.objsOnly_refl d) _ _)
    (Dev.objsOnly_each vs.zipIdx _ (fun e _ _ => Dev.objsOnly_put (Dev.objsOnly_refl e) _ _ _ _) _)

theorem Dev.get_entriesTaken (p : Nat) {vs : List Nat} {e v : Nat} (listed : vs[e]? = some v) (d : Dev) :
    (d.entriesTaken p vs).get Od.GATE_OPER_LIST p e = Od.GATE_OPER_LIST.ty.norm v := by
  have read := Dev.get_each_zipIdx Od.GATE_OPER_LIST p (n := 0) listed (d.clearInst Od.GATE_OPER_LIST p)
  rwa [Nat.zero_add] at read

theorem Dev.gateDue_due {k : Clk} {d : Dev} {p : Nat} {g : GPend} (pending : d.gatePend false p = some g) (fixed : g.ct ≠ 0)
    (due : g.ct * 65536 ≤ d.viewNow k g.list.view + 70 * 65536) : d.gateDue k p = d.gateChange p g := by
  rw [Dev.gateDue, pending]
  exact if_pos ⟨fixed, due⟩

/-- What follows the values of a list: its end of waiting, the count, the open runs. -/
def tellObjs : List Obj := [Od.GATE_CONFIG_PENDING, Od.GATE_CONFIG_CHANGES, Od.GATE_MAX_OPEN]

section
variable {p : Nat} (port : p < 1024)
include port

theorem Dev.scalarsTaken_touched (g : GList) (d : Dev) :
    d.touched [Od.GATE_OPER_ENTRIES, Od.GATE_OPER_BASE_TIME, Od.GATE_OPER_CYCLE, Od.GATE_OPER_CYCLE_EXTENSION, Od.GATE_OPER_VIEW]
      (d.scalarsTaken p g) := by
  have unit : p < 65536 := by omega
  unfold Dev.scalarsTaken
  iterate 5 refine Dev.touched_put ?_ (by simp) unit (by decide) _
  exact Dev.touched_refl _ d

theorem Dev.get_scalarsTaken_entries (g : GList) (d : Dev) :
    (d.scalarsTaken p g).get Od.GATE_OPER_ENTRIES p = Od.GATE_OPER_ENTRIES.ty.norm (g.entries.length : Nat) := by
  unfold Dev.scalarsTaken
  iterate 4 rw [Dev.get_put_port _ port port (by decide) (by decide)]
  exact Dev.get_put_same _ _ _ _ _

theorem Dev.get_scalarsTaken_cycle (g : GList) (d : Dev) :
    (d.scalarsTaken p g).get Od.GATE_OPER_CYCLE p = Od.GATE_OPER_CYCLE.ty.norm (g.cycle : Nat) := by
  unfold Dev.scalarsTaken
  iterate 2 rw [Dev.get_put_port _ port port (by decide) (by decide)]
  exact Dev.get_put_same _ _ _ _ _

theorem Dev.changeCounted_touched (d : Dev) : d.touched [Od.GATE_CONFIG_PENDING, Od.GATE_CONFIG_CHANGES] (d.changeCounted p) :=
  have unit : p < 65536 := by omega
  Dev.touched_put (Dev.touched_put (Dev.touched_refl _ d) (by simp) unit (by decide) 0) (by simp) unit (by decide) _

theorem Dev.n_changeCounted_pending (d : Dev) : (d.changeCounted p).n Od.GATE_CONFIG_PENDING p = 0 :=
  (Dev.n_put_port _ port port (by decide) _).trans (Dev.n_put_same _ _ _ _ _ rfl)

theorem Dev.openRunsTold_touched (d : Dev) : d.touched [Od.GATE_MAX_OPEN] (d.openRunsTold p) :=
  Dev.each_keeps (P := d.touched [Od.GATE_MAX_OPEN]) (List.range 16)
    (fun _ _ member kept => Dev.touched_put kept (by simp) (by omega) ((List.mem_range.mp member).trans (by decide)) _) (Dev.touched_refl _ d)

theorem Dev.told_touched (d : Dev) : d.touched tellObjs ((d.changeCounted p).openRunsTold p) :=
  Dev.touched_trans (Dev.changeCounted_touched port d) (Dev.openRunsTold_touched port _)

/-- What a change leaves: no list of the port pending, and the list's values as the port's operational ones (R348). -/
theorem Dev.gateChange_takes (g : GPend) (short : g.list.entries.length ≤ 1024) (d : Dev) :
    (d.gateChange p g).n Od.GATE_CONFIG_PENDING p = 0 ∧
      (d.gateChange p g).get Od.GATE_OPER_ENTRIES p = Od.GATE_OPER_ENTRIES.ty.norm (g.list.entries.length : Nat) ∧
      (d.gateChange p g).get Od.GATE_OPER_CYCLE p = Od.GATE_OPER_CYCLE.ty.norm (g.list.cycle : Nat) ∧
      (∀ e x, g.list.entries[e]? = some x → (d.gateChange p g).get Od.GATE_OPER_LIST p e = Od.GATE_OPER_LIST.ty.norm (x : Nat)) ∧
      bare (d.gateChange p g) = bare (d.listDropped p) := by
  rw [Dev.gateChange_eq]
  have entries (e x : Nat) (entry : g.list.entries[e]? = some x) := Dev.get_entriesTaken p entry (d.listDropped p)
  have objs := Dev.entriesTaken_objsOnly p g.list.entries (d.listDropped p)
  generalize (d.listDropped p).entriesTaken p g.list.entries = taken at entries objs
  have unit : p < 65536 := by omega
  have valued := Dev.scalarsTaken_touched port g.list taken
  have told := Dev.told_touched port (taken.scalarsTaken p g.list)
  refine ⟨?_, ?_, ?_, fun e x entry => ?_, ?_⟩
  · exact (Dev.n_touched (Dev.openRunsTold_touched port _) unit (by decide) (by decide)).trans (Dev.n_changeCounted_pending port _)
  · exact (Dev.get_touched told unit (by decide) (by decide)).trans (Dev.get_scalarsTaken_entries port _ _)
  · exact (Dev.get_touched told unit (by decide) (by decide)).trans (Dev.get_scalarsTaken_cycle port _ _)
  · have place : e < 65536 := by
      have := (List.getElem?_eq_some_iff.mp entry).1
      omega
    rw [Dev.get_touched told unit place (by decide), Dev.get_touched valued unit place (by decide)]
    exact entries e x entry
  · exact Dev.objsOnly_trans objs (Dev.objsOnly_trans (Dev.touched_objsOnly valued) (Dev.touched_objsOnly told))

theorem exec_gateListChange_due {s : State} (running : ready s = true) {g : GPend} (live : s.dev.replaying = false)
    (pending : s.dev.gatePend false p = some g) (fixed : g.ct ≠ 0) (due : g.ct * 65536 ≤ s.dev.viewNow s.clk g.list.view + 70 * 65536) :
    exec (.gateListChange p) s = .next { s with dev := s.dev.silent.gateChange p g } := by
  have changed : s.dev.silent.gateDue (s.dev.silent.rk s.clk) p = s.dev.silent.gateChange p g := by
    rw [Dev.rk_live (d := s.dev.silent) live]
    exact Dev.gateDue_due (d := s.dev.silent) pending fixed due
  exact State.runIf_eq running (by simp [okPort, port]) changed

end

/-- Settles O24: a copied list waits with its change time, a cancel before that drops it, and its change writes it out, each read back past the writes that
follow it. -/
theorem gateListsChange : Obligations.GateListsChange := by
  intro s running
  refine ⟨fun p port opens idle full => ?_, fun p g port opens pending early => ?_, fun p g port live pending fixed short due => ?_,
    fun u g unit live pending due => ?_⟩
  · exact exec_gateConfigInstall_copies running port opens idle full
  · exact exec_gateConfigCancel_drops running port opens pending early
  · exact ⟨_, exec_gateListChange_due port running live pending fixed due, ⟨rfl, rfl, rfl⟩, Dev.gateChange_takes port g short s.dev.silent⟩
  · exact exec_streamGateListChange_takes running unit live pending due

end Sys2Proof.Machine

namespace Sys2Proof.Machine
open Sys2Proof.Safety

/-! SUPPORT. Rounding (R363), and the parameter sets a view keeps (R368). -/

/-- A whole number of units needs no rounding. -/
theorem roundHalfEven_mul (q : Int) {d : Int} (pos : 0 < d) : roundHalfEven (q * d) d = q := by
  have whole : (q * d).fdiv d = q := Int.mul_fdiv_cancel q pos.ne'
  simp [roundHalfEven, whole, pos]

/-- Whole units added before the rounding come out whole, but for an odd number of them added to a tie, which then rounds the other way. -/
theorem roundHalfEven_add_mul (a : Int) {n d : Int} (pos : 0 < d) (untied : n % 2 = 0 ∨ 2 * (a % d) ≠ d) :
    roundHalfEven (a + n * d) d = roundHalfEven a d + n := by
  have quotient : (a + n * d).fdiv d = a.fdiv d + n := Int.add_mul_fdiv_right a n pos.ne'
  have rest : a + n * d - (a.fdiv d + n) * d = a - a.fdiv d * d := by ring
  have tie : a - a.fdiv d * d = a % d := by
    rw [Int.fdiv_eq_ediv_of_nonneg a pos.le]
    have := Int.emod_add_mul_ediv a d
    linarith [mul_comm d (a / d)]
  simp only [roundHalfEven, quotient, rest, tie]
  split_ifs <;> omega

/-- A parameter set read at its anchor gives its offset, rounded. -/
theorem ViewSet.at_of_anchor (p : ViewSet) (r : Nat) (anchored : p.anchor = r) : p.at r = (roundHalfEven p.offset (2 ^ 32) % viewCircle).toNat := by
  simp [ViewSet.at, anchored]

theorem Dev.viewSets_of_views {d e : Dev} (same : e.views = d.views) (v : Nat) : e.viewSets v = d.viewSets v := by
  rw [Dev.viewSets, Dev.viewSets, same]

theorem Dev.view_of_mem_viewSets {d : Dev} {v : Nat} {p : ViewSet} (kept : p ∈ d.viewSets v) : p.view = v := by
  rcases List.mem_append.mp (List.mem_of_mem_take kept) with listed | reset
  · exact beq_iff_eq.mp (List.mem_filter.mp listed).2
  · rw [List.mem_singleton.mp reset]

theorem Dev.viewSet_mem (d : Dev) (v : Nat) : d.viewSet v ∈ d.viewSets v := by
  rw [Dev.viewSet, Dev.viewSets]
  cases d.views.filter (·.view == v) <;> simp

/-- A set that joins a view's is the one in force there. -/
theorem Dev.viewSet_setView (p : ViewSet) (d : Dev) : (d.setView p).viewSet p.view = p := by
  simp [Dev.setView, Dev.pushView, Dev.viewSet, Dev.viewSets]

/-- It is none of another view's. -/
theorem Dev.viewSets_setView_other {p : ViewSet} {w : Nat} (other : w ≠ p.view) (d : Dev) : (d.setView p).viewSets w = d.viewSets w := by
  have mine : ∀ (l : List ViewSet), (∀ q ∈ l, q.view = p.view) → (l.take 8).filter (·.view == w) = [] := by
    intro l own
    refine List.filter_eq_nil_iff.mpr fun q kept => ?_
    rw [own q (List.mem_of_mem_take kept)]
    simpa using other.symm
  have theirs : ((d.views.filter fun x => !(x.view == p.view && x.from_ == p.from_)).filter (·.view != p.view)).filter (·.view == w) =
      d.views.filter (·.view == w) := by
    simp only [List.filter_filter]
    refine List.filter_congr fun q _ => ?_
    by_cases its : q.view = w <;> simp [its, other]
  simp only [Dev.setView, Dev.pushView]
  rw [Dev.viewSets, List.filter_append, mine, theirs]
  · rfl
  · intro q kept
    rcases List.mem_cons.mp kept with rfl | kept
    · rfl
    · exact Dev.view_of_mem_viewSets kept

@[simp] theorem Dev.rebased_view (k : Clk) (d : Dev) (v : Nat) : (d.rebased k v).view = v :=
  Dev.view_of_mem_viewSets (p := d.viewSet v) (d.viewSet_mem v)

/-- The re-basing of a view does not move it (R367, step 1). -/
theorem Dev.at_rebased (k : Clk) (d : Dev) (v : Nat) : (d.rebased k v).at k.raw = (d.viewSet v).at k.raw := by
  have apart : 0 ≤ ((k.raw : Int) - (d.viewSet v).anchor) % 2 ^ 72 := Int.emod_nonneg _ (by decide)
  rw [ViewSet.at_of_anchor (d.rebased k v) k.raw rfl]
  simp only [Dev.rebased, ViewSet.at]
  rw [Nat.cast_mul, Int.toNat_of_nonneg apart]

end Sys2Proof.Machine


namespace Sys2Proof.Machine
open Sys2Proof.Safety

/-! SUPPORT. The writes of a view at a boundary (R366, R367). -/

section
variable {s : State} (running : ready s = true) (boundary : s.clk.c = 0) {v : Nat} (view : v < 4) (unbarred : s.dev.timeBarred v = false)
include running boundary view unbarred

theorem exec_timeViewSet_opening {x : Nat} (time : x / 2 ^ 48 < 1000000000) :
    exec (.timeViewSet v x) s = .next { s with dev := (s.dev.silent.viewSetTo s.clk v x (s.dev.n Od.TIME_VIEW_SET_SUB v)).atOpen } := by
  change execTimeViewSet v x s = _
  unfold execTimeViewSet
  exact State.rowD_eq running boundary (decide_eq_true ⟨view, time⟩) _ (if_neg (ne_true_of_eq_false unbarred))

theorem exec_timeViewStep_opening {n : Int} (fits : fits64 n = true) :
    exec (.timeViewStep v n) s = .next { s with dev := (s.dev.silent.viewStep s.clk v n).atOpen } := by
  change execTimeViewStep v n s = _
  unfold execTimeViewStep
  exact State.rowD_eq running boundary (by simp [view, fits]) _ (if_neg (ne_true_of_eq_false unbarred))

theorem exec_timeViewIncrement_opening {n : Nat} (admitted : incOk n = true) :
    exec (.timeViewIncrement v n) s = .next { s with dev := (s.dev.silent.viewIncrement s.clk v n).atOpen } := by
  change execTimeViewIncrement v n s = _
  unfold execTimeViewIncrement
  exact State.rowD_eq running boundary (by simp [view, admitted]) _ (if_neg (ne_true_of_eq_false unbarred))

end

/-- A device whose views are those of d once p has joined them: p is in force for its view, and the other views stand. -/
theorem Dev.views_set {d e : Dev} {p : ViewSet} {v : Nat} (set : e.views = (d.setView p).views) (named : p.view = v) :
    e.viewSet v = p ∧ ∀ w, w ≠ v → e.viewSets w = d.viewSets w := by
  subst named
  exact ⟨(Dev.viewSet_of_views set _).trans (Dev.viewSet_setView p d), fun _ other =>
    (Dev.viewSets_of_views set _).trans (Dev.viewSets_setView_other other d)⟩

/-- The set that a SET gives a view (R367, step 2). -/
def Dev.setTo (k : Clk) (d : Dev) (v t sub : Nat) : ViewSet := { d.rebased k v with offset := (time80Ns t * 65536 + sub) * 2 ^ 32 }

/-- The set that a STEP gives a view (R367, step 2). -/
def Dev.stepped (k : Clk) (d : Dev) (v : Nat) (n : Int) : ViewSet := { d.rebased k v with offset := (d.rebased k v).offset + n * 2 ^ 32 }

/-- The set that an increment gives a view (R367, step 3). -/
def Dev.paced (k : Clk) (d : Dev) (v n : Nat) : ViewSet := { d.rebased k v with inc := n }

theorem Dev.viewSetTo_views (k : Clk) (v t sub : Nat) (d : Dev) : (d.viewSetTo k v t sub).views = (d.setView (d.setTo k v t sub)).views := rfl

theorem Dev.viewStep_views (k : Clk) (v : Nat) {n : Int} (moves : n ≠ 0) (d : Dev) :
    (d.viewStep k v n).views = (d.setView (d.stepped k v n)).views := by
  rw [Dev.viewStep, if_neg moves]
  rfl

theorem Dev.viewIncrement_views (k : Clk) (v n : Nat) (d : Dev) : (d.viewIncrement k v n).views = (d.setView (d.paced k v n)).views := rfl

theorem Dev.at_setTo (k : Clk) (d : Dev) (v t sub : Nat) : (d.setTo k v t sub).at k.raw = (time80Ns t * 65536 + sub) % viewCircle := by
  rw [ViewSet.at_of_anchor (d.setTo k v t sub) k.raw rfl]
  have units : (d.setTo k v t sub).offset = ((time80Ns t * 65536 + sub : Nat) : Int) * 2 ^ 32 := by simp [Dev.setTo]
  rw [units, roundHalfEven_mul _ (by decide), ← Int.natCast_emod, Int.toNat_natCast]

/-- A change of pace does not move a view (R367). -/
theorem Dev.at_paced (k : Clk) (d : Dev) (v n : Nat) : (d.paced k v n).at k.raw = (d.viewSet v).at k.raw := by
  rw [← Dev.at_rebased k d v, ViewSet.at_of_anchor (d.paced k v n) k.raw rfl, ViewSet.at_of_anchor (d.rebased k v) k.raw rfl]
  rfl

/-- A step by n moves a view by n, but for an odd step of a view that stands half way between two units: there both readings are rounded, each to the even
neighbour (R363). -/
theorem Dev.at_stepped (k : Clk) (d : Dev) (v : Nat) {n : Int} (untied : n % 2 = 0 ∨ 2 * ((d.rebased k v).offset % 2 ^ 32) ≠ 2 ^ 32) :
    (((d.stepped k v n).at k.raw : Int) - (d.viewSet v).at k.raw - n) % (viewCircle : Int) = 0 := by
  have circle : (viewCircle : Int) ≠ 0 := by decide
  have moved : roundHalfEven (d.stepped k v n).offset (2 ^ 32) = roundHalfEven (d.rebased k v).offset (2 ^ 32) + n :=
    roundHalfEven_add_mul _ (by decide) untied
  rw [← Dev.at_rebased k d v, ViewSet.at_of_anchor (d.stepped k v n) k.raw rfl, ViewSet.at_of_anchor (d.rebased k v) k.raw rfl, moved,
    Int.toNat_of_nonneg (Int.emod_nonneg _ circle), Int.toNat_of_nonneg (Int.emod_nonneg _ circle)]
  generalize roundHalfEven (d.rebased k v).offset (2 ^ 32) = u
  generalize (viewCircle : Int) = c at *
  rw [show (u + n) % c - u % c - n = (u + n) % c - (u % c + n) by ring, Int.emod_eq_emod_iff_emod_sub_eq_zero.symm]
  simp

/-! SUPPORT. A view between two units (R363). -/

/-- View 0, its increment one above the nominal since a cold reset, at the boundary that opens tick 2²⁰: its offset, re-based, is half a unit of 2⁻¹⁶ ns more
than a whole number of them. -/
def tieState : State :=
  { clk := { tick := 1048576, raw := 53687091200 }, dev := { views := [{ view := 0, inc := 2748779069441 }] } }

theorem tieState_reads : (tieState.dev.viewSet 0).at tieState.clk.raw = 34359738368012 := by decide

theorem tieState_stepped : (tieState.dev.silent.stepped tieState.clk 0 1).at tieState.clk.raw = 34359738368014 := by decide

/-- Refutes O25: R363 rounds a reading half way between two units to the even one, and so a STEP by 1 of a view that stands there moves its reading by 2 or
by 0; here from 34359738368012.5, which reads 34359738368012, to 34359738368013.5, which reads 34359738368014. For every other step, and for SET, increments
and holdover, the statement holds: `viewsAreWritten_of_untied`. -/
theorem not_viewsAreWritten : ¬ Obligations.ViewsAreWritten := by
  intro h
  obtain ⟨-, step, -⟩ := h tieState 0 (by decide) (by decide)
  obtain ⟨t, ran, -, moved, -⟩ := step 1 (by decide) (by decide) (by decide) (by decide)
  rw [exec_timeViewStep_opening (by decide) (by decide) (by decide) (by decide) (by decide)] at ran
  cases ran
  obtain ⟨inForce, -⟩ := Dev.views_set (Dev.viewStep_views tieState.clk 0 (n := 1) (by decide) tieState.dev.silent) rfl
  have reads : ((tieState.dev.silent.viewStep tieState.clk 0 1).atOpen.viewSet 0).at tieState.clk.raw = 34359738368014 :=
    (congrArg (·.at tieState.clk.raw) inForce).trans tieState_stepped
  rw [reads, tieState_reads] at moved
  exact absurd moved (by decide)

end Sys2Proof.Machine

namespace Sys2Proof.Machine
open Sys2Proof.Safety

/-! SUPPORT. What an event leaves alone (R497 to R502). -/

/-- The objects in which the recorder counts, and the one that keeps the journal's triggers. -/
def recorderObjs : List Obj := [Od.REC_CODE_OCCURRENCES, Rg.J_TRIGGER, Od.REC_QUEUE_LOST, Od.REC_CODE_SUPPRESSED]

/-- The device e differs from d in what the recorder keeps alone: its accumulators, its write queue, its objects. -/
def Dev.recorded (d e : Dev) : Prop := ({ d with accs := e.accs, recQ := e.recQ } : Dev).touched recorderObjs e

/-- Writes of objects take no account of what the recorder holds. -/
theorem Dev.touched_recorder {objs : List Obj} {d e : Dev} (h : d.touched objs e) (accs : List Acc) (recQ : List (List Byte)) :
    ({ d with accs := accs, recQ := recQ } : Dev).touched objs { e with accs := accs, recQ := recQ } := by
  obtain ⟨keys, within, same, reads⟩ := h
  have elsewhere := congrArg (fun b : Dev => { b with accs := accs, recQ := recQ }) (show bare e = bare d from same)
  exact ⟨keys, within, elsewhere, reads⟩

theorem Dev.recorded_refl (d : Dev) : d.recorded d := Dev.touched_refl _ _

theorem Dev.recorded_trans {d e g : Dev} (first : d.recorded e) (next : e.recorded g) : d.recorded g :=
  Dev.touched_mono (Dev.touched_trans (Dev.touched_recorder first g.accs g.recQ) next) (by simp)

theorem Dev.recorded_put {o : Obj} (known : o ∈ recorderObjs) {i : Nat} (unit : i < 65536) (v : Nat) (d : Dev) : d.recorded (d.put o i v) :=
  Dev.touched_put (Dev.touched_refl _ d) known unit (by decide) v

theorem Dev.recorded_bump {o : Obj} (known : o ∈ recorderObjs) {i : Nat} (unit : i < 65536) (d : Dev) : d.recorded (d.bump o i) :=
  Dev.recorded_put known unit _ d

theorem Dev.recorded_accs (accs : List Acc) (d : Dev) : d.recorded { d with accs := accs } := Dev.touched_refl _ _

theorem Dev.queueRecord_recorded (r : List Byte) (d : Dev) : d.recorded (d.queueRecord r) := by
  unfold Dev.queueRecord
  split
  · exact Dev.touched_refl _ _
  · exact Dev.recorded_bump (by simp [recorderObjs]) (by decide) d

theorem Dev.closeAcc_recorded (code : Nat) (d : Dev) : d.recorded (d.closeAcc code) := by
  unfold Dev.closeAcc
  split
  · exact Dev.recorded_trans (Dev.recorded_accs _ d) (Dev.queueRecord_recorded _ _)
  · exact Dev.recorded_refl d

theorem Dev.closeDue_recorded (k : Clk) (code : Nat) (d : Dev) : d.recorded (d.closeDue k code) := by
  unfold Dev.closeDue
  split
  · split
    · exact Dev.each_keeps (P := d.recorded) _ (fun _ _ _ so => Dev.recorded_trans so (Dev.closeAcc_recorded _ _)) (Dev.recorded_refl d)
    · exact Dev.recorded_refl d
  · exact Dev.recorded_refl d

section
variable {code : Nat} (coded : code < 65536)
include coded

theorem Dev.occurs_recorded (k : Clk) (d : Dev) : d.recorded (d.occurs k code) := by
  have counted : d.recorded (d.bump Od.REC_CODE_OCCURRENCES code) := Dev.recorded_bump (by simp [recorderObjs]) coded d
  unfold Dev.occurs
  dsimp only
  split
  · exact Dev.recorded_trans counted (Dev.recorded_put (by simp [recorderObjs]) coded _ _)
  · exact counted

theorem Dev.event_recorded (k : Clk) (inst : Nat) (x : Int) (detail : List Byte) (d : Dev) : d.recorded (d.event k code inst x detail) := by
  have occurred := Dev.occurs_recorded coded k d
  have closed := Dev.recorded_trans occurred (Dev.closeDue_recorded k code (d.occurs k code))
  unfold Dev.event
  dsimp only
  split
  · split
    · exact Dev.recorded_trans closed (Dev.recorded_accs _ _)
    · exact Dev.recorded_trans closed (Dev.recorded_accs _ _)
  · exact Dev.recorded_trans occurred (Dev.recorded_bump (by simp [recorderObjs]) coded _)

end

theorem Dev.recorded_views {d e : Dev} (h : d.recorded e) : e.views = d.views := by
  have same := congrArg Dev.views (show bare e = bare _ from Dev.touched_objsOnly h)
  exact same

theorem Dev.n_recorded {d e : Dev} (h : d.recorded e) {o : Obj} {i f : Nat} (hi : i < 65536) (hf : f < 65536)
    (apart : ∀ q ∈ recorderObjs, o.idx * 256 + o.sub ≠ q.idx * 256 + q.sub) : e.n o i f = d.n o i f := Dev.n_touched h hi hf apart

/-! SUPPORT. A view in holdover (R369), and the states of the views (R370). -/

/-- The device as a view's holdover leaves it, but for its event: the state, and the holdover increment where there is one. -/
def Dev.heldOver (k : Clk) (v : Nat) (d : Dev) : Dev :=
  let h := d.n Od.TIME_VIEW_HOLDOVER_INCREMENT v
  if h = 0 then d.put Od.TIME_VIEW_STATE v 2 else (d.put Od.TIME_VIEW_STATE v 2).viewInc k v h

section
variable {v : Nat} (view : v < 4)
include view

/-- Elements of different objects of views. -/
theorem Obj.key_ne_view {o q : Obj} {w : Nat} (other : w < 4) (h : o.idx * 256 + o.sub ≠ q.idx * 256 + q.sub) : o.key v 0 ≠ q.key w 0 :=
  Obj.key_ne h (by omega) (by omega) (by decide) (by decide)

theorem Dev.holdover_eq (k : Clk) (d : Dev) : d.holdover k v = (d.heldOver k v).event k 0x0E01 v 0 [] := by
  have kept : (d.put Od.TIME_VIEW_STATE v 2).n Od.TIME_VIEW_HOLDOVER_INCREMENT v = d.n Od.TIME_VIEW_HOLDOVER_INCREMENT v :=
    Dev.n_put_other _ _ _ _ _ _ _ _ (Obj.key_ne_view view view (by decide))
  rw [Dev.holdover, Dev.heldOver, kept]

theorem Dev.n_heldOver_state (k : Clk) (d : Dev) : (d.heldOver k v).n Od.TIME_VIEW_STATE v = 2 := by
  have held : (d.put Od.TIME_VIEW_STATE v 2).n Od.TIME_VIEW_STATE v = 2 := Dev.n_put_same _ _ _ _ _ rfl
  unfold Dev.heldOver
  dsimp only
  split
  · exact held
  · exact (Dev.n_put_other _ _ _ _ _ _ _ _ (Obj.key_ne_view view view (by decide))).trans held

theorem Dev.n_holdover_state (k : Clk) (d : Dev) : (d.holdover k v).n Od.TIME_VIEW_STATE v = 2 := by
  rw [Dev.holdover_eq view, Dev.n_recorded (Dev.event_recorded (by decide) k _ _ _ _) (by omega) (by decide) (by decide)]
  exact Dev.n_heldOver_state view k d

/-- Without a holdover increment a view keeps its pace; with one it takes it. -/
theorem Dev.holdover_paces (k : Clk) (d : Dev) :
    (d.n Od.TIME_VIEW_HOLDOVER_INCREMENT v = 0 → (d.holdover k v).views = d.views) ∧
      (d.n Od.TIME_VIEW_HOLDOVER_INCREMENT v ≠ 0 →
        ((d.holdover k v).viewSet v).inc = d.n Od.TIME_VIEW_HOLDOVER_INCREMENT v) := by
  have views : (d.holdover k v).views = (d.heldOver k v).views := by
    rw [Dev.holdover_eq view]
    exact Dev.recorded_views (Dev.event_recorded (by decide) k _ _ _ _)
  refine ⟨fun none => views.trans (by rw [Dev.heldOver, if_pos none]; rfl), fun some => ?_⟩
  have set : (d.holdover k v).views = (d.setView (d.paced k v (d.n Od.TIME_VIEW_HOLDOVER_INCREMENT v))).views :=
    views.trans (by rw [Dev.heldOver, if_neg some]; rfl)
  obtain ⟨inForce, -⟩ := Dev.views_set set (Dev.rebased_view k d v)
  rw [inForce]
  rfl

/-- An increment that R366 admits is shown, and the view is TRACKING (R367, R370). -/
theorem Dev.viewIncrement_shows (k : Clk) {n : Nat} (admitted : incOk n = true) (d : Dev) :
    (d.viewIncrement k v n).n Od.TIME_VIEW_STATE v = 1 ∧ (d.viewIncrement k v n).n Od.TIME_VIEW_INCREMENT v = n := by
  have word : Od.TIME_VIEW_INCREMENT.ty.norm (n : Int) = n := by
    simp only [incOk, decide_eq_true_eq] at admitted
    simp only [ObjTy.norm, Od.TIME_VIEW_INCREMENT]
    omega
  constructor
  · exact (Dev.n_put_other _ _ _ _ _ _ _ _ (Obj.key_ne_view view view (by decide))).trans (Dev.n_put_same _ _ _ _ _ rfl)
  · exact ((Dev.n_put_other _ _ _ _ _ _ _ _ (Obj.key_ne_view view view (by decide))).trans
      (Dev.n_put_other _ _ _ _ _ _ _ _ (Obj.key_ne_view view view (by decide)))).trans (Dev.n_put_same _ _ _ _ _ word)

theorem Dev.get_viewStep_state (k : Clk) (n : Int) (d : Dev) {w : Nat} (other : w < 4) :
    (d.viewStep k v n).get Od.TIME_VIEW_STATE w = d.get Od.TIME_VIEW_STATE w := by
  unfold Dev.viewStep
  split
  · rfl
  · exact Dev.get_bump_other _ _ _ _ _ _ _ _ (Obj.key_ne_view view other (by decide))

theorem exec_holdoverEntry_due {s : State} (running : ready s = true) (due : s.dev.holdoverDue s.clk v = true) :
    exec (.holdoverEntry v) s = .next { s with dev := s.dev.silent.holdover s.clk v } :=
  State.runIf_eq running (decide_eq_true view) (if_pos due)

end

/-- The statement that `not_viewsAreWritten` refutes, with the hypothesis its STEP lacks: the view does not stand half way between two units, or the step is
even. -/
theorem viewsAreWritten_of_untied (s : State) (v : Nat) (running : ready s = true) (view : v < 4) :
    (∀ x, s.clk.c = 0 → s.dev.timeBarred v = false → x / 2 ^ 48 < 1000000000 →
      ∃ t, exec (.timeViewSet v x) s = .next t ∧ outsideKept s t ∧
        (t.dev.viewSet v).at s.clk.raw = (time80Ns x * 65536 + s.dev.n Od.TIME_VIEW_SET_SUB v) % viewCircle ∧
        (∀ w, w ≠ v → t.dev.viewSets w = s.dev.viewSets w)) ∧
    (∀ n : Int, n ≠ 0 → fits64 n = true → s.clk.c = 0 → s.dev.timeBarred v = false →
      (n % 2 = 0 ∨ 2 * ((s.dev.rebased s.clk v).offset % 2 ^ 32) ≠ 2 ^ 32) →
      ∃ t, exec (.timeViewStep v n) s = .next t ∧ outsideKept s t ∧
        (((t.dev.viewSet v).at s.clk.raw : Int) - ((s.dev.viewSet v).at s.clk.raw : Int) - n) % (viewCircle : Int) = 0 ∧
        (∀ w, w ≠ v → t.dev.viewSets w = s.dev.viewSets w)) ∧
    (∀ n, s.clk.c = 0 → s.dev.timeBarred v = false → incOk n = true →
      ∃ t, exec (.timeViewIncrement v n) s = .next t ∧ outsideKept s t ∧ (t.dev.viewSet v).inc = n ∧
        (t.dev.viewSet v).at s.clk.raw = (s.dev.viewSet v).at s.clk.raw ∧ t.dev.n Od.TIME_VIEW_STATE v = 1 ∧
        t.dev.n Od.TIME_VIEW_INCREMENT v = n ∧ (∀ w, w ≠ v → t.dev.viewSets w = s.dev.viewSets w)) ∧
    (s.dev.holdoverDue s.clk v = true →
      ∃ t, exec (.holdoverEntry v) s = .next t ∧ outsideKept s t ∧ t.dev.n Od.TIME_VIEW_STATE v = 2 ∧
        (s.dev.n Od.TIME_VIEW_HOLDOVER_INCREMENT v = 0 → t.dev.views = s.dev.views) ∧
        (s.dev.n Od.TIME_VIEW_HOLDOVER_INCREMENT v ≠ 0 → (t.dev.viewSet v).inc = s.dev.n Od.TIME_VIEW_HOLDOVER_INCREMENT v)) := by
  refine ⟨fun x boundary unbarred time => ?_, fun n moves fits boundary unbarred untied => ?_, fun n boundary unbarred admitted => ?_, fun due => ?_⟩
  · obtain ⟨inForce, others⟩ := Dev.views_set (Dev.viewSetTo_views s.clk v x (s.dev.n Od.TIME_VIEW_SET_SUB v) s.dev.silent)
      (Dev.rebased_view s.clk s.dev v)
    exact ⟨_, exec_timeViewSet_opening running boundary view unbarred time, ⟨rfl, rfl, rfl⟩,
      (congrArg (·.at s.clk.raw) inForce).trans (Dev.at_setTo s.clk s.dev v x _), others⟩
  · obtain ⟨inForce, others⟩ := Dev.views_set (Dev.viewStep_views s.clk v moves s.dev.silent) (Dev.rebased_view s.clk s.dev v)
    have moved := Dev.at_stepped s.clk s.dev.silent v untied
    rw [← inForce] at moved
    exact ⟨_, exec_timeViewStep_opening running boundary view unbarred fits, ⟨rfl, rfl, rfl⟩, moved, others⟩
  · obtain ⟨inForce, others⟩ := Dev.views_set (Dev.viewIncrement_views s.clk v n s.dev.silent) (Dev.rebased_view s.clk s.dev v)
    obtain ⟨tracking, shown⟩ := Dev.viewIncrement_shows view s.clk admitted s.dev.silent
    exact ⟨_, exec_timeViewIncrement_opening running boundary view unbarred admitted, ⟨rfl, rfl, rfl⟩, congrArg ViewSet.inc inForce,
      (congrArg (·.at s.clk.raw) inForce).trans (Dev.at_paced s.clk s.dev v n), tracking, shown, others⟩
  · have ran := exec_holdoverEntry_due view running due
    have held := Dev.n_holdover_state view s.clk s.dev.silent
    have paces := Dev.holdover_paces view s.clk s.dev.silent
    generalize s.dev.silent.holdover s.clk v = e at ran held paces
    exact ⟨_, ran, ⟨rfl, rfl, rfl⟩, held, paces⟩

end Sys2Proof.Machine

namespace Sys2Proof.Machine
open Sys2Proof.Safety

/-! SUPPORT. A write that waits for the next boundary (R31, log entry 36). -/

/-- A write whose check leaves nothing behind, whether it passes or not, changes no object before that boundary. -/
theorem Dev.objs_rowLater {w : WriteOp} (unnoted : ∀ (d : Dev) (status : Nat) (f : Dev), d.noteCheck w status f = d) (k : Clk) (m : Memory) (d : Dev) : (d.rowLater k [w] m).objs = d.objs := by
  have checked (f a : Dev) : (Dev.checkGroup m f [] [w] a d).2.2.objs = d.objs := by
    unfold Dev.checkGroup
    dsimp only
    rw [unnoted]
    split <;> rfl
  unfold Dev.rowLater
  dsimp only
  split
  · rfl
  · split
    · exact checked _ _
    · exact checked _ _

theorem State.rowD_waits {s : State} (running : ready s = true) (within : s.clk.c ≠ 0) {ok : Bool} (known : ok = true) (ws : List WriteOp)
    (f : Clk → Dev → Dev) : s.rowD ok ws f = .next { s with dev := s.dev.silent.rowLater s.clk ws s.mem } :=
  State.row_waits (ready_halted running) within known ws _

theorem State.rowD_none (s : State) {ok : Bool} (refused : ok = false) (ws : List WriteOp) (f : Clk → Dev → Dev) : s.rowD ok ws f = .next s.quiet := by
  unfold State.rowD State.row
  exact State.runM_none s refused _

/-! SUPPORT. The states of the views (R370). -/

theorem Dev.noteCheck_stepWrite (v n : Nat) (d : Dev) (status : Nat) (f : Dev) : d.noteCheck (wrN Od.TIME_VIEW_STEP v n) status f = d :=
  Dev.noteCheck_other (by simp only [wrN, wr, Od.TIME_VIEW_STEP]; decide) (by simp only [wrN, wr, Od.TIME_VIEW_STEP]; decide) d status f

/-- A step, applied, barred, waiting or of a size that no write carries, leaves every view's state as it is. -/
theorem exec_timeViewStep_states {s : State} (running : ready s = true) {v : Nat} (view : v < 4) (n : Int) :
    ∃ t, exec (.timeViewStep v n) s = .next t ∧ ∀ w, w < 4 → t.dev.get Od.TIME_VIEW_STATE w = s.dev.get Od.TIME_VIEW_STATE w := by
  change ∃ t, execTimeViewStep v n s = .next t ∧ _
  unfold execTimeViewStep
  by_cases fits : fits64 n = true
  · have known : (decide (v < 4) && fits64 n) = true := by simp [view, fits]
    by_cases boundary : s.clk.c = 0
    · refine ⟨_, State.rowD_eq running boundary known _ rfl, fun w other => ?_⟩
      change (ite _ _ _ : Dev).get _ _ = _
      split
      · rfl
      · exact Dev.get_viewStep_state view s.clk n s.dev.silent other
    · refine ⟨_, State.rowD_waits running boundary known _ _, fun w _ => ?_⟩
      have objs := Dev.objs_rowLater (Dev.noteCheck_stepWrite v (ofSigned 64 n)) s.clk s.mem s.dev.silent
      simp only [Dev.get, objs]
      rfl
  · exact ⟨_, State.rowD_none s (by simp [fits]) _ _, fun _ _ => rfl⟩

theorem exec_holdoverEntry_undue {s : State} (running : ready s = true) {v : Nat} (view : v < 4) (undue : s.dev.holdoverDue s.clk v = false) :
    exec (.holdoverEntry v) s = .next { s with dev := s.dev.silent } :=
  State.runIf_eq running (decide_eq_true view) (if_neg (ne_true_of_eq_false undue))

/-- Settles O5: an increment puts the state, a step does not touch it, and of a FREE view no holdover falls due. -/
theorem holdoverEndsByAnIncrement : Obligations.HoldoverEndsByAnIncrement := by
  intro s v running view
  refine ⟨fun n boundary _ unbarred admitted => ?_, exec_timeViewStep_states running view, fun free => ?_⟩
  · obtain ⟨tracking, -⟩ := Dev.viewIncrement_shows view s.clk admitted s.dev.silent
    exact ⟨_, exec_timeViewIncrement_opening running boundary view unbarred admitted, tracking⟩
  · have undue : s.dev.holdoverDue s.clk v = false := by simp [Dev.holdoverDue, free]
    exact ⟨_, exec_holdoverEntry_undue running view undue, onlyWrites_of (Dev.wrote_silent _ _)⟩

end Sys2Proof.Machine

namespace Sys2Proof.Machine
open Sys2Proof.Safety

/-! SUPPORT. A measurement of a reference (R372). -/

/-- A signed number of 64 bits is a value of its type. -/
theorem ObjTy.norm_s64 {v : Int} (fits : fits64 v = true) : ObjTy.norm .s64 v = v := by
  simp only [fits64, decide_eq_true_eq] at fits
  simp only [ObjTy.norm, toSigned, ofSigned]
  split_ifs <;> omega

/-- The elements that a measurement of reference x writes. -/
def measureKeys (x : Nat) : List Nat := [Od.TIME_REF_LAST.key 0 x, Od.TIME_REF_LAST_TICK.key 0 x, Rg.VOTE_NEW.key 0 0, Rg.VOTE_NEW.key 0 1]

theorem Dev.measure_wrote (k : Clk) (x : Nat) (off : Int) (d : Dev) : d.wrote (measureKeys x) (d.measure k x off) := by
  have moved : d.wrote (measureKeys x) (d.when (d.n Rg.VOTE_NEW 0 != k.tick + 1) fun d => d.put Rg.VOTE_NEW 0 (d.n Rg.VOTE_NEW 0) 1) :=
    Dev.wrote_ite (Dev.wrote_put (Dev.wrote_refl _ d) _ _ _ _ (by simp [measureKeys])) (Dev.wrote_refl _ d)
  exact Dev.wrote_put (Dev.wrote_put (Dev.wrote_set moved _ _ _ _ (by simp [measureKeys])) _ _ _ _ (by simp [measureKeys])) _ _ _ _
    (by simp [measureKeys])

/-- A measurement calls for a vote in the next tick. -/
theorem Dev.n_measure_voteNew (k : Clk) (x : Nat) (off : Int) (d : Dev) : (d.measure k x off).n Rg.VOTE_NEW 0 = k.tick + 1 :=
  Dev.n_put_same _ _ _ _ _ rfl

section
variable {x : Nat} (reference : x < 3) (k : Clk) (off : Int) (d : Dev)
include reference

theorem Dev.get_measure_tick : (d.measure k x off).get Od.TIME_REF_LAST_TICK 0 x = Od.TIME_REF_LAST_TICK.ty.norm (k.tick : Nat) :=
  (Dev.get_put_other _ _ _ _ _ _ _ _ (Obj.key_ne (by decide) (by decide) (by decide) (by decide) (by omega))).trans (Dev.get_put_same _ _ _ _ _)

theorem Dev.get_measure_last : (d.measure k x off).get Od.TIME_REF_LAST 0 x = Od.TIME_REF_LAST.ty.norm off :=
  ((Dev.get_put_other _ _ _ _ _ _ _ _ (Obj.key_ne (by decide) (by decide) (by decide) (by decide) (by omega))).trans
    (Dev.get_put_other _ _ _ _ _ _ _ _ (Obj.key_ne (by decide) (by decide) (by decide) (by omega) (by omega)))).trans (Dev.get_set_same _ _ _ _ _)

end

/-- An offset of reference A, written at a boundary, is measured (R372). -/
theorem exec_refAWrite_measures {s : State} (running : ready s = true) (boundary : s.clk.c = 0) (enabled : s.dev.on Od.TIME_REF_A_ENABLE 0 = true)
    {off : Int} (fits : fits64 off = true) : exec (.refAWrite off) s = .next { s with dev := (s.dev.silent.measure s.clk 0 off).atOpen } := by
  change execRefAWrite off s = _
  unfold execRefAWrite
  exact State.rowD_eq running boundary fits _ (if_pos enabled)

/-! SUPPORT. Reference B: an edge, its label, the end of the wait for it (R372, R373, R375). -/

theorem Dev.refB_disabled {d : Dev} (disabled : d.on Od.TIME_REF_B_ENABLE 0 = false) (k : Clk) (v : Nat) (s : Option Nat) : d.refB k v s = d :=
  if_pos (by simp [disabled])

/-- The offset of reference B from an edge at view time v, whose second is s or the nearest (R372). -/
def Dev.offsetB (d : Dev) (v : Nat) (s : Option Nat) : Int :=
  (match s with | some x => (x : Int) | none => roundHalfEven (v + d.get Od.TIME_REF_B_DELAY 0) secU) * secU + d.get Od.TIME_REF_B_DELAY 0 - v

theorem Dev.refB_enabled {d : Dev} (enabled : d.on Od.TIME_REF_B_ENABLE 0 = true) (k : Clk) (v : Nat) (s : Option Nat) :
    d.refB k v s = d.measure k 1 (d.offsetB v s) := if_neg (by simp [enabled])

theorem Dev.refB_wrote (k : Clk) (v : Nat) (s : Option Nat) (d : Dev) : d.wrote (measureKeys 1) (d.refB k v s) := by
  cases enabled : d.on Od.TIME_REF_B_ENABLE 0 with
  | false => rw [Dev.refB_disabled enabled]; exact Dev.wrote_refl _ d
  | true => rw [Dev.refB_enabled enabled]; exact Dev.measure_wrote k 1 _ d

/-- A conversion counts, if anything, that it is stale (R368). -/
theorem Dev.convert_wrote (v r : Nat) (d : Dev) : d.wrote [Od.TIME_VIEW_STALE_CONVERSIONS.key v 0] (d.convert v r).2 :=
  Dev.wrote_ite (Dev.wrote_bump (Dev.wrote_refl _ d) _ _ _ _ (by simp)) (Dev.wrote_refl _ d)

/-- The pin that labels edges goes by the modes of the pins alone. -/
theorem Dev.todPin_wrote {keys : List Nat} {d e : Dev} (h : d.wrote keys e) (apart : ∀ p, p < 8 → Od.TIO_MODE.key p 0 ∉ keys) :
    e.todPin = d.todPin := by
  have same : ∀ p ∈ List.range 8, (e.n Od.TIO_MODE p == 4) = (d.n Od.TIO_MODE p == 4) := fun p member => by
    rw [Dev.wrote_n h (apart p (List.mem_range.mp member))]
  exact List.find?_congr same

/-- An edge of reference B at a raw value: it waits for its label where a pin brings one, and else is measured at once. -/
def Dev.edgeSeen (k : Clk) (raw : Nat) (d : Dev) : Dev :=
  let c := d.convert (d.n Od.TIME_VOTE_VIEW 0) raw
  if c.2.todPin.isSome then (c.2.put Rg.EDGE_RAW 0 (raw + 1)).put Rg.EDGE_VIEW 0 c.1 else c.2.refB k c.1 none

theorem Dev.edgeSeen_objsOnly (k : Clk) (raw : Nat) (d : Dev) : d.objsOnly (d.edgeSeen k raw) := by
  obtain ⟨converted, -⟩ := d.convert_wrote (d.n Od.TIME_VOTE_VIEW 0) raw
  unfold Dev.edgeSeen
  dsimp only
  split
  · exact converted
  · exact Dev.objsOnly_trans converted (Dev.refB_wrote k _ none _).1

/-- What an edge of reference B writes where the voted view is one of the four: it is measured, or waits. -/
theorem Dev.edgeSeen_writes (k : Clk) (raw : Nat) {d : Dev} (view : d.n Od.TIME_VOTE_VIEW 0 < 4) (enabled : d.on Od.TIME_REF_B_ENABLE 0 = true) :
    (d.todPin = none → (d.edgeSeen k raw).n Rg.VOTE_NEW 0 = k.tick + 1 ∧
      (d.edgeSeen k raw).get Od.TIME_REF_LAST_TICK 0 1 = Od.TIME_REF_LAST_TICK.ty.norm (k.tick : Nat)) ∧
    (d.todPin.isSome = true → (d.edgeSeen k raw).n Rg.EDGE_RAW 0 = raw + 1) := by
  have converted := d.convert_wrote (d.n Od.TIME_VOTE_VIEW 0) raw
  have apart {o : Obj} (other : o.idx * 256 + o.sub ≠ Od.TIME_VIEW_STALE_CONVERSIONS.idx * 256 + Od.TIME_VIEW_STALE_CONVERSIONS.sub) (p : Nat)
      (pin : p < 8) : o.key p 0 ∉ [Od.TIME_VIEW_STALE_CONVERSIONS.key (d.n Od.TIME_VOTE_VIEW 0) 0] :=
    fun written => Obj.key_ne other (by omega) (by omega) (by decide) (by decide) (List.mem_singleton.mp written)
  have pins : (d.convert (d.n Od.TIME_VOTE_VIEW 0) raw).2.todPin = d.todPin := Dev.todPin_wrote converted (apart (by decide))
  have enabled : (d.convert (d.n Od.TIME_VOTE_VIEW 0) raw).2.on Od.TIME_REF_B_ENABLE 0 = true := by
    rw [Dev.on, Dev.wrote_n converted (apart (by decide) 0 (by decide))]
    exact enabled
  unfold Dev.edgeSeen
  dsimp only
  rw [pins]
  constructor
  · intro unlabelled
    rw [if_neg (by simp [unlabelled]), Dev.refB_enabled enabled]
    exact ⟨Dev.n_measure_voteNew _ _ _ _, Dev.get_measure_tick (by decide) _ _ _⟩
  · intro labelled
    rw [if_pos labelled]
    exact (Dev.n_put_other _ _ _ _ _ _ _ _ (by decide)).trans (Dev.n_put_same _ _ _ _ _ rfl)

theorem exec_refBEdge_seen {s : State} (running : ready s = true) {pin sub : Nat} (last : pin ≤ 8) (within : sub < 64)
    (enabled : s.dev.on Od.TIME_REF_B_ENABLE 0 = true) (source : s.dev.n Od.TIME_REF_B_SOURCE 0 = pin) (input : s.dev.n Od.TIO_MODE (pin - 1) = 3)
    (rises : s.dev.n Od.TIME_REF_B_EDGE 0 = 0) :
    exec (.refBEdge pin true sub) s = .next { s with dev := s.dev.silent.edgeSeen s.clk ((s.clk.now + sub) % 2 ^ 72) } := by
  change execRefBEdge pin true sub s = _
  unfold execRefBEdge
  exact State.runIf_eq running (decide_eq_true ⟨last, within⟩) (if_pos (by simp [enabled, source, input, rises]))

/-- An edge that waits for its label is measured from the second s, or from the nearest. -/
def Dev.edgeEnds (k : Clk) (s : Option Nat) (d : Dev) : Dev := (d.put Rg.EDGE_RAW 0 0).refB k (d.n Rg.EDGE_VIEW 0) s

/-- It no longer waits, and where reference B is enabled it is its latest and calls for a vote. -/
theorem Dev.edgeEnds_writes (k : Clk) (s : Option Nat) (d : Dev) :
    d.objsOnly (d.edgeEnds k s) ∧ (d.edgeEnds k s).n Rg.EDGE_RAW 0 = 0 ∧
      (d.on Od.TIME_REF_B_ENABLE 0 = true → (d.edgeEnds k s).n Rg.VOTE_NEW 0 = k.tick + 1 ∧
        (d.edgeEnds k s).get Od.TIME_REF_LAST 0 1 = Od.TIME_REF_LAST.ty.norm (d.offsetB (d.n Rg.EDGE_VIEW 0) s)) := by
  have measured := Dev.refB_wrote k (d.n Rg.EDGE_VIEW 0) s (d.put Rg.EDGE_RAW 0 0)
  have delay : (d.put Rg.EDGE_RAW 0 0).offsetB (d.n Rg.EDGE_VIEW 0) s = d.offsetB (d.n Rg.EDGE_VIEW 0) s := by
    have kept : (d.put Rg.EDGE_RAW 0 0).get Od.TIME_REF_B_DELAY 0 = d.get Od.TIME_REF_B_DELAY 0 := Dev.get_put_other _ _ _ _ _ _ _ _ (by decide)
    simp only [Dev.offsetB, kept]
  refine ⟨Dev.objsOnly_trans (Dev.objsOnly_put (Dev.objsOnly_refl d) _ _ _ _) measured.1,
    (Dev.wrote_n measured (by decide)).trans (Dev.n_put_same _ _ _ _ _ rfl), fun enabled => ?_⟩
  have enabled : (d.put Rg.EDGE_RAW 0 0).on Od.TIME_REF_B_ENABLE 0 = true := (Dev.on_put_other _ _ _ _ _ _ _ _ (by decide)).trans enabled
  rw [Dev.edgeEnds, Dev.refB_enabled enabled, delay]
  exact ⟨Dev.n_measure_voteNew _ _ _ _, Dev.get_measure_last (by decide) _ _ _⟩

theorem exec_refBLabelTimeout_ends {s : State} (running : ready s = true) (waits : s.dev.n Rg.EDGE_RAW 0 ≠ 0)
    (ended : labelWait ≤ (s.clk.now + 2 ^ 72 - (s.dev.n Rg.EDGE_RAW 0 - 1)) % 2 ^ 72) :
    exec .refBLabelTimeout s = .next { s with dev := s.dev.silent.edgeEnds s.clk none } := by
  change execRefBLabelTimeout s = _
  unfold execRefBLabelTimeout
  exact State.run_eq running (if_pos ⟨waits, ended⟩)

section
variable {s : State} (running : ready s = true) {pin : Nat} (port : pin < 8) (input : s.dev.n Od.TIO_MODE pin = 4) {bs : List Byte}
include running port input

theorem exec_todInMessage_bad (size : bs.length ≠ 16) :
    exec (.todInMessage pin bs) s = .next { s with dev := s.dev.silent.bump Od.TIO_TOD_BAD pin } := by
  change execTodInMessage pin bs s = _
  unfold execTodInMessage
  exact State.runIf_eq running (decide_eq_true port) ((if_neg (not_not.mpr input)).trans (if_pos (by simp [size])))

theorem exec_todInMessage_labels (size : bs.length = 16) (begins : bs.take 2 = [0xA7, 0x3C]) (version : (bs.getD 2 0).toNat / 16 = 1)
    (check : crc16 (sliceZ bs 0 14) = be16 bs 14) (labels : s.dev.todPin = some pin) (waits : s.dev.n Rg.EDGE_RAW 0 ≠ 0)
    (within : (s.clk.now + 2 ^ 72 - (s.dev.n Rg.EDGE_RAW 0 - 1)) % 2 ^ 72 ≤ labelWait) :
    exec (.todInMessage pin bs) s = .next { s with dev := s.dev.silent.edgeEnds s.clk (some (ofBytesBE (sliceZ bs 4 6))) } := by
  change execTodInMessage pin bs s = _
  unfold execTodInMessage
  refine State.runIf_eq running (decide_eq_true port) (((if_neg (not_not.mpr input)).trans (if_neg ?_)).trans (if_pos ⟨labels, waits, within⟩))
  simp only [begins, version, check, size, beq_self_eq_true, Bool.and_self, Bool.not_true, Bool.false_eq_true, not_false_eq_true]

end

/-! SUPPORT. The vote (R374, R377), and the release of a freeze (R376). -/

theorem Dev.voteOutcome_lt (d : Dev) (v : List Nat) : d.voteOutcome v < 8 := by
  unfold Dev.voteOutcome
  dsimp only
  split
  · split <;> decide
  · split <;> decide
  · decide

theorem Dev.n_note {o : Obj} {x : Nat} (typed : o.ty.norm (x : Int) = x) (apart : Rg.MSIX_CAUSE.key 0 0 ≠ o.key 0 0) (v : Nat) (d : Dev) :
    (d.note o x v).n o 0 = x := by
  unfold Dev.note
  split
  · assumption
  · exact (Dev.n_cause _ v apart).trans (Dev.n_put_same _ _ _ _ _ typed)

theorem Dev.note_views (o : Obj) (x v : Nat) (d : Dev) : (d.note o x v).views = d.views := by
  unfold Dev.note
  split <;> rfl

/-- A vote of these references freezes the voted view (R376). -/
def Dev.freezes (d : Dev) (v : List Nat) : Bool :=
  let o := d.voteOutcome v
  let f := d.n Od.TIME_VOTE_FREEZE_ON 0
  (o == 3 && bit f 0) || (o == 6 && bit f 1) || (o == 7 && bit f 2 && v.contains 0)

/-- The device as a vote leaves it, but for its event: the outcome, whether it freezes the view, the count, the tick. -/
def Dev.voteNoted (k : Clk) (d : Dev) : Dev :=
  let o := d.voteOutcome (d.voters k)
  (((d.note Od.TIME_VOTE_OUTCOME o 37).put Od.TIME_VOTE_FROZEN 0 (if d.freezes (d.voters k) then 1 else 0)).bump Od.TIME_VOTE_COUNTS 0 1 o).put
    Rg.VOTE_TICK 0 (k.tick + 1)

theorem Dev.vote_recorded (k : Clk) (d : Dev) : (d.voteNoted k).recorded (d.vote k) := by
  unfold Dev.vote
  dsimp only
  split
  · exact Dev.event_recorded (by decide) k _ _ _ _
  · exact Dev.recorded_refl _

theorem Dev.n_voteNoted_outcome (k : Clk) (d : Dev) : (d.voteNoted k).n Od.TIME_VOTE_OUTCOME 0 = d.voteOutcome (d.voters k) := by
  have outcome := d.voteOutcome_lt (d.voters k)
  have typed : Od.TIME_VOTE_OUTCOME.ty.norm (d.voteOutcome (d.voters k) : Int) = d.voteOutcome (d.voters k) := by
    simp only [ObjTy.norm, Od.TIME_VOTE_OUTCOME]
    omega
  have counts : Od.TIME_VOTE_COUNTS.key 0 (d.voteOutcome (d.voters k)) ≠ Od.TIME_VOTE_OUTCOME.key 0 0 :=
    Obj.key_ne (by decide) (by decide) (by decide) (by omega) (by decide)
  calc (d.voteNoted k).n Od.TIME_VOTE_OUTCOME 0
    _ = ((d.note Od.TIME_VOTE_OUTCOME (d.voteOutcome (d.voters k)) 37).put Od.TIME_VOTE_FROZEN 0 _ |>.bump Od.TIME_VOTE_COUNTS 0 1 _).n
          Od.TIME_VOTE_OUTCOME 0 := Dev.n_put_other _ _ _ _ _ _ _ _ (by decide)
    _ = ((d.note Od.TIME_VOTE_OUTCOME (d.voteOutcome (d.voters k)) 37).put Od.TIME_VOTE_FROZEN 0 _).n Od.TIME_VOTE_OUTCOME 0 :=
          Dev.n_put_other _ _ _ _ _ _ _ _ counts
    _ = (d.note Od.TIME_VOTE_OUTCOME (d.voteOutcome (d.voters k)) 37).n Od.TIME_VOTE_OUTCOME 0 := Dev.n_put_other _ _ _ _ _ _ _ _ (by decide)
    _ = d.voteOutcome (d.voters k) := Dev.n_note typed (by decide) 37 d

theorem Dev.vote_outcome (k : Clk) (d : Dev) : (d.vote k).n Od.TIME_VOTE_OUTCOME 0 = d.voteOutcome (d.voters k) ∧
    (d.vote k).n Rg.VOTE_TICK 0 = k.tick + 1 ∧ (d.vote k).views = d.views :=
  have recorded := d.vote_recorded k
  ⟨(Dev.n_recorded recorded (by decide) (by decide) (by decide)).trans (d.n_voteNoted_outcome k),
    (Dev.n_recorded recorded (by decide) (by decide) (by decide)).trans (Dev.n_put_same _ _ _ _ _ rfl),
    (Dev.recorded_views recorded).trans (Dev.note_views _ _ _ d)⟩

theorem exec_referenceVote_due {s : State} (running : ready s = true) (called : s.dev.n Rg.VOTE_NEW 0 = s.clk.tick ∨ s.dev.n Rg.VOTE_NEW 0 1 = s.clk.tick)
    (later : s.clk.tick ≠ 0) (untaken : s.dev.n Rg.VOTE_TICK 0 ≠ s.clk.tick + 1) :
    exec .referenceVote s = .next { s with dev := s.dev.silent.vote s.clk } := by
  change execReferenceVote s = _
  unfold execReferenceVote
  exact State.run_eq running (if_pos (by simp [Dev.voteDue, called, later, untaken]))

theorem exec_voteRelease_opening {s : State} (running : ready s = true) (boundary : s.clk.c = 0) :
    exec .voteRelease s = .next { s with dev := (s.dev.silent.put Od.TIME_VOTE_FROZEN 0 0).atOpen } := by
  change execVoteRelease s = _
  unfold execVoteRelease
  exact State.rowD_eq running boundary rfl _ rfl

/-- Settles O26: offsets and edges by what a measurement writes (`Dev.measure_wrote`), the vote by its outcome, which its event leaves alone
(`Dev.vote_recorded`). -/
theorem referencesAndVotes : Obligations.ReferencesAndVotes := by
  intro s running
  refine ⟨fun off low high boundary enabled => ?_, fun pin sub _ last within enabled source input rises view => ?_, fun waits ended => ?_,
    fun pin bs port input => ⟨fun size => ?_, fun size begins version check labels waits within => ?_⟩, fun called later untaken => ?_, fun boundary => ?_⟩
  · have fits : fits64 off = true := by simp only [fits64, decide_eq_true_eq]; exact ⟨low, high⟩
    have measured := Dev.wrote_trans (Dev.wrote_silent _ _) (Dev.measure_wrote s.clk 0 off s.dev.silent)
    exact ⟨_, exec_refAWrite_measures running boundary enabled fits, onlyWrites_of (Dev.wrote_atOpen measured),
      (Dev.get_measure_last (by decide) s.clk off s.dev.silent).trans (ObjTy.norm_s64 fits), Dev.n_measure_voteNew s.clk 0 off s.dev.silent⟩
  · exact ⟨_, exec_refBEdge_seen running last within enabled source input rises, ⟨rfl, rfl, rfl⟩, Dev.edgeSeen_objsOnly s.clk _ s.dev.silent,
      Dev.edgeSeen_writes (d := s.dev.silent) s.clk _ view enabled⟩
  · obtain ⟨objs, none, called⟩ := Dev.edgeEnds_writes s.clk none s.dev.silent
    exact ⟨_, exec_refBLabelTimeout_ends running waits ended, ⟨rfl, rfl, rfl⟩, objs, none, fun enabled => (called enabled).1⟩
  · exact ⟨_, exec_todInMessage_bad running port input size, onlyWrites_of (Dev.wrote_bump (Dev.wrote_silent _ _) _ _ _ _ (by simp))⟩
  · obtain ⟨objs, none, called⟩ := Dev.edgeEnds_writes s.clk (some (ofBytesBE (sliceZ bs 4 6))) s.dev.silent
    exact ⟨_, exec_todInMessage_labels running port input size begins version check labels waits within, ⟨rfl, rfl, rfl⟩, objs, none,
      fun enabled => (called enabled).2⟩
  · have ran := exec_referenceVote_due running called later untaken
    obtain ⟨outcome, taken, views⟩ := Dev.vote_outcome s.clk s.dev.silent
    generalize s.dev.silent.vote s.clk = e at ran outcome taken views
    exact ⟨_, ran, ⟨rfl, rfl, rfl⟩, outcome, taken, views⟩
  · exact ⟨_, exec_voteRelease_opening running boundary,
      onlyWrites_of (Dev.wrote_atOpen (Dev.wrote_put (Dev.wrote_silent _ _) _ _ _ _ (by simp))), Dev.n_put_same s.dev.silent Od.TIME_VOTE_FROZEN 0 0 0 rfl⟩

end Sys2Proof.Machine

namespace Sys2Proof.Machine
open Sys2Proof.Safety

/-! SUPPORT. The time pins: what they send (R380, R381), and the edges they stamp (R382). -/

section
variable {s : State} (running : ready s = true) {pin : Nat} (port : pin < 8)
include running port

theorem exec_ppsOutPulse_sends {x : Nat} (mode : s.dev.n Od.TIO_MODE pin = 1) (heard : s.dev.muted pin = false)
    (reached : s.dev.secondReached s.clk (s.dev.n Od.TIO_VIEW pin) (s.dev.get Od.TIO_OUT_DELAY pin) = some x) :
    exec (.ppsOutPulse pin) s = .next { s with
      dev := s.dev.silent.emit { kind := .pin, unit := pin, vals := [1, x, s.dev.n Od.TIO_PULSE_WIDTH pin] } } := by
  have reached : s.dev.silent.secondReached s.clk (s.dev.silent.n Od.TIO_VIEW pin) (s.dev.silent.get Od.TIO_OUT_DELAY pin) = some x := reached
  have heard : s.dev.silent.muted pin = false := heard
  refine State.runIf_eq running (decide_eq_true port) ((if_pos ⟨mode, by simp [heard]⟩).trans ?_)
  rw [reached]
  rfl

theorem exec_todOutMessage_sends {x : Nat} (mode : s.dev.n Od.TIO_MODE pin = 2) (heard : s.dev.muted pin = false)
    (reached : s.dev.secondReached s.clk (s.dev.n Od.TIO_VIEW pin) (-(10000000 * 65536)) = some x) :
    exec (.todOutMessage pin) s = .next { s with
      dev := s.dev.silent.emit { kind := .pin, unit := pin, vals := [2, x], bytes := s.dev.todMessage pin x } } := by
  have reached : s.dev.silent.secondReached s.clk (s.dev.silent.n Od.TIO_VIEW pin) (-(10000000 * 65536)) = some x := reached
  have heard : s.dev.silent.muted pin = false := heard
  refine State.runIf_eq running (decide_eq_true port) ((if_pos ⟨mode, by simp [heard]⟩).trans ?_)
  rw [reached]
  rfl

end

/-- The four words of a stamped edge: its raw value with its direction, and the view's time there (R382). -/
def edgeWords (raw u : Nat) (rising : Bool) : List Nat :=
  [raw % 2 ^ 64, 2 ^ 63 + (if rising then 0 else 256) + raw / 2 ^ 64, u / secU, u % secU / 65536 * 2 ^ 32 + u % 65536 * 65536]

/-- The device with words w behind those that the FIFO of a pin holds, of an edge at a raw value; the first entry of a FIFO raises its cause (R596). -/
def Dev.edgeJoined (pin raw : Nat) (holds : List (Nat × List Nat)) (w : List Nat) (d : Dev) : Dev :=
  ({ d with tio := d.tio ++ [(pin, w)] }.put Rg.TIO_LAST pin (raw + 1)).put Od.TIO_EVENT_COUNT pin (holds.length + 1)
    |>.when holds.isEmpty (Dev.cause 36)

theorem Dev.objsOnly_tio {d e : Dev} (h : d.objsOnly e) : e.tio = d.tio := by
  have same := congrArg Dev.tio (show bare e = bare d from h)
  exact same

theorem Dev.edgeJoined_bare {d e : Dev} (objs : d.objsOnly e) (pin raw : Nat) (holds : List (Nat × List Nat)) (w : List Nat) :
    bare (e.edgeJoined pin raw holds w) = bare { d with tio := d.tio ++ [(pin, w)] } := by
  have joined : bare (e.edgeJoined pin raw holds w) = bare { e with tio := e.tio ++ [(pin, w)] } := by
    unfold Dev.edgeJoined
    cases holds.isEmpty <;> rfl
  have outside := congrArg (fun b : Dev => { b with tio := d.tio ++ [(pin, w)] }) (show bare e = bare d from objs)
  rw [joined, Dev.objsOnly_tio objs]
  exact outside

section
variable {pin : Nat} (port : pin < 8)
include port

theorem Dev.n_when_cause {o : Obj} (apart : Rg.MSIX_CAUSE.idx * 256 + Rg.MSIX_CAUSE.sub ≠ o.idx * 256 + o.sub) (c : Bool) (v : Nat) (d : Dev) :
    (d.when c (Dev.cause v)).n o pin = d.n o pin := by
  cases c with
  | false => rfl
  | true => exact Dev.n_cause d v (Obj.key_ne apart (by decide) (by omega) (by decide) (by decide))

theorem Dev.n_edgeJoined_last (raw : Nat) (holds : List (Nat × List Nat)) (w : List Nat) (d : Dev) :
    (d.edgeJoined pin raw holds w).n Rg.TIO_LAST pin = raw + 1 :=
  (Dev.n_when_cause port (by decide) _ _ _).trans
    ((Dev.n_put_other _ _ _ _ _ _ _ _ (Obj.key_ne (by decide) (by omega) (by omega) (by decide) (by decide))).trans (Dev.n_put_same _ _ _ _ _ rfl))

theorem Dev.n_edgeJoined_count (raw : Nat) {holds : List (Nat × List Nat)} (room : holds.length < 64) (w : List Nat) (d : Dev) :
    (d.edgeJoined pin raw holds w).n Od.TIO_EVENT_COUNT pin = holds.length + 1 := by
  have typed : Od.TIO_EVENT_COUNT.ty.norm ((holds.length + 1 : Nat) : Int) = (holds.length + 1 : Nat) := by
    simp only [ObjTy.norm, Od.TIO_EVENT_COUNT]
    omega
  exact (Dev.n_when_cause port (by decide) _ _ _).trans (Dev.n_put_same _ _ _ _ _ typed)

variable {s : State} (running : ready s = true)
include running

/-- An edge that the FIFO takes joins it after its conversion. -/
theorem exec_tioEventEdge_joins {sub : Nat} (within : sub < 64) (mode : s.dev.n Od.TIO_MODE pin = 5) (both : s.dev.n Od.TIO_EDGE pin = 2)
    (first : s.dev.n Rg.TIO_LAST pin = 0) (room : (s.dev.tioFifo pin).length < 64) {raw : Nat}
    (place : raw = (s.clk.now + sub) % 2 ^ 72) {c : Nat × Dev} (converts : c = s.dev.silent.convert (s.dev.n Od.TIO_VIEW pin) raw) :
    exec (.tioEventEdge pin true sub) s = .next { s with dev := c.2.edgeJoined pin raw (s.dev.tioFifo pin) (edgeWords raw c.1 true) } := by
  subst converts place
  have unseen : ¬ (s.dev.silent.n Rg.TIO_LAST pin ≠ 0 ∧ ((s.clk.now + sub) % 2 ^ 72 + 2 ^ 72 - (s.dev.silent.n Rg.TIO_LAST pin - 1)) % 2 ^ 72 < 10240) := by
    simp [first]
  exact State.runIf_eq running (decide_eq_true ⟨port, within⟩)
    ((if_pos ⟨mode, .inl both⟩).trans ((if_neg unseen).trans (if_neg (Nat.not_le.mpr room))))

/-- A read of a FIFO that holds an entry answers it and takes it out. -/
theorem exec_tioEventNext_answers {e : Nat × List Nat} {l : List (Nat × List Nat)} (held : s.dev.tioFifo pin = e :: l) :
    exec (.tioEventNext pin) s = .next { s with
      dev := ({ s.dev.silent with tio := s.dev.tio.erase e }.put Od.TIO_EVENT_COUNT pin l.length).emit
        { kind := .response, unit := pin, vals := e.2, bytes := e.2.flatMap (bytesLE 8) } } := by
  have oldest : s.dev.silent.tioNext pin = (e.2, { s.dev.silent with tio := s.dev.tio.erase e }.put Od.TIO_EVENT_COUNT pin l.length) := by
    have held : s.dev.silent.tioFifo pin = e :: l := held
    rw [Dev.tioNext, held]
    rfl
  refine State.runIf_eq running (decide_eq_true port) ?_
  dsimp only
  rw [oldest]

end

/-- Settles O27: pulses and messages leave nothing but themselves; an edge joins its FIFO as `Dev.edgeJoined`. -/
theorem timePins : Obligations.TimePins := by
  intro s pin running port
  refine ⟨fun x mode heard reached => ?_, fun x mode heard reached => ?_, fun sub within mode both first room => ?_, fun e l held short => ?_⟩
  · exact ⟨_, exec_ppsOutPulse_sends running port mode heard reached, onlyWrites_of (Dev.wrote_emit (Dev.wrote_silent _ _) _), rfl⟩
  · exact ⟨_, exec_todOutMessage_sends running port mode heard reached, onlyWrites_of (Dev.wrote_emit (Dev.wrote_silent _ _) _), rfl⟩
  · have converted : s.dev.objsOnly (s.dev.silent.convert (s.dev.n Od.TIO_VIEW pin) ((s.clk.now + sub) % 2 ^ 72)).2 :=
      (Dev.convert_wrote _ _ s.dev.silent).1
    have ran := exec_tioEventEdge_joins port running within mode both first room rfl rfl
    generalize s.dev.silent.convert (s.dev.n Od.TIO_VIEW pin) ((s.clk.now + sub) % 2 ^ 72) = c at ran converted
    exact ⟨_, _, ran, ⟨rfl, rfl, rfl⟩, Dev.edgeJoined_bare converted pin _ _ _, rfl, rfl, Dev.n_edgeJoined_last port _ _ _ _,
      Dev.n_edgeJoined_count port _ room _ _⟩
  · have typed : Od.TIO_EVENT_COUNT.ty.norm (l.length : Int) = l.length := by
      simp only [ObjTy.norm, Od.TIO_EVENT_COUNT]
      omega
    exact ⟨_, exec_tioEventNext_answers port running held, ⟨rfl, rfl, rfl⟩, rfl, Dev.n_put_same _ _ _ _ _ typed, rfl⟩

end Sys2Proof.Machine

namespace Sys2Proof.Machine
open Sys2Proof.Safety

/-! SUPPORT. A read of the capture FIFO (R399). -/

theorem Dev.captureNext_oldest {d : Dev} {r : List Byte} {l : List (List Byte)} (held : d.capFifo = r :: l) :
    d.captureNext = (r, { d with capFifo := l }.put Od.STAMP_CAPTURE_COUNT 0 l.length) := by
  rw [Dev.captureNext, held]

theorem exec_captureNext_answers {s : State} (running : ready s = true) {r : List Byte} {l : List (List Byte)} (held : s.dev.capFifo = r :: l) :
    exec .captureNext s = .next { s with
      dev := ({ s.dev.silent with capFifo := l }.put Od.STAMP_CAPTURE_COUNT 0 l.length).emit { kind := .response, vals := [0x6800], bytes := r } } := by
  change execCaptureNext s = _
  unfold execCaptureNext
  refine State.run_eq running ?_
  dsimp only
  rw [Dev.captureNext_oldest (d := s.dev.silent) held]

/-! SUPPORT. Instances cleared one after another: their elements read their defaults, all others as before. -/

theorem Obj.key_inst (o : Obj) (i : Nat) {e : Nat} (elem : e < 65536) : o.key i e / 65536 = (o.idx * 256 + o.sub) * 65536 + i := by
  unfold Obj.key
  omega

theorem Obj.default_zero {o : Obj} (plain : o.spec = 0) (zeros : ∀ v ∈ o.dflt, v = 0) (i e : Nat) : o.default i e = 0 := by
  have last : o.dflt.getLastD 0 = 0 := (List.mem_cons.mp List.getLastD_mem_cons).elim id (zeros _)
  rw [Obj.default, if_pos plain, last, List.getD_eq_getElem?_getD]
  cases at_ : o.dflt[e]? with
  | none => rfl
  | some v => exact zeros v (List.mem_of_getElem? at_)

theorem Dev.get_clearInst_default (d : Dev) (o q : Obj) (i j e : Nat) (here : q.key j e / 65536 = (o.idx * 256 + o.sub) * 65536 + i) :
    (d.clearInst o i).get q j e = q.default j e := by
  have gone : Store.find (d.clearInst o i).objs (q.key j e) = none := Store.find_filter_none _ _ _ (by simp [here])
  rw [Dev.get, Store.rd, gone, Option.getD_none]

theorem Dev.get_each_clearInst (l : List Obj) (q : Obj) (i j e : Nat) (d : Dev) :
    (d.each l fun d o => d.clearInst o i).get q j e =
      if ∃ o ∈ l, q.key j e / 65536 = (o.idx * 256 + o.sub) * 65536 + i then q.default j e else d.get q j e := by
  induction l generalizing d with
  | nil => simp
  | cons o l ih =>
    rw [Dev.each_cons, ih]
    by_cases here : q.key j e / 65536 = (o.idx * 256 + o.sub) * 65536 + i
    · simp [here, Dev.get_clearInst_default _ _ _ _ _ _ here]
    · simp [here, Dev.get_clearInst_other _ _ _ _ _ _ here]

/-! SUPPORT. The results of a watched stream are cleared (R408). -/

/-- The objects that hold a watched stream's results, and its state of R406, R407 and R409. -/
def watchResults : List Obj :=
  [Od.WATCH_HIST, Od.WATCH_EXTREMES, Od.WATCH_FRAMES, Od.WATCH_LATE_COUNT, Od.WATCH_GAPS, Od.WATCH_REORDERS, Od.WATCH_NO_STAMP, Rg.W_PREV, Rg.W_SEQ,
    Rg.W_PERIOD]

theorem Dev.watchClear_eq (x : Nat) (d : Dev) : d.watchClear x = d.each watchResults fun d o => d.clearInst o x := rfl

theorem Dev.watchClear_objsOnly (x : Nat) (d : Dev) : d.objsOnly (d.watchClear x) :=
  Dev.objsOnly_each _ _ (fun d o _ => Dev.objsOnly_clearInst (Dev.objsOnly_refl d) o x) d

theorem watchResults_default {o : Obj} (result : o ∈ watchResults) (i e : Nat) : o.default i e = 0 :=
  have zeros : ∀ o ∈ watchResults, o.spec = 0 ∧ ∀ v ∈ o.dflt, v = 0 := by decide
  Obj.default_zero (zeros o result).1 (zeros o result).2 i e

theorem Dev.get_watchClear_result {o : Obj} (result : o ∈ watchResults) (x : Nat) {e : Nat} (elem : e < 65536) (d : Dev) :
    (d.watchClear x).get o x e = 0 := by
  rw [Dev.watchClear_eq, Dev.get_each_clearInst, if_pos ⟨o, result, o.key_inst x elem⟩, watchResults_default result]

theorem Dev.get_watchClear_other {x i e : Nat} (stream : x < 65536) (inst : i < 65536) (elem : e < 65536) (other : i ≠ x) (o : Obj) (d : Dev) :
    (d.watchClear x).get o i e = d.get o i e := by
  have apart (q : Obj) : o.key i e / 65536 ≠ (q.idx * 256 + q.sub) * 65536 + x := by
    rw [o.key_inst i elem]
    omega
  rw [Dev.watchClear_eq, Dev.get_each_clearInst, if_neg fun ⟨q, _, here⟩ => apart q here]

@[simp] theorem Dev.get_atOpen (d : Dev) (o : Obj) (i e : Nat) : d.atOpen.get o i e = d.get o i e := rfl

theorem exec_watchClear_opening {s : State} (running : ready s = true) (opening : s.clk.c = 0) {x : Nat} (stream : x < 65536) :
    exec (.watchClear x) s =
      .next { s with dev := ((s.dev.silent.watchClose (s.dev.silent.rk s.clk) x).watchClear x).atOpen } := by
  change execWatchClear x s = _
  unfold execWatchClear
  exact State.rowD_eq running opening (decide_eq_true stream) _ rfl

/-! SUPPORT. The end of a watched stream's period (R409). -/

theorem Dev.watchClose_reportless {k : Clk} {x : Nat} {d : Dev} (reported : d.n Od.WATCH_REPORT_PERIOD x = 0 ∨ d.n Rg.W_PERIOD x 7 = 0) :
    d.watchClose k x = d :=
  if_pos (reported.imp_right .inl)

/-- Without late frames, gaps and a deviation to record, the period's counts are cleared, and nothing is recorded. -/
theorem Dev.watchReport_clean {k : Clk} {x : Nat} {d : Dev} (at_ : Nat) (late : d.get Rg.W_PERIOD x 1 = 0) (gaps : d.get Rg.W_PERIOD x 2 = 0)
    (above : d.on Od.WATCH_RECORD_ABOVE x = false) : d.watchReport k at_ x = d.clearInst Rg.W_PERIOD x := by
  unfold Dev.watchReport
  simp [late, gaps, above]

section
variable {s : State} (running : ready s = true) {x : Nat} (stream : x < 65536)
include running stream

theorem exec_watchReport_clean (live : s.dev.replaying = false) (period : s.dev.n Od.WATCH_REPORT_PERIOD x ≠ 0)
    (packet : s.dev.n Rg.W_PERIOD x 7 ≠ 0)
    (ended : (s.dev.n Rg.W_PERIOD x 7 - 1) / s.dev.n Od.WATCH_REPORT_PERIOD x ≠ s.clk.tick / s.dev.n Od.WATCH_REPORT_PERIOD x)
    (watched : s.dev.on Od.WATCH_ENABLE x = true) (late : s.dev.get Rg.W_PERIOD x 1 = 0) (gaps : s.dev.get Rg.W_PERIOD x 2 = 0)
    (above : s.dev.on Od.WATCH_RECORD_ABOVE x = false) :
    exec (.watchReport x) s = .next { s with dev := s.dev.silent.clearInst Rg.W_PERIOD x } := by
  have clock : s.dev.silent.rk s.clk = s.clk := Dev.rk_live (d := s.dev.silent) live s.clk
  have closes : s.dev.silent.watchClose s.clk x = s.dev.silent.clearInst Rg.W_PERIOD x :=
    (if_neg (by simp [period, packet, ended])).trans (Dev.watchReport_clean _ late gaps above)
  refine State.runIf_eq running (decide_eq_true stream) ((if_pos watched).trans ?_)
  rw [clock, closes]

/-! SUPPORT. The reset timer of a recovery function (R234). -/

theorem exec_frerResetTimer_due (due : s.dev.n Rg.FRER_TIMER x = 1) (enabled : s.dev.on Od.FRER_REC_ENABLE x = true) :
    exec (.frerResetTimer x) s = .next { s with dev := ((s.dev.silent.put Rg.FRER_TIMER x 0).recReset x).bump Od.FRER_REC_RESETS x } :=
  State.runIf_eq running (decide_eq_true stream) (if_pos ⟨due, enabled⟩)

end

/-- A reset of a recovery function writes its state alone. -/
theorem Dev.n_recReset_other {x : Nat} (stream : x < 65536) {o : Obj}
    (apart : Od.FRER_REC_STATE.idx * 256 + Od.FRER_REC_STATE.sub ≠ o.idx * 256 + o.sub) (d : Dev) : (d.recReset x).n o x = d.n o x := by
  have key (e : Nat) (elem : e < 65536) : Od.FRER_REC_STATE.key x e ≠ o.key x 0 := Obj.key_ne apart stream stream elem (by decide)
  exact (Dev.n_put_other _ _ _ _ _ _ _ _ (key 2 (by decide))).trans (Dev.n_put_other _ _ _ _ _ _ _ _ (key 1 (by decide)))

section
variable {x : Nat} (stream : x < 65536) (d : Dev)
include stream

theorem Dev.n_frerReset_timer : (((d.put Rg.FRER_TIMER x 0).recReset x).bump Od.FRER_REC_RESETS x).n Rg.FRER_TIMER x = 0 :=
  calc (((d.put Rg.FRER_TIMER x 0).recReset x).bump Od.FRER_REC_RESETS x).n Rg.FRER_TIMER x
    _ = ((d.put Rg.FRER_TIMER x 0).recReset x).n Rg.FRER_TIMER x :=
          Dev.n_put_other _ _ _ _ _ _ _ _ (Obj.key_ne (by decide) stream stream (by decide) (by decide))
    _ = (d.put Rg.FRER_TIMER x 0).n Rg.FRER_TIMER x := Dev.n_recReset_other stream (by decide) _
    _ = 0 := Dev.n_put_same _ _ _ _ _ rfl

theorem Dev.n_frerReset_resets : (((d.put Rg.FRER_TIMER x 0).recReset x).bump Od.FRER_REC_RESETS x).n Od.FRER_REC_RESETS x =
    satAdd Od.FRER_REC_RESETS.ty.top (d.n Od.FRER_REC_RESETS x) 1 := by
  rw [Dev.n_bump_same _ _ _ _ fun v => ObjTy.norm_u32_top, Dev.n_recReset_other stream (by decide),
    Dev.n_put_other _ _ _ _ _ _ _ _ (Obj.key_ne (by decide) stream stream (by decide) (by decide))]

end

/-- Settles O28: the FIFO loses its oldest record, results and period counts are cleared (`Dev.get_watchClear_result`), and a recovery function's reset
writes its state alone (`Dev.n_recReset_other`). -/
theorem stampsAndWatches : Obligations.StampsAndWatches := by
  intro s running
  refine ⟨fun r l held short => ?_, fun x stream opening => ?_, fun x stream live period packet ended watched late gaps above => ?_,
    fun x stream due enabled => ?_⟩
  · have typed : Od.STAMP_CAPTURE_COUNT.ty.norm (l.length : Int) = l.length := ObjTy.norm_u16 short
    exact ⟨_, exec_captureNext_answers running held, ⟨rfl, rfl, rfl⟩, rfl, Dev.n_put_same _ _ _ _ _ typed, rfl⟩
  · have zero : ∀ o ∈ watchResults, ∀ e, e < 65536 → ((s.dev.silent.watchClose (s.dev.silent.rk s.clk) x).watchClear x).atOpen.get o x e = 0 :=
      fun o result e elem => (Dev.get_atOpen _ _ _ _).trans (Dev.get_watchClear_result result x elem _)
    refine ⟨_, exec_watchClear_opening running opening stream, ⟨rfl, rfl, rfl⟩,
      fun e elem => ⟨zero _ (by simp [watchResults]) e elem, congrArg Int.toNat (zero _ (by simp [watchResults]) e elem)⟩,
      zero _ (by simp [watchResults]) 0 (by decide), fun reported => ?_⟩
    have reportless : s.dev.silent.watchClose (s.dev.silent.rk s.clk) x = s.dev.silent := Dev.watchClose_reportless reported
    rw [reportless]
    exact ⟨(bare_atOpen _).trans (Dev.watchClear_objsOnly x s.dev.silent), fun o i e inst elem other =>
      (Dev.get_atOpen _ _ _ _).trans (Dev.get_watchClear_other stream inst elem other o s.dev.silent)⟩
  · refine ⟨_, exec_watchReport_clean running stream live period packet ended watched late gaps above, ⟨rfl, rfl, rfl⟩, rfl, fun e elem => ?_⟩
    have cleared := (Dev.get_clearInst_default s.dev.silent Rg.W_PERIOD Rg.W_PERIOD x x e (Rg.W_PERIOD.key_inst x elem)).trans
      (watchResults_default (by simp [watchResults]) x e)
    exact congrArg Int.toNat cleared
  · exact ⟨_, exec_frerResetTimer_due running stream due enabled, ⟨rfl, rfl, rfl⟩, Dev.n_frerReset_timer stream _, Dev.n_frerReset_resets stream _⟩

end Sys2Proof.Machine

namespace Sys2Proof.Machine
open Sys2Proof.Safety

/-! SUPPORT. Chains of writes in a mat, and those that send its messages besides (R287, R427). -/

theorem Dev.touched_ite {objs : List Obj} {d a b : Dev} {c : Prop} [Decidable c] (ha : d.touched objs a) (hb : d.touched objs b) :
    d.touched objs (if c then a else b) := by split <;> assumption

theorem Dev.touched_when {objs : List Obj} {d e : Dev} (h : d.touched objs e) (c : Bool) {f : Dev → Dev} (turn : d.touched objs (f e)) :
    d.touched objs (e.when c f) := Dev.touched_ite turn h

/-- A write of a scalar. -/
theorem Dev.touched_scalar {objs : List Obj} {d e : Dev} (h : d.touched objs e) {o : Obj} (known : o ∈ objs) (v : Nat) : d.touched objs (e.put o 0 v) :=
  Dev.touched_put h known (by decide) (by decide) v

/-- Such a write where a condition holds. -/
theorem Dev.touched_whenPut {objs : List Obj} {d e : Dev} (h : d.touched objs e) (c : Bool) {o : Obj} (known : o ∈ objs) (v : Nat) :
    d.touched objs (e.when c fun e => e.put o 0 v) := Dev.touched_when h c (Dev.touched_scalar h known v)

theorem Dev.touched_note {objs : List Obj} {d e : Dev} (h : d.touched objs e) {o : Obj} (known : o ∈ objs) (cause : Rg.MSIX_CAUSE ∈ objs) (x v : Nat) :
    d.touched objs (e.note o x v) :=
  Dev.touched_ite h (Dev.touched_scalar (Dev.touched_scalar h known x) cause _)

/-- Registers of the model hold any number. -/
theorem Dev.n_put_wide (d : Dev) {o : Obj} (wide : o.ty = .wide) (i v : Nat) (e : Nat := 0) : (d.put o i v e).n o i e = v :=
  Dev.n_put_same _ _ _ _ _ (by rw [wide]; rfl)

/-- The device e differs from d in elements of these objects, in what left it, and in the frames of the MACs that wait. -/
def Dev.mailed (objs : List Obj) (d e : Dev) : Prop := ({ d with ctl := e.ctl } : Dev).touched objs e

/-- The frames that have left in this step, or wait at the MACs. -/
def Dev.posted (d : Dev) : Nat := d.out.length + d.ctl.length

section
variable {objs : List Obj} {d e : Dev}

theorem Dev.touched_ctl (h : d.touched objs e) (l : List Out) : ({ d with ctl := l } : Dev).touched objs { e with ctl := l } := by
  obtain ⟨keys, within, same, reads⟩ := h
  have elsewhere := congrArg (fun b : Dev => { b with ctl := l }) (show bare e = bare d from same)
  exact ⟨keys, within, elsewhere, reads⟩

theorem Dev.mailed_of_touched (h : d.touched objs e) : d.mailed objs e := by
  have kept : e.ctl = d.ctl := Dev.objsOnly_ctl (Dev.touched_objsOnly h)
  rw [Dev.mailed, kept]
  exact h

theorem Dev.mailed_refl (objs : List Obj) (d : Dev) : d.mailed objs d := Dev.touched_refl objs d

theorem Dev.mailed_trans {g : Dev} (first : d.mailed objs e) (next : e.mailed objs g) : d.mailed objs g :=
  Dev.touched_mono (Dev.touched_trans (Dev.touched_ctl first g.ctl) next) (by simp)

section
variable (h : d.mailed objs e)
include h

theorem Dev.mailed_mono {more : List Obj} (sub : objs ⊆ more) : d.mailed more e := Dev.touched_mono h sub

theorem Dev.n_mailed {o : Obj} {i f : Nat} (hi : i < 65536) (hf : f < 65536) (apart : ∀ q ∈ objs, o.idx * 256 + o.sub ≠ q.idx * 256 + q.sub) :
    e.n o i f = d.n o i f := Dev.n_touched h hi hf apart

theorem Dev.mailed_plain (apart : ∀ q ∈ objs, Od.INTEG_FLIP_ARM.idx * 256 + Od.INTEG_FLIP_ARM.sub ≠ q.idx * 256 + q.sub) (plain : plainWords d = true) :
    plainWords e = true := Dev.plainWords_touched h apart plain

theorem Dev.mailed_bare : bare e = bare { d with ctl := e.ctl } := Dev.touched_objsOnly h

end

theorem Dev.mailed_ite {a b : Dev} {c : Prop} [Decidable c] (ha : d.mailed objs a) (hb : d.mailed objs b) : d.mailed objs (if c then a else b) := by
  split <;> assumption

/-- A loop whose every turn so acts on a device without a stored word in error. -/
theorem Dev.mailed_each {α : Type} (apart : ∀ q ∈ objs, Od.INTEG_FLIP_ARM.idx * 256 + Od.INTEG_FLIP_ARM.sub ≠ q.idx * 256 + q.sub) (l : List α)
    {f : Dev → α → Dev} (turn : ∀ e x, x ∈ l → plainWords e = true → e.mailed objs (f e x)) (plain : plainWords d = true) :
    d.mailed objs (d.each l f) := by
  have kept : d.mailed objs (d.each l f) ∧ plainWords (d.each l f) = true :=
    Dev.each_keeps (P := fun e => d.mailed objs e ∧ plainWords e = true) l (fun e x member so => by
      obtain ⟨mailed, plain⟩ := so
      have next := turn e x member plain
      exact ⟨Dev.mailed_trans mailed next, Dev.mailed_plain next apart plain⟩) ⟨Dev.mailed_refl objs d, plain⟩
  exact kept.1

end

/-! SUPPORT. A message of the device's own: by a trunk, or by the management network (R287, R420, R427). -/

/-- The objects that a message writes as it is made and as it leaves. -/
def mailObjs : List Obj := [Rg.MAT_SEQ, Rg.CONTROL_SENT, Od.PORT_TX_GOOD] ++ txLoadObjs

theorem mailObjs_unarmed : ∀ q ∈ mailObjs, Od.INTEG_FLIP_ARM.idx * 256 + Od.INTEG_FLIP_ARM.sub ≠ q.idx * 256 + q.sub := by decide

theorem Dev.trunkLow_lt {d : Dev} {n p : Nat} (low : d.trunkLow n = some p) : p < 1024 := by
  unfold Dev.trunkLow at low
  have member := List.mem_of_find?_eq_some low
  exact List.mem_range.mp member

/-- A frame of the MAC's own that is no PAUSE or PFC frame and no mPacket of verification: what its leaving does (R77, R118, R420, R487). -/
theorem Dev.macEmit_control (k : Clk) {d : Dev} (plain : plainWords d = true) {o : Out} (port : o.unit < 1024) (kind : o.kind = .control)
    (frame : o.vals.headD 0 ≠ 1 ∧ o.vals.headD 0 ≠ 2 ∧ o.vals.headD 0 ≠ 16) :
    d.touched mailObjs (d.macEmit k o) ∧ (d.macEmit k o).out = d.out ++ [o] := by
  obtain ⟨noPause, noPfc, noVerify⟩ := frame
  generalize begun : (d.when (o.kind == .control && o.vals.headD 0 == 0x13) fun d => d.put Rg.CONTROL_SENT o.unit (k.tick + 1)) = e
  have noted : d.touched [Rg.CONTROL_SENT] e :=
    begun ▸ Dev.touched_when (Dev.touched_refl _ d) _ (Dev.touched_put (Dev.touched_refl _ d) (by simp) (by omega) (by decide) _)
  have out : e.out = d.out := by rw [← begun, Dev.when]; split <;> rfl
  have emits : d.macEmit k o = ((e.txLoad o.unit o.bytes.length).pair Od.PORT_TX_GOOD o.unit o.bytes.length).emit o := by
    unfold Dev.macEmit
    dsimp only
    rw [begun, kind]
    dsimp only
    rw [if_neg noVerify, if_neg noPause, if_neg noPfc]
  have loaded := Dev.touched_trans noted (e.txLoad_touched port o.bytes.length)
  obtain ⟨counted, same, -⟩ := Dev.pair_touched (show o.unit < 65536 by omega) (others := []) (o := Od.PORT_TX_GOOD) ⟨rfl, by decide⟩
    (Dev.plainWords_touched loaded (by decide) plain) o.bytes.length
  obtain ⟨keys, within, wrote⟩ := Dev.touched_trans loaded counted
  rw [emits]
  refine ⟨Dev.touched_mono ⟨keys, within, Dev.wrote_emit wrote o⟩ (by simp [mailObjs, txLoadObjs]), ?_⟩
  rw [Dev.emit_out, same, Dev.txLoad_out, out]

/-- It is sent, or waits at its MAC. -/
theorem Dev.macSend_control (k : Clk) {d : Dev} (plain : plainWords d = true) {o : Out} (port : o.unit < 1024) (kind : o.kind = .control)
    (frame : o.vals.headD 0 ≠ 1 ∧ o.vals.headD 0 ≠ 2 ∧ o.vals.headD 0 ≠ 16) :
    d.mailed mailObjs (d.macSend k o) ∧ (d.macSend k o).posted = d.posted + 1 := by
  unfold Dev.macSend
  split
  · obtain ⟨touched, out⟩ := Dev.macEmit_control k plain port kind frame
    have kept : (d.macEmit k o).ctl = d.ctl := Dev.objsOnly_ctl (Dev.touched_objsOnly touched)
    refine ⟨Dev.mailed_of_touched touched, ?_⟩
    simp only [Dev.posted, out, kept, List.length_append, List.length_singleton]
    omega
  · exact ⟨Dev.touched_refl _ _, by simp [Dev.posted, Nat.add_assoc]⟩

theorem Dev.matBody_mailed (k : Clk) (code target : Nat) (payload : List Byte) (d : Dev) : d.touched mailObjs (d.matBody k code target payload).2 :=
  Dev.touched_scalar (Dev.touched_refl _ d) (by simp [mailObjs]) _

section
variable (k : Clk) {d : Dev}

theorem Dev.sendTrunk_mailed (plain : plainWords d = true) {p : Nat} (port : p < 1024) (target code : Nat) (payload : List Byte) :
    d.mailed mailObjs (d.sendTrunk k p target code payload) ∧ (d.sendTrunk k p target code payload).posted = d.posted + 1 := by
  have made := d.matBody_mailed k code target payload
  obtain ⟨mailed, posted⟩ := Dev.macSend_control k (Dev.plainWords_touched made mailObjs_unarmed plain)
    (o := (d.matBody k code target payload).2.matFrame p 3 (d.matBody k code target payload).1) port rfl (by simp [Dev.matFrame])
  exact ⟨Dev.mailed_trans (Dev.mailed_of_touched made) mailed, posted⟩

theorem Dev.sendDatagram_mailed (e code : Nat) (payload : List Byte) : d.mailed mailObjs (d.sendDatagram k e code payload) ∧
    (d.sendDatagram k e code payload).posted = d.posted + 1 ∧ (d.sendDatagram k e code payload).out.length = d.out.length + 1 := by
  obtain ⟨keys, within, wrote⟩ := d.matBody_mailed k code (if e = 8 then 8 else e) payload
  refine ⟨Dev.mailed_of_touched ⟨keys, within, Dev.wrote_emit wrote _⟩, ?_, ?_⟩
  · simp only [Dev.posted, Dev.sendDatagram, Dev.emit_out, Dev.emit_ctl, Dev.matBody, List.length_append, List.length_singleton]
    exact Nat.add_right_comm _ _ _
  · simp only [Dev.sendDatagram, Dev.emit_out, List.length_append, List.length_singleton]
    rfl

/-- A message to a member or the witness. -/
theorem Dev.sendMat_mailed (plain : plainWords d = true) (m code : Nat) (payload : List Byte) :
    d.mailed mailObjs (d.sendMat k m code payload) ∧ (d.sendMat k m code payload).posted = d.posted + 1 := by
  unfold Dev.sendMat
  split
  case h_1 p low =>
    have port : p < 1024 := by
      split at low
      · exact Dev.trunkLow_lt low
      · cases low
    exact Dev.sendTrunk_mailed k plain port m code payload
  case h_2 =>
    obtain ⟨mailed, posted, -⟩ := Dev.sendDatagram_mailed k (d := d) m code payload
    exact ⟨mailed, posted⟩

end

/-! SUPPORT. The roles of a mat follow its heartbeats (R417), and what its lease goes by (R432). -/

/-- The objects of MEMBER and STANDBY. -/
def roleObjs : List Obj := [Od.MAT_STANDBY, Od.MAT_STATE, Rg.MSIX_CAUSE]

theorem Dev.matRoles_touched (d : Dev) : d.touched roleObjs d.matRoles := by
  have standby : d.touched roleObjs (d.put Od.MAT_STANDBY 0 d.standbyNow) := Dev.touched_scalar (Dev.touched_refl _ d) (by simp [roleObjs]) _
  exact Dev.touched_ite (Dev.touched_note standby (by simp [roleObjs]) (by simp [roleObjs]) _ _) standby

theorem Dev.votes_of_members {d e : Dev} (same : e.n Od.MAT_MEMBERS 0 = d.n Od.MAT_MEMBERS 0) : e.votes = d.votes := by
  simp only [Dev.votes, Dev.memberCount, same]

end Sys2Proof.Machine

namespace Sys2Proof.Machine
open Sys2Proof.Safety

/-! SUPPORT. A message that comes by a trunk or a relay is noted before it acts (R427, R431). -/

theorem Dev.objsOnly_matOwn {d e : Dev} (objs : d.objsOnly e) : e.matOwn = d.matOwn := by
  have same := congrArg Dev.matOwn (show bare e = bare d from objs)
  exact same

theorem Dev.objsOnly_matReqs {d e : Dev} (objs : d.objsOnly e) : e.matReqs = d.matReqs := by
  have same := congrArg Dev.matReqs (show bare e = bare d from objs)
  exact same

theorem ofBytesBE_lt (bs : List Byte) : ofBytesBE bs < 256 ^ bs.length := by
  induction bs using List.reverseRecOn with
  | nil => decide
  | append_singleton bs b ih =>
    have byte := b.isLt
    simp only [ofBytesBE, List.foldl_append, List.foldl_cons, List.foldl_nil, List.length_append, List.length_singleton, pow_succ] at *
    omega

theorem matFrom_lt (bs : List Byte) : matFrom bs < 8 := Nat.mod_lt _ (by decide)

/-- The term that a message bears. -/
def matTerm (bs : List Byte) : Nat := ofBytesBE (sliceZ bs 4 8)

/-- The device with the SEQ and the term of a message noted. -/
def Dev.matMet (bs : List Byte) (d : Dev) : Dev :=
  (d.put Rg.MAT_SEQ_IN (matFrom bs) (max (d.n Rg.MAT_SEQ_IN (matFrom bs)) (ofBytesBE (sliceZ bs 12 4) + 1))).seeTerm (matTerm bs)

theorem Dev.matMet_wrote (bs : List Byte) (d : Dev) : d.wrote (matKeys bs) (d.matMet bs) := by
  have noted (v : Nat) : d.wrote (matKeys bs) (d.put Rg.MAT_SEQ_IN (matFrom bs) v) :=
    Dev.wrote_put (Dev.wrote_refl _ d) _ _ _ _ (by simp [matKeys])
  exact Dev.wrote_ite (Dev.wrote_put (noted _) _ _ _ _ (by simp [matKeys])) (noted _)

theorem matKeys_within (bs : List Byte) : keysWithin [Rg.MAT_SEQ_IN, Od.MAT_TERM] (matKeys bs) := by
  intro k written
  have sender := matFrom_lt bs
  rcases List.mem_pair.mp written with rfl | rfl
  · exact ⟨_, by simp, matFrom bs, 0, by omega, by decide, rfl⟩
  · exact ⟨Od.MAT_TERM, by simp, 0, 0, by decide, by decide, rfl⟩

theorem Dev.matMet_touched (bs : List Byte) (d : Dev) : d.touched [Rg.MAT_SEQ_IN, Od.MAT_TERM] (d.matMet bs) :=
  ⟨_, matKeys_within bs, d.matMet_wrote bs⟩

/-- What it leaves alone of the scalars. -/
theorem Dev.n_matMet (bs : List Byte) (d : Dev) {o : Obj} (apart : ∀ q ∈ [Rg.MAT_SEQ_IN, Od.MAT_TERM], o.idx * 256 + o.sub ≠ q.idx * 256 + q.sub) :
    (d.matMet bs).n o 0 = d.n o 0 := Dev.n_touched (d.matMet_touched bs) (by decide) (by decide) apart

@[simp] theorem Dev.matMet_now (bs : List Byte) (d : Dev) : (d.matMet bs).now = d.now := by
  unfold Dev.matMet Dev.seeTerm
  split <;> rfl

theorem Dev.n_matMet_term {bs : List Byte} {d : Dev} (fresh : d.n Od.MAT_TERM 0 ≤ matTerm bs) : (d.matMet bs).n Od.MAT_TERM 0 = matTerm bs := by
  have sender := matFrom_lt bs
  have word : matTerm bs < 256 ^ 8 := by simpa [matTerm] using ofBytesBE_lt (sliceZ bs 4 8)
  have kept (v : Nat) : (d.put Rg.MAT_SEQ_IN (matFrom bs) v).n Od.MAT_TERM 0 = d.n Od.MAT_TERM 0 :=
    Dev.n_put_other _ _ _ _ _ _ _ _ (Obj.key_ne (by decide) (by omega) (by decide) (by decide) (by decide))
  unfold Dev.matMet Dev.seeTerm
  split
  · exact Dev.n_put_same _ _ _ _ _ (by simp only [ObjTy.norm, Od.MAT_TERM]; omega)
  · rename_i seen
    rw [kept] at seen ⊢
    omega

/-- A message that comes acts, by its code, on the device that has noted it. -/
theorem State.matRow_acts {s : State} (running : ready s = true) {code path : Nat} {bs : List Byte} (comes : matComes s code path bs) {f : Dev → Dev}
    (acts : ∀ d : Dev, (bs.getD 0 0).toNat = code → decide (matTerm bs < d.n Od.MAT_TERM 0) = false →
      d.matAct s.clk path (matFrom bs) bs = f (d.seeTerm (matTerm bs))) :
    s.runIf (decide (path < 3)) (fun k d => d.matRow k code path bs) = .next { s with dev := f (s.dev.silent.matMet bs) } := by
  obtain ⟨enabled, way, named, fresh⟩ := comes
  have known : path < 3 ∧ path ≠ 1 := by omega
  have sender := matFrom_lt bs
  refine State.runIf_eq running (decide_eq_true known.1) ?_
  rw [Dev.matRow, if_pos named, Dev.matMessage, if_neg (by simp [enabled]), if_neg known.2]
  refine acts _ named (decide_eq_false (Nat.not_lt.mpr ?_))
  rw [Dev.n_put_other _ _ _ _ _ _ _ _ (Obj.key_ne (by decide) (by omega) (by decide) (by decide) (by decide))]
  exact fresh

/-! SUPPORT. A heartbeat (R430). -/

/-- What a HEARTBEAT tells: the sender's state, its master, the ticks of its lease, its trunks (R428). -/
def heartbeatSaid (bs : List Byte) : List Nat :=
  [(bs.getD 24 0).toNat, (bs.getD 25 0).toNat, ofBytesBE (sliceZ (bs.drop 24) 2 4), (bs.getD 30 0).toNat]

/-- The path is alive, and its tick noted. -/
def Dev.pathHeard (k : Clk) (path m : Nat) (d : Dev) : Dev :=
  (d.put Rg.MAT_HEARD m (k.tick + 1) path).put Od.MAT_REACH 0 (setBit (d.n Od.MAT_REACH 0 m) path) m

/-- What the sender tells is kept. -/
def Dev.saidKept (m term : Nat) (said : List Nat) (d : Dev) : Dev := d.each ((said ++ [term]).take 5).zipIdx fun d x => d.put Rg.MAT_SAID m x.1 x.2

/-- The sender is the master. -/
def Dev.masterHeard (k : Clk) (m term : Nat) (said : List Nat) (d : Dev) : Dev :=
  let d := (d.put Od.MAT_MASTER 0 m).put Rg.MASTER_SEEN 0 (k.tick + 1)
  let d := d.when (d.n Rg.V_TERM 0 == term && d.n Rg.V_GRANTEE 0 == m + 1) fun d => d.put Rg.V_MASTER 0 1
  let d := d.when (d.claiming && decide (d.n Rg.O_TERM 0 ≤ term)) fun d => d.put Rg.O_TERM 0 0
  d.when (!d.votes) fun d => d.put Rg.V_END 0 (k.tick + said.getD 2 0)

/-- The master is known by the heartbeat, or was known by none but the sender's. -/
def Dev.masterTold (k : Clk) (m term : Nat) (said : List Nat) (d : Dev) : Dev :=
  if said.getD 0 0 = 4 then d.masterHeard k m term said else if d.n Od.MAT_MASTER 0 = m then d.put Od.MAT_MASTER 0 0xFF else d

/-- The objects that name the master. -/
def masterObjs : List Obj := [Od.MAT_MASTER, Rg.MASTER_SEEN]

/-- Those of the leases and claims that a master's heartbeat bears on. -/
def leaseToldObjs : List Obj := [Rg.V_MASTER, Rg.O_TERM, Rg.V_END]

theorem Dev.saidKept_touched {m : Nat} (member : m < 8) (term : Nat) (said : List Nat) (d : Dev) : d.touched [Rg.MAT_SAID] (d.saidKept m term said) := by
  refine Dev.each_keeps (P := d.touched [Rg.MAT_SAID]) _ (fun e x listed kept => ?_) (Dev.touched_refl _ d)
  have place : x.2 < 5 := by
    obtain ⟨_, short, -⟩ := List.mem_zipIdx (x := x.1) (i := x.2) (k := 0) listed
    simp only [List.length_take] at short
    omega
  exact Dev.touched_put kept (by simp) (by omega) (by omega) _

theorem Dev.masterNamed_touched (k : Clk) (m : Nat) (d : Dev) :
    d.touched masterObjs ((d.put Od.MAT_MASTER 0 m).put Rg.MASTER_SEEN 0 (k.tick + 1)) :=
  Dev.touched_scalar (Dev.touched_scalar (Dev.touched_refl _ d) (by simp [masterObjs]) _) (by simp [masterObjs]) _

theorem Dev.masterHeard_after (k : Clk) (m term : Nat) (said : List Nat) (d : Dev) :
    ((d.put Od.MAT_MASTER 0 m).put Rg.MASTER_SEEN 0 (k.tick + 1)).touched leaseToldObjs (d.masterHeard k m term said) := by
  unfold Dev.masterHeard
  dsimp only
  iterate 3 refine Dev.touched_whenPut ?_ _ (by simp [leaseToldObjs]) _
  exact Dev.touched_refl _ _

theorem Dev.masterTold_touched (k : Clk) (m term : Nat) (said : List Nat) (d : Dev) :
    d.touched (masterObjs ++ leaseToldObjs) (d.masterTold k m term said) :=
  Dev.touched_ite (Dev.touched_trans (d.masterNamed_touched k m) (d.masterHeard_after k m term said))
    (Dev.touched_ite (Dev.touched_scalar (Dev.touched_refl _ d) (by simp [masterObjs]) _) (Dev.touched_refl _ d))

/-- The standby's word, and the roles. -/
def Dev.rolesTold (k : Clk) (said : List Nat) (d : Dev) : Dev :=
  (d.when (said.getD 0 0 == 3) fun e => e.put Rg.STANDBY_SEEN 0 (k.tick + 1)).matRoles

theorem Dev.rolesTold_touched (k : Clk) (said : List Nat) (d : Dev) : d.touched ([Rg.STANDBY_SEEN] ++ roleObjs) (d.rolesTold k said) :=
  Dev.touched_trans (Dev.touched_whenPut (Dev.touched_refl _ d) _ (by simp) _) (Dev.matRoles_touched _)

/-- What follows a master's heartbeat: updates of the own resent to a new master, the return from isolation, the request for its table (R437, R439). -/
def Dev.masterFollowed (k : Clk) (m term was : Nat) (d : Dev) : Dev :=
  let d := d.when (was != m && d.n Od.MAT_STATE 0 != 4) fun d => d.each d.matOwn fun d u => d.sendUpdate k m u
  if d.n Od.MAT_STATE 0 = 5 ∧ d.on Od.MAT_AUTO_REJOIN 0 ∧ d.n Rg.H_LAST 0 < term then d.rejoin k
  else if d.n Od.MAT_STATE 0 = 1 ∧ !d.on Rg.RESYNC 0 then (d.put Rg.RESYNC 0 1).sendMat k m 8 []
  else d

theorem Dev.masterFollowed_quiet (k : Clk) (m term was : Nat) {d : Dev} (own : d.matOwn = [])
    (state : d.n Od.MAT_STATE 0 ≠ 1 ∧ d.n Od.MAT_STATE 0 ≠ 5) : d.masterFollowed k m term was = d := by
  obtain ⟨joined, free⟩ := state
  have resent : (d.when (was != m && d.n Od.MAT_STATE 0 != 4) fun d => d.each d.matOwn fun d u => d.sendUpdate k m u) = d := by
    unfold Dev.when
    dsimp only
    rw [own, Dev.each_nil, ite_self]
  unfold Dev.masterFollowed
  rw [resent]
  dsimp only
  rw [if_neg (fun x => free x.1), if_neg (fun x => joined x.1)]

/-- A heartbeat by its parts: the path, what is told, the master and what follows from it, the standby, the roles. -/
theorem Dev.heartbeat_eq (k : Clk) (path m term : Nat) (said : List Nat) (d : Dev) :
    let e := (d.pathHeard k path m).saidKept m term said
    d.heartbeat k path m term said =
      ((if said.getD 0 0 = 4 then (e.masterHeard k m term said).masterFollowed k m term (e.n Od.MAT_MASTER 0)
        else if e.n Od.MAT_MASTER 0 = m then e.put Od.MAT_MASTER 0 0xFF else e).when (said.getD 0 0 == 3) fun e =>
          e.put Rg.STANDBY_SEEN 0 (k.tick + 1)).matRoles := rfl

/-- The objects of a path and of what comes by it. -/
def pathObjs : List Obj := [Rg.MAT_HEARD, Od.MAT_REACH, Rg.MAT_SAID]

section
variable (k : Clk) {path m : Nat} (way : path < 3) (member : m < 8) (term : Nat) (said : List Nat) (d : Dev)
include way member

theorem Dev.pathHeard_touched : d.touched pathObjs (d.pathHeard k path m) :=
  Dev.touched_put (Dev.touched_put (Dev.touched_refl _ d) (by simp [pathObjs]) (by omega) (by omega) _) (by simp [pathObjs]) (by decide) (by omega) _

theorem Dev.pathHeard_reads : (d.pathHeard k path m).n Rg.MAT_HEARD m path = k.tick + 1 ∧ bit ((d.pathHeard k path m).n Od.MAT_REACH 0 m) path = true := by
  constructor
  · exact (Dev.n_put_other _ _ _ _ _ _ _ _ (Obj.key_ne (by decide) (by decide) (by omega) (by omega) (by omega))).trans (Dev.n_put_wide _ rfl _ _ _)
  · have byte (v : Nat) : ((Od.MAT_REACH.ty.norm (setBit v path : Nat)).toNat) = setBit v path % 2 ^ 8 := by
      simp only [ObjTy.norm, Od.MAT_REACH]
      omega
    rw [Dev.pathHeard]
    rw [Dev.n, Dev.get_put_same, byte, bit_eq_testBit, Nat.testBit_mod_two_pow, setBit, Nat.testBit_or, Nat.testBit_two_pow_self]
    simp only [Bool.or_true, Bool.and_true, decide_eq_true_eq]
    omega

theorem Dev.pathTold_touched : d.touched pathObjs ((d.pathHeard k path m).saidKept m term said) := 
  Dev.touched_mono (Dev.touched_trans (d.pathHeard_touched k way member) (Dev.saidKept_touched member term said _)) (by simp [pathObjs])

end

section
variable (k : Clk) {path m : Nat} (way : path < 3) (member : m < 8) (term : Nat) (said : List Nat) {d : Dev} (own : d.matOwn = [])
  (state : d.n Od.MAT_STATE 0 ≠ 1 ∧ d.n Od.MAT_STATE 0 ≠ 5)
include way member own state

/-- A device that neither is isolated nor joins the mat, with no update of its own unacknowledged, sends nothing for a heartbeat. -/
theorem Dev.heartbeat_quiet : d.heartbeat k path m term said =
    (((d.pathHeard k path m).saidKept m term said).masterTold k m term said).rolesTold k said := by
  have told := d.pathTold_touched k way member term said
  rw [Dev.heartbeat_eq]
  generalize (d.pathHeard k path m).saidKept m term said = e at told
  have heard := Dev.touched_trans told (Dev.touched_trans (e.masterNamed_touched k m) (e.masterHeard_after k m term said))
  have stays : (e.masterHeard k m term said).n Od.MAT_STATE 0 = d.n Od.MAT_STATE 0 := Dev.n_touched heard (by decide) (by decide) (by decide)
  rw [Dev.masterFollowed_quiet k m term _ ((Dev.objsOnly_matOwn (Dev.touched_objsOnly heard)).trans own) (by rw [stays]; exact state)]
  rfl

/-- What it does. -/
theorem Dev.heartbeat_does : d.touched (pathObjs ++ (masterObjs ++ leaseToldObjs) ++ ([Rg.STANDBY_SEEN] ++ roleObjs)) (d.heartbeat k path m term said) ∧
    (d.heartbeat k path m term said).n Rg.MAT_HEARD m path = k.tick + 1 ∧ bit ((d.heartbeat k path m term said).n Od.MAT_REACH 0 m) path = true ∧
    (said.getD 0 0 = 4 → (d.heartbeat k path m term said).n Od.MAT_MASTER 0 = m ∧ (d.heartbeat k path m term said).n Rg.MASTER_SEEN 0 = k.tick + 1) := by
  rw [Dev.heartbeat_quiet k way member term said own state]
  obtain ⟨tick, reach⟩ := d.pathHeard_reads k way member
  have told := d.pathTold_touched k way member term said
  have said' := Dev.saidKept_touched member term said (d.pathHeard k path m)
  generalize (d.pathHeard k path m).saidKept m term said = e at told said'
  have roles := (e.masterTold k m term said).rolesTold_touched k said
  have later := Dev.touched_trans (Dev.touched_trans said' (e.masterTold_touched k m term said)) roles
  refine ⟨Dev.touched_trans (Dev.touched_trans told (e.masterTold_touched k m term said)) roles, ?_, ?_, fun master => ?_⟩
  · rw [Dev.n_touched later (by omega) (by omega) (by decide), tick]
  · rw [Dev.n_touched later (by decide) (by omega) (by decide), reach]
  · have last : ((e.put Od.MAT_MASTER 0 m).put Rg.MASTER_SEEN 0 (k.tick + 1)).touched (leaseToldObjs ++ ([Rg.STANDBY_SEEN] ++ roleObjs))
        ((e.masterTold k m term said).rolesTold k said) := by
      refine Dev.touched_trans ?_ roles
      rw [Dev.masterTold, if_pos master]
      exact e.masterHeard_after k m term said
    constructor
    · rw [Dev.n_touched last (by decide) (by decide) (by decide), Dev.n_put_scalar _ (by decide) (by decide) (by decide)]
      exact Dev.n_put_same _ _ _ _ _ (by simp only [ObjTy.norm, Od.MAT_MASTER]; omega)
    · rw [Dev.n_touched last (by decide) (by decide) (by decide), Dev.n_put_wide _ rfl]

end

/-- A heartbeat that comes. -/
theorem exec_heartbeat_comes {s : State} (running : ready s = true) {path : Nat} {bs : List Byte} (comes : matComes s 1 path bs) :
    exec (.heartbeat path bs) s =
      .next { s with dev := (s.dev.silent.matMet bs).heartbeat s.clk path (matFrom bs) (matTerm bs) (heartbeatSaid bs) } := by
  refine State.matRow_acts running comes fun d code fresh => ?_
  simp only [Dev.matAct, code]
  rw [← matTerm, fresh]
  simp [heartbeatSaid]

/-! SUPPORT. The lease's requests and answers (R431 to R434). -/

/-- The lease's term that a request or an answer names. -/
def matAsked (bs : List Byte) : Nat := ofBytesBE (sliceZ (bs.drop 24) 0 8)

/-- A collection opens with one request (R433). -/
def Dev.collectBegun (k : Clk) (x t : Nat) (d : Dev) : Dev := { d.put Rg.V_COLLECT 0 (k.tick + 1) with matReqs := [{ dev := x, term := t }] }

theorem Dev.n_collectBegun (k : Clk) (x t : Nat) (d : Dev) : (d.collectBegun k x t).n Rg.V_COLLECT 0 = k.tick + 1 :=
  Dev.n_put_wide d (o := Rg.V_COLLECT) rfl 0 (k.tick + 1)

/-- A request of a candidate for a newer term, that no lease known to the voter stands against, opens a collection (R433). -/
theorem Dev.leaseRequest_collects (k : Clk) {x t : Nat} {d : Dev} (votes : d.votes = true) (enabled : d.on Od.MAT_ENABLE 0 = true)
    (candidate : bit (d.n Od.MAT_CANDIDATES 0) x = true) (newer : d.n Rg.V_TERM 0 < t) (ended : d.n Rg.V_END 0 ≤ k.tick) (first : d.matReqs = []) :
    d.leaseRequest k x t false false = d.collectBegun k x t := by
  unfold Dev.leaseRequest
  dsimp only
  rw [if_neg (by simp [votes, enabled]), if_neg (by simp [candidate]), if_neg (by simp; omega), if_neg (by omega), if_neg (by simp)]
  simp [first, Dev.put, Dev.collectBegun]

theorem exec_leaseRequest_comes {s : State} (running : ready s = true) {path : Nat} {bs : List Byte} (comes : matComes s 2 path bs)
    (fresh : (bs.getD 32 0).toNat ≠ 1) : exec (.leaseRequest path bs) s =
      .next { s with dev := (s.dev.silent.matMet bs).leaseRequest s.clk (matFrom bs) (matAsked bs) false false } := by
  refine State.matRow_acts running comes (f := fun d => d.leaseRequest s.clk (matFrom bs) (matAsked bs) false false) fun d code current => ?_
  have claim : (BitVec.toNat ((bs.drop 24).getD 8 0) == 1) = false := by simpa using fresh
  simp only [Dev.matAct, code]
  rw [← matTerm, current, claim]
  rfl

theorem exec_leaseRequest_collects {s : State} (running : ready s = true) {path : Nat} {bs : List Byte} (comes : matComes s 2 path bs)
    (votes : s.dev.votes = true) (candidate : bit (s.dev.n Od.MAT_CANDIDATES 0) (matFrom bs) = true) (fresh : (bs.getD 32 0).toNat ≠ 1)
    (newer : s.dev.n Rg.V_TERM 0 < matAsked bs) (ended : s.dev.n Rg.V_END 0 ≤ s.clk.tick) (first : s.dev.matReqs = []) :
    ∃ t, exec (.leaseRequest path bs) s = .next t ∧ outsideKept s t ∧
      bare t.dev = bare { s.dev with matReqs := [{ dev := matFrom bs, term := matAsked bs }] } ∧ t.dev.n Rg.V_COLLECT 0 = s.clk.tick + 1 := by
  have ran := exec_leaseRequest_comes running comes fresh
  obtain ⟨enabled, -⟩ := comes
  have objs := Dev.touched_objsOnly (s.dev.silent.matMet_touched bs)
  have kept {o : Obj} (apart) : (s.dev.silent.matMet bs).n o 0 = s.dev.n o 0 := Dev.n_matMet bs s.dev.silent apart
  rw [Dev.leaseRequest_collects s.clk (d := s.dev.silent.matMet bs) ((Dev.votes_of_members (kept (by decide))).trans votes)
    ((congrArg (· != 0) (kept (by decide))).trans enabled) (by rw [kept (by decide)]; exact candidate) (by rw [kept (by decide)]; exact newer)
    (by rw [kept (by decide)]; exact ended) ((Dev.objsOnly_matReqs objs).trans first)] at ran
  have same := congrArg (fun b : Dev => { b with matReqs := [{ dev := matFrom bs, term := matAsked bs }] }) (show bare _ = bare _ from objs)
  exact ⟨_, ran, ⟨rfl, rfl, rfl⟩, same, Dev.n_collectBegun _ _ _ _⟩

theorem Dev.mem_later (d : Dev) (x : Due) : x ∈ (d.later x).dues := by
  unfold Dev.later
  split
  · rename_i listed; simpa using listed
  · simp

/-- A lease that is won waits for the next boundary, and nothing else changes (R434). -/
theorem Dev.when_leaseWon (d : Dev) : (∀ (o : Obj) (i e : Nat), (d.when d.leaseWon fun d => d.later .leaseHeld).get o i e = d.get o i e) ∧
    ((d.when d.leaseWon fun d => d.later .leaseHeld).leaseWon = true → Due.leaseHeld ∈ (d.when d.leaseWon fun d => d.later .leaseHeld).dues) := by
  cases won : d.leaseWon with
  | false => exact ⟨fun _ _ _ => rfl, fun held => by rw [Dev.when_false, won] at held; cases held⟩
  | true => exact ⟨fun _ _ _ => Dev.get_later _ _ _ _ _, fun _ => d.mem_later _⟩

theorem exec_leaseGrant_comes {s : State} (running : ready s = true) {path : Nat} {bs : List Byte} (comes : matComes s 3 path bs) :
    exec (.leaseGrant path bs) s =
      .next { s with dev := (s.dev.silent.matMet bs).leaseGrant s.clk (matFrom bs) (matAsked bs) (bs.getD 32 0).toNat } := by
  refine State.matRow_acts running comes (f := fun d => d.leaseGrant s.clk (matFrom bs) (matAsked bs) (bs.getD 32 0).toNat) fun d code current => ?_
  simp only [Dev.matAct, code]
  rw [← matTerm, current]
  simp [matAsked]

/-- A grant of the own request adds its voter, and enough of them win the lease (R434). -/
theorem exec_leaseGrant_counts {s : State} (running : ready s = true) {path : Nat} {bs : List Byte} (comes : matComes s 3 path bs)
    (asks : s.dev.n Rg.O_TERM 0 ≠ 0) (same : matAsked bs = s.dev.n Rg.O_TERM 0) (own : (bs.getD 32 0).toNat = s.dev.me) :
    ∃ t, exec (.leaseGrant path bs) s = .next t ∧ outsideKept s t ∧ t.dev.n Rg.O_GRANTS 0 = setBit (s.dev.n Rg.O_GRANTS 0) (matFrom bs) ∧
      (t.dev.leaseWon = true → Due.leaseHeld ∈ t.dev.dues) ∧
      ∀ (o : Obj) (i e : Nat), o.key i e ∉ Rg.O_GRANTS.key 0 0 :: matKeys bs → t.dev.get o i e = s.dev.get o i e := by
  have ran := exec_leaseGrant_comes running comes
  have wrote := s.dev.silent.matMet_wrote bs
  have kept {o : Obj} (apart) : (s.dev.silent.matMet bs).n o 0 = s.dev.n o 0 := Dev.n_matMet bs s.dev.silent apart
  have me : (s.dev.silent.matMet bs).me = s.dev.me := kept (o := Od.MAT_DEVICE) (by decide)
  rw [Dev.leaseGrant, if_pos ⟨(kept (by decide)).trans same.symm, by rw [same]; exact asks, own.trans me.symm⟩] at ran
  dsimp only at ran
  rw [Dev.n_matMet bs _ (by decide)] at ran
  generalize counted : (s.dev.silent.matMet bs).put Rg.O_GRANTS 0 (setBit (s.dev.silent.n Rg.O_GRANTS 0) (matFrom bs)) = e at ran
  obtain ⟨reads, won⟩ := Dev.when_leaseWon e
  refine ⟨_, ran, ⟨rfl, rfl, rfl⟩, ?_, won, fun o i f unwritten => ?_⟩
  · rw [Dev.n, reads, ← counted]
    exact Dev.n_put_wide _ rfl _ _
  · obtain ⟨-, kept⟩ := Dev.wrote_put (Dev.wrote_mono wrote (List.subset_cons_self (Rg.O_GRANTS.key 0 0) _)) Rg.O_GRANTS 0 0
      (setBit (s.dev.silent.n Rg.O_GRANTS 0) (matFrom bs)) (by simp)
    exact (reads o i f).trans ((congrArg (fun d : Dev => d.get o i f) counted.symm).trans (kept o i f unwritten))

theorem exec_leaseRefuse_comes {s : State} (running : ready s = true) {path : Nat} {bs : List Byte} (comes : matComes s 4 path bs) :
    exec (.leaseRefuse path bs) s = .next { s with dev := (s.dev.silent.matMet bs).leaseRefuse s.clk (matFrom bs) (matAsked bs) } := by
  refine State.matRow_acts running comes (f := fun d => d.leaseRefuse s.clk (matFrom bs) (matAsked bs)) fun d code current => ?_
  simp only [Dev.matAct, code]
  rw [← matTerm, current]
  rfl

/-- A refusal of the own request is noted (R433). -/
theorem exec_leaseRefuse_notes {s : State} (running : ready s = true) {path : Nat} {bs : List Byte} (comes : matComes s 4 path bs)
    (asks : s.dev.n Rg.O_TERM 0 ≠ 0) (same : matAsked bs = s.dev.n Rg.O_TERM 0) :
    ∃ t, exec (.leaseRefuse path bs) s = .next t ∧ onlyWrites (Rg.O_REFUSED.key 0 0 :: matKeys bs) s t ∧
      t.dev.n Rg.O_REFUSED 0 = setBit (s.dev.n Rg.O_REFUSED 0) (matFrom bs) := by
  have ran := exec_leaseRefuse_comes running comes
  have wrote := Dev.wrote_trans (Dev.wrote_silent _ _) (s.dev.silent.matMet_wrote bs)
  rw [Dev.leaseRefuse, if_pos ⟨by rw [Dev.n_matMet bs _ (by decide)]; exact same.symm, by rw [same]; exact asks⟩, Dev.n_matMet bs _ (by decide)] at ran
  exact ⟨_, ran, onlyWrites_of (Dev.wrote_put (Dev.wrote_mono wrote (List.subset_cons_self _ _)) _ _ _ _ (by simp)), Dev.n_put_wide _ rfl _ _⟩

/-! SUPPORT. Table updates and their acknowledgement (R428, R437, R441). -/

/-- The device with the updates of a message among those of its clock. -/
def Dev.updatesJoin (l : List (Nat × MatUpd)) (d : Dev) : Dev := { d with now := { d.now with upds := d.now.upds ++ l } }

theorem exec_tableUpdate_comes {s : State} (running : ready s = true) {path : Nat} {bs : List Byte} (comes : matComes s 5 path bs)
    (some : 0 < (bs.getD 24 0).toNat) (few : (bs.getD 24 0).toNat ≤ 16) : exec (.tableUpdate path bs) s = .next { s with
      dev := (s.dev.silent.matMet bs).updatesJoin ((updatesOf (bs.getD 24 0).toNat (bs.drop 28)).map fun u => (matFrom bs, u)) } := by
  refine State.matRow_acts running comes
    (f := fun d => d.updatesJoin ((updatesOf (bs.getD 24 0).toNat (bs.drop 28)).map fun u => (matFrom bs, u))) fun d code current => ?_
  have count : BitVec.toNat ((bs.drop 24).getD 0 0) = (bs.getD 24 0).toNat := by simp
  simp only [Dev.matAct, code]
  rw [← matTerm, current, count, if_neg (by omega)]
  simp [Dev.updatesJoin]

/-- Writes of objects alone, before the updates join. -/
theorem onlyWrites_updatesJoin {keys : List Nat} {s : State} {e : Dev} (wrote : s.dev.wrote keys e) (instant : e.now = s.dev.now) (l : List (Nat × MatUpd)) :
    onlyWrites keys { s with dev := { s.dev with now := { s.dev.now with upds := s.dev.now.upds ++ l } } } { s with dev := e.updatesJoin l } := by
  obtain ⟨objs, reads⟩ := wrote
  have same := congrArg (fun b : Dev => { b with now := notes { s.dev.now with upds := s.dev.now.upds ++ l } }) (show bare e = bare s.dev from objs)
  refine ⟨⟨rfl, rfl, rfl⟩, ?_, reads⟩
  rw [Dev.updatesJoin, instant]
  exact same

theorem exec_tableUpdate_joins {s : State} (running : ready s = true) {path n : Nat} {bs : List Byte} (comes : matComes s 5 path bs)
    (count : (bs.getD 24 0).toNat = n) (some : 0 < n) (few : n ≤ 16) :
    ∃ t, exec (.tableUpdate path bs) s = .next t ∧ onlyWrites (matKeys bs) { s with dev := { s.dev with
      now := { s.dev.now with upds := s.dev.now.upds ++ (updatesOf n (bs.drop 28)).map fun u => (matFrom bs, u) } } } t := by
  subst count
  exact ⟨_, exec_tableUpdate_comes running comes some few,
    onlyWrites_updatesJoin (Dev.wrote_trans (Dev.wrote_silent _ _) (s.dev.silent.matMet_wrote bs)) (Dev.matMet_now bs _) _⟩

/-- A member takes the master's record among those to apply, which ends the resending of an own one (R441). -/
theorem Dev.updJoin_member (k : Clk) {m : Nat} {u : MatUpd} {d : Dev} (one : d.now.upds = [(m, u)]) (member : d.n Od.MAT_STATE 0 = 2)
    (master : d.n Od.MAT_MASTER 0 = m) (shadow : d.matShadow = []) :
    d.updJoin k = { d with matApply := d.matApply ++ [u]
                           matOwn := d.matOwn.filter fun v => !(u.origin == d.me && v.num == u.num) } := by
  have single : d.updJoin k = d.takeUpdate k m u := by rw [Dev.updJoin, one]; rfl
  rw [single]
  simp [Dev.takeUpdate, member, master, shadow]

theorem exec_tableAck_comes {s : State} (running : ready s = true) {path : Nat} {bs : List Byte} (comes : matComes s 6 path bs) :
    exec (.tableAck path bs) s = .next { s with
      dev := (s.dev.silent.matMet bs).takeAck (matFrom bs) ((List.range 8).map fun o => ofBytesBE (sliceZ (bs.drop 24) (4 * o) 4)) } := by
  refine State.matRow_acts running comes
    (f := fun d => d.takeAck (matFrom bs) ((List.range 8).map fun o => ofBytesBE (sliceZ (bs.drop 24) (4 * o) 4))) fun d code current => ?_
  simp only [Dev.matAct, code]
  rw [← matTerm, current]
  rfl

/-- The device without the updates of its own up to a number. -/
def Dev.ownAfter (n : Nat) (d : Dev) : Dev := { d with matOwn := d.matOwn.filter fun u => decide (n < u.num) }

theorem onlyWrites_ownAfter {keys : List Nat} {s : State} {e : Dev} (wrote : s.dev.wrote keys e) (n : Nat) :
    onlyWrites keys { s with dev := s.dev.ownAfter n } { s with dev := e.ownAfter n } := by
  obtain ⟨objs, reads⟩ := wrote
  have same := congrArg (Dev.ownAfter n) (show bare e = bare s.dev from objs)
  exact ⟨⟨rfl, rfl, rfl⟩, same, reads⟩

theorem exec_tableAck_ends {s : State} (running : ready s = true) {path : Nat} {bs : List Byte} (comes : matComes s 6 path bs)
    (master : s.dev.n Od.MAT_MASTER 0 = matFrom bs) (device : s.dev.me < 8) :
    ∃ t, exec (.tableAck path bs) s = .next t ∧
      onlyWrites (matKeys bs) { s with dev := s.dev.ownAfter (ofBytesBE (sliceZ (bs.drop 24) (4 * s.dev.me) 4)) } t := by
  have ran := exec_tableAck_comes running comes
  have me : (s.dev.silent.matMet bs).me = s.dev.me := Dev.n_matMet bs _ (by decide)
  have mine : ((List.range 8).map fun o => ofBytesBE (sliceZ (bs.drop 24) (4 * o) 4)).getD s.dev.me 0 = ofBytesBE (sliceZ (bs.drop 24) (4 * s.dev.me) 4) := by
    simp [List.getD_eq_getElem?_getD, device]
  rw [Dev.takeAck, if_pos (.inl (by rw [Dev.n_matMet bs _ (by decide)]; exact master.symm)), me, mine] at ran
  exact ⟨_, ran, onlyWrites_ownAfter (Dev.wrote_trans (Dev.wrote_silent _ _) (s.dev.silent.matMet_wrote bs)) _⟩

/-- Settles O29, message by message: each is noted (`Dev.matMet`) and acts by its code (`State.matRow_acts`). -/
theorem matMessages : Obligations.MatMessages := by
  intro s path bs running
  refine ⟨fun comes own state => ?_,
    fun comes votes candidate fresh newer ended first => exec_leaseRequest_collects running comes votes candidate fresh newer ended first,
    fun comes asks same own => exec_leaseGrant_counts running comes asks same own, fun comes asks same => exec_leaseRefuse_notes running comes asks same,
    fun n comes count some few => exec_tableUpdate_joins running comes count some few, fun m u one member master shadow =>
      Dev.updJoin_member s.clk one member master shadow, fun comes master device => exec_tableAck_ends running comes master device⟩
  have member := matFrom_lt bs
  have ran := exec_heartbeat_comes running comes
  obtain ⟨-, way, -, fresh⟩ := comes
  have met := s.dev.silent.matMet_touched bs
  obtain ⟨touched, tick, reach, master⟩ := Dev.heartbeat_does s.clk (path := path) (by omega) member (matTerm bs) (heartbeatSaid bs)
    (d := s.dev.silent.matMet bs) ((Dev.objsOnly_matOwn (Dev.touched_objsOnly met)).trans own)
    (by rw [Dev.n_matMet bs _ (by decide), Dev.n_silent]; omega)
  refine ⟨_, ran, ⟨rfl, rfl, rfl⟩, Dev.touched_objsOnly (Dev.touched_trans met touched), tick, reach, ?_, master⟩
  exact (Dev.n_touched touched (by decide) (by decide) (by decide)).trans (Dev.n_matMet_term fresh)

end Sys2Proof.Machine

namespace Sys2Proof.Machine
open Sys2Proof.Safety

/-! SUPPORT. Signatures at the standby (R444). -/

/-- The device with a new period of the signature begun. -/
def Dev.periodBegun (k : Clk) (d : Dev) : Dev := ((d.put Rg.SIG_COUNT 0 0).put Rg.SIG_CRC 0 0xFFFFFFFF).put Rg.SIG_FIRST 0 k.tick

theorem Dev.takeSignature_equal (k : Clk) {crc : Nat} {d : Dev} (equal : crc = d.n Rg.SIG_CRC 0 ^^^ 0xFFFFFFFF) (clear : d.n Od.MAT_CHECK_STATE 0 ≠ 1) :
    d.takeSignature k crc = (d.periodBegun k).put Rg.SIG_RUN 0 0 := by
  have kept : (d.periodBegun k).n Od.MAT_CHECK_STATE 0 = d.n Od.MAT_CHECK_STATE 0 := by
    unfold Dev.periodBegun
    iterate 3 rw [Dev.n_put_scalar _ (by decide) (by decide) (by decide)]
  refine (if_pos equal).trans ?_
  change ((d.periodBegun k).put Rg.SIG_RUN 0 0).when ((d.periodBegun k).n Od.MAT_CHECK_STATE 0 == 1) _ = _
  rw [kept, beq_eq_false_iff_ne.mpr clear, Dev.when_false]

theorem Dev.periodBegun_reads (k : Clk) (d : Dev) : (d.periodBegun k).n Rg.SIG_COUNT 0 = 0 ∧ (d.periodBegun k).n Rg.SIG_CRC 0 = 0xFFFFFFFF ∧
    (d.periodBegun k).n Rg.SIG_FIRST 0 = k.tick := by
  unfold Dev.periodBegun
  refine ⟨?_, ?_, Dev.n_put_wide _ rfl _ _⟩
  · iterate 2 rw [Dev.n_put_scalar _ (by decide) (by decide) (by decide)]
    exact Dev.n_put_wide _ rfl _ _
  · rw [Dev.n_put_scalar _ (by decide) (by decide) (by decide)]
    exact Dev.n_put_wide _ rfl _ _

theorem exec_signature_comes {s : State} (running : ready s = true) {path : Nat} {bs : List Byte} (comes : matComes s 7 path bs)
    (standby : s.dev.n Od.MAT_STATE 0 = 3) (checks : s.dev.n Od.MAT_CHECK_SAMPLE 0 ≠ 0) : exec (.signature path bs) s =
      .next { s with dev := (s.dev.silent.matMet bs).takeSignature s.clk (ofBytesBE (sliceZ (bs.drop 24) 12 4)) } := by
  refine (State.matRow_acts running comes (f := fun d => if d.n Od.MAT_STATE 0 = 3 ∧ d.n Od.MAT_CHECK_SAMPLE 0 ≠ 0 then
    d.takeSignature s.clk (ofBytesBE (sliceZ (bs.drop 24) 12 4)) else d) fun d code current => ?_).trans ?_
  · simp only [Dev.matAct, code]
    rw [← matTerm, current]
    simp only [Bool.not_false, true_and]
  · rw [if_pos ⟨(Dev.n_matMet bs _ (by decide)).trans standby, by rw [Dev.n_matMet bs _ (by decide)]; exact checks⟩]

/-- One equal to the standby's own ends its run of mismatches and its period. -/
theorem exec_signature_equal {s : State} (running : ready s = true) {path : Nat} {bs : List Byte} (comes : matComes s 7 path bs)
    (standby : s.dev.n Od.MAT_STATE 0 = 3) (checks : s.dev.n Od.MAT_CHECK_SAMPLE 0 ≠ 0) (clear : s.dev.n Od.MAT_CHECK_STATE 0 ≠ 1)
    (equal : ofBytesBE (sliceZ (bs.drop 24) 12 4) = s.dev.n Rg.SIG_CRC 0 ^^^ 0xFFFFFFFF) :
    ∃ t, exec (.signature path bs) s = .next t ∧
      onlyWrites ([Rg.SIG_RUN.key 0 0, Rg.SIG_COUNT.key 0 0, Rg.SIG_CRC.key 0 0, Rg.SIG_FIRST.key 0 0] ++ matKeys bs) s t ∧
      t.dev.n Rg.SIG_RUN 0 = 0 ∧ t.dev.n Rg.SIG_COUNT 0 = 0 ∧ t.dev.n Rg.SIG_CRC 0 = 0xFFFFFFFF ∧ t.dev.n Rg.SIG_FIRST 0 = s.clk.tick := by
  have ran := exec_signature_comes running comes standby checks
  have kept {o : Obj} (apart) : (s.dev.silent.matMet bs).n o 0 = s.dev.n o 0 := Dev.n_matMet bs s.dev.silent apart
  rw [Dev.takeSignature_equal s.clk (d := s.dev.silent.matMet bs) (equal.trans (congrArg (· ^^^ _) (kept (by decide)).symm))
    (by rw [kept (by decide)]; exact clear)] at ran
  obtain ⟨count, crc, begun⟩ := (s.dev.silent.matMet bs).periodBegun_reads s.clk
  have met := Dev.wrote_mono (Dev.wrote_trans (Dev.wrote_silent _ _) (s.dev.silent.matMet_wrote bs))
    (List.subset_append_right [Rg.SIG_RUN.key 0 0, Rg.SIG_COUNT.key 0 0, Rg.SIG_CRC.key 0 0, Rg.SIG_FIRST.key 0 0] _)
  refine ⟨_, ran, onlyWrites_of ?_, Dev.n_put_wide _ rfl _ _, ?_, ?_, ?_⟩
  · unfold Dev.periodBegun
    iterate 4 refine Dev.wrote_put ?_ _ _ _ _ (by simp)
    exact met
  · exact (Dev.n_put_scalar _ (by decide) (by decide) (by decide) _).trans count
  · exact (Dev.n_put_scalar _ (by decide) (by decide) (by decide) _).trans crc
  · exact (Dev.n_put_scalar _ (by decide) (by decide) (by decide) _).trans begun

/-! SUPPORT. The table is asked for and sent, and a device rejoins (R439). -/

theorem Dev.posted_matMet (bs : List Byte) (d : Dev) : (d.matMet bs).posted = d.posted := by
  unfold Dev.matMet Dev.seeTerm
  split <;> rfl

theorem Dev.posted_silent (d : Dev) : d.silent.posted = d.ctl.length := by simp [Dev.posted]

theorem plainWords_matMet {s : State} (plain : plainWords s.dev = true) (bs : List Byte) : plainWords (s.dev.silent.matMet bs) = true :=
  Dev.plainWords_touched (s.dev.silent.matMet_touched bs) (by decide) plain

/-- A master without entries answers by the end of its table alone. -/
theorem Dev.resync_empty (k : Clk) (m : Nat) {d : Dev} (empty : d.em = []) : d.resync k m = d.sendMat k m 9 (bytesBE 4 0) := by
  have none : d.emValid = [] := by rw [Dev.emValid, empty]; rfl
  unfold Dev.resync
  rw [none]
  rfl

theorem exec_resyncRequest_comes {s : State} (running : ready s = true) {path : Nat} {bs : List Byte} (comes : matComes s 8 path bs)
    (master : s.dev.n Od.MAT_STATE 0 = 4) : exec (.resyncRequest path bs) s =
      .next { s with dev := (s.dev.silent.matMet bs).resync s.clk (matFrom bs) } := by
  refine (State.matRow_acts running comes (f := fun d => if d.n Od.MAT_STATE 0 = 4 then d.resync s.clk (matFrom bs) else d)
    fun d code current => ?_).trans ?_
  · simp only [Dev.matAct, code]
    rw [← matTerm, current]
    simp only [Bool.not_false, and_true]
  · rw [if_pos ((Dev.n_matMet bs s.dev.silent (by decide)).trans master)]

theorem Dev.objsOnly_matApply {d e : Dev} (objs : d.objsOnly e) : e.matApply = d.matApply := by
  have same := congrArg Dev.matApply (show bare e = bare d from objs)
  exact same

/-- A message of the own leaves the table, its changes and the records that wait as they were. -/
theorem Dev.table_mailed {objs : List Obj} {d e : Dev} (h : d.mailed objs e) : e.em = d.em ∧ e.emPend = d.emPend ∧ e.matApply = d.matApply :=
  have objs := Dev.touched_objsOnly h
  ⟨(Dev.objsOnly_em objs).trans rfl, (Dev.objsOnly_emPend objs).trans rfl, (Dev.objsOnly_matApply objs).trans rfl⟩

theorem exec_resyncRequest_empty {s : State} (running : ready s = true) (plain : plainWords s.dev = true) {path : Nat} {bs : List Byte}
    (comes : matComes s 8 path bs) (master : s.dev.n Od.MAT_STATE 0 = 4) (empty : s.dev.em = []) :
    ∃ t, exec (.resyncRequest path bs) s = .next t ∧ outsideKept s t ∧ t.dev.out.length + t.dev.ctl.length = s.dev.ctl.length + 1 ∧
      t.dev.em = s.dev.em := by
  have ran := exec_resyncRequest_comes running comes master
  have kept := Dev.objsOnly_em (Dev.touched_objsOnly (s.dev.silent.matMet_touched bs))
  rw [Dev.resync_empty s.clk (matFrom bs) (d := s.dev.silent.matMet bs) (kept.trans empty)] at ran
  obtain ⟨mailed, posted⟩ := Dev.sendMat_mailed s.clk (plainWords_matMet plain bs) (matFrom bs) 9 (bytesBE 4 0)
  rw [Dev.posted_matMet, Dev.posted_silent] at posted
  exact ⟨_, ran, ⟨rfl, rfl, rfl⟩, posted, (Dev.table_mailed mailed).1.trans kept⟩

theorem exec_resyncDone_comes {s : State} (running : ready s = true) {path : Nat} {bs : List Byte} (comes : matComes s 9 path bs)
    (joining : s.dev.n Od.MAT_STATE 0 = 1) : exec (.resyncDone path bs) s = .next { s with dev := (s.dev.silent.matMet bs).later .resynced } := by
  refine (State.matRow_acts running comes (f := fun d => if d.n Od.MAT_STATE 0 = 1 then d.later .resynced else d) fun d code current => ?_).trans ?_
  · simp only [Dev.matAct, code]
    rw [← matTerm, current]
    simp only [Bool.not_false, and_true]
  · rw [if_pos ((Dev.n_matMet bs s.dev.silent (by decide)).trans joining)]

/-- UNFIT is cleared, and with it the run of mismatches. -/
def Dev.fitAgain (d : Dev) : Dev := (d.put Od.MAT_CHECK_STATE 0 0).put Rg.SIG_RUN 0 0

theorem Dev.rejoinWrite_unisolated (k : Clk) {d : Dev} (free : d.on Od.FAULT_ISOLATED 0 = false) : d.rejoinWrite k = d.fitAgain.matRoles := by
  have kept : d.fitAgain.on Od.FAULT_ISOLATED 0 = false := by
    unfold Dev.fitAgain
    rw [Dev.on_put_other _ _ _ _ _ _ _ _ (by decide), Dev.on_put_other _ _ _ _ _ _ _ _ (by decide)]
    exact free
  refine if_pos ?_
  change (!d.fitAgain.on Od.FAULT_ISOLATED 0) = true
  rw [kept]
  rfl

theorem exec_matRejoin_clears {s : State} (running : ready s = true) (boundary : s.clk.c = 0) (free : s.dev.on Od.FAULT_ISOLATED 0 = false) :
    ∃ t, exec .matRejoin s = .next t ∧ outsideKept s t ∧ bare t.dev = bare s.dev ∧ t.dev.n Od.MAT_CHECK_STATE 0 = 0 ∧ t.dev.n Rg.SIG_RUN 0 = 0 := by
  have ran : exec .matRejoin s = .next { s with dev := s.dev.silent.fitAgain.matRoles.atOpen } :=
    State.rowD_eq running boundary rfl _ (Dev.rejoinWrite_unisolated s.clk (d := s.dev.silent) free)
  have roles := s.dev.silent.fitAgain.matRoles_touched
  refine ⟨_, ran, ⟨rfl, rfl, rfl⟩, (bare_atOpen _).trans ((Dev.touched_objsOnly roles).trans rfl), ?_, ?_⟩
  · rw [Dev.n_atOpen, Dev.n_touched roles (by decide) (by decide) (by decide), Dev.fitAgain, Dev.n_put_scalar _ (by decide) (by decide) (by decide)]
    exact Dev.n_put_same _ _ _ _ _ rfl
  · rw [Dev.n_atOpen, Dev.n_touched roles (by decide) (by decide) (by decide)]
    exact Dev.n_put_wide _ rfl _ _

/-! SUPPORT. A broadcast record that changes no entry is applied (R442). -/

/-- The oldest waiting record has left its list and has taken its two learning slots. -/
def Dev.syncPaid (b : Nat) (l : List MatUpd) (d : Dev) : Dev :=
  (({ d with matApply := l } : Dev).put Rg.LEARN_SPENT b (d.n Rg.LEARN_SPENT b + 2)).put Rg.EM_SERVED b (max 1 (d.n Rg.EM_SERVED b))

/-- The record is noted as applied. -/
def Dev.syncNoted (u : MatUpd) (d : Dev) : Dev := d.put Rg.UPD_DONE u.origin (max u.num (d.n Rg.UPD_DONE u.origin))

theorem Dev.syncNext_first {k : Clk} {d : Dev} {u : MatUpd} {l : List MatUpd} (first : d.matApply = u :: l) (free : d.isolated = false)
    (slots : d.n Rg.LEARN_SPENT (d.emBase u.key / 16384) + 2 ≤ d.emGrant k 1) (unserved : d.n Rg.EM_SERVED (d.emBase u.key / 16384) < 2) :
    d.syncNext k = (d.syncPaid (d.emBase u.key / 16384) l).applySync k u := by
  unfold Dev.syncNext
  rw [first]
  dsimp only
  rw [if_neg (by simp [free]; omega)]
  rfl

theorem Dev.applySync_absent (k : Clk) {u : MatUpd} {d : Dev} (removes : u.op = 2) (absent : d.emWay u.key = none) :
    d.applySync k u = (d.syncNoted u).sendAck k := by
  unfold Dev.emWay at absent
  unfold Dev.applySync
  dsimp only
  rw [removes, absent]
  rfl

theorem Dev.applySync_static (k : Clk) {u : MatUpd} {p : Nat} {d : Dev} (sets : u.op = 1) (found : d.emWay u.key = some p)
    (fixed : bit (d.emKey p) 60 = true) : d.applySync k u = ((d.syncNoted u).bump Od.MAT_SYNC_REFUSED_STATIC 0).sendAck k := by
  have static : bit ((d.syncNoted u).emKey p) 60 = true := fixed
  unfold Dev.emWay at found
  unfold Dev.applySync
  dsimp only
  rw [sets, found]
  exact congrArg (Dev.sendAck k) (if_pos (Bool.or_eq_true_iff.mpr (.inl static)))

theorem Dev.sendAck_mailed (k : Clk) {d : Dev} (plain : plainWords d = true) : d.mailed mailObjs (d.sendAck k) :=
  Dev.mailed_ite (Dev.sendMat_mailed k plain _ _ _).1 (Dev.mailed_refl _ d)

/-- The objects that a record writes besides those of its acknowledgement. -/
def syncObjs : List Obj := [Rg.LEARN_SPENT, Rg.EM_SERVED]

theorem Dev.syncPaid_touched {b : Nat} (bank : b < 256) (l : List MatUpd) (d : Dev) : ({ d with matApply := l } : Dev).touched syncObjs (d.syncPaid b l) :=
  Dev.touched_put (Dev.touched_put (Dev.touched_refl _ _) (by simp [syncObjs]) (by omega) (by decide) _) (by simp [syncObjs]) (by omega) (by decide) _

theorem Dev.n_syncPaid_spent {b : Nat} (bank : b < 256) (l : List MatUpd) (d : Dev) :
    (d.syncPaid b l).n Rg.LEARN_SPENT b = d.n Rg.LEARN_SPENT b + 2 :=
  (Dev.n_put_other _ _ _ _ _ _ _ _ (Obj.key_ne (by decide) (by omega) (by omega) (by decide) (by decide))).trans (Dev.n_put_wide _ rfl _ _)

theorem Dev.syncNoted_touched {u : MatUpd} (origin : u.origin < 8) (d : Dev) : d.touched [Rg.UPD_DONE] (d.syncNoted u) :=
  Dev.touched_put (Dev.touched_refl _ d) (by simp) (by omega) (by decide) _

/-- What stands, after its acknowledgement, of a record that is paid for, noted and at most counted as refused. -/
theorem Dev.syncAcked (k : Clk) {d e : Dev} (plain : plainWords d = true) {u : MatUpd} {b : Nat} (bank : b < 256) (origin : u.origin < 8) (l : List MatUpd)
    (counted : ((d.syncPaid b l).syncNoted u).touched [Od.MAT_SYNC_REFUSED_STATIC] e) :
    (e.sendAck k).matApply = l ∧ (e.sendAck k).n Rg.UPD_DONE u.origin = max u.num (d.n Rg.UPD_DONE u.origin) ∧
      (e.sendAck k).n Rg.LEARN_SPENT b = d.n Rg.LEARN_SPENT b + 2 ∧ (e.sendAck k).em = d.em ∧ (e.sendAck k).emPend = d.emPend ∧
      (e.sendAck k).n Od.MAT_SYNC_REFUSED_STATIC 0 = e.n Od.MAT_SYNC_REFUSED_STATIC 0 := by
  have paid := d.syncPaid_touched bank l
  have noted := Dev.syncNoted_touched origin (d.syncPaid b l)
  have upTo := Dev.touched_trans (Dev.touched_trans paid noted) counted
  have acked := Dev.sendAck_mailed k (Dev.plainWords_touched upTo (by decide) plain)
  obtain ⟨table, changes, waiting⟩ := Dev.table_mailed acked
  have objs := Dev.touched_objsOnly upTo
  have done : (d.syncPaid b l).n Rg.UPD_DONE u.origin = d.n Rg.UPD_DONE u.origin :=
    (Dev.n_touched paid (by omega) (by decide) (by decide)).trans rfl
  refine ⟨waiting.trans (Dev.objsOnly_matApply objs), ?_, ?_, table.trans ((Dev.objsOnly_em objs).trans rfl),
    changes.trans ((Dev.objsOnly_emPend objs).trans rfl),
    Dev.n_mailed acked (by decide) (by decide) (by decide)⟩
  · rw [Dev.n_mailed acked (by omega) (by decide) (by decide), Dev.n_touched counted (by omega) (by decide) (by decide), Dev.syncNoted,
      Dev.n_put_wide _ rfl, done]
  · rw [Dev.n_mailed acked (by omega) (by decide) (by decide), Dev.n_touched (Dev.touched_trans noted counted) (by omega) (by decide) (by decide),
      Dev.n_syncPaid_spent bank]

section
variable {s : State} (running : ready s = true) (plain : plainWords s.dev = true) {u : MatUpd} {l : List MatUpd} {b : Nat}
  (first : s.dev.matApply = u :: l) (origin : u.origin < 8) (free : s.dev.isolated = false) (bank : s.dev.emBase u.key / 16384 = b)
  (slots : s.dev.n Rg.LEARN_SPENT b + 2 ≤ s.dev.emGrant s.clk 1) (unserved : s.dev.n Rg.EM_SERVED b < 2)
include running first free bank slots unserved

theorem exec_syncRecordApply_first :
    exec .syncRecordApply s = .next { s with dev := (s.dev.silent.syncPaid b l).applySync s.clk u } ∧
      (∀ key, (s.dev.silent.syncPaid b l).emWay key = s.dev.emWay key) ∧ ∀ p, (s.dev.silent.syncPaid b l).emKey p = s.dev.emKey p := by
  subst bank
  have paid := s.dev.silent.syncPaid_touched (s.dev.emBase_bank u.key) l
  have objs := Dev.touched_objsOnly paid
  have seed := Dev.n_touched paid (o := Od.EM_HASH_SEED) (i := 0) (f := 0) (by decide) (by decide) (by decide)
  exact ⟨State.run_eq running (Dev.syncNext_first (d := s.dev.silent) first free slots unserved), fun key => (Dev.emWay_kept objs seed key).trans rfl,
    fun p => (Dev.objsOnly_emKey objs p).trans rfl⟩

include plain origin

/-- A removal of a key that the table lacks changes no entry. -/
theorem exec_syncRecordApply_absent (removes : u.op = 2) (absent : s.dev.emWay u.key = none) :
    ∃ t, exec .syncRecordApply s = .next t ∧ outsideKept s t ∧ t.dev.matApply = l ∧
      t.dev.n Rg.UPD_DONE u.origin = max u.num (s.dev.n Rg.UPD_DONE u.origin) ∧ t.dev.n Rg.LEARN_SPENT b = s.dev.n Rg.LEARN_SPENT b + 2 ∧
      t.dev.em = s.dev.em ∧ t.dev.emPend = s.dev.emPend := by
  obtain ⟨ran, way, -⟩ := exec_syncRecordApply_first running first free bank slots unserved
  rw [Dev.applySync_absent s.clk removes ((way u.key).trans absent)] at ran
  obtain ⟨waiting, done, spent, table, changes, -⟩ :=
    Dev.syncAcked s.clk (d := s.dev.silent) plain (bank ▸ s.dev.emBase_bank u.key) origin l (Dev.touched_refl _ _)
  exact ⟨_, ran, ⟨rfl, rfl, rfl⟩, waiting, done, spent, table, changes⟩

/-- A record for a static entry is refused, and counted. -/
theorem exec_syncRecordApply_static {p : Nat} (sets : u.op = 1) (found : s.dev.emWay u.key = some p) (fixed : bit (s.dev.emKey p) 60 = true) :
    ∃ t, exec .syncRecordApply s = .next t ∧ outsideKept s t ∧ t.dev.matApply = l ∧
      t.dev.n Rg.UPD_DONE u.origin = max u.num (s.dev.n Rg.UPD_DONE u.origin) ∧ t.dev.n Rg.LEARN_SPENT b = s.dev.n Rg.LEARN_SPENT b + 2 ∧
      t.dev.em = s.dev.em ∧ t.dev.emPend = s.dev.emPend ∧
      t.dev.n Od.MAT_SYNC_REFUSED_STATIC 0 = satAdd Od.MAT_SYNC_REFUSED_STATIC.ty.top (s.dev.n Od.MAT_SYNC_REFUSED_STATIC 0) 1 := by
  obtain ⟨ran, way, word⟩ := exec_syncRecordApply_first running first free bank slots unserved
  have inTable : b < 256 := bank ▸ s.dev.emBase_bank u.key
  rw [Dev.applySync_static s.clk sets ((way u.key).trans found) (by rw [word]; exact fixed)] at ran
  obtain ⟨waiting, done, spent, table, changes, refused⟩ :=
    Dev.syncAcked s.clk (d := s.dev.silent) plain inTable origin l (Dev.touched_scalar (o := Od.MAT_SYNC_REFUSED_STATIC) (Dev.touched_refl _ _) (by simp) _)
  have kept := Dev.n_touched (Dev.touched_trans (s.dev.silent.syncPaid_touched inTable l) (Dev.syncNoted_touched origin _))
    (o := Od.MAT_SYNC_REFUSED_STATIC) (i := 0) (f := 0) (by decide) (by decide) (by decide)
  refine ⟨_, ran, ⟨rfl, rfl, rfl⟩, waiting, done, spent, table, changes, refused.trans ((Dev.n_bump_word _ rfl 0 1).trans ?_)⟩
  rw [kept]
  rfl

end

/-- Settles O30, message by message and record by record: the words of a message are noted (`Dev.matMet`) before it acts, and a record is paid for
(`Dev.syncPaid`) before it is applied. -/
theorem matSelfChecks : Obligations.MatSelfChecks := by
  intro s path bs running plain
  refine ⟨fun comes standby checks clear equal => exec_signature_equal running comes standby checks clear equal,
    fun comes master empty => exec_resyncRequest_empty running plain comes master empty, fun comes joining => ?_,
    fun boundary free => exec_matRejoin_clears running boundary free, fun u l b first origin free bank slots unserved => ⟨fun removes absent =>
      exec_syncRecordApply_absent running plain first origin free bank slots unserved removes absent, fun p sets found fixed => ?_⟩⟩
  · exact ⟨_, exec_resyncDone_comes running comes joining, writesAndWaits_of (Dev.wrote_trans (Dev.wrote_silent _ _) (s.dev.silent.matMet_wrote bs))⟩
  · obtain ⟨t, ran, outside, waiting, done, -, -, changes, refused⟩ :=
      exec_syncRecordApply_static running plain first origin free bank slots unserved sets found fixed
    exact ⟨t, ran, outside, waiting, done, changes, refused⟩

end Sys2Proof.Machine

namespace Sys2Proof.Machine
open Sys2Proof.Safety

/-! SUPPORT. Taking part in a mat begins (R415). -/

/-- The objects of a device that begins to take part. -/
def matOnObjs : List Obj := [Od.MAT_ENABLE, Od.MAT_STATE, Rg.MSIX_CAUSE, Rg.RESYNC, Rg.MASTER_SEEN, Rg.STANDBY_SEEN]

section
variable (k : Clk) {d : Dev}

theorem Dev.matOn_touched : d.touched matOnObjs (d.matOn k) := by
  refine Dev.touched_ite (Dev.touched_refl _ d) ?_
  iterate 3 refine Dev.touched_scalar ?_ (by simp [matOnObjs]) _
  exact Dev.touched_note (Dev.touched_scalar (Dev.touched_refl _ d) (by simp [matOnObjs]) _) (by simp [matOnObjs]) (by simp [matOnObjs]) _ _

theorem Dev.matOn_reads (off : d.on Od.MAT_ENABLE 0 = false) : (d.matOn k).n Od.MAT_ENABLE 0 = 1 ∧
    (d.matOn k).n Od.MAT_STATE 0 = (if d.on Od.FAULT_ISOLATED 0 then 5 else 1) ∧ (d.matOn k).n Rg.MASTER_SEEN 0 = k.tick + 1 := by
  have begins : d.matOn k = ((((d.put Od.MAT_ENABLE 0 1).note Od.MAT_STATE (if d.on Od.FAULT_ISOLATED 0 then 5 else 1) 38).put Rg.RESYNC 0 0).put
      Rg.MASTER_SEEN 0 (k.tick + 1)).put Rg.STANDBY_SEEN 0 (k.tick + 1) := if_neg (by rw [off]; exact Bool.false_ne_true)
  rw [begins]
  refine ⟨?_, ?_, ?_⟩
  · iterate 3 rw [Dev.n_put_scalar _ (by decide) (by decide) (by decide)]
    have kept := Dev.touched_note (Dev.touched_refl [Od.MAT_STATE, Rg.MSIX_CAUSE] (d.put Od.MAT_ENABLE 0 1)) (List.mem_cons_self) (by simp)
      (if d.on Od.FAULT_ISOLATED 0 then 5 else 1) 38
    exact (Dev.n_touched kept (by decide) (by decide) (by decide)).trans (Dev.n_put_same _ _ _ _ _ rfl)
  · iterate 3 rw [Dev.n_put_scalar _ (by decide) (by decide) (by decide)]
    exact Dev.n_note (by split <;> rfl) (by decide) _ _
  · rw [Dev.n_put_scalar _ (by decide) (by decide) (by decide)]
    exact Dev.n_put_wide _ rfl _ _

end

theorem exec_matEnable_member {s : State} (running : ready s = true) (boundary : s.clk.c = 0) (member : bit (s.dev.n Od.MAT_MEMBERS 0) s.dev.me = true)
    (off : s.dev.on Od.MAT_ENABLE 0 = false) :
    ∃ t, exec .matEnable s = .next t ∧ outsideKept s t ∧ bare t.dev = bare s.dev ∧ t.dev.n Od.MAT_ENABLE 0 = 1 ∧
      t.dev.n Od.MAT_STATE 0 = (if s.dev.on Od.FAULT_ISOLATED 0 then 5 else 1) ∧ t.dev.n Rg.MASTER_SEEN 0 = s.clk.tick + 1 :=
  have ran : exec .matEnable s = .next { s with dev := (s.dev.silent.matOn s.clk).atOpen } :=
    State.rowD_eq running boundary rfl (wr1 Od.MAT_ENABLE 0) (f := fun k d => if bit (d.n Od.MAT_MEMBERS 0) d.me then d.matOn k else d) (if_pos member)
  have objs := Dev.touched_objsOnly (Dev.touched_trans (Dev.touched_silent [] s.dev) (Dev.matOn_touched s.clk))
  ⟨_, ran, ⟨rfl, rfl, rfl⟩, (bare_atOpen _).trans objs, Dev.matOn_reads s.clk (d := s.dev.silent) off⟩

/-! SUPPORT. Heartbeats, and paths without them (R429, R430). -/

/-- One datagram leaves for each of a list. -/
theorem Dev.length_datagrams (k : Clk) (b : List Byte) (l : List Nat) (d : Dev) :
    (d.each l fun d m => d.sendDatagram k m 1 b).out.length = d.out.length + l.length := by
  induction l generalizing d with
  | nil => rfl
  | cons m l ih =>
    obtain ⟨-, -, out⟩ := Dev.sendDatagram_mailed k (d := d) m 1 b
    rw [Dev.each_cons, ih, out, List.length_cons, Nat.add_assoc, Nat.add_comm 1]

theorem Dev.others_kept {d e : Dev} (members : e.n Od.MAT_MEMBERS 0 = d.n Od.MAT_MEMBERS 0) (device : e.n Od.MAT_DEVICE 0 = d.n Od.MAT_DEVICE 0) :
    e.others = d.others := by simp only [Dev.others, Dev.me, members, device]

/-- The heartbeats by the trunks, then those by datagrams. -/
theorem Dev.sendHeartbeats_eq (k : Clk) {d : Dev} (plain : plainWords d = true) : ∃ e, d.mailed mailObjs e ∧ d.sendHeartbeats k =
    (e.each (e.others ++ [8]) fun e m => e.sendDatagram k m 1 (d.heartbeatBody k)).put Rg.HB_SENT 0 (k.tick + 1) := by
  refine ⟨_, Dev.mailed_each mailObjs_unarmed d.others (fun e m _ plain => ?_) plain, rfl⟩
  split
  case h_1 p low => exact (Dev.sendTrunk_mailed k plain (Dev.trunkLow_lt low) m 1 _).1
  case h_2 => exact Dev.mailed_refl _ e

theorem Dev.length_sendHeartbeats (k : Clk) {d : Dev} (plain : plainWords d = true) : d.others.length + 1 ≤ (d.sendHeartbeats k).out.length := by
  obtain ⟨e, beaten, sends⟩ := Dev.sendHeartbeats_eq k plain
  have members := Dev.others_kept (Dev.n_mailed beaten (by decide) (by decide) (by decide)) (Dev.n_mailed beaten (by decide) (by decide) (by decide))
  rw [sends, Dev.put_out, Dev.length_datagrams, members, List.length_append, List.length_singleton]
  exact Nat.le_add_left _ _

theorem exec_heartbeatSend_due {s : State} (running : ready s = true) (plain : plainWords s.dev = true) (takesPart : s.dev.n Od.MAT_STATE 0 ≠ 0)
    (due : s.dev.n Rg.HB_SENT 0 = 0 ∨ s.dev.n Rg.HB_SENT 0 - 1 + s.dev.n Od.MAT_HEARTBEAT_INTERVAL 0 ≤ s.clk.tick) :
    ∃ t, exec .heartbeatSend s = .next t ∧ outsideKept s t ∧ t.dev.n Rg.HB_SENT 0 = s.clk.tick + 1 ∧ s.dev.others.length + 1 ≤ t.dev.out.length :=
  ⟨_, State.run_eq running (if_pos ⟨takesPart, due⟩), ⟨rfl, rfl, rfl⟩, Dev.n_put_wide _ rfl _ _,
    Dev.length_sendHeartbeats s.clk (d := s.dev.silent) plain⟩

theorem bit_clearBit (v n : Nat) : bit (clearBit v n) n = false := by
  unfold clearBit
  split
  case isTrue set =>
    have below : 2 ^ n * 1 ≤ v := by
      rw [Nat.mul_one]
      exact Nat.ge_two_pow_of_testBit (by rw [← bit_eq_testBit]; exact set)
    have quotient := Nat.sub_mul_div_of_le v (2 ^ n) 1 below
    rw [Nat.mul_one] at quotient
    simp only [bit, beq_iff_eq] at set
    simp only [bit, quotient, beq_eq_false_iff_ne]
    omega
  case isFalse clear => exact Bool.eq_false_iff.mpr clear

/-- A path to a member is no longer alive. -/
def Dev.pathSilent (path m : Nat) (d : Dev) : Dev := d.put Od.MAT_REACH 0 (clearBit (d.n Od.MAT_REACH 0 m) path) m

/-- With the last path of the master, the master is lost. -/
def Dev.masterSilent (m : Nat) (d : Dev) : Dev := d.when (d.n Od.MAT_REACH 0 m == 0 && d.n Od.MAT_MASTER 0 == m) fun d => d.put Od.MAT_MASTER 0 0xFF

section
variable {m path : Nat} (d : Dev)

theorem Dev.pathSilent_touched (member : m < 8) : d.touched [Od.MAT_REACH] (d.pathSilent path m) :=
  Dev.touched_put (Dev.touched_refl _ d) (by simp) (by decide) (by omega) _

theorem Dev.bit_pathSilent : bit ((d.pathSilent path m).n Od.MAT_REACH 0 m) path = false := by
  have byte (v : Nat) : (Od.MAT_REACH.ty.norm (v : Nat)).toNat = v % 2 ^ 8 := by
    simp only [ObjTy.norm, Od.MAT_REACH]
    omega
  rw [Dev.pathSilent, Dev.n, Dev.get_put_same, byte, bit_eq_testBit, Nat.testBit_mod_two_pow, ← bit_eq_testBit, bit_clearBit, Bool.and_false]

end

theorem Dev.masterSilent_touched (m : Nat) (d : Dev) : d.touched [Od.MAT_MASTER] (d.masterSilent m) :=
  Dev.touched_whenPut (Dev.touched_refl _ d) _ (by simp) _

theorem Dev.n_masterSilent {m : Nat} {d : Dev} (unreached : d.n Od.MAT_REACH 0 m = 0) (master : d.n Od.MAT_MASTER 0 = m) :
    (d.masterSilent m).n Od.MAT_MASTER 0 = 0xFF := by
  rw [Dev.masterSilent, unreached, master, BEq.rfl, BEq.rfl]
  exact Dev.n_put_same _ _ _ _ _ rfl

/-- A path that is lost, of a member without a lease. -/
theorem Dev.heartbeatLost_unleased (k : Clk) {m : Nat} (member : m < 8) (path : Nat) {d : Dev} (unleased : d.n Rg.V_GRANTEE 0 ≠ m + 1) :
    d.heartbeatLost k m path = ((d.pathSilent path m).masterSilent m).matRoles := by
  have lost := Dev.touched_trans (Dev.touched_trans (d.pathSilent_touched (path := path) member) (Dev.masterSilent_touched m _)) (Dev.matRoles_touched _)
  refine if_neg fun isolates => unleased ?_
  obtain ⟨-, leased, -⟩ := isolates
  exact (Dev.n_touched lost (by decide) (by decide) (by decide)).symm.trans leased

theorem exec_heartbeatTimeout_lost {s : State} (running : ready s = true) {m path : Nat} (member : m < 8) (way : path < 3)
    (alive : bit (s.dev.n Od.MAT_REACH 0 m) path = true) (late : s.dev.n Rg.MAT_HEARD m path - 1 + s.dev.n Od.MAT_HEARTBEAT_TIMEOUT 0 ≤ s.clk.tick)
    (unleased : s.dev.n Rg.V_GRANTEE 0 ≠ m + 1) :
    ∃ t, exec (.heartbeatTimeout m path) s = .next t ∧ outsideKept s t ∧ bare t.dev = bare s.dev ∧ bit (t.dev.n Od.MAT_REACH 0 m) path = false ∧
      (t.dev.n Od.MAT_REACH 0 m = 0 → s.dev.n Od.MAT_MASTER 0 = m → t.dev.n Od.MAT_MASTER 0 = 0xFF) := by
  have ran : exec (.heartbeatTimeout m path) s = .next { s with dev := s.dev.silent.heartbeatLost s.clk m path } :=
    State.runIf_eq running (decide_eq_true ⟨member, way⟩) (if_pos ⟨alive, late⟩)
  rw [Dev.heartbeatLost_unleased s.clk member path (d := s.dev.silent) unleased] at ran
  have silent := s.dev.silent.pathSilent_touched (path := path) member
  have dead := s.dev.silent.bit_pathSilent (path := path) (m := m)
  generalize s.dev.silent.pathSilent path m = e at ran silent dead
  have lost := e.masterSilent_touched m
  have roles := (e.masterSilent m).matRoles_touched
  have reach : (e.masterSilent m).matRoles.n Od.MAT_REACH 0 m = e.n Od.MAT_REACH 0 m :=
    Dev.n_touched (Dev.touched_trans lost roles) (by decide) (by omega) (by decide)
  refine ⟨_, ran, ⟨rfl, rfl, rfl⟩, Dev.touched_objsOnly (Dev.touched_trans (Dev.touched_trans silent lost) roles), by rw [reach]; exact dead,
    fun unreached master => ?_⟩
  rw [Dev.n_touched roles (by decide) (by decide) (by decide)]
  exact Dev.n_masterSilent (reach.symm.trans unreached) ((Dev.n_touched silent (by decide) (by decide) (by decide)).trans master)

/-! SUPPORT. The end of a collection of requests (R433). -/

/-- The requests collected are taken, and the collection is over. -/
def Dev.collectClosed (d : Dev) : Dev := { d with matReqs := [] }.put Rg.V_COLLECT 0 0

/-- The objects of a grant. -/
def grantObjs : List Obj := [Rg.V_TERM, Rg.V_GRANTEE, Rg.V_END, Rg.V_MASTER, Od.MAT_LAST_HOLDER, Rg.H_LAST, Od.MAT_LEASE_END_TICK]

theorem Dev.recordGrant_touched (k : Clk) (x t : Nat) (d : Dev) : d.touched grantObjs (d.recordGrant k x t) := by
  unfold Dev.recordGrant
  dsimp only
  iterate 7 refine Dev.touched_scalar ?_ (by simp [grantObjs]) _
  exact Dev.touched_refl _ d

theorem Dev.recordGrant_reads (k : Clk) {x : Nat} (member : x < 8) (t : Nat) (d : Dev) : (d.recordGrant k x t).n Rg.V_TERM 0 = t ∧
    (d.recordGrant k x t).n Rg.V_GRANTEE 0 = x + 1 ∧ (d.recordGrant k x t).n Rg.V_END 0 = k.tick + d.n Od.MAT_LEASE_DURATION 0 ∧
    (d.recordGrant k x t).n Od.MAT_LAST_HOLDER 0 = x := by
  unfold Dev.recordGrant
  dsimp only
  refine ⟨?_, ?_, ?_, ?_⟩
  · iterate 6 rw [Dev.n_put_scalar _ (by decide) (by decide) (by decide)]
    exact Dev.n_put_wide _ rfl _ _
  · iterate 5 rw [Dev.n_put_scalar _ (by decide) (by decide) (by decide)]
    exact Dev.n_put_wide _ rfl _ _
  · iterate 4 rw [Dev.n_put_scalar _ (by decide) (by decide) (by decide)]
    exact Dev.n_put_wide _ rfl _ _
  · iterate 2 rw [Dev.n_put_scalar _ (by decide) (by decide) (by decide)]
    exact Dev.n_put_same _ _ _ _ _ (by simp only [ObjTy.norm, Od.MAT_LAST_HOLDER]; omega)

/-- The one request collected is granted, whoever held the lease last. -/
theorem Dev.collectEnd_one (k : Clk) {x t : Nat} (member : x < 8) {d : Dev} (one : d.matReqs = [{ dev := x, term := t }]) :
    d.collectEnd k = d.collectClosed.grantLease k x t := by
  have lowest : min 0xFF x = x := by omega
  unfold Dev.collectEnd
  rw [one]
  cases last : x == d.collectClosed.n Od.MAT_LAST_HOLDER 0 with
  | true => simp_all [Dev.collectClosed]
  | false => simp_all [Dev.collectClosed]

theorem exec_leaseCollectEnd_one {s : State} (running : ready s = true) (plain : plainWords s.dev = true) {x term : Nat}
    (collects : s.dev.n Rg.V_COLLECT 0 ≠ 0) (due : s.dev.n Rg.V_COLLECT 0 - 1 + s.dev.n Od.MAT_LEASE_COLLECT 0 ≤ s.clk.tick) (member : x < 8)
    (one : s.dev.matReqs = [{ dev := x, term := term }]) :
    ∃ t, exec .leaseCollectEnd s = .next t ∧ outsideKept s t ∧ bare t.dev = bare { s.dev with matReqs := [], ctl := t.dev.ctl } ∧
      t.dev.n Rg.V_COLLECT 0 = 0 ∧ t.dev.n Rg.V_TERM 0 = term ∧ t.dev.n Rg.V_GRANTEE 0 = x + 1 ∧
      t.dev.n Rg.V_END 0 = s.clk.tick + s.dev.n Od.MAT_LEASE_DURATION 0 ∧ t.dev.n Od.MAT_LAST_HOLDER 0 = x ∧
      t.dev.out.length + t.dev.ctl.length = s.dev.ctl.length + 1 := by
  have ran : exec .leaseCollectEnd s = .next { s with dev := s.dev.silent.collectEnd s.clk } := State.run_eq running (if_pos ⟨collects, due⟩)
  rw [Dev.collectEnd_one s.clk member (d := s.dev.silent) one] at ran
  have closed : ({ s.dev.silent with matReqs := [] } : Dev).touched [Rg.V_COLLECT] s.dev.silent.collectClosed :=
    Dev.touched_scalar (Dev.touched_refl _ _) (by simp) _
  have granted := s.dev.silent.collectClosed.recordGrant_touched s.clk x term
  obtain ⟨ofTerm, grantee, ends, holder⟩ := s.dev.silent.collectClosed.recordGrant_reads s.clk member term
  have upTo := Dev.touched_trans closed granted
  obtain ⟨mailed, posted⟩ := Dev.sendMat_mailed s.clk (Dev.plainWords_touched upTo (by decide) plain) x 3 (bytesBE 8 term ++ [BitVec.ofNat 8 x])
  have lease : s.dev.silent.collectClosed.n Od.MAT_LEASE_DURATION 0 = s.dev.n Od.MAT_LEASE_DURATION 0 :=
    (Dev.n_touched closed (by decide) (by decide) (by decide)).trans rfl
  refine ⟨_, ran, ⟨rfl, rfl, rfl⟩, ?_, ?_, ?_, ?_, ?_, ?_, ?_⟩
  · exact (Dev.mailed_bare (Dev.mailed_trans (Dev.mailed_mono (Dev.mailed_of_touched upTo) (List.subset_append_left _ mailObjs))
      (Dev.mailed_mono mailed (List.subset_append_right _ _)))).trans rfl
  · rw [Dev.grantLease, Dev.n_mailed mailed (by decide) (by decide) (by decide), Dev.n_touched granted (by decide) (by decide) (by decide)]
    exact Dev.n_put_wide _ rfl _ _
  · exact (Dev.n_mailed mailed (by decide) (by decide) (by decide)).trans ofTerm
  · exact (Dev.n_mailed mailed (by decide) (by decide) (by decide)).trans grantee
  · exact ((Dev.n_mailed mailed (by decide) (by decide) (by decide)).trans ends).trans (by rw [lease])
  · exact (Dev.n_mailed mailed (by decide) (by decide) (by decide)).trans holder
  · exact posted.trans (by simp [Dev.posted, Dev.recordGrant, Dev.collectClosed, Dev.put])

/-! SUPPORT. A signature that is due (R444). -/

/-- The signature of the period goes to the standby, where there is one. -/
def Dev.signatureSent (k : Clk) (d : Dev) : Dev :=
  if d.n Od.MAT_STANDBY 0 < 8 ∧ d.n Od.MAT_STANDBY 0 ≠ d.me then
    d.sendMat k (d.n Od.MAT_STANDBY 0) 7
      (bytesBE 8 (d.n Rg.SIG_FIRST 0) ++ bytesBE 4 (d.n Rg.SIG_COUNT 0) ++ bytesBE 4 (d.n Rg.SIG_CRC 0 ^^^ 0xFFFFFFFF))
  else d

theorem Dev.signatureSent_mailed (k : Clk) {d : Dev} (plain : plainWords d = true) : d.mailed mailObjs (d.signatureSent k) :=
  Dev.mailed_ite (Dev.sendMat_mailed k plain _ _ _).1 (Dev.mailed_refl _ d)

theorem exec_signatureSend_due {s : State} (running : ready s = true) (plain : plainWords s.dev = true) (master : s.dev.n Od.MAT_STATE 0 = 4)
    (checks : s.dev.n Od.MAT_CHECK_SAMPLE 0 ≠ 0) (due : s.dev.n Rg.SIG_FIRST 0 + 2000000 ≤ s.clk.tick) :
    ∃ t, exec .signatureSend s = .next t ∧ outsideKept s t ∧ bare t.dev = bare { s.dev with ctl := t.dev.ctl } ∧
      t.dev.n Rg.SIG_FIRST 0 = s.clk.tick ∧ t.dev.n Rg.SIG_COUNT 0 = 0 ∧ t.dev.n Rg.SIG_CRC 0 = 0xFFFFFFFF := by
  have ran : exec .signatureSend s = .next { s with
      dev := (((s.dev.silent.signatureSent s.clk).put Rg.SIG_FIRST 0 s.clk.tick).put Rg.SIG_COUNT 0 0).put Rg.SIG_CRC 0 0xFFFFFFFF } :=
    State.run_eq running (if_pos ⟨master, checks, due⟩)
  have sent := Dev.signatureSent_mailed s.clk (d := s.dev.silent) plain
  refine ⟨_, ran, ⟨rfl, rfl, rfl⟩, (Dev.mailed_bare sent).trans rfl, ?_, ?_, Dev.n_put_wide _ rfl _ _⟩
  · iterate 2 rw [Dev.n_put_scalar _ (by decide) (by decide) (by decide)]
    exact Dev.n_put_wide _ rfl _ _
  · rw [Dev.n_put_scalar _ (by decide) (by decide) (by decide)]
    exact Dev.n_put_wide _ rfl _ _

theorem exec_timeRespTimeout_lost {s : State} (running : ready s = true) (asked : s.dev.on Rg.TQ_SEQ 0 = true)
    (late : s.dev.n Rg.TIME_SENT 0 - 1 + s.dev.n Od.MAT_TIME_INTERVAL 0 ≤ s.clk.tick) :
    ∃ t, exec .timeRespTimeout s = .next t ∧ onlyWrites [Rg.TQ_SEQ.key 0 0, Od.MAT_TIME_LOST.key 0 0] s t ∧ t.dev.n Rg.TQ_SEQ 0 = 0 ∧
      t.dev.n Od.MAT_TIME_LOST 0 = satAdd Od.MAT_TIME_LOST.ty.top (s.dev.n Od.MAT_TIME_LOST 0) 1 := by
  have ran : exec .timeRespTimeout s = .next { s with dev := (s.dev.silent.put Rg.TQ_SEQ 0 0).bump Od.MAT_TIME_LOST 0 } :=
    State.run_eq running (if_pos ⟨asked, late⟩)
  refine ⟨_, ran, onlyWrites_of (Dev.wrote_bump (Dev.wrote_put (Dev.wrote_silent _ _) _ _ _ _ (by simp)) _ _ _ _ (by simp)), ?_, ?_⟩
  · exact (Dev.n_put_scalar _ (by decide) (by decide) (by decide) _).trans (Dev.n_put_wide _ rfl _ _)
  · rw [Dev.n_bump_word _ rfl, Dev.n_put_scalar _ (by decide) (by decide) (by decide)]
    rfl

/-- Settles O31, timer by timer. -/
theorem matTimers : Obligations.MatTimers := fun _ running plain =>
  ⟨fun boundary member off => exec_matEnable_member running boundary member off,
    fun takesPart due => exec_heartbeatSend_due running plain takesPart due,
    fun _ _ member way alive late unleased => exec_heartbeatTimeout_lost running member way alive late unleased,
    fun _ _ collects due member one => exec_leaseCollectEnd_one running plain collects due member one,
    fun master checks due => exec_signatureSend_due running plain master checks due,
    fun asked late => exec_timeRespTimeout_lost running asked late⟩

end Sys2Proof.Machine

namespace Sys2Proof.Machine
open Sys2Proof.Safety

/-! SUPPORT. A lease is asked for (R431, R434). -/

/-- The device's own request: its term, its tick, whether it claims, and the device's own grant where it votes. -/
def Dev.requestNoted (k : Clk) (t claim : Nat) (d : Dev) : Dev :=
  let d := ((d.put Rg.O_TERM 0 t).put Rg.O_TICK 0 k.tick).put Rg.O_REFUSED 0 0
  (d.put Rg.O_CLAIM 0 claim).put Rg.O_GRANTS 0 (if d.votes then 2 ^ d.me else 0)

/-- The objects of the request. -/
def requestObjs : List Obj := [Rg.O_TERM, Rg.O_TICK, Rg.O_REFUSED, Rg.O_CLAIM, Rg.O_GRANTS]

section
variable (k : Clk) (t claim : Nat) (d : Dev)

theorem Dev.requestNoted_touched : d.touched requestObjs (d.requestNoted k t claim) := by
  unfold Dev.requestNoted
  dsimp only
  iterate 5 refine Dev.touched_scalar ?_ (by simp [requestObjs]) _
  exact Dev.touched_refl _ d

theorem Dev.requestNoted_reads : (d.requestNoted k t claim).n Rg.O_TERM 0 = t ∧ (d.requestNoted k t claim).n Rg.O_TICK 0 = k.tick ∧
    (d.requestNoted k t claim).n Rg.O_CLAIM 0 = claim := by
  unfold Dev.requestNoted
  dsimp only
  refine ⟨?_, ?_, ?_⟩
  · iterate 4 rw [Dev.n_put_scalar _ (by decide) (by decide) (by decide)]
    exact Dev.n_put_wide _ rfl _ _
  · iterate 3 rw [Dev.n_put_scalar _ (by decide) (by decide) (by decide)]
    exact Dev.n_put_wide _ rfl _ _
  · rw [Dev.n_put_scalar _ (by decide) (by decide) (by decide)]
    exact Dev.n_put_wide _ rfl _ _

end

/-- The objects that asking writes besides those of the request. -/
def askObjs : List Obj := grantObjs ++ mailObjs

/-- The device's own grant is recorded where it votes. -/
def Dev.ownGranted (k : Clk) (t : Nat) (d : Dev) : Dev := d.when d.votes (Dev.recordGrant k d.me t)

theorem Dev.ownGranted_touched (k : Clk) (t : Nat) (d : Dev) : d.touched grantObjs (d.ownGranted k t) :=
  Dev.touched_when (Dev.touched_refl _ d) _ (Dev.recordGrant_touched k _ t d)

/-- The request is noted and sent; the own grant may have won it. -/
theorem Dev.askLease_eq (k : Clk) (t : Nat) (claim : Bool) {d : Dev} (plain : plainWords d = true) :
    ∃ e, (d.requestNoted k t (if claim then 1 else 0)).mailed askObjs e ∧ d.askLease k t claim = e.when e.leaseWon fun e => e.later .leaseHeld := by
  have granted := (d.requestNoted k t (if claim then 1 else 0)).ownGranted_touched k t
  have ready := Dev.plainWords_touched (Dev.touched_trans (d.requestNoted_touched k t _) granted) (by decide) plain
  exact ⟨_, Dev.mailed_trans (Dev.mailed_mono (Dev.mailed_of_touched granted) (List.subset_append_left _ _))
    (Dev.mailed_mono (Dev.mailed_each mailObjs_unarmed _ (fun e v _ plain => (Dev.sendMat_mailed k plain v 2 _).1) ready)
      (List.subset_append_right _ _)), rfl⟩

theorem Dev.askLease_reads (k : Clk) (t : Nat) (claim : Bool) {d : Dev} (plain : plainWords d = true) : (d.askLease k t claim).n Rg.O_TERM 0 = t ∧
    (d.askLease k t claim).n Rg.O_TICK 0 = k.tick ∧ (d.askLease k t claim).n Rg.O_CLAIM 0 = if claim then 1 else 0 := by
  obtain ⟨e, mailed, asks⟩ := Dev.askLease_eq k t claim plain
  obtain ⟨reads, -⟩ := Dev.when_leaseWon e
  obtain ⟨ofTerm, tick, kind⟩ := d.requestNoted_reads k t (if claim then 1 else 0)
  have kept {o : Obj} (apart : ∀ q ∈ askObjs, o.idx * 256 + o.sub ≠ q.idx * 256 + q.sub) :
      (d.askLease k t claim).n o 0 = (d.requestNoted k t (if claim then 1 else 0)).n o 0 :=
    (congrArg Int.toNat (by rw [asks]; exact reads o 0 0)).trans (Dev.n_mailed mailed (by decide) (by decide) apart)
  exact ⟨(kept (by decide)).trans ofTerm, (kept (by decide)).trans tick, (kept (by decide)).trans kind⟩

section
variable {s : State} (running : ready s = true) (plain : plainWords s.dev = true)
include running plain

/-- A row that asks for a lease. -/
theorem State.run_asks {f : Clk → Dev → Dev} {t : Nat} {claim : Bool} (asks : f s.clk s.dev.silent = s.dev.silent.askLease s.clk t claim) :
    ∃ u, s.run f = .next u ∧ outsideKept s u ∧ asksLease u t s.clk.tick (if claim then 1 else 0) :=
  ⟨_, State.run_eq running asks, ⟨rfl, rfl, rfl⟩, Dev.askLease_reads s.clk t claim (d := s.dev.silent) plain⟩

theorem exec_leaseRenewalSend_due (master : s.dev.n Od.MAT_STATE 0 = 4) (due : s.dev.n Rg.RENEW_SENT 0 - 1 + s.dev.n Od.MAT_LEASE_RENEW 0 ≤ s.clk.tick) :
    ∃ t, exec .leaseRenewalSend s = .next t ∧ outsideKept s t ∧ asksLease t (s.dev.n Rg.H_TERM 0) s.clk.tick 0 ∧
      t.dev.n Rg.RENEW_SENT 0 = s.clk.tick + 1 := by
  have ran : exec .leaseRenewalSend s = .next { s with
      dev := (s.dev.silent.askLease s.clk (s.dev.n Rg.H_TERM 0) false).put Rg.RENEW_SENT 0 (s.clk.tick + 1) } :=
    State.run_eq running (if_pos ⟨master, due⟩)
  obtain ⟨ofTerm, tick, kind⟩ := Dev.askLease_reads s.clk (s.dev.n Rg.H_TERM 0) false (d := s.dev.silent) plain
  refine ⟨_, ran, ⟨rfl, rfl, rfl⟩, ⟨?_, ?_, ?_⟩, Dev.n_put_wide _ rfl _ _⟩
  · exact (Dev.n_put_scalar _ (by decide) (by decide) (by decide) _).trans ofTerm
  · exact (Dev.n_put_scalar _ (by decide) (by decide) (by decide) _).trans tick
  · exact (Dev.n_put_scalar _ (by decide) (by decide) (by decide) _).trans kind

end

/-! SUPPORT. Isolation at once (R437, R632), with the holdover of the views that follow (R369). -/

/-- From d to e the faults of the clock stay, and the scalars but for those of these objects. -/
def Dev.faultsKept (objs : List Obj) (d e : Dev) : Prop :=
  e.now.faults = d.now.faults ∧ ∀ o : Obj, (∀ q ∈ objs, o.idx * 256 + o.sub ≠ q.idx * 256 + q.sub) → e.n o 0 = d.n o 0

section
variable {objs : List Obj} {d e : Dev}

theorem Dev.faultsKept_refl (objs : List Obj) (d : Dev) : d.faultsKept objs d := ⟨rfl, fun _ _ => rfl⟩

theorem Dev.faultsKept_touched (h : d.touched objs e) : d.faultsKept objs e :=
  have same := congrArg (fun b : Dev => b.now.faults) (show bare e = bare d from Dev.touched_objsOnly h)
  ⟨same, fun _ apart => Dev.n_touched h (by decide) (by decide) apart⟩

theorem Dev.faultsKept_recorded (h : d.recorded e) : d.faultsKept recorderObjs e :=
  Dev.faultsKept_touched (d := { d with accs := e.accs, recQ := e.recQ }) h

theorem Dev.faultsKept_setView (h : d.faultsKept objs e) (p : ViewSet) : d.faultsKept objs (e.setView p) := h

theorem Dev.faultsKept_mono {more : List Obj} (sub : objs ⊆ more) (h : d.faultsKept objs e) : d.faultsKept more e := by
  obtain ⟨faults, reads⟩ := h
  exact ⟨faults, fun o apart => reads o fun q known => apart q (sub known)⟩

theorem Dev.faultsKept_trans {g : Dev} {more : List Obj} (first : d.faultsKept objs e) (next : e.faultsKept more g) : d.faultsKept (objs ++ more) g := by
  obtain ⟨faults, reads⟩ := Dev.faultsKept_mono (List.subset_append_left objs more) first
  obtain ⟨lastFaults, lastReads⟩ := Dev.faultsKept_mono (List.subset_append_right objs more) next
  exact ⟨lastFaults.trans faults, fun o apart => (lastReads o apart).trans (reads o apart)⟩

end

/-- The objects of a view's holdover. -/
def holdoverObjs : List Obj := [Od.TIME_VIEW_STATE, Od.TIME_VIEW_INCREMENT] ++ recorderObjs

section
variable (k : Clk) {v : Nat} (view : v < 4) (d : Dev)
include view

theorem Dev.heldOver_faultsKept : d.faultsKept [Od.TIME_VIEW_STATE, Od.TIME_VIEW_INCREMENT] (d.heldOver k v) := by
  have state : d.touched [Od.TIME_VIEW_STATE, Od.TIME_VIEW_INCREMENT] (d.put Od.TIME_VIEW_STATE v 2) :=
    Dev.touched_put (Dev.touched_refl _ d) (by simp) (by omega) (by decide) _
  unfold Dev.heldOver
  dsimp only
  split
  · exact Dev.faultsKept_touched state
  · exact Dev.faultsKept_mono (by simp) (Dev.faultsKept_trans (Dev.faultsKept_setView (Dev.faultsKept_touched state) _)
      (Dev.faultsKept_touched (Dev.touched_put (Dev.touched_refl [Od.TIME_VIEW_INCREMENT] _) (by simp) (by omega) (by decide) _)))

theorem Dev.holdover_faultsKept : d.faultsKept holdoverObjs (d.holdover k v) := by
  rw [Dev.holdover_eq view]
  exact Dev.faultsKept_trans (Dev.heldOver_faultsKept k view d) (Dev.faultsKept_recorded (Dev.event_recorded (by decide) k v 0 [] _))

end

/-- A count of a scalar leaves the other scalars alone. -/
theorem Dev.n_bump_scalar (d : Dev) {o q : Obj} (other : o.idx * 256 + o.sub ≠ q.idx * 256 + q.sub) : (d.bump o 0).n q 0 = d.n q 0 :=
  Dev.n_put_scalar d other (by decide) (by decide) _

/-- The device is isolated, with a cause, and counts it. -/
def Dev.isolationNoted (cause : Nat) (d : Dev) : Dev :=
  (({ d with isoDue := none }.put Od.FAULT_ISOLATED 0 1).put Od.FAULT_CAUSE 0 cause).bump Od.FAULT_ISOLATIONS 0

/-- The objects of what follows: the part in a mat ends, views that track go to holdover. -/
def afterIsolationObjs : List Obj := [Od.MAT_STATE, Rg.MSIX_CAUSE, Rg.H_TERM, Rg.O_TERM] ++ holdoverObjs

/-- What follows an isolation touches neither its words nor the faults of the clock. -/
theorem Dev.isolateNow_after (k : Clk) (cause : Nat) {d : Dev} (free : d.on Od.FAULT_ISOLATED 0 = false) :
    (d.isolationNoted cause).faultsKept afterIsolationObjs (d.isolateNow k cause) := by
  have isolates : d.isolateNow k cause = ((d.isolationNoted cause).when ((d.isolationNoted cause).on Od.MAT_ENABLE 0) fun d =>
      ((d.note Od.MAT_STATE 5 38).put Rg.H_TERM 0 0).put Rg.O_TERM 0 0).each (List.range 4) fun d v =>
        d.when (d.n Od.TIME_VIEW_STATE v == 1) (Dev.holdover k v) :=
    if_neg (show ¬ d.on Od.FAULT_ISOLATED 0 = true by rw [free]; exact Bool.false_ne_true)
  rw [isolates]
  refine Dev.each_keeps (P := (d.isolationNoted cause).faultsKept afterIsolationObjs) _ (fun e v listed so => ?_) ?_
  · refine Dev.faultsKept_mono (List.append_subset.mpr ⟨List.Subset.refl _, List.subset_append_right _ _⟩)
      (Dev.faultsKept_trans so (more := holdoverObjs) ?_)
    unfold Dev.when
    split
    · exact Dev.holdover_faultsKept k (List.mem_range.mp listed) e
    · exact Dev.faultsKept_refl _ e
  · refine Dev.faultsKept_touched (Dev.touched_when (Dev.touched_refl _ _) _ ?_)
    iterate 2 refine Dev.touched_scalar ?_ (by simp [afterIsolationObjs]) _
    exact Dev.touched_note (Dev.touched_refl _ _) (by simp [afterIsolationObjs]) (by simp [afterIsolationObjs]) _ _

theorem Dev.isolateNow_does (k : Clk) {cause : Nat} (named : cause < 256) {d : Dev} (free : d.on Od.FAULT_ISOLATED 0 = false) :
    (d.isolateNow k cause).n Od.FAULT_ISOLATED 0 = 1 ∧ (d.isolateNow k cause).n Od.FAULT_CAUSE 0 = cause ∧
      (d.isolateNow k cause).n Od.MAT_LEASE_LOST 0 = d.n Od.MAT_LEASE_LOST 0 ∧ (d.isolateNow k cause).now.faults = d.now.faults := by
  obtain ⟨faults, reads⟩ := Dev.isolateNow_after k cause free
  refine ⟨(reads _ (by decide)).trans ?_, (reads _ (by decide)).trans ?_, (reads _ (by decide)).trans ?_, faults.trans rfl⟩
  · rw [Dev.isolationNoted, Dev.n_bump_scalar _ (by decide), Dev.n_put_scalar _ (by decide) (by decide) (by decide)]
    exact Dev.n_put_same _ _ _ _ _ rfl
  · rw [Dev.isolationNoted, Dev.n_bump_scalar _ (by decide)]
    exact Dev.n_put_same _ _ _ _ _ (by simp only [ObjTy.norm, Od.FAULT_CAUSE]; omega)
  · rw [Dev.isolationNoted, Dev.n_bump_scalar _ (by decide), Dev.n_put_scalar _ (by decide) (by decide) (by decide),
      Dev.n_put_scalar _ (by decide) (by decide) (by decide)]
    rfl

/-- A masterless device that is no candidate isolates (R435). -/
theorem exec_masterlessTimeout_isolates {s : State} (running : ready s = true) (state : s.dev.n Od.MAT_STATE 0 = 1 ∨ s.dev.n Od.MAT_STATE 0 = 2)
    (unclaimed : s.dev.claiming = false)
    (masterless : s.dev.n Rg.MASTER_SEEN 0 - 1 + (s.dev.n Od.MAT_LEASE_DURATION 0 + s.dev.n Od.MAT_LEASE_GUARD 0) ≤ s.clk.tick)
    (barred : bit (s.dev.n Od.MAT_CANDIDATES 0) s.dev.me = false) (free : s.dev.on Od.FAULT_ISOLATED 0 = false) :
    ∃ t, exec .masterlessTimeout s = .next t ∧ outsideKept s t ∧ t.dev.n Od.FAULT_ISOLATED 0 = 1 ∧ t.dev.n Od.FAULT_CAUSE 0 = 6 := by
  have claims : s.dev.silent.claiming = false := unclaimed
  have mayNot : bit (s.dev.silent.n Od.MAT_CANDIDATES 0) s.dev.silent.me = false := barred
  have ran : exec .masterlessTimeout s = .next { s with dev := s.dev.silent.isolateNow s.clk 6 } :=
    State.run_eq running ((if_pos ⟨state, masterless⟩).trans ((if_neg (by rw [mayNot]; exact Bool.false_ne_true)).trans
      (if_neg (by rw [claims]; exact fun both => Bool.false_ne_true both.1))))
  obtain ⟨isolated, cause, -, -⟩ := Dev.isolateNow_does s.clk (cause := 6) (by decide) (d := s.dev.silent) free
  exact ⟨_, ran, ⟨rfl, rfl, rfl⟩, isolated, cause⟩

/-- A master whose lease has run out isolates, a fault of its mat (R437, R632). -/
theorem exec_leaseEnd_isolates {s : State} (running : ready s = true) (master : s.dev.n Od.MAT_STATE 0 = 4) (ended : s.dev.n Rg.H_END 0 ≤ s.clk.tick)
    (free : s.dev.on Od.FAULT_ISOLATED 0 = false) :
    ∃ t, exec .leaseEnd s = .next t ∧ outsideKept s t ∧ t.dev.n Od.FAULT_ISOLATED 0 = 1 ∧
      t.dev.n Od.MAT_LEASE_LOST 0 = satAdd Od.MAT_LEASE_LOST.ty.top (s.dev.n Od.MAT_LEASE_LOST 0) 1 ∧
      t.dev.now.faults = s.dev.now.faults ++ [(13, 8, 0)] := by
  have ran : exec .leaseEnd s = .next { s with dev := ((s.dev.silent.bump Od.MAT_LEASE_LOST 0).fault 13 8 0).isolateNow s.clk 1 } :=
    State.run_eq running (if_pos ⟨master, ended⟩)
  have unisolated : ((s.dev.silent.bump Od.MAT_LEASE_LOST 0).fault 13 8 0).on Od.FAULT_ISOLATED 0 = false :=
    (congrArg (· != 0) (Dev.n_bump_scalar s.dev.silent (o := Od.MAT_LEASE_LOST) (by decide))).trans free
  obtain ⟨isolated, -, lost, faults⟩ := Dev.isolateNow_does s.clk (cause := 1) (by decide) unisolated
  exact ⟨_, ran, ⟨rfl, rfl, rfl⟩, isolated, lost.trans (Dev.n_bump_word s.dev.silent (o := Od.MAT_LEASE_LOST) rfl 0 1), faults⟩

/-- Settles O32: each of the rows asks (`State.run_asks`) or isolates (`Dev.isolateNow_does`). -/
theorem leaseAsked : Obligations.LeaseAsked := by
  intro s running plain
  refine ⟨fun master due => exec_leaseRenewalSend_due running plain master due, fun standby unclaimed unrenewed ended => ?_,
    fun state unclaimed masterless => ⟨fun candidate alone => ?_,
      fun barred free => exec_masterlessTimeout_isolates running state unclaimed masterless barred free⟩,
    fun claims unwon free unrenewed late => ?_, fun master ended free => exec_leaseEnd_isolates running master ended free⟩
  · refine State.run_asks running plain (claim := true) (if_pos ⟨standby, ?_, ?_, ended⟩)
    · exact (Bool.not_eq_true' _).mpr unclaimed
    · exact (Bool.not_eq_true' _).mpr unrenewed
  · refine State.run_asks running plain (claim := true) ((if_pos ⟨state, masterless⟩).trans (if_pos ?_))
    exact Bool.and_eq_true_iff.mpr ⟨Bool.and_eq_true_iff.mpr ⟨candidate, decide_eq_true alone⟩, (Bool.not_eq_true' _).mpr unclaimed⟩
  · refine State.run_asks running plain (claim := true) (if_pos ?_)
    simp only [Bool.and_eq_true, Bool.not_eq_true', decide_eq_true_eq]
    exact ⟨⟨⟨⟨claims, unwon⟩, free⟩, unrenewed⟩, late⟩

end Sys2Proof.Machine

namespace Sys2Proof.Machine
open Sys2Proof.Safety

/-! SUPPORT. The correction log (R461, R462): what an entry in it leaves alone. -/

/-- The objects that a corrected finding changes besides its memory's count: the correction log, and those of the recorder. -/
def correctionObjs : List Obj := [Od.INTEG_LOG, Rg.LOG_FRESH, Od.INTEG_LOG_OVERFLOW] ++ recorderObjs

/-- The device e differs from d in the correction log and in what the recorder keeps alone. -/
def Dev.logged (d e : Dev) : Prop := ({ d with accs := e.accs, recQ := e.recQ } : Dev).touched correctionObjs e

theorem Dev.objsOnly_wb {d e : Dev} (objs : d.objsOnly e) : e.wb = d.wb := by
  have same := congrArg Dev.wb (show bare e = bare d from objs)
  exact same

theorem Dev.logged_of_touched {d e : Dev} (h : d.touched correctionObjs e) : d.logged e := by
  have accs := congrArg Dev.accs (show bare e = bare d from Dev.touched_objsOnly h)
  have recQ := congrArg Dev.recQ (show bare e = bare d from Dev.touched_objsOnly h)
  have accs : e.accs = d.accs := accs
  have recQ : e.recQ = d.recQ := recQ
  rw [Dev.logged, accs, recQ]
  exact h

theorem Dev.logged_recorded {d e g : Dev} (first : d.touched correctionObjs e) (next : e.recorded g) : d.logged g :=
  Dev.touched_mono (Dev.touched_trans (Dev.touched_recorder first g.accs g.recQ) next)
    (List.append_subset.mpr ⟨List.Subset.refl _, List.subset_append_right _ _⟩)

theorem Dev.logged_event {code : Nat} (coded : code < 65536) {d e : Dev} (h : d.touched correctionObjs e) (c : Bool) (k : Clk) (inst : Nat) (x : Int)
    (detail : List Byte) : d.logged (e.when c fun d => d.event k code inst x detail) := by
  cases c
  · exact Dev.logged_of_touched h
  · exact Dev.logged_recorded h (Dev.event_recorded coded k inst x detail e)

theorem Dev.logged_wb {d e : Dev} (h : d.logged e) : e.wb = d.wb := (Dev.objsOnly_wb (Dev.touched_objsOnly h)).trans rfl

theorem Dev.logEntry_lt {d : Dev} {o : Obj} {n e : Nat} {f : Found} (held : d.logEntry o n f = some e) : e < n :=
  List.mem_range.mp (List.mem_of_find?_eq_some held)

/-- A choice made along a list, each turn keeping the last one or taking its own element, is of the list. -/
theorem foldl_choice_mem {pick : Option Nat → Nat → Option Nat} (turn : ∀ b e x, pick b e = some x → b = some x ∨ x = e) {x : Nat} (l : List Nat)
    {b : Option Nat} (chosen : l.foldl pick b = some x) : b = some x ∨ x ∈ l := by
  induction l generalizing b with
  | nil => exact .inl chosen
  | cons e l ih =>
    rcases ih chosen with first | later
    · rcases turn b e x first with kept | taken
      · exact .inl kept
      · exact .inr (taken ▸ List.mem_cons_self)
    · exact .inr (List.mem_cons_of_mem e later)

theorem Dev.putLog_touched (k : Clk) {e : Nat} (entry : e < 32) (w : Nat) (d : Dev) : d.touched correctionObjs (d.putLog k Od.INTEG_LOG e w) :=
  Dev.touched_put (Dev.touched_put (Dev.touched_refl _ d) (by simp [correctionObjs]) (by decide) (by omega) _) (by simp [correctionObjs]) (by decide)
    (by omega) _

/-- An entry is filled, and its word has not been written since. -/
theorem Dev.putLog_stale_touched (k : Clk) {e : Nat} (entry : e < 32) (w : Nat) (d : Dev) :
    d.touched correctionObjs ((d.putLog k Od.INTEG_LOG e w).put Rg.LOG_FRESH 0 0 e) :=
  Dev.touched_put (Dev.putLog_touched k entry w d) (by simp [correctionObjs]) (by decide) (by omega) _

/-- A corrected finding fills an entry of the log, or is counted as lost to a full one. -/
theorem Dev.logCorrected_logged (k : Clk) (f : Found) (d : Dev) : d.logged (d.logCorrected k f) := by
  unfold Dev.logCorrected
  split
  next e held =>
    have entry := Dev.logEntry_lt held
    refine Dev.logged_event (by decide) (Dev.touched_ite (Dev.putLog_stale_touched k entry _ d) ?_) _ k _ _ _
    exact Dev.touched_put (Dev.touched_refl _ d) (by simp [correctionObjs]) (by decide) (by omega) _
  next =>
    dsimp only
    split
    next e chosen =>
      have entry : e < 32 := by
        rcases Option.or_eq_some_iff.mp chosen with empty | ⟨-, victim⟩
        · exact List.mem_range.mp (List.mem_of_find?_eq_some empty)
        · have listed := (foldl_choice_mem (fun b e x taken => ?_) _ victim).resolve_left (by simp)
          · exact List.mem_range.mp (List.mem_filter.mp listed).1
          · cases b with
            | none => exact .inr (Option.some.inj taken).symm
            | some y =>
              dsimp only at taken
              split at taken
              · exact .inr (Option.some.inj taken).symm
              · exact .inl taken
      exact Dev.logged_of_touched (Dev.putLog_stale_touched k entry _ d)
    next => exact Dev.logged_of_touched (Dev.touched_put (Dev.touched_refl _ d) (by simp [correctionObjs]) (by decide) (by decide) _)

/-- The word written back may count anew in its entry of the log, if it has one. -/
theorem Dev.wordWritten_touched (mem die addr : Nat) (d : Dev) : d.touched [Rg.LOG_FRESH] (d.wordWritten mem die addr) := by
  unfold Dev.wordWritten
  split
  next e held =>
    have entry := Dev.logEntry_lt held
    exact Dev.touched_put (Dev.touched_refl _ d) (by simp) (by decide) (by omega) _
  next => exact Dev.touched_refl _ d

/-! SUPPORT. A corrected finding as its clock ends (R459, R464). -/

/-- Memories and dies are numbered in a byte (R465). -/
theorem memOk_unit {mem die : Nat} (known : memOk mem die = true) : mem * 16 + die < 256 := by
  simp only [memOk, Bool.or_eq_true, Bool.and_eq_true, decide_eq_true_eq, beq_iff_eq] at known
  omega

/-- A corrected finding, counted and logged, lists its write-back where none waits. -/
theorem Dev.finding_corrected (k : Clk) {f : Found} (corrected : f.bits ≤ 2) (unhealed : f.healed = false) {d : Dev} (none : d.wb = []) :
    ∃ own, d.finding k f = { (d.bump Od.INTEG_MEM_CORRECTED (f.mem * 16 + f.die)).logCorrected k f with
      wb := [{ mem := f.mem, die := f.die, addr := f.addr, tick := k.tick, own := own }] } := by
  have kept : ((d.bump Od.INTEG_MEM_CORRECTED (f.mem * 16 + f.die)).logCorrected k f).wb = [] := (Dev.logged_wb (Dev.logCorrected_logged k f _)).trans none
  simp [Dev.finding, corrected, unhealed, kept]

/-- A clock with one finding and no spent flip ends with that finding. -/
theorem Dev.settle_one (k : Clk) {d : Dev} {f : Found} (one : d.found = [f]) (unspent : d.flipUsed = false) :
    d.settle k = { d with found := [] }.finding k f := by
  simp [Dev.settle, one, unspent, orderFound]

/-- Where nothing else was found in its clock or waits to be written back, a corrected finding is counted and lists its write-back as its clock ends. -/
theorem Dev.settle_corrected (k : Clk) {f : Found} (corrected : f.bits ≤ 2) (unhealed : f.healed = false) (unit : f.mem * 16 + f.die < 65536) {d : Dev}
    (unfound : d.found = []) (unlisted : d.wb = []) (unspent : d.flipUsed = false) :
    ((({ d with found := d.found ++ [f] } : Dev).settle k).wb.map fun w => (w.mem, w.die, w.addr, w.tick)) = [(f.mem, f.die, f.addr, k.tick)] ∧
      (({ d with found := d.found ++ [f] } : Dev).settle k).n Od.INTEG_MEM_CORRECTED (f.mem * 16 + f.die) =
        satAdd Od.INTEG_MEM_CORRECTED.ty.top (d.n Od.INTEG_MEM_CORRECTED (f.mem * 16 + f.die)) 1 := by
  obtain ⟨own, ends⟩ := Dev.finding_corrected k corrected unhealed (d := { d with found := [] }) unlisted
  rw [Dev.settle_one k (d := { d with found := d.found ++ [f] }) (f := f) (by simp [unfound]) unspent, ends]
  have counted := Dev.n_touched (Dev.logCorrected_logged k f (({ d with found := [] } : Dev).bump Od.INTEG_MEM_CORRECTED (f.mem * 16 + f.die)))
    (o := Od.INTEG_MEM_CORRECTED) (f := 0) unit (by decide) (by decide)
  refine ⟨rfl, counted.trans ?_⟩
  exact Dev.n_bump_word { d with found := [] } (o := Od.INTEG_MEM_CORRECTED) rfl (f.mem * 16 + f.die) 1

/-- A corrected word that a consumer's read finds (R465). -/
theorem Dev.scrubWord_corrected (k : Clk) (mem die word : Nat) {bits : Nat} (corrected : bits = 1 ∨ bits = 2) (d : Dev) :
    d.scrubWord k mem die 0 false { word := word, bits := bits } =
      { d with found := d.found ++ [{ mem := mem, die := die, addr := word, bits := bits }] } := by
  rcases corrected with rfl | rfl <;> simp [Dev.scrubWord, pipeOfHolds]

section
variable {s : State} (running : ready s = true) {mem die : Nat} (known : memOk mem die = true)
include running known

/-- A consumer's read that finds nothing changes nothing. -/
theorem exec_scrubAccess_nothing : ∃ t, exec (.scrubAccess mem die true []) s = .next t ∧ onlyWrites [] s t :=
  ⟨_, State.runIf_eq running known rfl, onlyWrites_of (Dev.wrote_silent [] s.dev)⟩

/-- One that finds a corrected word leaves the finding to the end of its clock, which counts it and lists its write-back. -/
theorem exec_scrubAccess_corrected (word : Nat) {bits : Nat} (corrected : bits = 1 ∨ bits = 2) :
    ∃ t, exec (.scrubAccess mem die true [{ word := word, bits := bits }]) s = .next t ∧
      onlyWrites [] { s with dev := { s.dev with found := s.dev.found ++ [{ mem := mem, die := die, addr := word, bits := bits }] } } t ∧
      (s.dev.found = [] → s.dev.wb = [] → s.dev.flipUsed = false →
        ((t.dev.settle t.clk).wb.map fun w => (w.mem, w.die, w.addr, w.tick)) = [(mem, die, word, s.clk.tick)] ∧
        (t.dev.settle t.clk).n Od.INTEG_MEM_CORRECTED (mem * 16 + die) =
          satAdd Od.INTEG_MEM_CORRECTED.ty.top (s.dev.n Od.INTEG_MEM_CORRECTED (mem * 16 + die)) 1) :=
  ⟨_, State.runIf_eq running known (Dev.scrubWord_corrected s.clk mem die word corrected s.dev.silent),
    ⟨⟨rfl, rfl, rfl⟩, rfl, fun _ _ _ _ => rfl⟩, fun unfound unlisted unspent =>
      Dev.settle_corrected s.clk (f := { mem := mem, die := die, addr := word, bits := bits }) (by dsimp only; omega) rfl
        ((memOk_unit known).trans (by decide)) (d := s.dev.silent) unfound unlisted unspent⟩

end

/-! SUPPORT. The scrubber (R465, R466) and the write-backs (R460). -/

/-- An access of the scrubber takes a slot of its memory, or its pace. -/
theorem Dev.scrubSlot_touched {k : Clk} {mem die : Nat} (known : memOk mem die = true) {d e : Dev} (slot : d.scrubSlot k mem die = some e) :
    d.touched [Rg.SCRUB_SPENT, Rg.SCRUB_FROM] e := by
  have unit := memOk_unit known
  unfold Dev.scrubSlot at slot
  dsimp only at slot
  split at slot
  all_goals
    obtain ⟨-, taken⟩ := Option.ite_none_right_eq_some.mp slot
    exact Option.some.inj taken ▸ Dev.touched_put (Dev.touched_refl _ d) (by simp) (by omega) (by decide) _

theorem Dev.isSome_scrubSlot_silent (k : Clk) (mem die : Nat) (d : Dev) : (d.silent.scrubSlot k mem die).isSome = (d.scrubSlot k mem die).isSome := by
  simp only [Dev.scrubSlot, apply_ite Option.isSome, Option.isSome_some, Option.isSome_none]
  rfl

/-- The objects that an access of the scrubber changes before it moves on. -/
def scrubObjs : List Obj := [Rg.SCRUB_SPENT, Rg.SCRUB_FROM, Rg.SCRUB_BEGAN]

/-- The scrubber ends its pass of memory and die i, counts it with its length, and begins the next (R466). -/
def Dev.scrubPassed (k : Clk) (i : Nat) (d : Dev) : Dev :=
  (((d.bump Od.INTEG_MEM_SCRUB_PASSES i).put Od.INTEG_MEM_LAST_PASS_TICKS i (k.tick + 2 - d.n Rg.SCRUB_BEGAN i)).put Rg.SCRUB_NEXT i 0).put
    Rg.SCRUB_BEGAN i (k.tick + 2)

theorem Dev.scrubPassed_objsOnly (k : Clk) (i : Nat) (d : Dev) : d.objsOnly (d.scrubPassed k i) := by
  unfold Dev.scrubPassed
  iterate 3 apply Dev.objsOnly_put
  exact Dev.objsOnly_bump (Dev.objsOnly_refl d) _ _ _ _

theorem Dev.n_scrubPassed {i : Nat} (unit : i < 1024) (k : Clk) (d : Dev) : (d.scrubPassed k i).n Rg.SCRUB_NEXT i = 0 ∧
    (d.scrubPassed k i).n Od.INTEG_MEM_SCRUB_PASSES i = satAdd Od.INTEG_MEM_SCRUB_PASSES.ty.top (d.n Od.INTEG_MEM_SCRUB_PASSES i) 1 := by
  unfold Dev.scrubPassed
  constructor
  · rw [Dev.n_put_port _ unit unit (by decide), Dev.n_put_wide _ rfl]
  · iterate 3 rw [Dev.n_put_port _ unit unit (by decide)]
    exact Dev.n_bump_word d rfl i 1

/-- An access that finds nothing goes on to the next unit, or ends its pass. -/
theorem Dev.scrub_clean (k : Clk) {mem die : Nat} (known : memOk mem die = true) {d : Dev} (unlisted : d.wb = []) (unflipped : d.flipped = [])
    (slot : (d.scrubSlot k mem die).isSome = true) : ∃ e, d.touched scrubObjs e ∧ d.scrub k mem die [] =
      if d.n Rg.SCRUB_NEXT (mem * 16 + die) + 1 < (scrubUnit mem).2 then
        e.put Rg.SCRUB_NEXT (mem * 16 + die) (d.n Rg.SCRUB_NEXT (mem * 16 + die) + 1)
      else e.scrubPassed k (mem * 16 + die) := by
  have unit := memOk_unit known
  obtain ⟨g, taken⟩ := Option.isSome_iff_exists.mp slot
  have took := Dev.scrubSlot_touched known taken
  have next : g.n Rg.SCRUB_NEXT (mem * 16 + die) = d.n Rg.SCRUB_NEXT (mem * 16 + die) := Dev.n_touched took (by omega) (by decide) (by decide)
  have begun : d.touched scrubObjs (if g.n Rg.SCRUB_NEXT (mem * 16 + die) = 0 ∧ g.n Rg.SCRUB_BEGAN (mem * 16 + die) = 0 then
      g.put Rg.SCRUB_BEGAN (mem * 16 + die) (k.tick + 1) else g) :=
    have took := Dev.touched_mono took (more := scrubObjs) (by simp [scrubObjs])
    Dev.touched_ite (Dev.touched_put took (by simp [scrubObjs]) (by omega) (by decide) _) took
  have unmoved : (if g.n Rg.SCRUB_NEXT (mem * 16 + die) = 0 ∧ g.n Rg.SCRUB_BEGAN (mem * 16 + die) = 0 then
      g.put Rg.SCRUB_BEGAN (mem * 16 + die) (k.tick + 1) else g).flipped = [] :=
    (Dev.objsOnly_flipped (Dev.touched_objsOnly begun)).trans unflipped
  refine ⟨_, begun, ?_⟩
  rw [← next]
  simp only [Dev.scrub, unlisted, List.any_nil, Bool.false_eq_true, if_false, taken, unmoved, List.filter_nil, List.map_nil, List.append_nil,
    Dev.each_nil]
  rfl

/-- A write-back raced by another write is given up, and counted. -/
theorem Dev.writeBack_raced (k : Clk) {mem die : Nat} {d : Dev} {w : WBack} (oldest : (d.wb.find? fun w => w.mem == mem && w.die == die) = some w) :
    d.writeBack k mem die true = ({ d with wb := d.wb.erase w }.bump Od.INTEG_SCRUB_RACES 0).wordWritten mem die w.addr := by
  simp [Dev.writeBack, oldest]

section
variable {s : State} (running : ready s = true) {mem die : Nat} (known : memOk mem die = true)
include running known

section
variable (unlisted : s.dev.wb = []) (unflipped : s.dev.flipped = []) (slot : (s.dev.scrubSlot s.clk mem die).isSome = true)
include unlisted unflipped slot

theorem exec_scrubAccess_next (more : s.dev.n Rg.SCRUB_NEXT (mem * 16 + die) + 1 < (scrubUnit mem).2) :
    ∃ t, exec (.scrubAccess mem die false []) s = .next t ∧ outsideKept s t ∧ bare t.dev = bare s.dev ∧
      t.dev.n Rg.SCRUB_NEXT (mem * 16 + die) = s.dev.n Rg.SCRUB_NEXT (mem * 16 + die) + 1 := by
  obtain ⟨e, touched, clean⟩ := Dev.scrub_clean s.clk known (d := s.dev.silent) unlisted unflipped
    ((Dev.isSome_scrubSlot_silent _ _ _ _).trans slot)
  exact ⟨_, State.runIf_eq running known (clean.trans (if_pos more)), ⟨rfl, rfl, rfl⟩,
    Dev.objsOnly_put (Dev.touched_objsOnly touched) _ _ _ _, Dev.n_put_wide e rfl _ _⟩

theorem exec_scrubAccess_pass (last : (scrubUnit mem).2 ≤ s.dev.n Rg.SCRUB_NEXT (mem * 16 + die) + 1) :
    ∃ t, exec (.scrubAccess mem die false []) s = .next t ∧ outsideKept s t ∧ bare t.dev = bare s.dev ∧
      t.dev.n Rg.SCRUB_NEXT (mem * 16 + die) = 0 ∧ t.dev.n Od.INTEG_MEM_SCRUB_PASSES (mem * 16 + die) =
        satAdd Od.INTEG_MEM_SCRUB_PASSES.ty.top (s.dev.n Od.INTEG_MEM_SCRUB_PASSES (mem * 16 + die)) 1 := by
  have unit := memOk_unit known
  obtain ⟨e, touched, clean⟩ := Dev.scrub_clean s.clk known (d := s.dev.silent) unlisted unflipped
    ((Dev.isSome_scrubSlot_silent _ _ _ _).trans slot)
  obtain ⟨first, passes⟩ := Dev.n_scrubPassed (unit.trans (by decide)) s.clk e
  have kept : e.n Od.INTEG_MEM_SCRUB_PASSES (mem * 16 + die) = s.dev.n Od.INTEG_MEM_SCRUB_PASSES (mem * 16 + die) :=
    (Dev.n_touched touched (by omega) (by decide) (by decide)).trans rfl
  exact ⟨_, State.runIf_eq running known (clean.trans (if_neg (Nat.not_lt.mpr last))), ⟨rfl, rfl, rfl⟩,
    Dev.objsOnly_trans (Dev.touched_objsOnly touched) (Dev.scrubPassed_objsOnly _ _ e), first, passes.trans (by rw [kept])⟩

end

theorem exec_writeBack_raced {w : WBack} (oldest : (s.dev.wb.find? fun w => w.mem == mem && w.die == die) = some w) :
    ∃ t, exec (.writeBack mem die true) s = .next t ∧ outsideKept s t ∧ t.dev.wb = s.dev.wb.erase w ∧
      t.dev.n Od.INTEG_SCRUB_RACES 0 = satAdd Od.INTEG_SCRUB_RACES.ty.top (s.dev.n Od.INTEG_SCRUB_RACES 0) 1 := by
  have written := Dev.wordWritten_touched mem die w.addr ({ s.dev.silent with wb := s.dev.wb.erase w }.bump Od.INTEG_SCRUB_RACES 0)
  refine ⟨_, State.runIf_eq running known (Dev.writeBack_raced s.clk (d := s.dev.silent) oldest), ⟨rfl, rfl, rfl⟩,
    Dev.objsOnly_wb (Dev.touched_objsOnly written), ?_⟩
  exact (Dev.n_touched written (by decide) (by decide) (by decide)).trans (Dev.n_bump_word { s.dev.silent with wb := s.dev.wb.erase w } rfl 0 1)

end

/-- The first element with a property that has another besides is the first with both. -/
theorem find?_and_of_find? {α : Type} {p q : α → Bool} {l : List α} {x : α} (first : l.find? p = some x) (besides : q x = true) :
    (l.find? fun y => p y && q y) = some x := by
  obtain ⟨holds, before, after, parts, none⟩ := List.find?_eq_some_iff_append.mp first
  refine List.find?_eq_some_iff_append.mpr ⟨by simp [holds, besides], before, after, parts, fun y member => ?_⟩
  have fails := none y member
  simp only [Bool.not_eq_true'] at fails ⊢
  simp [fails]

/-- The oldest write-back of a memory, in a later tick with a slot, is made: the word is whole. -/
theorem Dev.writeBack_made {k : Clk} {mem die : Nat} (known : memOk mem die = true) {d : Dev} {w : WBack}
    (oldest : (d.wb.find? fun w => w.mem == mem && w.die == die) = some w) (unflipped : w.own = false) (later : w.tick < k.tick)
    (grant : d.wbMay k w = true) (slot : (d.scrubSlot k mem die).isSome = true) :
    ∃ e, d.objsOnly e ∧ d.writeBack k mem die false = ({ e with wb := e.wb.erase w }.unflip mem die w.addr).wordWritten mem die w.addr := by
  obtain ⟨g, taken⟩ := Option.isSome_iff_exists.mp slot
  have took := Dev.touched_objsOnly (Dev.scrubSlot_touched known taken)
  have found := find?_and_of_find? oldest grant
  refine ⟨if mem ≤ 2 then g.put Rg.WB_SPENT (bankOf mem w.addr) (g.n Rg.WB_SPENT (bankOf mem w.addr) (mem - 1) + 1) (mem - 1) else g, ?_, ?_⟩
  · split
    · exact Dev.objsOnly_put took _ _ _ _
    · exact took
  · simp [Dev.writeBack, found, unflipped, Nat.not_le.mpr later, taken]

theorem exec_writeBack_made {s : State} (running : ready s = true) {mem die : Nat} (known : memOk mem die = true) {w : WBack}
    (oldest : (s.dev.wb.find? fun w => w.mem == mem && w.die == die) = some w) (unflipped : w.own = false) (later : w.tick < s.clk.tick)
    (grant : s.dev.wbMay s.clk w = true) (slot : (s.dev.scrubSlot s.clk mem die).isSome = true) :
    ∃ t, exec (.writeBack mem die false) s = .next t ∧ outsideKept s t ∧ t.dev.wb = s.dev.wb.erase w ∧
      t.dev.flipped = s.dev.flipped.filter fun f => !(f.mem == mem && f.die == die && f.addr == w.addr) := by
  obtain ⟨e, objs, made⟩ := Dev.writeBack_made known (d := s.dev.silent) oldest unflipped later grant
    ((Dev.isSome_scrubSlot_silent _ _ _ _).trans slot)
  have written := Dev.touched_objsOnly (Dev.wordWritten_touched mem die w.addr ({ e with wb := e.wb.erase w }.unflip mem die w.addr))
  have wb : e.wb = s.dev.wb := (Dev.objsOnly_wb objs).trans rfl
  have flipped : e.flipped = s.dev.flipped := (Dev.objsOnly_flipped objs).trans rfl
  refine ⟨_, State.runIf_eq running known made, ⟨rfl, rfl, rfl⟩, (Dev.objsOnly_wb written).trans ?_, (Dev.objsOnly_flipped written).trans ?_⟩
  · exact congrArg (·.erase w) wb
  · exact congrArg (List.filter _) flipped

/-! SUPPORT. Counts made in turn at an object's units, and the collection of HBM corrections (R467). -/

/-- Counts made from unit n on leave the units before it. -/
theorem Dev.n_each_bump_before (o : Obj) (vs : List Nat) {n i : Nat} (before : i < n) (d : Dev) :
    (d.each (vs.zipIdx n) fun d x => d.bump o x.2 x.1).n o i = d.n o i := by
  refine congrArg Int.toNat (Dev.each_get _ _ o i 0 (fun e x member => ?_) d)
  have place := List.le_snd_of_mem_zipIdx member
  exact Dev.get_bump_other _ _ _ _ _ _ _ _ (Obj.key_ne_inst o (by omega) (by decide) (by decide))

/-- Counts made from unit n on each read their sum, saturated. -/
theorem Dev.n_each_bump {o : Obj} (word : o.ty = .u64) {vs : List Nat} {n i v : Nat} (listed : vs[i]? = some v) (d : Dev) :
    (d.each (vs.zipIdx n) fun d x => d.bump o x.2 x.1).n o (n + i) = satAdd o.ty.top (d.n o (n + i)) v := by
  induction vs generalizing n i d with
  | nil => simp at listed
  | cons w vs ih =>
    rw [List.zipIdx_cons, Dev.each_cons]
    cases i with
    | zero =>
      obtain rfl : w = v := by simpa using listed
      exact (Dev.n_each_bump_before o vs (Nat.lt_succ_self n) _).trans (Dev.n_bump_word d word n w)
    | succ i =>
      rw [show n + (i + 1) = n + 1 + i by omega, ih (by simpa using listed)]
      exact congrArg (satAdd _ · v) (Dev.n_put_other _ _ _ _ _ _ _ _ (Obj.key_ne_inst o (by omega) (by decide) (by decide)))

theorem exec_hbmCorrectionCollect_counts {s : State} (running : ready s = true) {counts bad : List Nat} (four : counts.length = 4)
    (inside : ∀ x ∈ bad, x < hbmBytes) :
    ∃ t, exec (.hbmCorrectionCollect counts bad) s = .next t ∧ outsideKept s t ∧
      t.dev.hbmPoison = (s.dev.hbmPoison ++ bad.map fun x => x / 32 * 32).dedup ∧
      ∀ i, i < 4 → t.dev.n Od.INTEG_HBM_CORRECTED i = satAdd Od.INTEG_HBM_CORRECTED.ty.top (s.dev.n Od.INTEG_HBM_CORRECTED i) (counts.getD i 0) := by
  have ran : exec (.hbmCorrectionCollect counts bad) s = .next { s with dev := s.dev.silent.collectHbm counts bad } :=
    (if_pos (List.all_eq_true.mpr fun x member => decide_eq_true (inside x member))).trans (State.run_eq running rfl)
  have counted : s.dev.silent.objsOnly (s.dev.silent.each ((counts.take 4).zipIdx) fun d x => d.bump Od.INTEG_HBM_CORRECTED x.2 x.1) :=
    Dev.objsOnly_each _ _ (fun e _ _ => Dev.objsOnly_bump (Dev.objsOnly_refl e) _ _ _ _) _
  refine ⟨_, ran, ⟨rfl, rfl, rfl⟩, congrArg (fun l => (l ++ bad.map fun x => x / 32 * 32).dedup) (Dev.objsOnly_hbmPoison counted), fun i stack => ?_⟩
  have listed : (counts.take 4)[i]? = some (counts.getD i 0) := by
    rw [List.take_of_length_le (by omega), List.getD_eq_getElem?_getD, List.getElem?_eq_getElem (by omega)]
    rfl
  have sum := Dev.n_each_bump (o := Od.INTEG_HBM_CORRECTED) rfl (n := 0) listed s.dev.silent
  rw [Nat.zero_add] at sum
  exact sum

/-- Settles O38: a finding as its clock ends (`Dev.finding_corrected`), an access of the scrubber that finds nothing (`Dev.scrub_clean`), a write-back that is
made or raced (`Dev.writeBack_made`, `Dev.writeBack_raced`), and the stacks' counts (`Dev.n_each_bump`). -/
theorem storedWordsChecked : Obligations.StoredWordsChecked := by
  intro s running
  exact ⟨fun _ _ word _ known corrected _ => exec_scrubAccess_corrected running known word corrected,
    fun _ _ known => exec_scrubAccess_nothing running known,
    fun _ _ known unlisted unflipped slot =>
      ⟨exec_scrubAccess_next running known unlisted unflipped slot, exec_scrubAccess_pass running known unlisted unflipped slot⟩,
    fun _ _ _ known oldest => ⟨exec_writeBack_raced running known oldest,
      fun unflipped later grant slot => exec_writeBack_made running known oldest unflipped later grant slot⟩,
    fun _ _ _ _ _ inside => exec_hbmCorrectionCollect_counts running rfl inside⟩

end Sys2Proof.Machine

namespace Sys2Proof.Machine
open Sys2Proof.Safety

/-! SUPPORT. The clearing of a log's entries (R462, R463). -/

theorem ObjTy.norm_zero (t : ObjTy) : t.norm 0 = 0 := by cases t <;> rfl

/-- What some turn of a loop brings about and every turn keeps, the loop brings about. -/
theorem Dev.each_makes {α : Type} {P : Dev → Prop} {f : Dev → α → Dev} {l : List α} {x : α} (listed : x ∈ l) (makes : ∀ d, P (f d x))
    (keeps : ∀ d y, P d → P (f d y)) (d : Dev) : P (d.each l f) := by
  obtain ⟨before, after, rfl⟩ := List.append_of_mem listed
  rw [Dev.each, List.foldl_append]
  exact Dev.each_keeps after (fun d y _ => keeps d y) (makes _)

/-- The two words of an entry of a log become zero. -/
def Dev.entryCleared (o : Obj) (d : Dev) (e : Nat) : Dev := (d.put o 0 0 (2 * e)).put o 0 0 (2 * e + 1)

theorem Dev.entryCleared_wrote (o : Obj) (d : Dev) (e : Nat) : d.wrote [o.key 0 (2 * e), o.key 0 (2 * e + 1)] (d.entryCleared o e) :=
  Dev.wrote_put (Dev.wrote_put (Dev.wrote_refl _ d) _ _ _ _ (by simp)) _ _ _ _ (by simp)

theorem Dev.n_entryCleared (o : Obj) (d : Dev) (e x : Nat) : (d.entryCleared o e).n o 0 x = if x / 2 = e then 0 else d.n o 0 x := by
  have zero : o.ty.norm ((0 : Nat) : Int) = (0 : Nat) := o.ty.norm_zero
  unfold Dev.entryCleared
  by_cases second : x = 2 * e + 1
  · rw [if_pos (by omega), second, Dev.n_put_same _ _ _ _ _ zero]
  · rw [Dev.n_put_other _ _ _ _ _ _ _ _ (o.key_ne_elem (Ne.symm second))]
    by_cases first : x = 2 * e
    · rw [if_pos (by omega), first, Dev.n_put_same _ _ _ _ _ zero]
    · rw [if_neg (by omega), Dev.n_put_other _ _ _ _ _ _ _ _ (o.key_ne_elem (Ne.symm first))]

theorem Dev.clearLog_one (o : Obj) (n : Nat) {e : Nat} (one : e < 32) (d : Dev) : d.clearLog o n e = d.entryCleared o e := by
  rw [Dev.clearLog, if_neg (by omega)]
  rfl

theorem Dev.clearLog_all (o : Obj) (n : Nat) (d : Dev) : d.clearLog o n 0xFF = d.each (List.range n) (Dev.entryCleared o) := rfl

theorem Dev.clearLog_all_objsOnly (o : Obj) (n : Nat) (d : Dev) : d.objsOnly (d.clearLog o n 0xFF) :=
  Dev.objsOnly_each _ _ (fun d e _ => (Dev.entryCleared_wrote o d e).1) d

theorem Dev.n_clearLog_all (o : Obj) {n x : Nat} (word : x < 2 * n) (d : Dev) : (d.clearLog o n 0xFF).n o 0 x = 0 := by
  rw [Dev.clearLog_all]
  refine Dev.each_makes (P := fun e => e.n o 0 x = 0) (x := x / 2) (List.mem_range.mpr (by omega)) (fun d => ?_) (fun d e zero => ?_) d
  · rw [Dev.n_entryCleared, if_pos rfl]
  · rw [Dev.n_entryCleared, zero, ite_self]

/-- A log of the device is cleared by one entry alone. -/
theorem onlyWrites_clearLog (s : State) (o : Obj) (n : Nat) {e : Nat} (one : e < 32) :
    onlyWrites [o.key 0 (2 * e), o.key 0 (2 * e + 1)] s { s with dev := (s.dev.silent.clearLog o n e).atOpen } ∧
      (s.dev.silent.clearLog o n e).n o 0 (2 * e) = 0 ∧ (s.dev.silent.clearLog o n e).n o 0 (2 * e + 1) = 0 := by
  rw [Dev.clearLog_one o n one]
  refine ⟨onlyWrites_of (Dev.wrote_atOpen (Dev.wrote_trans (Dev.wrote_silent _ s.dev) (Dev.entryCleared_wrote o _ e))), ?_, ?_⟩
  · rw [Dev.n_entryCleared, if_pos (by omega)]
  · rw [Dev.n_entryCleared, if_pos (by omega)]

/-- A log of the device is cleared whole. -/
theorem bare_clearLog_all (s : State) (o : Obj) (n : Nat) : bare (s.dev.silent.clearLog o n 0xFF).atOpen = bare s.dev ∧
    ∀ x, x < 2 * n → (s.dev.silent.clearLog o n 0xFF).atOpen.n o 0 x = 0 :=
  ⟨Dev.clearLog_all_objsOnly o n s.dev.silent, fun _ word => (Dev.n_atOpen _ _ _ _).trans (Dev.n_clearLog_all o word _)⟩

section
variable {s : State} (running : ready s = true) (boundary : s.clk.c = 0)
include running boundary

theorem exec_logClear_opening {e : Nat} (entry : e < 32 ∨ e = 0xFF) :
    exec (.logClear e) s = .next { s with dev := (s.dev.silent.clearLog Od.INTEG_LOG 32 e).atOpen } := by
  change execLogClear e s = _
  unfold execLogClear
  exact State.rowD_eq running boundary (decide_eq_true entry) _ rfl

theorem exec_ueLogClear_opening {e : Nat} (entry : e < 16 ∨ e = 0xFF) :
    exec (.ueLogClear e) s = .next { s with dev := (s.dev.silent.clearLog Od.INTEG_UE_LOG 16 e).atOpen } := by
  change execUeLogClear e s = _
  unfold execUeLogClear
  exact State.rowD_eq running boundary (decide_eq_true entry) _ rfl

end

/-! SUPPORT. The arming of a flip (R469). -/

theorem onlyWrites_flipArm (s : State) (v : Nat) :
    onlyWrites [Od.INTEG_FLIP_ARM.key 0 0] s { s with dev := (s.dev.silent.put Od.INTEG_FLIP_ARM 0 v).atOpen } :=
  onlyWrites_of (Dev.wrote_atOpen (Dev.wrote_put (Dev.wrote_silent _ s.dev) _ _ _ _ (by simp)))

section
variable {s : State} (running : ready s = true) (boundary : s.clk.c = 0)
include running boundary

theorem exec_flipArm_opening : exec .flipArm s = .next { s with dev := (s.dev.silent.put Od.INTEG_FLIP_ARM 0 1).atOpen } := by
  change execFlipArm s = _
  unfold execFlipArm
  exact State.rowD_eq running boundary rfl _ rfl

theorem exec_flipDisarm_opening : exec .flipDisarm s = .next { s with dev := (s.dev.silent.put Od.INTEG_FLIP_ARM 0 0).atOpen } := by
  change execFlipDisarm s = _
  unfold execFlipDisarm
  exact State.rowD_eq running boundary rfl _ rfl

end

/-! SUPPORT. The retirement of exact-match ways (R471). -/

theorem Dev.listRetired_wrote (v : Nat) (d : Dev) :
    d.wrote [Od.INTEG_EM_RETIRED_LIST.key 0 (d.n Od.INTEG_EM_RETIRED_COUNT 0), Od.INTEG_EM_RETIRED_COUNT.key 0 0] (d.listRetired v) :=
  Dev.wrote_put (Dev.wrote_put (Dev.wrote_refl _ d) _ _ _ _ (by simp)) _ _ _ _ (by simp)

/-- A position joins the list at its end. -/
theorem Dev.n_listRetired {v : Nat} (position : v < 2 ^ 32) {d : Dev} (room : d.n Od.INTEG_EM_RETIRED_COUNT 0 < 4096) :
    (d.listRetired v).n Od.INTEG_EM_RETIRED_LIST 0 (d.n Od.INTEG_EM_RETIRED_COUNT 0) = v ∧
      (d.listRetired v).n Od.INTEG_EM_RETIRED_COUNT 0 = d.n Od.INTEG_EM_RETIRED_COUNT 0 + 1 := by
  constructor
  · refine (Dev.n_put_scalar _ (by decide) (by decide) (by omega) _).trans (Dev.n_put_same _ _ _ _ _ ?_)
    exact ObjTy.norm_u32_top (by simp only [ObjTy.top]; omega)
  · exact Dev.n_put_same _ _ _ _ _ (ObjTy.norm_u16 (by omega))

/-- The change that moves the entry of a way to way p. -/
def Dev.movedEntry (d : Dev) (pos p : Nat) : EmChange :=
  { pos := p, key := d.emKey pos, result := d.emResult pos, hit := d.emHitNow pos, seen := d.emSeenNow pos }

section
variable (k : Clk) {pos : Nat} {d : Dev} (unlisted : d.retireListed pos = false) (room : d.n Od.INTEG_EM_RETIRED_COUNT 0 < 4096)
include unlisted room

theorem Dev.retire_empty (empty : bit (d.emKey pos) 63 = false) : d.retire k pos = d.listRetired pos := by
  have unbarred : ¬ (d.retireListed pos = true ∨ 4096 ≤ d.n Od.INTEG_EM_RETIRED_COUNT 0) := by simp [unlisted, room]
  rw [Dev.retire, if_neg unbarred, if_pos (by simp [empty])]

theorem Dev.retire_moves (held : bit (d.emKey pos) 63 = true) {p : Nat}
    (free : ((ways (pos / 8 * 8)).find? fun p => p != pos && d.emFree p) = some p) :
    d.retire k pos = ((d.emChange k 5 (d.movedEntry pos p)).emRemove k 5 pos).listRetired pos := by
  have unbarred : ¬ (d.retireListed pos = true ∨ 4096 ≤ d.n Od.INTEG_EM_RETIRED_COUNT 0) := by simp [unlisted, room]
  rw [Dev.retire, if_neg unbarred, if_neg (by simp [held])]
  simp only [free]
  rfl

end

/-- Where no flip is armed, a move is two changes of the tick, and leaves the count of retired positions. -/
theorem Dev.emChange_emRemove (k : Clk) (c : EmChange) (pos : Nat) {d : Dev} (unarmed : d.on Od.INTEG_FLIP_ARM 0 = false)
    (room : d.n Od.INTEG_EM_RETIRED_COUNT 0 < 4096) :
    ((d.emChange k 5 c).emRemove k 5 pos).em = d.em ∧
      ((d.emChange k 5 c).emRemove k 5 pos).emPend = d.emPend ++ [{ c with result := c.result / 2 ^ 17 * 2 ^ 17, flips := [] }, ⟨pos, 0, 0, 0, 0, []⟩] ∧
      ((d.emChange k 5 c).emRemove k 5 pos).n Od.INTEG_EM_RETIRED_COUNT 0 = d.n Od.INTEG_EM_RETIRED_COUNT 0 := by
  have count := Dev.n_emChange_typed k 5 c unarmed (by omega) (o := Od.INTEG_EM_RETIRED_COUNT) (i := 0) (f := 0) (by decide) (by decide) (by decide)
  have arm := Dev.n_emChange_typed k 5 c unarmed (by omega) (o := Od.INTEG_FLIP_ARM) (i := 0) (f := 0) (by decide) (by decide) (by decide)
  have unarmed' : (d.emChange k 5 c).on Od.INTEG_FLIP_ARM 0 = false := by rw [Dev.on, arm]; exact unarmed
  unfold Dev.emRemove
  refine ⟨(Dev.emChange_em k 5 _ unarmed').trans (Dev.emChange_em k 5 c unarmed), ?_,
    (Dev.n_emChange_typed k 5 _ unarmed' (by omega) (by decide) (by decide) (by decide)).trans count⟩
  rw [Dev.emChange_emPend k 5 _ unarmed', Dev.emChange_emPend k 5 c unarmed, List.append_assoc]
  simp

/-- The only retired position leaves the list empty. -/
theorem Dev.unretire_only {d : Dev} {pos : Nat} (only : d.n Od.INTEG_EM_RETIRED_COUNT 0 = 1) (listed : d.n Od.INTEG_EM_RETIRED_LIST 0 0 % 2 ^ 31 = pos) :
    d.unretire pos = (d.clearObj Od.INTEG_EM_RETIRED_LIST).put Od.INTEG_EM_RETIRED_COUNT 0 0 := by
  have gone : ((d.elems Od.INTEG_EM_RETIRED_LIST 0 1).filter fun v => v % 2 ^ 31 != pos) = [] := by simpa [Dev.elems] using listed
  simp only [Dev.unretire, only, gone]
  rfl

section
variable {s : State} (running : ready s = true) (boundary : s.clk.c = 0)
include running boundary

theorem exec_emRetire_opening {pos : Nat} (position : pos < 4194304) :
    exec (.emRetire pos) s = .next { s with dev := (s.dev.silent.retire s.clk pos).atOpen } := by
  change execEmRetire pos s = _
  unfold execEmRetire
  exact State.rowD_eq running boundary (decide_eq_true position) _ rfl

section
variable {pos : Nat} (position : pos < 4194304) (unlisted : s.dev.retireListed pos = false) (room : s.dev.n Od.INTEG_EM_RETIRED_COUNT 0 < 4096)
include position unlisted room

theorem exec_emRetire_empty (empty : bit (s.dev.emKey pos) 63 = false) :
    ∃ t, exec (.emRetire pos) s = .next t ∧
      onlyWrites [Od.INTEG_EM_RETIRED_LIST.key 0 (s.dev.n Od.INTEG_EM_RETIRED_COUNT 0), Od.INTEG_EM_RETIRED_COUNT.key 0 0] s t ∧
      t.dev.n Od.INTEG_EM_RETIRED_LIST 0 (s.dev.n Od.INTEG_EM_RETIRED_COUNT 0) = pos ∧
      t.dev.n Od.INTEG_EM_RETIRED_COUNT 0 = s.dev.n Od.INTEG_EM_RETIRED_COUNT 0 + 1 := by
  have ran := exec_emRetire_opening running boundary position
  rw [Dev.retire_empty s.clk (d := s.dev.silent) unlisted room empty] at ran
  obtain ⟨listed, count⟩ := Dev.n_listRetired (position.trans (by decide)) (d := s.dev.silent) room
  exact ⟨_, ran, onlyWrites_of (Dev.wrote_atOpen (Dev.wrote_trans (Dev.wrote_silent _ s.dev) (Dev.listRetired_wrote pos _))), listed, count⟩

theorem exec_emRetire_moves (plain : plainWords s.dev = true) (held : bit (s.dev.emKey pos) 63 = true) {p : Nat}
    (free : ((ways (pos / 8 * 8)).find? fun p => p != pos && s.dev.emFree p) = some p) :
    ∃ t, exec (.emRetire pos) s = .next t ∧ outsideKept s t ∧ t.dev.em = s.dev.em ∧
      t.dev.emPend = s.dev.emPend ++ [⟨p, s.dev.emKey pos, s.dev.emResult pos / 2 ^ 17 * 2 ^ 17, s.dev.emHitNow pos, s.dev.emSeenNow pos, []⟩,
        ⟨pos, 0, 0, 0, 0, []⟩] ∧
      t.dev.n Od.INTEG_EM_RETIRED_COUNT 0 = s.dev.n Od.INTEG_EM_RETIRED_COUNT 0 + 1 := by
  have ran := exec_emRetire_opening running boundary position
  rw [Dev.retire_moves s.clk (d := s.dev.silent) unlisted room held free] at ran
  obtain ⟨em, pend, count⟩ := Dev.emChange_emRemove s.clk (s.dev.silent.movedEntry pos p) pos (d := s.dev.silent) (plainWords_unarmed plain) room
  obtain ⟨-, counted⟩ := Dev.n_listRetired (position.trans (by decide)) (count.trans_lt room)
  obtain ⟨objs, -⟩ := Dev.listRetired_wrote pos ((s.dev.silent.emChange s.clk 5 (s.dev.silent.movedEntry pos p)).emRemove s.clk 5 pos)
  exact ⟨_, ran, ⟨rfl, rfl, rfl⟩, (Dev.objsOnly_em objs).trans em, (Dev.objsOnly_emPend objs).trans pend,
    counted.trans (congrArg (· + 1) count)⟩

end

theorem exec_emUnretire_opening {pos : Nat} (position : pos < 4194304) :
    exec (.emUnretire pos) s = .next { s with dev := (s.dev.silent.unretire pos).atOpen } := by
  change execEmUnretire pos s = _
  unfold execEmUnretire
  exact State.rowD_eq running boundary (decide_eq_true position) _ rfl

/-- The only retired position, one that the device has, is taken into use again. -/
theorem exec_emUnretire_only {pos : Nat} (position : pos < 4194304) (only : s.dev.n Od.INTEG_EM_RETIRED_COUNT 0 = 1)
    (listed : s.dev.n Od.INTEG_EM_RETIRED_LIST 0 0 % 2 ^ 31 = pos) :
    ∃ t, exec (.emUnretire pos) s = .next t ∧ outsideKept s t ∧ bare t.dev = bare s.dev ∧ t.dev.n Od.INTEG_EM_RETIRED_COUNT 0 = 0 := by
  have ran := exec_emUnretire_opening running boundary position
  rw [Dev.unretire_only (d := s.dev.silent) only listed] at ran
  exact ⟨_, ran, ⟨rfl, rfl, rfl⟩, rfl, Dev.n_put_same (s.dev.silent.clearObj Od.INTEG_EM_RETIRED_LIST) Od.INTEG_EM_RETIRED_COUNT 0 0 0 rfl⟩

end

/-- A position beyond the table's is not taken into use again. -/
theorem exec_emUnretire_none (s : State) {pos : Nat} (beyond : 4194304 ≤ pos) : exec (.emUnretire pos) s = .next s.quiet := by
  change execEmUnretire pos s = _
  unfold execEmUnretire
  exact s.rowD_none (decide_eq_false (Nat.not_lt.mpr beyond)) _ _

/-- A device whose list of retired positions holds one beyond the table's 4194304 ways. -/
def beyondTable : State := { dev := (({} : Dev).put Od.INTEG_EM_RETIRED_COUNT 0 1).put Od.INTEG_EM_RETIRED_LIST 0 4194304 }

/-- Refutes O39: the command acts on positions of the table alone (`exec_emUnretire_none`), and the statement's last clause lacks that bound. Where the only
position on the list is 4194304, which `ready` does not bar although no INTEG.EM.RETIRE lists it (R471), the command has no effect and the list stays. With the
bound the statement holds: `flipsLogsAndRetirement_of_inTable`. -/
theorem not_flipsLogsAndRetirement : ¬ Obligations.FlipsLogsAndRetirement := by
  intro h
  obtain ⟨-, -, -, -, -, -, -, unretired⟩ := h beyondTable (by decide) (by decide)
  obtain ⟨t, ran, -, -, none⟩ := unretired 4194304 (by decide) (by decide)
  cases ran.symm.trans (exec_emUnretire_none beyondTable le_rfl)
  exact absurd none (by decide)

/-- The statement that `not_flipsLogsAndRetirement` refutes, with the hypothesis it lacks: the position taken into use again is one of the table's. -/
theorem flipsLogsAndRetirement_of_inTable (s : State) (running : ready s = true) (boundary : s.clk.c = 0) :
    (∃ t, exec .flipArm s = .next t ∧ onlyWrites [Od.INTEG_FLIP_ARM.key 0 0] s t ∧ t.dev.n Od.INTEG_FLIP_ARM 0 = 1) ∧
    (∃ t, exec .flipDisarm s = .next t ∧ onlyWrites [Od.INTEG_FLIP_ARM.key 0 0] s t ∧ t.dev.n Od.INTEG_FLIP_ARM 0 = 0) ∧
    (∀ e, e < 32 → ∃ t, exec (.logClear e) s = .next t ∧ onlyWrites [Od.INTEG_LOG.key 0 (2 * e), Od.INTEG_LOG.key 0 (2 * e + 1)] s t ∧
      t.dev.n Od.INTEG_LOG 0 (2 * e) = 0 ∧ t.dev.n Od.INTEG_LOG 0 (2 * e + 1) = 0) ∧
    (∃ t, exec (.logClear 0xFF) s = .next t ∧ outsideKept s t ∧ bare t.dev = bare s.dev ∧ ∀ e, e < 64 → t.dev.n Od.INTEG_LOG 0 e = 0) ∧
    (∀ e, e < 16 → ∃ t, exec (.ueLogClear e) s = .next t ∧ onlyWrites [Od.INTEG_UE_LOG.key 0 (2 * e), Od.INTEG_UE_LOG.key 0 (2 * e + 1)] s t ∧
      t.dev.n Od.INTEG_UE_LOG 0 (2 * e) = 0 ∧ t.dev.n Od.INTEG_UE_LOG 0 (2 * e + 1) = 0) ∧
    (∃ t, exec (.ueLogClear 0xFF) s = .next t ∧ outsideKept s t ∧ bare t.dev = bare s.dev ∧ ∀ e, e < 32 → t.dev.n Od.INTEG_UE_LOG 0 e = 0) ∧
    (∀ pos, pos < 4194304 → s.dev.retireListed pos = false → s.dev.n Od.INTEG_EM_RETIRED_COUNT 0 < 4096 →
      (bit (s.dev.emKey pos) 63 = false →
        ∃ t, exec (.emRetire pos) s = .next t ∧
          onlyWrites [Od.INTEG_EM_RETIRED_LIST.key 0 (s.dev.n Od.INTEG_EM_RETIRED_COUNT 0), Od.INTEG_EM_RETIRED_COUNT.key 0 0] s t ∧
          t.dev.n Od.INTEG_EM_RETIRED_LIST 0 (s.dev.n Od.INTEG_EM_RETIRED_COUNT 0) = pos ∧
          t.dev.n Od.INTEG_EM_RETIRED_COUNT 0 = s.dev.n Od.INTEG_EM_RETIRED_COUNT 0 + 1) ∧
      (∀ p, plainWords s.dev = true → bit (s.dev.emKey pos) 63 = true →
        ((ways (pos / 8 * 8)).find? fun p => p != pos && s.dev.emFree p) = some p →
        ∃ t, exec (.emRetire pos) s = .next t ∧ outsideKept s t ∧ t.dev.em = s.dev.em ∧
          t.dev.emPend = s.dev.emPend ++ [⟨p, s.dev.emKey pos, s.dev.emResult pos / 2 ^ 17 * 2 ^ 17, s.dev.emHitNow pos, s.dev.emSeenNow pos, []⟩,
            ⟨pos, 0, 0, 0, 0, []⟩] ∧
          t.dev.n Od.INTEG_EM_RETIRED_COUNT 0 = s.dev.n Od.INTEG_EM_RETIRED_COUNT 0 + 1)) ∧
    (∀ pos, pos < 4194304 → s.dev.n Od.INTEG_EM_RETIRED_COUNT 0 = 1 → s.dev.n Od.INTEG_EM_RETIRED_LIST 0 0 % 2 ^ 31 = pos →
      ∃ t, exec (.emUnretire pos) s = .next t ∧ outsideKept s t ∧ bare t.dev = bare s.dev ∧ t.dev.n Od.INTEG_EM_RETIRED_COUNT 0 = 0) := by
  refine ⟨?_, ?_, fun _ entry => ?_, ?_, fun _ entry => ?_, ?_, fun _ position unlisted room => ?_, fun _ position only listed => ?_⟩
  · exact ⟨_, exec_flipArm_opening running boundary, onlyWrites_flipArm s 1, Dev.n_put_same s.dev.silent Od.INTEG_FLIP_ARM 0 0 1 rfl⟩
  · exact ⟨_, exec_flipDisarm_opening running boundary, onlyWrites_flipArm s 0, Dev.n_put_same s.dev.silent Od.INTEG_FLIP_ARM 0 0 0 rfl⟩
  · exact ⟨_, exec_logClear_opening running boundary (.inl entry), onlyWrites_clearLog s Od.INTEG_LOG 32 entry⟩
  · exact ⟨_, exec_logClear_opening running boundary (.inr rfl), ⟨rfl, rfl, rfl⟩, bare_clearLog_all s Od.INTEG_LOG 32⟩
  · exact ⟨_, exec_ueLogClear_opening running boundary (.inl entry), onlyWrites_clearLog s Od.INTEG_UE_LOG 16 (entry.trans (by decide))⟩
  · exact ⟨_, exec_ueLogClear_opening running boundary (.inr rfl), ⟨rfl, rfl, rfl⟩, bare_clearLog_all s Od.INTEG_UE_LOG 16⟩
  · exact ⟨exec_emRetire_empty running boundary position unlisted room,
      fun _ plain held free => exec_emRetire_moves running boundary position unlisted room plain held free⟩
  · exact exec_emUnretire_only running boundary position only listed

end Sys2Proof.Machine

namespace Sys2Proof.Machine
open Sys2Proof.Safety

/-- Settles O1: `step` on a queue with a front command is `exec` of it, by definition. -/
theorem stepRunsTheFrontCommand : Obligations.StepRunsTheFrontCommand := fun _ _ _ => rfl

/-! SUPPORT. Scalars among other writes. -/

/-- Where a flag does not stand, its element reads 0. -/
theorem Dev.n_of_off {d : Dev} {o : Obj} {i e : Nat} (off : d.on o i e = false) : d.n o i e = 0 := by simpa [Dev.on] using off

theorem Dev.n_of_on {d : Dev} {o : Obj} {i e : Nat} (stands : d.on o i e = true) : d.n o i e ≠ 0 := by simpa [Dev.on] using stands

/-- An element other than the one put reads as before, compared by their keys. -/
theorem Dev.n_put_apart (d : Dev) {o q : Obj} {i j v e f : Nat} (apart : o.key i e ≠ q.key j f) : (d.put o i v e).n q j f = d.n q j f :=
  Dev.n_put_other _ _ _ _ _ _ _ _ apart

theorem Dev.get_put_apart (d : Dev) {o q : Obj} {i j v e f : Nat} (apart : o.key i e ≠ q.key j f) : (d.put o i v e).get q j f = d.get q j f :=
  Dev.get_put_other _ _ _ _ _ _ _ _ apart

theorem Dev.n_bump_apart (d : Dev) {o q : Obj} {i j n e f : Nat} (apart : o.key i e ≠ q.key j f) : (d.bump o i n e).n q j f = d.n q j f :=
  Dev.n_put_apart d apart

theorem ObjTy.norm_u32 {v : Nat} (h : v < 2 ^ 32) : ObjTy.norm .u32 v = v := by simp only [ObjTy.norm]; omega

/-! SUPPORT. The event recorder: the close of an accumulator (R499), the writer's turn (R502, R503), a clear (R504). -/

/-- The one open accumulator, due and with room for its record. -/
theorem Dev.closeDue_only {k : Clk} {d : Dev} {a : Acc} (only : d.accs = [a]) (due : d.due k a = true) (room : d.recQ.length < 64) :
    d.closeDue k a.code = { d with accs := [], recQ := d.recQ ++ [a.bytes] } := by
  simp [Dev.closeDue, Dev.closeAcc, Dev.queueRecord, only, due, room]

theorem exec_accumulatorClose_due {s : State} (running : ready s = true) {a : Acc} (only : s.dev.accs = [a])
    (due : a.first + max 1 (s.dev.n Od.REC_CODE_HOLD a.code) ≤ s.clk.tick) (room : s.dev.recQ.length < 64) :
    exec (.accumulatorClose a.code) s = .next { s with dev := { s.dev.silent with accs := [], recQ := s.dev.recQ ++ [a.bytes] } } :=
  State.run_eq running (Dev.closeDue_only (d := s.dev.silent) only (decide_eq_true due) room)

/-- The writer has its turn, with a record waiting. -/
def Dev.writerTurn (k : Clk) (d : Dev) : Prop :=
  d.recQ ≠ [] ∧ d.on Rg.REC_CLEARING 0 = false ∧ (d.n Rg.REC_LAST 0 = 0 ∨ d.n Rg.REC_LAST 0 < k.tick)

theorem exec_recordWrite_turn {s : State} (running : ready s = true) (turn : s.dev.writerTurn s.clk) :
    exec .recordWrite s = .next { s with dev := s.dev.silent.recTake.put Rg.REC_LAST 0 (s.clk.tick + 1) } := by
  obtain ⟨waits, wiping, rested⟩ := turn
  refine State.run_eq running (if_neg ?_)
  simp only [Dev.silent_recQ, Dev.on_silent, Dev.n_silent, wiping, Bool.or_false, Bool.or_eq_true, List.isEmpty_iff, waits, false_or, Bool.and_eq_true]
  rintro ⟨stands, soon⟩
  have := Dev.n_of_on stands
  have := of_decide_eq_true soon
  omega

/-- The writer stores the oldest record: it stands at the write index. -/
def Dev.recStored (r : List Byte) (l : List (List Byte)) (d : Dev) : Dev := ({ d with recQ := l } : Dev).recPut (d.n Od.REC_WRITE_INDEX 0) r

theorem Dev.recTake_stores {d : Dev} {r : List Byte} {l : List (List Byte)} (oldest : d.recQ = r :: l) (room : d.on Od.REC_FULL 0 = false) :
    d.recTake = (d.recStored r l).recAdvance.cause 35 := by
  unfold Dev.recTake
  rw [oldest]
  exact if_neg (by rw [show ({ d with recQ := l } : Dev).on Od.REC_FULL 0 = d.on Od.REC_FULL 0 from rfl, room]; decide)

theorem Dev.recTake_loses {d : Dev} {r : List Byte} {l : List (List Byte)} (oldest : d.recQ = r :: l) (full : d.on Od.REC_FULL 0 = true) :
    d.recTake = ({ d with recQ := l } : Dev).bump Od.REC_LOST_FULL 0 := by
  unfold Dev.recTake
  rw [oldest]
  exact if_pos full

/-- Bytes put at an index stand there. -/
theorem Dev.mram_recPut (d : Dev) (i : Nat) (r : List Byte) : (d.recPut i r).mram[i]? = some r := by
  simp only [Dev.recPut]
  rw [List.getElem?_set_self]
  simp only [List.length_append, List.length_replicate]
  omega

/-- An advance moves the write index alone, but at the end of the store. -/
theorem Dev.recAdvance_reads {d : Dev} (inside : d.n Od.REC_WRITE_INDEX 0 < 131072) (room : d.on Od.REC_FULL 0 = false) :
    d.recAdvance.mram = d.mram ∧ d.recAdvance.recQ = d.recQ ∧ d.recAdvance.n Od.REC_WRITE_INDEX 0 = d.n Od.REC_WRITE_INDEX 0 + 1 ∧
      d.recAdvance.n Od.REC_FULL 0 = if d.n Od.REC_WRITE_INDEX 0 = 131071 then 1 else 0 := by
  have moved : (d.put Od.REC_WRITE_INDEX 0 (d.n Od.REC_WRITE_INDEX 0 + 1)).n Od.REC_WRITE_INDEX 0 = d.n Od.REC_WRITE_INDEX 0 + 1 :=
    Dev.n_put_same _ _ _ _ _ (ObjTy.norm_u32 (by omega))
  by_cases last : d.n Od.REC_WRITE_INDEX 0 = 131071
  · rw [Dev.recAdvance, if_pos (by rw [last]; rfl), if_pos last]
    exact ⟨rfl, rfl, by rw [Dev.n_put_apart _ (by decide), Dev.n_put_apart _ (by decide), moved],
      by rw [Dev.n_put_apart _ (by decide)]; exact Dev.n_put_same _ _ _ _ _ rfl⟩
  · rw [Dev.recAdvance, if_neg (by rw [recMax]; omega), if_neg last]
    exact ⟨rfl, rfl, moved, (Dev.n_put_apart _ (by decide)).trans (Dev.n_of_off room)⟩

theorem exec_recClear_begins {s : State} (running : ready s = true) (boundary : s.clk.c = 0) (wiping : s.dev.on Rg.REC_CLEARING 0 = false) :
    exec .recClear s = .next { s with dev := ((s.dev.silent.put Rg.REC_CLEARING 0 (s.clk.tick + 1)).put Od.REC_STATE 0 2).atOpen } :=
  State.rowD_eq running boundary rfl _ (if_neg (by rw [Dev.on_silent, wiping]; decide))

theorem exec_recClearDone_wiped {s : State} (running : ready s = true) (wiping : s.dev.on Rg.REC_CLEARING 0 = true)
    (wiped : s.dev.recWiped s.clk = s.dev.n Od.REC_WRITE_INDEX 0) :
    exec .recClearDone s = .next { s with dev := (((({ s.dev.silent with mram := s.dev.recStore s.clk } : Dev).put Od.REC_WRITE_INDEX 0 0).put
      Od.REC_FULL 0 0).put Od.REC_STATE 0 0).put Rg.REC_CLEARING 0 0 } := by
  refine State.run_eq running (if_pos ?_)
  rw [Dev.on_silent, wiping, Bool.true_and, beq_iff_eq]
  exact wiped

/-- Settles O41: the accumulator's record joins the queue (`Dev.closeDue_only`), the writer stores or loses the oldest (`Dev.recTake_stores`,
`Dev.recTake_loses`), and a clear is its objects' writes. -/
theorem eventsAreRecorded : Obligations.EventsAreRecorded := by
  intro s running
  refine ⟨fun a only due room => ?_, fun r l oldest wiping rested => ⟨fun open_ inside => ?_, fun full => ?_⟩, fun boundary wiping => ?_,
    fun wiping wiped => ?_, ?_⟩
  · exact ⟨_, exec_accumulatorClose_due running only due room, onlyWrites_of (s := { s with dev := _ }) (Dev.wrote_silent _ _)⟩
  · obtain ⟨store, queue, index, last⟩ := Dev.recAdvance_reads (d := s.dev.silent.recStored r l) inside open_
    refine ⟨_, exec_recordWrite_turn running ⟨by simp [oldest], wiping, rested⟩, ⟨rfl, rfl, rfl⟩, ?_⟩
    rw [Dev.recTake_stores (d := s.dev.silent) oldest open_]
    refine ⟨queue, ?_, ?_, ?_, Dev.n_put_wide _ rfl _ _⟩
    · exact (congrArg (·[s.dev.n Od.REC_WRITE_INDEX 0]?) store).trans (Dev.mram_recPut _ _ _)
    · exact ((Dev.n_put_apart _ (by decide)).trans (Dev.n_cause _ _ (by decide))).trans index
    · exact ((Dev.n_put_apart _ (by decide)).trans (Dev.n_cause _ _ (by decide))).trans last
  · refine ⟨_, exec_recordWrite_turn running ⟨by simp [oldest], wiping, rested⟩, ?_⟩
    rw [Dev.recTake_loses (d := s.dev.silent) oldest full]
    refine ⟨onlyWrites_of (s := { s with dev := _ }) (Dev.wrote_put (Dev.wrote_bump (Dev.wrote_silent _ _) _ _ _ _ (by simp)) _ _ _ _ (by simp)), ?_⟩
    exact (Dev.n_put_apart _ (by decide)).trans (Dev.n_bump_same _ _ _ _ fun _ => ObjTy.norm_u64_top)
  · refine ⟨_, exec_recClear_begins running boundary wiping, onlyWrites_of (Dev.wrote_atOpen ?_), ?_, ?_⟩
    · iterate 2 refine Dev.wrote_put ?_ _ _ _ _ (by simp)
      exact Dev.wrote_silent _ _
    · rw [Dev.n_atOpen, Dev.n_put_apart _ (by decide), Dev.n_put_wide _ rfl]
    · rw [Dev.n_atOpen]
      exact Dev.n_put_same _ _ _ _ _ rfl
  · refine ⟨_, exec_recClearDone_wiped running wiping wiped, onlyWrites_of (s := { s with dev := _ }) ?_, ?_, ?_, ?_, Dev.n_put_wide _ rfl _ _⟩
    · iterate 4 refine Dev.wrote_put ?_ _ _ _ _ (by simp)
      exact Dev.wrote_silent _ _
    all_goals
      simp (disch := decide) only [Dev.n_put_apart]
      exact Dev.n_put_same _ _ _ _ _ rfl
  · exact ⟨_, State.run_eq running rfl, onlyWrites_of (Dev.wrote_emit (Dev.wrote_silent _ _) _), rfl⟩

end Sys2Proof.Machine

namespace Sys2Proof.Machine
open Sys2Proof.Safety

/-! SUPPORT. Objects and instances cleared among other writes. -/

/-- What a filter by keys leaves reads as before under every key that it took from nothing. -/
theorem Store.find_filter_keys (st : Store) (p : Nat → Bool) {k : Nat} (untaken : k ∉ (st.filter fun x => !p x.1).map Prod.fst) :
    Store.find (st.filter fun x => p x.1) k = st.find k := by
  cases kept : p k with
  | true => exact Store.find_filter st _ k fun _ => kept
  | false =>
    have absent : ∀ v, (k, v) ∉ st := fun v listed => untaken (List.mem_map.mpr ⟨(k, v), List.mem_filter.mpr ⟨listed, by simp [kept]⟩, rfl⟩)
    rw [Store.find_filter_none st _ k fun _ => kept]
    induction st with
    | nil => rfl
    | cons x t ih =>
      obtain ⟨a, w⟩ := x
      have other : a ≠ k := fun same => absent w (by simp [same])
      rw [Store.find, if_neg other]
      exact ih (fun taken => untaken (by rw [List.filter_cons]; split <;> simp_all)) fun v listed => absent v (List.mem_cons_of_mem _ listed)

/-- A clearing of elements by their keys is a write of those that stood away from their defaults. -/
theorem Dev.wrote_filter {keys : List Nat} {d e : Dev} (h : d.wrote keys e) (p : Nat → Bool)
    (sub : ∀ k ∈ e.objs.map Prod.fst, p k = false → k ∈ keys) : d.wrote keys { e with objs := e.objs.filter fun x => p x.1 } := by
  obtain ⟨objs, reads⟩ := h
  refine ⟨objs, fun o i f unwritten => (congrArg (fun v : Option Int => v.getD (o.default i f)) (Store.find_filter_keys e.objs p fun taken => unwritten ?_)).trans (reads o i f unwritten)⟩
  obtain ⟨x, member, same⟩ := List.mem_map.mp taken
  obtain ⟨listed, gone⟩ := List.mem_filter.mp member
  rw [← same]
  exact sub x.1 (List.mem_map_of_mem listed) (by simpa using gone)

theorem Dev.touched_filter {objs : List Obj} {d e : Dev} (h : d.touched objs e) (p : Nat → Bool)
    (known : ∀ k, p k = false → ∃ q ∈ objs, ∃ i f, i < 65536 ∧ f < 65536 ∧ k = q.key i f) :
    d.touched objs { e with objs := e.objs.filter fun x => p x.1 } := by
  obtain ⟨keys, within, wrote⟩ := h
  refine ⟨keys ++ (e.objs.map Prod.fst).filter fun k => !p k, fun k member => ?_, ?_⟩
  · rcases List.mem_append.mp member with written | cleared
    · exact within k written
    · exact known k (by simpa using (List.mem_filter.mp cleared).2)
  · refine Dev.wrote_filter (Dev.wrote_mono wrote (List.subset_append_left _ _)) p fun k listed gone => ?_
    exact List.mem_append_right _ (List.mem_filter.mpr ⟨listed, by simp [gone]⟩)

theorem Dev.touched_clearObj {objs : List Obj} {d e : Dev} (h : d.touched objs e) {o : Obj} (known : o ∈ objs) : d.touched objs (e.clearObj o) := by
  refine Dev.touched_filter h (fun k => !(keyObj k == o.idx * 256 + o.sub)) fun k cleared => ?_
  have here : k / 4294967296 = o.idx * 256 + o.sub := by simpa [keyObj] using cleared
  exact ⟨o, known, k / 65536 % 65536, k % 65536, by omega, by omega, by unfold Obj.key; omega⟩

/-- An object that a clearing names reads its defaults. -/
theorem Dev.get_clearObj_default (d : Dev) (o : Obj) {i f : Nat} (hi : i < 65536) (hf : f < 65536) : (d.clearObj o).get o i f = o.default i f := by
  have here : keyObj (o.key i f) = o.idx * 256 + o.sub := by unfold keyObj Obj.key; omega
  have gone : Store.find (d.clearObj o).objs (o.key i f) = none := Store.find_filter_none _ _ _ (by simp [here])
  rw [Dev.get, Store.rd, gone, Option.getD_none]

theorem Dev.wrote_clearInst {keys : List Nat} {d e : Dev} (h : d.wrote keys e) (o : Obj) (i : Nat) (sub : ∀ f, f < 65536 → o.key i f ∈ keys) :
    d.wrote keys (e.clearInst o i) := by
  refine Dev.wrote_filter h (fun k => !(k / 65536 == (o.idx * 256 + o.sub) * 65536 + i)) fun k _ cleared => ?_
  have here : k / 65536 = (o.idx * 256 + o.sub) * 65536 + i := by simpa using cleared
  have same : o.key i (k % 65536) = k := by unfold Obj.key; omega
  exact same ▸ sub _ (by omega)

/-! SUPPORT. Holds of a pipeline (R485, R539, R542, R606): what counting and lengthening them writes. -/

/-- The objects of a pipeline's holds and of the counts of R485. -/
def holdObjs : List Obj := [Od.SLOT_COUNTS, Rg.SLOT_USED, Rg.HOLD_FROM, Rg.HOLD_FLUSH, Rg.HOLD_STALL, Rg.HOLD_BANK, Rg.HOLD_PULSE]

/-- The elements of one pipeline among them. -/
def pipeHoldKeys (p : Nat) : List Nat := holdObjs.flatMap fun o => (List.range 9).map (o.key p)

theorem mem_pipeHoldKeys {o : Obj} (known : o ∈ holdObjs) (p : Nat) {e : Nat} (elem : e < 9) : o.key p e ∈ pipeHoldKeys p :=
  List.mem_flatMap.mpr ⟨o, known, List.mem_map_of_mem (List.mem_range.mpr elem)⟩

theorem pipeHoldKeys_within {p : Nat} (pipe : p < 65536) : keysWithin holdObjs (pipeHoldKeys p) := by
  intro k member
  obtain ⟨o, known, listed⟩ := List.mem_flatMap.mp member
  obtain ⟨e, elem, rfl⟩ := List.mem_map.mp listed
  exact ⟨o, known, p, e, pipe, by have := List.mem_range.mp elem; omega, rfl⟩

/-- Another pipeline's elements are none of them. -/
theorem notin_pipeHoldKeys {o : Obj} {p q f : Nat} (pipe : p < 64) (other : q < 64) (apart : q ≠ p) (hf : f < 65536) : o.key q f ∉ pipeHoldKeys p := by
  intro member
  obtain ⟨x, known, listed⟩ := List.mem_flatMap.mp member
  obtain ⟨e, elem, same⟩ := List.mem_map.mp listed
  have := List.mem_range.mp elem
  unfold Obj.key at same
  omega

theorem Dev.slot_wrote {d e : Dev} {p : Nat} (h : d.wrote (pipeHoldKeys p) e) {es : List Nat} (elems : ∀ x ∈ es, x < 9) (n : Nat) :
    d.wrote (pipeHoldKeys p) (e.slot p es n) := by
  refine Dev.wrote_put (Dev.wrote_each es (fun a x member so => ?_) h) _ _ _ _ (mem_pipeHoldKeys (by simp [holdObjs]) p (by decide))
  exact Dev.wrote_bump so _ _ _ _ (mem_pipeHoldKeys (by simp [holdObjs]) p (elems x member))

theorem Dev.holdCount_wrote (k : Clk) (p : Nat) {d e : Dev} (h : d.wrote (pipeHoldKeys p) e) : d.wrote (pipeHoldKeys p) (e.holdCount k p) := by
  have scalar {o : Obj} (known : o ∈ holdObjs) : o.key p 0 ∈ pipeHoldKeys p := mem_pipeHoldKeys known p (by decide)
  unfold Dev.holdCount
  dsimp only
  split
  · exact h
  · refine Dev.wrote_each _ (fun a o known so => Dev.wrote_ite (Dev.wrote_put so _ _ _ _ (scalar ?_)) so) ?_
    · simp only [List.mem_cons, List.not_mem_nil, or_false] at known
      rcases known with rfl | rfl | rfl | rfl <;> simp [holdObjs]
    · refine Dev.wrote_put ?_ _ _ _ _ (scalar (by simp [holdObjs]))
      iterate 4 refine Dev.slot_wrote ?_ (by simp) _
      exact h

section
variable {o : Obj} (known : o ∈ holdObjs)
include known

theorem Dev.hold_wrote (k : Clk) (p until_ : Nat) {d e : Dev} (h : d.wrote (pipeHoldKeys p) e) : d.wrote (pipeHoldKeys p) (e.hold k o p until_) := by
  refine Dev.wrote_put (Dev.wrote_put (Dev.holdCount_wrote k p h) _ _ _ _ ?_) _ _ _ _ (mem_pipeHoldKeys known p (by decide))
  exact mem_pipeHoldKeys (by simp [holdObjs]) p (by decide)

theorem Dev.hold_touched (k : Clk) {p : Nat} (pipe : p < 65536) (until_ : Nat) (d : Dev) : d.touched holdObjs (d.hold k o p until_) :=
  ⟨pipeHoldKeys p, pipeHoldKeys_within pipe, Dev.hold_wrote known k p until_ (Dev.wrote_refl _ d)⟩

omit known in
/-- A hold lasts at least to the clock named. -/
theorem Dev.n_hold_same (wide : o.ty = .wide) (k : Clk) (p until_ : Nat) (d : Dev) : until_ ≤ (d.hold k o p until_).n o p := by
  rw [Dev.hold, Dev.n_put_wide _ wide]
  exact Nat.le_max_left _ _

theorem Dev.n_hold_other (k : Clk) {p q : Nat} (pipe : p < 64) (other : q < 64) (apart : q ≠ p) (until_ : Nat) (d : Dev) :
    (d.hold k o p until_).n o q = d.n o q :=
  Dev.wrote_n (Dev.hold_wrote known k p until_ (Dev.wrote_refl _ d)) (notin_pipeHoldKeys pipe other apart (by decide))

/-- Of pipelines held in turn each is held so long. -/
theorem Dev.n_each_hold (wide : o.ty = .wide) (k : Clk) (until_ : Nat) (l : List Nat) (pipes : ∀ p ∈ l, p < 64) {p : Nat} (pipe : p < 64) {d : Dev}
    (held : p ∈ l ∨ until_ ≤ d.n o p) : until_ ≤ (d.each l fun d p => d.hold k o p until_).n o p := by
  induction l generalizing d with
  | nil => simpa using held
  | cons q l ih =>
    refine ih (fun x member => pipes x (by simp [member])) ?_
    by_cases here : p = q
    · exact .inr (here ▸ Dev.n_hold_same wide k p until_ d)
    · exact (held.imp_left fun member => (List.mem_cons.mp member).resolve_left here).imp_right fun so =>
        so.trans_eq (Dev.n_hold_other known k (pipes q (by simp)) pipe here until_ d).symm

theorem Dev.each_hold_touched (k : Clk) (until_ : Nat) (l : List Nat) (pipes : ∀ p ∈ l, p < 65536) (d : Dev) :
    d.touched holdObjs (d.each l fun d p => d.hold k o p until_) :=
  Dev.each_keeps (P := d.touched holdObjs) l (fun e p member so =>
    Dev.touched_mono (Dev.touched_trans so (Dev.hold_touched known k (pipes p member) until_ e)) (by simp)) (Dev.touched_refl _ d)

end

/-! SUPPORT. The perturbation engine (R536 to R546). -/

/-- The objects that a return to normal lifts besides its entries (R546). -/
def liftObjs : List Obj := holdObjs ++ [Rg.PORT_PULSE, Rg.PULSE_UNIT, Rg.PULSE_UNTIL]

/-- The release clocks of the copies in the queues are lifted (R546). -/
def Dev.released (d : Dev) : Dev := { d with copies := d.copies.map fun (c : Copy) => { c with release := 0 } }

theorem Dev.perturbLift_touched (k : Clk) (d : Dev) : d.released.touched liftObjs (d.perturbLift k) := by
  have counted : d.released.touched liftObjs (d.released.each (List.range 64) (Dev.holdCount k)) :=
    Dev.each_keeps (P := d.released.touched liftObjs) _ (fun e p member so => by
      have pipe := List.mem_range.mp member
      have wrote := Dev.holdCount_wrote k p (Dev.wrote_refl (pipeHoldKeys p) e)
      exact Dev.touched_mono (Dev.touched_trans so ⟨_, pipeHoldKeys_within (by omega), wrote⟩) (by simp [liftObjs])) (Dev.touched_refl _ _)
  refine Dev.each_keeps (P := d.released.touched liftObjs) _ (fun e o member so => Dev.touched_clearObj so ?_) counted
  simp only [List.mem_cons, List.not_mem_nil, or_false] at member
  rcases member with rfl | rfl | rfl | rfl | rfl <;> simp [liftObjs, holdObjs]

/-- Objects cleared in turn read their defaults. -/
theorem Dev.get_each_clearObj {l : List Obj} {o : Obj} (known : o ∈ l) {i f : Nat} (hi : i < 65536) (hf : f < 65536) (d : Dev) :
    (d.each l Dev.clearObj).get o i f = o.default i f := by
  induction l generalizing d with
  | nil => simp at known
  | cons q l ih =>
    by_cases later : o ∈ l
    · exact ih later _
    · obtain rfl : o = q := (List.mem_cons.mp known).resolve_right later
      refine Dev.each_keeps (P := fun e : Dev => e.get o i f = o.default i f) l (fun e x member so => ?_) (Dev.get_clearObj_default d o hi hf)
      by_cases same : o.idx * 256 + o.sub = x.idx * 256 + x.sub
      · have key : keyObj (o.key i f) = x.idx * 256 + x.sub := by rw [← same]; unfold keyObj Obj.key; omega
        have gone : Store.find (e.clearObj x).objs (o.key i f) = none := Store.find_filter_none _ _ _ (by simp [key])
        rw [Dev.get, Store.rd, gone, Option.getD_none]
      · exact (Dev.get_touched (Dev.touched_clearObj (Dev.touched_refl [x] e) (by simp)) hi hf (by simpa using same)).trans so

/-- An object of the engine's entries lies in its own part of the dictionary (R547). -/
theorem perturbObj_idx {o : Obj} (known : o ∈ perturbObjs) : 0x9800 ≤ o.idx ∧ o.idx ≤ 0x98FF := by
  have admitted := (List.mem_filter.mp known).2
  simp only [Bool.and_eq_true, decide_eq_true_eq] at admitted
  exact admitted.1.1

theorem perturbObj_sub {o : Obj} (known : o ∈ perturbObjs) : o.sub < 256 := by
  have bounded : ∀ q ∈ Od.all, q.sub < 256 := by decide +kernel
  exact bounded o (List.mem_filter.mp known).1

theorem perturbObj_apart {o : Obj} (known : o ∈ perturbObjs) : ∀ q ∈ liftObjs, o.idx * 256 + o.sub ≠ q.idx * 256 + q.sub := by
  have elsewhere : ∀ q ∈ liftObjs, q.idx * 256 + q.sub < 0x980000 ∨ 0x990000 ≤ q.idx * 256 + q.sub := by decide
  intro q lifted same
  have := elsewhere q lifted
  have := perturbObj_idx known
  have := perturbObj_sub known
  omega

section
variable (k : Clk) (l : List Obj) (d : Dev)

/-- Objects cleared ahead of the lifting, and apart from what it lifts, read their defaults after it. -/
theorem Dev.get_cleared_lifted {l : List Obj} {o : Obj} (known : o ∈ l) (apart : ∀ q ∈ liftObjs, o.idx * 256 + o.sub ≠ q.idx * 256 + q.sub) {i f : Nat}
    (hi : i < 65536) (hf : f < 65536) : ((d.each l Dev.clearObj).perturbLift k).get o i f = o.default i f := by
  have lifted := Dev.perturbLift_touched k (d.each l Dev.clearObj)
  exact (Dev.get_touched lifted hi hf apart).trans (Dev.get_each_clearObj known hi hf d)

theorem Dev.bare_cleared_lifted : bare ((d.each l Dev.clearObj).perturbLift k) = bare d.released := by
  have cleared : d.objsOnly (d.each l Dev.clearObj) := Dev.objsOnly_each l Dev.clearObj (fun _ _ _ => rfl) d
  have lifted := Dev.touched_objsOnly (Dev.perturbLift_touched k (d.each l Dev.clearObj))
  have same : bare (d.each l Dev.clearObj) = bare d := cleared
  exact Eq.trans lifted (congrArg (fun b : Dev => b.released) same)

end

/-- A clear leaves every object of the engine's entries at its default. -/
theorem Dev.get_perturbClear (k : Clk) {o : Obj} (known : o ∈ perturbObjs) {i f : Nat} (hi : i < 65536) (hf : f < 65536) (d : Dev) :
    (d.perturbClear k).get o i f = o.default i f := by
  rw [Dev.perturbClear]
  exact Dev.get_cleared_lifted k d known (perturbObj_apart known) hi hf

theorem Dev.perturbClear_bare (k : Clk) (d : Dev) : bare (d.perturbClear k) = bare d.released := by
  rw [Dev.perturbClear]
  exact Dev.bare_cleared_lifted k perturbObjs d

section
variable {s : State} (running : ready s = true)
include running

theorem exec_perturbLock_opening (boundary : s.clk.c = 0) : exec .perturbLock s = .next { s with dev := (s.dev.silent.put Od.PERTURB_LOCK 0 1).atOpen } := by
  change execPerturbLock s = _
  unfold execPerturbLock
  exact State.rowD_eq running boundary rfl _ rfl

theorem exec_perturbClear_opening (live : s.dev.replaying = false) (boundary : s.clk.c = 0) :
    exec .perturbClear s = .next { s with dev := (s.dev.silent.perturbClear s.clk).atOpen } := by
  change execPerturbClear s = _
  unfold execPerturbClear
  refine State.rowD_eq running boundary rfl _ ?_
  rw [Dev.rk_live (d := s.dev.silent) live s.clk]

variable {e : Nat} (entry : e < 64)
include entry

theorem exec_pulseStart_due (live : s.dev.replaying = false) (due : s.dev.pulseDue s.clk e = true) (clock : s.clk.c = s.dev.n Od.PERTURB_PULSE_OFFSET e) :
    exec (.pulseStart e) s = .next { s with dev := s.dev.silent.pulseStart s.clk e } := by
  refine State.runIf_eq running (decide_eq_true entry) ?_
  rw [Dev.rk_live (d := s.dev.silent) live s.clk]
  refine if_pos ?_
  rw [Bool.and_eq_true, beq_iff_eq]
  exact ⟨due, clock⟩

/-- The end of a pulse on a port. -/
theorem exec_pulseEnd_port (live : s.dev.replaying = false) (port : 65536 < s.dev.n Rg.PULSE_UNIT e) (passed : s.dev.n Rg.PULSE_UNTIL e ≤ s.clk.clock) :
    exec (.pulseEnd e) s = .next { s with dev := (s.dev.silent.clearInst Rg.PULSE_UNIT e).clearInst Rg.PULSE_UNTIL e } := by
  refine State.runIf_eq running (decide_eq_true entry) ?_
  rw [Dev.rk_live (d := s.dev.silent) live s.clk]
  have stands : s.dev.silent.on Rg.PULSE_UNIT e = true := by rw [Dev.on_silent, Dev.on, bne_iff_ne]; omega
  refine (if_pos (by rw [stands, Bool.true_and]; exact decide_eq_true passed)).trans ?_
  dsimp only
  rw [if_neg (by rw [Dev.n_silent]; omega)]

end

theorem exec_epochStall_due {s : State} (running : ready s = true) {e : Nat} (entry : e < 8) (live : s.dev.replaying = false)
    (due : s.dev.stallDue s.clk e = true) (opening : s.clk.c = 0) :
    exec (.epochStall e) s = .next { s with dev := s.dev.silent.stallStart s.clk e } := by
  refine State.runIf_eq running (decide_eq_true entry) ?_
  rw [Dev.rk_live (d := s.dev.silent) live s.clk]
  refine if_pos ?_
  rw [Bool.and_eq_true, beq_iff_eq]
  exact ⟨due, opening⟩

/-- The entry of a pulse as it starts, its unit not yet held (R539). -/
def Dev.pulseNoted (k : Clk) (e : Nat) (d : Dev) : Dev :=
  (d.put Rg.PULSE_UNIT e ((if d.n Od.PERTURB_PULSE_TARGET e == 1 then 65536 else 0) + d.n Od.PERTURB_PULSE_UNIT e + 1)).put Rg.PULSE_UNTIL e
    (k.clock + d.n Od.PERTURB_PULSE_LENGTH e)

section
variable {k : Clk} {d : Dev} {e : Nat} (entry : e < 64)
include entry

theorem Dev.n_pulseNoted_unit : (d.pulseNoted k e).n Rg.PULSE_UNIT e =
    (if d.n Od.PERTURB_PULSE_TARGET e == 1 then 65536 else 0) + d.n Od.PERTURB_PULSE_UNIT e + 1 :=
  (Dev.n_put_apart _ (Obj.key_ne (by decide) (by omega) (by omega) (by decide) (by decide))).trans (Dev.n_put_wide _ rfl _ _)

theorem Dev.pulseNoted_touched : d.touched [Rg.PULSE_UNIT, Rg.PULSE_UNTIL] (d.pulseNoted k e) := by
  unfold Dev.pulseNoted
  iterate 2 refine Dev.touched_put ?_ (by simp) (by omega) (by decide) _
  exact Dev.touched_refl _ d

omit entry in
theorem Dev.pulseStart_port (port : d.n Od.PERTURB_PULSE_TARGET e = 1) : d.pulseStart k e = (d.pulseNoted k e).put Rg.PORT_PULSE
    (d.n Od.PERTURB_PULSE_UNIT e) (max (k.clock + d.n Od.PERTURB_PULSE_LENGTH e) ((d.pulseNoted k e).n Rg.PORT_PULSE (d.n Od.PERTURB_PULSE_UNIT e))) := by
  unfold Dev.pulseStart
  simp only [port, beq_self_eq_true, if_true]
  simp only [Dev.pulseNoted, port, beq_self_eq_true, if_true]

omit entry in
theorem Dev.pulseStart_pipe (pipe : d.n Od.PERTURB_PULSE_TARGET e = 0) : d.pulseStart k e =
    (d.pulseNoted k e).hold k Rg.HOLD_PULSE (d.n Od.PERTURB_PULSE_UNIT e) (k.clock + d.n Od.PERTURB_PULSE_LENGTH e) := by
  unfold Dev.pulseStart
  simp [Dev.pulseNoted, pipe]

end

/-- Settles O42: the lock is one write, a clear returns every entry's object (`Dev.get_perturbClear`), and pulses and stalls lengthen holds
(`Dev.n_hold_same`, `Dev.n_each_hold`). -/
theorem perturbationRuns : Obligations.PerturbationRuns := by
  intro s running live
  refine ⟨fun boundary => ?_, fun boundary => ?_, fun e u entry due clock unit => ⟨fun target port => ?_, fun target pipe => ?_⟩,
    fun e entry port passed => ?_, fun e p entry pipe due boundary named => ?_⟩
  · exact ⟨_, exec_perturbLock_opening running boundary, onlyWrites_of (Dev.wrote_atOpen (Dev.wrote_put (Dev.wrote_silent _ _) _ _ _ _ (by simp))),
      (Dev.n_atOpen _ _ _ _).trans (Dev.n_put_same _ _ _ _ _ rfl)⟩
  · exact ⟨_, exec_perturbClear_opening running live boundary, ⟨rfl, rfl, rfl⟩, (bare_atOpen _).trans (Dev.perturbClear_bare _ _),
      fun o known i f hi hf => (Dev.get_atOpen _ _ _ _).trans (Dev.get_perturbClear _ known hi hf _)⟩
  · subst unit
    refine ⟨_, exec_pulseStart_due running entry live due clock, ?_⟩
    rw [Dev.pulseStart_port (d := s.dev.silent) target, Dev.n_silent]
    refine ⟨onlyWrites_of ?_, ?_, ?_, ?_⟩
    · iterate 3 refine Dev.wrote_put ?_ _ _ _ _ (by simp)
      exact Dev.wrote_silent _ _
    · refine (Dev.n_put_apart _ (Obj.key_ne (by decide) (by omega) (by omega) (by decide) (by decide))).trans ((Dev.n_pulseNoted_unit entry).trans ?_)
      rw [Dev.n_silent, target]
      rfl
    · exact (Dev.n_put_apart _ (Obj.key_ne (by decide) (by omega) (by omega) (by decide) (by decide))).trans (Dev.n_put_wide _ rfl _ _)
    · refine (Dev.n_put_wide _ rfl _ _).trans ?_
      rw [Dev.n_touched (Dev.pulseNoted_touched entry) (by omega) (by decide) (by decide)]
      rfl
  · subst unit
    have held := Dev.hold_touched (o := Rg.HOLD_PULSE) (by simp [holdObjs]) s.clk (show s.dev.n Od.PERTURB_PULSE_UNIT e < 65536 by omega)
      (s.clk.clock + s.dev.n Od.PERTURB_PULSE_LENGTH e) (s.dev.silent.pulseNoted s.clk e)
    refine ⟨_, exec_pulseStart_due running entry live due clock, ⟨rfl, rfl, rfl⟩, ?_⟩
    rw [Dev.pulseStart_pipe (d := s.dev.silent) target]
    refine ⟨(Dev.touched_objsOnly held).trans (Dev.touched_objsOnly (Dev.pulseNoted_touched entry)), ?_, Dev.n_hold_same rfl _ _ _ _⟩
    refine (Dev.n_touched held (by omega) (by decide) (by decide)).trans ((Dev.n_pulseNoted_unit entry).trans ?_)
    rw [Dev.n_silent, target, Dev.n_silent]
    exact congrArg (· + 1) (Nat.zero_add _)
  · refine ⟨_, exec_pulseEnd_port running entry live port passed, ⟨rfl, rfl, rfl⟩, rfl, ?_, ?_⟩
    · refine congrArg Int.toNat ((Dev.get_clearInst_other _ _ _ _ _ _ ?_).trans (Dev.get_clearInst_default _ _ _ _ _ _ (Obj.key_inst _ _ (by decide))))
      rw [Obj.key_inst _ _ (by decide)]
      simp only [Rg.PULSE_UNIT, Rg.PULSE_UNTIL, rg]
      omega
    · exact congrArg Int.toNat (Dev.get_clearInst_default _ _ _ _ _ _ (Obj.key_inst _ _ (by decide)))
  · have pipes : ∀ q ∈ (List.range 64).filter (bit (s.dev.n Od.PERTURB_STALL_PIPELINES e)), q < 64 :=
      fun q member => List.mem_range.mp (List.mem_filter.mp member).1
    refine ⟨_, exec_epochStall_due running entry live due boundary, ⟨rfl, rfl, rfl⟩, ?_, ?_⟩
    · exact Dev.touched_objsOnly (Dev.each_hold_touched (o := Rg.HOLD_STALL) (by simp [holdObjs]) s.clk _ _
        (fun q member => (pipes q member).trans (by decide)) s.dev.silent)
    · exact Dev.n_each_hold (o := Rg.HOLD_STALL) (by simp [holdObjs]) rfl s.clk _ _ pipes pipe
        (.inl (List.mem_filter.mpr ⟨List.mem_range.mpr pipe, named⟩))

end Sys2Proof.Machine

namespace Sys2Proof.Machine
open Sys2Proof.Safety

/-! SUPPORT. The host interface with nothing under way (R583, R594), and rings disabled of a device that holds no buffer (R595, R601). -/

/-- A ring of which nothing waits writes nothing. -/
theorem Dev.pumpAll_idle {d : Dev} (commands : d.hcmds = []) (held : d.backlog = []) (k : Clk) (r : Nat) : d.pumpAll k r = d := by
  unfold Dev.pumpAll Dev.pump
  simp [commands, held]

theorem Dev.linkBack_idle {d : Dev} (commands : d.hcmds = []) (held : d.backlog = []) (k : Clk) : d.linkBack k = d := by
  have still (l : List Nat) : (d.each l fun d r => d.pumpAll k r) = d := by
    induction l with
    | nil => rfl
    | cons r l ih => rw [Dev.each_cons, Dev.pumpAll_idle commands held, ih]
  unfold Dev.linkBack
  rw [still]
  split <;> rfl

theorem Dev.linkLost_idle {d : Dev} (commands : d.hcmds = []) (k : Clk) : d.linkLost k = d := by simp [Dev.linkLost, commands]

/-- What a ring holds is let go, but for its buffers (R595). -/
def Dev.ringDropped (r : Nat) (d : Dev) : Dev :=
  { d with
    backlog := d.backlog.filter (·.ring != r)
    hcmds := (d.hcmds.filter fun (c : HostCmd) => c.ring != r || c.phase == 1).map fun (c : HostCmd) => { c with mute := c.mute || c.ring == r }
    deliv := d.deliv.filter (·.ring != r) }

theorem Dev.ringOff_bufless {d : Dev} (bufless : d.bufs = []) (r : Nat) : d.ringOff r =
    ((d.ringDropped r).bump Od.HOST_RING_CQ_DROPS r (d.backlog.filter (·.ring == r)).length).put Od.HOST_RING_ENABLE r 0 := by
  have none_held : (((d.ringDropped r).bump Od.HOST_RING_CQ_DROPS r (d.backlog.filter (·.ring == r)).length).put Od.HOST_RING_ENABLE r 0).bufs = [] :=
    bufless
  have untouched (e : Dev) (none : e.bufs = []) (p : Buf → Bool) : (e.each (e.bufs.filter p) fun e b => e.dropBuf b) = e := by
    rw [none]
    rfl
  exact untouched _ none_held _

/-- What stands once rings are disabled: no buffer, and a ring is off that has been disabled or was off before. -/
def Dev.ringsStand (d e : Dev) (off : List Nat) : Prop :=
  e.bufs = [] ∧ (d.hcmds = [] → e.hcmds = []) ∧ ∀ r, r < 16 → r ∈ off ∨ d.on Od.HOST_RING_ENABLE r = false → e.on Od.HOST_RING_ENABLE r = false

theorem Dev.ringOff_stands {d : Dev} (bufless : d.bufs = []) {r : Nat} (ring : r < 16) : d.ringsStand (d.ringOff r) [r] := by
  rw [Dev.ringOff_bufless bufless]
  have off (e : Dev) : (e.put Od.HOST_RING_ENABLE r 0).n Od.HOST_RING_ENABLE r = 0 := Dev.n_put_same _ _ _ _ _ rfl
  refine ⟨bufless, fun none => by simp [Dev.ringDropped, none], fun q other so => ?_⟩
  by_cases same : q = r
  · rw [same, Dev.on, off]
    rfl
  · have before : d.on Od.HOST_RING_ENABLE q = false := so.resolve_left (by simpa using same)
    rw [Dev.on, Dev.n_put_apart _ (Obj.key_ne_inst _ (Ne.symm same) (by decide) (by decide)),
      Dev.n_bump_apart _ (Obj.key_ne (by decide) (by omega) (by omega) (by decide) (by decide))]
    exact before

theorem Dev.hostReset_stands {d : Dev} (bufless : d.bufs = []) : d.ringsStand d.hostReset (List.range 16) := by
  have turns (l : List Nat) (rings : ∀ r ∈ l, r < 16) {e : Dev} (none : e.bufs = []) : e.ringsStand (e.each l fun e r => e.ringOff r) l := by
    induction l generalizing e with
    | nil => exact ⟨none, id, fun r _ so => by simpa using so⟩
    | cons r l ih =>
      obtain ⟨bufs, commands, off⟩ := Dev.ringOff_stands none (rings r (by simp))
      obtain ⟨bufs', commands', off'⟩ := ih (fun q member => rings q (by simp [member])) bufs
      refine ⟨bufs', fun idle => commands' (commands idle), fun q ring so => off' q ring ?_⟩
      rcases so with member | before
      · rcases List.mem_cons.mp member with rfl | member
        · exact .inr (off q ring (.inl (by simp)))
        · exact .inl member
      · exact .inr (off q ring (.inr before))
  obtain ⟨bufs, commands, off⟩ := turns ((List.range 16).filter fun r => d.on Od.HOST_RING_ENABLE r)
    (fun r member => List.mem_range.mp (List.mem_filter.mp member).1) bufless
  refine ⟨bufs, commands, fun r ring _ => off r ring ?_⟩
  cases enabled : d.on Od.HOST_RING_ENABLE r with
  | true => exact .inl (List.mem_filter.mpr ⟨List.mem_range.mpr ring, enabled⟩)
  | false => exact .inr rfl

/-- After a reset of the host interface every ring is off. -/
theorem Dev.hostReset_off {d : Dev} (bufless : d.bufs = []) {r : Nat} (ring : r < 16) : d.hostReset.on Od.HOST_RING_ENABLE r = false :=
  (Dev.hostReset_stands bufless).2.2 r ring (.inl (List.mem_range.mpr ring))

/-! SUPPORT. The events of the PCIe link (R594, R596, R601, R656). -/

section
variable {s : State} (running : ready s = true)
include running

theorem exec_hostLinkDown_idle (commands : s.dev.hcmds = []) :
    exec .hostLinkDown s = .next { s with dev := s.dev.silent.put Od.HOST_LINK_STATE 0 0 } := by
  change execHostLinkDown s = _
  unfold execHostLinkDown
  exact State.run_eq running (Dev.linkLost_idle (d := s.dev.silent.put Od.HOST_LINK_STATE 0 0) commands s.clk)

theorem exec_hostLinkUp_idle (commands : s.dev.hcmds = []) (held : s.dev.backlog = []) {speed width : Nat} (speeds : 1 ≤ speed ∧ speed ≤ 5)
    (widths : width = 1 ∨ width = 2 ∨ width = 4) (high : s.dev.on Rg.PERST 0 = false) :
    exec (.hostLinkUp speed width) s = .next { s with
      dev := ((s.dev.silent.put Od.HOST_LINK_STATE 0 2).put Od.HOST_LINK_SPEED 0 speed).put Od.HOST_LINK_WIDTH 0 width } := by
  refine State.runIf_eq running (by simpa [speeds, or_assoc] using widths) ?_
  rw [Dev.on_silent, high, if_neg (by decide)]
  exact Dev.linkBack_idle (by exact commands) (by exact held) s.clk

theorem exec_busMasterEnableChange_idle (commands : s.dev.hcmds = []) (held : s.dev.backlog = []) (on : Bool) :
    exec (.busMasterEnableChange on) s = .next { s with dev := s.dev.silent.put Rg.BME 0 (if on then 1 else 0) } := by
  change execBusMasterEnableChange on s = _
  unfold execBusMasterEnableChange
  refine State.run_eq running ?_
  cases on with
  | true => exact Dev.linkBack_idle (d := s.dev.silent.put Rg.BME 0 1) commands held s.clk
  | false => rfl

theorem exec_msixUnmask_pending {v : Nat} (vector : v < 64) (link : s.dev.linkOk = true) (pending : bit (s.dev.n Rg.MSIX_PENDING 0) v = true) :
    exec (.msixUnmask v) s = .next { s with
      dev := ((s.dev.silent.put Rg.MSIX_MASK 0 (clearBit (s.dev.n Rg.MSIX_MASK 0) v)).put Rg.MSIX_PENDING 0 (clearBit (s.dev.n Rg.MSIX_PENDING 0) v)).emit
        { kind := .msix, unit := v } } := by
  have kept {e : Dev} (state : e.n Od.HOST_LINK_STATE 0 = s.dev.silent.n Od.HOST_LINK_STATE 0) (bme : e.n Rg.BME 0 = s.dev.silent.n Rg.BME 0) :
      e.linkOk = true := by
    rw [Dev.linkOk, Dev.on, state, bme]
    exact link
  have pending' : (s.dev.silent.put Rg.MSIX_MASK 0 (clearBit (s.dev.n Rg.MSIX_MASK 0) v)).n Rg.MSIX_PENDING 0 = s.dev.n Rg.MSIX_PENDING 0 :=
    Dev.n_put_apart _ (by decide)
  refine State.runIf_eq running (decide_eq_true vector) ?_
  dsimp only
  simp only [Dev.n_silent, pending, pending', Bool.true_and]
  rw [if_pos (kept (Dev.n_put_apart _ (by decide)) (Dev.n_put_apart _ (by decide))), Dev.vector,
    kept ((Dev.n_put_apart _ (by decide)).trans (Dev.n_put_apart _ (by decide))) ((Dev.n_put_apart _ (by decide)).trans (Dev.n_put_apart _ (by decide))),
    Dev.n_put_apart _ (by decide), Dev.n_put_wide _ rfl, bit_clearBit]
  rfl

theorem exec_pcieHotReset_host (cold : s.dev.on Od.RESET_PCIE_WARM 0 = false) :
    exec .pcieHotReset s = .next { s with dev := s.dev.silent.hostReset } := by
  change execPcieHotReset s = _
  unfold execPcieHotReset
  rw [State.runM_next (ready_halted running) rfl, Dev.on_silent, cold]
  rfl

theorem exec_pciePerst_low (commands : s.dev.hcmds = []) (bufless : s.dev.bufs = []) :
    exec (.pciePerst true) s = .next { s with dev := ((s.dev.silent.hostReset.put Rg.PERST 0 1).put Rg.BME 0 0).put Od.HOST_LINK_STATE 0 0 } := by
  obtain ⟨-, still, -⟩ := Dev.hostReset_stands (d := s.dev.silent) bufless
  change execPciePerst true s = _
  unfold execPciePerst
  exact State.run_eq running (Dev.linkLost_idle (d := ((s.dev.silent.hostReset.put Rg.PERST 0 1).put Rg.BME 0 0).put Od.HOST_LINK_STATE 0 0)
    (still commands) s.clk)

theorem exec_pciePerst_high : exec (.pciePerst false) s = .next { s with dev := s.dev.silent.put Rg.PERST 0 0 } := by
  change execPciePerst false s = _
  unfold execPciePerst
  exact State.run_eq running rfl

end

theorem ObjTy.norm_u8 {v : Nat} (h : v < 256) : ObjTy.norm .u8 v = v := by simp only [ObjTy.norm]; omega

/-- Settles O50: with nothing under way each event is its writes, and a reset of the host interface turns every ring off (`Dev.hostReset_off`). -/
theorem hostLinkEvents : Obligations.HostLinkEvents := by
  intro s running commands held
  refine ⟨?_, fun speed width least most widths high => ?_, fun on => ?_, fun v vector link pending => ?_, fun bufless cold => ?_, fun bufless => ?_, ?_⟩
  · exact ⟨_, exec_hostLinkDown_idle running commands, onlyWrites_of (Dev.wrote_put (Dev.wrote_silent _ _) _ _ _ _ (by simp)),
      Dev.n_put_same _ _ _ _ _ rfl⟩
  · refine ⟨_, exec_hostLinkUp_idle running commands held ⟨least, most⟩ widths high, onlyWrites_of ?_, ?_, ?_,
      Dev.n_put_same _ _ _ _ _ (ObjTy.norm_u8 (by omega))⟩
    · iterate 3 refine Dev.wrote_put ?_ _ _ _ _ (by simp)
      exact Dev.wrote_silent _ _
    · simp (disch := decide) only [Dev.n_put_apart]
      exact Dev.n_put_same _ _ _ _ _ rfl
    · simp (disch := decide) only [Dev.n_put_apart]
      exact Dev.n_put_same _ _ _ _ _ (ObjTy.norm_u8 (by omega))
  · exact ⟨_, exec_busMasterEnableChange_idle running commands held on, onlyWrites_of (Dev.wrote_put (Dev.wrote_silent _ _) _ _ _ _ (by simp)),
      Dev.n_put_wide _ rfl _ _⟩
  · refine ⟨_, exec_msixUnmask_pending running vector link pending, onlyWrites_of (Dev.wrote_emit ?_ _), ?_, ?_, rfl⟩
    · iterate 2 refine Dev.wrote_put ?_ _ _ _ _ (by simp)
      exact Dev.wrote_silent _ _
    · rw [Dev.n_emit, Dev.n_put_apart _ (by decide), Dev.n_put_wide _ rfl, bit_clearBit]
    · rw [Dev.n_emit, Dev.n_put_wide _ rfl, bit_clearBit]
  · exact ⟨_, exec_pcieHotReset_host running cold, ⟨rfl, rfl, rfl⟩, (Dev.hostReset_stands (d := s.dev.silent) bufless).1,
      fun r ring => Dev.hostReset_off (d := s.dev.silent) bufless ring⟩
  · have apart (r : Nat) (o : Obj) (other : o.idx * 256 + o.sub ≠ Od.HOST_RING_ENABLE.idx * 256 + Od.HOST_RING_ENABLE.sub) (ring : r < 16) :
        o.key 0 0 ≠ Od.HOST_RING_ENABLE.key r 0 := Obj.key_ne other (by decide) (by omega) (by decide) (by decide)
    refine ⟨_, exec_pciePerst_low running commands bufless, ⟨rfl, rfl, rfl⟩, ?_, ?_, Dev.n_put_same _ _ _ _ _ rfl, fun r ring => ?_⟩
    · simp (disch := decide) only [Dev.n_put_apart]
      exact Dev.n_put_wide _ rfl _ _
    · simp (disch := decide) only [Dev.n_put_apart]
      exact Dev.n_put_wide _ rfl _ _
    · rw [Dev.on, Dev.n_put_apart _ (apart r _ (by decide) ring), Dev.n_put_apart _ (apart r _ (by decide) ring), Dev.n_put_apart _ (apart r _ (by decide) ring)]
      exact Dev.hostReset_off (d := s.dev.silent) bufless ring
  · exact ⟨_, exec_pciePerst_high running, onlyWrites_of (Dev.wrote_put (Dev.wrote_silent _ _) _ _ _ _ (by simp)), Dev.n_put_wide _ rfl _ _⟩

end Sys2Proof.Machine

namespace Sys2Proof.Machine
open Sys2Proof.Safety

/-! SUPPORT. A write of a counter (R479). -/

/-- The instances and elements of a counter lie within their key fields, and it is not the armed flip. -/
theorem counter_within : ∀ o ∈ Od.all, o.ctr = true → o.insts < 65536 ∧ o.count ≤ 65536 ∧
    o.idx * 256 + o.sub ≠ Od.INTEG_FLIP_ARM.idx * 256 + Od.INTEG_FLIP_ARM.sub := by decide +kernel

/-- With no stored word in error a counter word is written as it stands. -/
theorem Dev.counterPut_plain {d : Dev} (plain : plainWords d = true) {o : Obj} {i e : Nat} (other : o.key i e ≠ Od.INTEG_FLIP_ARM.key 0 0) (v : Nat) :
    d.counterPut o i e v = d.put o i v e := by
  obtain ⟨sound, unflipped⟩ := plainWords_lists plain
  have unarmed : (d.put o i v e).on Od.INTEG_FLIP_ARM 0 = false := by
    rw [Dev.on, Dev.n_put_apart d other]
    exact plainWords_unarmed plain
  have healed : ({ d with poison := d.poison.filter (· != o.key i e) } : Dev) = d :=
    congrArg (fun l => ({ d with poison := l } : Dev)) (by rw [sound]; rfl)
  have whole (a : Nat) : d.unflip 4 8 a = d := congrArg (fun l => ({ d with flipped := l } : Dev)) (by rw [unflipped]; rfl)
  have unmet : (d.put o i v e).flipCounter o i e = d.put o i v e := by rw [Dev.flipCounter, unarmed]; rfl
  cases word : ctrWord o i e with
  | none => simp only [Dev.counterPut, word, healed, unmet]
  | some a => simp only [Dev.counterPut, word, healed, whole, unmet]

/-- Words put one after another at the elements of one unit of an object. -/
def Dev.putWords (o : Obj) (i start : Nat) (ws : List Nat) (d : Dev) : Dev := d.each (ws.zipIdx start) fun d x => d.put o i x.1 x.2

theorem Dev.putWords_cons (o : Obj) (i start w : Nat) (ws : List Nat) (d : Dev) :
    d.putWords o i start (w :: ws) = (d.put o i w start).putWords o i (start + 1) ws := by
  rw [Dev.putWords, List.zipIdx_cons]
  rfl

/-- Every word stands at its element. -/
theorem Dev.get_putWords {o : Obj} {i : Nat} {ws : List Nat} {e v : Nat} (listed : ws[e]? = some v) (d : Dev) :
    (d.putWords o i 0 ws).get o i e = o.ty.norm (v : Nat) := by
  rw [← Nat.zero_add e]
  exact Dev.get_each_zipIdx o i listed d

theorem Dev.putWords_wrote {keys : List Nat} {o : Obj} {i : Nat} (ws : List Nat) {start : Nat} (within : ∀ e, e < start + ws.length → o.key i e ∈ keys)
    {d e : Dev} (h : d.wrote keys e) : d.wrote keys (e.putWords o i start ws) := by
  induction ws generalizing start e with
  | nil => exact h
  | cons w ws ih =>
    rw [Dev.putWords_cons]
    exact ih (fun e short => within e (by simp only [List.length_cons]; omega)) (Dev.wrote_put h _ _ _ _ (within start (by simp)))

/-- With no stored word in error a write of a counter puts its words. -/
theorem Dev.counterSet_plain {o : Obj} {i : Nat} (ws : List Nat) {start : Nat} {d : Dev} (plain : plainWords d = true)
    (other : ∀ e, e < start + ws.length → o.key i e ≠ Od.INTEG_FLIP_ARM.key 0 0) :
    (d.each (ws.zipIdx start) fun d x => d.counterPut o i x.2 x.1) = d.putWords o i start ws := by
  induction ws generalizing start d with
  | nil => rfl
  | cons w ws ih =>
    have first := other start (by simp)
    have still : plainWords (d.put o i w start) = true :=
      Dev.wrote_plainWords (Dev.wrote_put (Dev.wrote_refl [o.key i start] _) _ _ _ _ (by simp)) (by simpa using first.symm) plain
    rw [Dev.putWords_cons, ← ih still fun e short => other e (by simp only [List.length_cons]; omega), List.zipIdx_cons]
    exact congrArg (fun d : Dev => d.each (ws.zipIdx (start + 1)) fun d x => d.counterPut o i x.2 x.1) (Dev.counterPut_plain plain first w)

theorem exec_counterWrite_words {s : State} (running : ready s = true) (plain : plainWords s.dev = true) {idx sub inst : Nat} {words : List Nat} {o : Obj}
    (boundary : s.clk.c = 0) (named : objOf idx sub = some o) (counter : o.ctr = true) (unit : inst ≤ o.insts) (ok : counterWordsOk o words = true) :
    exec (.counterWrite idx sub inst words) s = .next { s with dev := (s.dev.silent.putWords o inst 0 words).atOpen } := by
  obtain ⟨insts, count, unarmed⟩ := counter_within o (List.mem_of_find?_eq_some named) counter
  have size : words.length = o.count ∧ (words.all fun w => decide (w < 2 ^ 64)) = true := by
    simp only [counterWordsOk, Bool.and_eq_true, beq_iff_eq, List.all_eq_true] at ok
    exact ⟨ok.1, List.all_eq_true.mpr fun w listed => (ok.2 w listed).1⟩
  change execCounterWrite idx sub inst words s = _
  refine State.rowD_eq running boundary size.2 _ ?_
  rw [named]
  refine (if_pos (by simp [counter, unit, ok])).trans (Dev.counterSet_plain (d := s.dev.silent) words plain fun e short => ?_)
  exact Obj.key_ne unarmed (by omega) (by decide) (by omega) (by decide)

/-! SUPPORT. A window's end (R487), the spore ring (R490), reads of the HBM rings (R484). -/

/-- What a window puts: its tick, its counts, its loads. -/
def Dev.windowWords (p : Nat) (d : Dev) : List Nat :=
  let g := fun e => d.n Rg.WIN_END p e
  [d.n Rg.WIN_LAST 0 - 1, g 0, g 1, g 2, g 3, perMille (g 0) (g 1) (g 4), perMille (g 2) (g 3) (g 4)]

theorem exec_windowClose_ended {s : State} (running : ready s = true) {p : Nat} (port : p < 1024) (ended : s.dev.on Rg.WIN_LAST 0 = true) :
    exec (.windowClose p) s = .next { s with dev := s.dev.silent.putWords Od.CTR_PORT_WINDOW_RESULT p 0 (s.dev.windowWords p) } :=
  State.runIf_eq running (decide_eq_true port) (if_pos ended)

theorem exec_sporeRingReset_admitted {s : State} (running : ready s = true) (boundary : s.clk.c = 0) {base records mode : Nat} (fits : base < 2 ^ 64)
    (least : 2 ≤ records) (most : records ≤ 5592405) (known : mode ≤ 1)
    (admitted : (((s.dev.put Od.SPORE_RING_BASE 0 base).put Od.SPORE_RING_RECORDS 0 records).put Od.SPORE_RING_MODE 0 mode).areaOk 1 = true) :
    exec (.sporeRingReset base records mode) s = .next { s with dev := (((((((s.dev.silent.put Od.SPORE_RING_BASE 0 base).put Od.SPORE_RING_RECORDS 0
      records).put Od.SPORE_RING_MODE 0 mode).put Od.SPORE_RING_WRITE 0 0).put Od.SPORE_RING_READ 0 0).put Od.SPORE_RECORD_NUMBER 0 0).atOpen) } := by
  change execSporeRingReset base records mode s = _
  exact State.rowD_eq running boundary (decide_eq_true ⟨fits, least, most, known⟩) _ (if_pos admitted)

/-- The bytes a read of the dump ring answers: up to 32,768, none past the ring. -/
def Dev.ringBytes (m : Memory) (d : Dev) : List Byte :=
  m.rdBytes (d.n Od.CTR_HBM_READ_ADDR 0) (min 32768 (d.dumpArea.1 + d.dumpArea.2 - d.n Od.CTR_HBM_READ_ADDR 0))

/-- A read of the dump ring where no unit of HBM is poisoned. -/
theorem Dev.hbmReadData_ring {d : Dev} (inside : inArea d.dumpArea (d.n Od.CTR_HBM_READ_ADDR 0) 1 = true) (sound : d.hbmPoison = []) (m : Memory) :
    d.hbmReadData m = (some (d.ringBytes m), d.bump Od.CTR_HBM_READ_POISONED 0 0) := by
  have seen (a n : Nat) : d.hbmSeen m a n = m.rdBytes a n := by rw [Dev.hbmSeen, sound]; rfl
  have whole (a n : Nat) : d.hbmRead a n = d :=
    congrArg (fun l => ({ d with found := l } : Dev)) (by rw [sound]; exact List.append_nil _)
  have none_ (a n : Nat) : d.hbmBadUnits a n = 0 := by rw [Dev.hbmBadUnits, sound]; rfl
  unfold Dev.hbmReadData
  simp only [inside, if_true, seen, whole, none_, Dev.ringBytes]

theorem exec_hbmReadData_ring {s : State} (running : ready s = true) (inside : inArea s.dev.dumpArea (s.dev.n Od.CTR_HBM_READ_ADDR 0) 1 = true)
    (sound : s.dev.hbmPoison = []) :
    exec .hbmReadData s = .next { s with dev :=
      (s.dev.silent.bump Od.CTR_HBM_READ_POISONED 0 0).emit { kind := .response, vals := [0x8000], bytes := s.dev.ringBytes s.mem } } := by
  change execHbmReadData s = _
  unfold execHbmReadData
  rw [State.runM_next (ready_halted running) rfl]
  simp only [Dev.hbmReadData_ring (d := s.dev.silent) inside sound]
  rfl

/-! SUPPORT. Dumps (R480 to R483). -/

/-- The dump that starts for HBM, with no word of the store poisoned (R480, R482). -/
def Dev.dumpBegun (k : Clk) (d : Dev) : Dump :=
  { seq := d.n Od.CTR_DUMP_SEQ 0, tick := k.tick, host := false, slot := d.n Od.CTR_DUMP_SEQ 0 % d.n Od.CTR_DUMP_SLOTS 0
    base := d.n Od.CTR_DUMP_RING_BASE 0, time := (d.viewSet (d.n Od.CTR_DUMP_VIEW 0)).at k.raw, words := d.past.snapshot, poisoned := 0 }

theorem Dev.snapshot_silent (d : Dev) : d.silent.past.snapshot = d.past.snapshot := by
  unfold Dev.snapshot
  rfl

theorem Dev.get_hbmWrite (a n : Nat) (d : Dev) (o : Obj) (i e : Nat) : (d.hbmWrite a n).get o i e = d.get o i e := rfl

theorem Dev.n_hbmWrite (a n : Nat) (d : Dev) (o : Obj) (i e : Nat) : (d.hbmWrite a n).n o i e = d.n o i e := rfl

/-- A dump to HBM takes its number and writes its header; with no word poisoned it counts none. -/
theorem Dev.dumpStart_hbm {k : Clk} {m : Memory} {d : Dev} (plain : plainWords d = true) (toHbm : d.n Od.CTR_DUMP_TARGET 0 = 0) (awake : d.idle = false)
    (free : d.dump = none) :
    ∃ e, d.dumpStart k m = (m.wrBytes (d.n Od.CTR_DUMP_RING_BASE 0 + 64 * (d.dumpBegun k).slot) ((d.dumpBegun k).header none), e) ∧
      e.dump = some (d.dumpBegun k) ∧ e.n Od.CTR_DUMP_STATE 0 = 1 ∧
      e.get Od.CTR_DUMP_SEQ 0 = Od.CTR_DUMP_SEQ.ty.norm (d.n Od.CTR_DUMP_SEQ 0 + 1 : Nat) := by
  obtain ⟨sound, unflipped⟩ := plainWords_lists plain
  have unread (n : Nat) : d.readFlips 4 8 0 n = d := by rw [Dev.readFlips, unflipped]; rfl
  have clean : (d.poison.filterMap keyWord).dedup = [] := by rw [sound]; rfl
  have host : (d.n Od.CTR_DUMP_TARGET 0 == 1) = false := by rw [toHbm]; rfl
  refine ⟨(((({ d with dump := some (d.dumpBegun k) } : Dev).bump Od.INTEG_STATE_RESETS 0 0).put Od.CTR_DUMP_SEQ 0 (d.n Od.CTR_DUMP_SEQ 0 + 1)).put
    Od.CTR_DUMP_STATE 0 1).put Rg.DUMP_SENT 0 0 |>.hbmWrite (d.n Od.CTR_DUMP_RING_BASE 0 + 64 * (d.dumpBegun k).slot) ((d.dumpBegun k).header none).length,
    ?_, rfl, ?_, ?_⟩
  · unfold Dev.dumpStart
    simp only [free, host, awake, unread, clean, Option.isSome_none, Bool.false_and, Bool.or_self, Bool.false_eq_true, if_false, List.map_nil,
      List.append_nil, List.length_nil]
    rfl
  · rw [Dev.n_hbmWrite, Dev.n_put_apart _ (by decide), Dev.n_put_same _ _ _ _ _ rfl]
  · rw [Dev.get_hbmWrite, Dev.get_put_apart _ (by decide), Dev.get_put_apart _ (by decide), Dev.get_put_same]

theorem Dev.dumpStart_busy {k : Clk} {m : Memory} {d : Dev} (busy : d.dump.isSome = true) : d.dumpStart k m = (m, d.bump Od.CTR_DUMP_SKIPPED 0) := by
  unfold Dev.dumpStart
  simp only [busy, Bool.true_or, if_true]

theorem exec_dumpDue_starts {s : State} (running : ready s = true) (live : s.dev.replaying = false) (due : s.dev.dumpDue s.clk = true)
    (boundary : s.clk.c = 0) : exec .dumpDue s = .next { s with mem := (s.dev.silent.dumpStart s.clk s.mem).1, dev := (s.dev.silent.dumpStart s.clk s.mem).2 } := by
  have own : s.dev.silent.rk s.clk = s.clk := by rw [Dev.rk, show s.dev.silent.replaying = false from live]; rfl
  have falls : s.dev.silent.dumpDue s.clk = true := due
  change execDumpDue s = _
  unfold execDumpDue
  rw [State.runM_next (ready_halted running) rfl]
  simp only [own, falls, boundary, BEq.rfl, Bool.and_self, if_true]

/-- HBM after the body of a dump and its header, complete with the body's CRC (R483). -/
def Dump.completed (x : Dump) (m : Memory) : Memory :=
  ((x.words.foldl (fun (m : Memory) w => m.wrBytes (x.base + bodyAt x.slot + 8 * w.1) (bytesLE 8 w.2.toNat))
    (m.clear (x.base + bodyAt x.slot) (x.base + bodyAt x.slot + storeBytes))).wrBytes
    (x.base + 64 * x.slot) ((x.header (some x.crc)).take 32)).wrBytes (x.base + (64 * x.slot + 32)) ((x.header (some x.crc)).drop 32)

/-- A whole dump to HBM ends: HBM holds it, none is under way. -/
theorem Dev.dumpEnd_hbm {m : Memory} {d : Dev} {x : Dump} (made : d.dump = some x) (toHbm : x.host = false) (whole : storeBytes ≤ d.n Rg.DUMP_SENT 0) :
    ∃ e : Dev, e.dump = none ∧
      d.dumpEnd m = (x.completed m, ((e.put Od.CTR_DUMP_LAST_COMPLETE 0 x.seq).put Od.CTR_DUMP_STATE 0 0).cause 33) := by
  have sent : decide (d.n Rg.DUMP_SENT 0 < storeBytes) = false := decide_eq_false (by omega)
  refine ⟨((({ d with dump := none } : Dev).hbmWrite (x.base + bodyAt x.slot) storeBytes).hbmWrite (x.base + 64 * x.slot)
    ((x.header (some x.crc)).take 32).length).hbmWrite (x.base + (64 * x.slot + 32)) ((x.header (some x.crc)).drop 32).length, rfl, ?_⟩
  unfold Dev.dumpEnd
  rw [made]
  simp only [toHbm, sent, Dump.write, Bool.false_and, Bool.and_false, Bool.false_eq_true, if_false]
  rfl

theorem exec_dumpComplete_eq {s : State} (running : ready s = true) :
    exec .dumpComplete s = .next { s with mem := (s.dev.silent.dumpEnd s.mem).1, dev := (s.dev.silent.dumpEnd s.mem).2 } :=
by
  change execDumpComplete s = _
  exact State.runM_next (ready_halted running) rfl _

/-- Settles O40: a counter's words are put one by one where none is in error (`Dev.counterSet_plain`), the others are their objects' writes. -/
theorem countersAreKept : Obligations.CountersAreKept := by
  intro s running plain live
  refine ⟨fun idx sub inst words o boundary named counter unit ok => ?_, fun p port ended => ?_, fun base records mode boundary fits least most known admitted => ?_,
    fun a at_ inside sound => ?_, fun due boundary toHbm awake => ⟨fun free => ?_, fun busy => ?_⟩, fun x made toHbm whole => ?_⟩
  · refine ⟨_, exec_counterWrite_words running plain boundary named counter unit ok, ⟨rfl, rfl, rfl⟩, ?_, fun e v listed => ?_⟩
    · exact (bare_atOpen _).trans (Dev.putWords_wrote (keys := (List.range words.length).map (o.key inst)) (d := s.dev) words
        (fun e short => List.mem_map_of_mem (List.mem_range.mpr (by omega))) (Dev.wrote_silent _ _)).1
    · exact (Dev.get_atOpen ..).trans (Dev.get_putWords listed _)
  · have stands {e v : Nat} (listed : (s.dev.windowWords p)[e]? = some v) :
        (s.dev.silent.putWords Od.CTR_PORT_WINDOW_RESULT p 0 (s.dev.windowWords p)).get Od.CTR_PORT_WINDOW_RESULT p e =
          Od.CTR_PORT_WINDOW_RESULT.ty.norm (v : Nat) := Dev.get_putWords listed _
    refine ⟨_, exec_windowClose_ended running port ended, onlyWrites_of (Dev.putWords_wrote _ (fun e short => ?_) (Dev.wrote_silent _ _)), stands rfl,
      fun e short => ?_, fun e short => ?_⟩
    · exact List.mem_map_of_mem (List.mem_range.mpr (by simpa [Dev.windowWords] using short))
    · match e, short with
      | 0, _ | 1, _ | 2, _ | 3, _ => exact stands rfl
    · match e, short with
      | 0, _ | 1, _ => exact stands rfl
  · refine ⟨_, exec_sporeRingReset_admitted running boundary fits least most known admitted, ⟨rfl, rfl, rfl⟩, rfl, ?_⟩
    simp (disch := decide) only [Dev.n_atOpen, Dev.n_put_apart]
    exact ⟨Dev.n_put_same _ _ _ _ _ (ObjTy.norm_u64_top (by simp only [ObjTy.top]; omega)), Dev.n_put_same _ _ _ _ _ (ObjTy.norm_u32 (by omega)),
      Dev.n_put_same _ _ _ _ _ (ObjTy.norm_u8 (by omega)), Dev.n_put_same _ _ _ _ _ rfl, Dev.n_put_same _ _ _ _ _ rfl, Dev.n_put_same _ _ _ _ _ rfl⟩
  · subst at_
    exact ⟨_, exec_hbmReadData_ring running inside sound,
      onlyWrites_of (Dev.wrote_emit (Dev.wrote_bump (Dev.wrote_silent _ _) _ _ _ _ (by simp)) _), rfl⟩
  · obtain ⟨e, begins, made, state, number⟩ := Dev.dumpStart_hbm (k := s.clk) (m := s.mem) (d := s.dev.silent) plain toHbm awake free
    have starts := exec_dumpDue_starts running live due boundary
    rw [begins] at starts
    exact ⟨_, _, starts, made, rfl, rfl, rfl, rfl, s.dev.snapshot_silent, by dsimp only [Dev.n_silent], state, number⟩
  · have starts := exec_dumpDue_starts running live due boundary
    rw [Dev.dumpStart_busy (d := s.dev.silent) busy] at starts
    exact ⟨_, starts, onlyWrites_of (Dev.wrote_bump (Dev.wrote_silent _ _) _ _ _ _ (by simp)), Dev.n_bump_same _ _ _ _ fun _ => ObjTy.norm_u64_top⟩
  · obtain ⟨e, free, ends⟩ := Dev.dumpEnd_hbm (m := s.mem) (d := s.dev.silent) made toHbm whole
    have completes := exec_dumpComplete_eq running
    rw [ends] at completes
    refine ⟨_, completes, rfl, rfl, free, ?_, ?_, by dsimp only [Dump.completed]⟩
    · exact (Dev.n_cause _ _ (by decide)).trans (Dev.n_put_same _ _ _ _ _ rfl)
    · exact (Dev.get_put_apart _ (by decide)).trans ((Dev.get_put_apart _ (by decide)).trans (Dev.get_put_same ..))

end Sys2Proof.Machine

namespace Sys2Proof.Machine
open Sys2Proof.Safety

/-! SUPPORT. Writes that apply at a boundary and ask for more than objects: the boundary's steps after them (R42). -/

/-- A write that asks for no swap, no reset and no tick plan. -/
def WriteOp.asksLittle (w : WriteOp) : Prop :=
  w.idx * 256 + w.sub ∉ [0x340002, 0xC00001] ∧ w.idx ∉ [0xC010, 0xC020] ∧ planKey (w.idx * 256 + w.sub) = false

/-- Such a write that passes its checks, in a calm device: what it applies, then the journal start it asks for. -/
theorem Dev.writeNow_passed {k : Clk} {role : Nat} {w : WriteOp} {m n : Memory} {d e : Dev} (asks : w.asksLittle) (pre : w.pre role = 0)
    (post : d.post w false m d (d.stands w) = 0) (applies : d.applyWrite k w [w] [] 0 false m = (n, e)) (c : e.calm) :
    d.writeNow k role w m = (n, e.startsOf k [w]) := by
  obtain ⟨keys, units, plan⟩ := asks
  simp only [List.mem_cons, List.not_mem_nil, or_false, not_or] at keys units
  obtain ⟨swap, reset⟩ := keys
  obtain ⟨sorus, pipe⟩ := units
  have swaps : e.swapsOf k [w] = e := by rw [Dev.swapsOf, lastOf_other swap]
  have noted (f : Dev) : d.noteCheck w 0 f = d := by simp [Dev.noteCheck, plan]
  have resets (f : Dev) : f.resetsOf k [w] n = (n, f) := by
    rw [Dev.resetsOf, lastOf_other reset]
    simp [sorus, pipe, Dev.each]
  simp [Dev.writeNow, pre, post, noted, applies, swaps, Dev.applyViewWrites_calm c.1, Dev.gateFix_calm c.2, resets]

/-- Healing changes the lists of poisoned words alone. -/
theorem Dev.healWrite_eq (o : Obj) (w : WriteOp) (d : Dev) : ∃ p q, d.healWrite o w = { d with poison := p, dictPoison := q } := by
  unfold Dev.healWrite
  dsimp only
  split
  all_goals
    split
    · exact ⟨_, _, rfl⟩
    · split <;> exact ⟨_, _, rfl⟩

/-- A write of the journal's own objects is not journalled (R517). -/
theorem Dev.journalWriteOp_own (k : Clk) {w : WriteOp} (own : 0x9000 ≤ w.idx ∧ w.idx ≤ 0x91FF) (d : Dev) : d.journalWriteOp k w = d := by
  simp [Dev.journalWriteOp, own]

theorem objOf_journalStart : objOf 0x9000 6 = some Od.JOURNAL_START := by decide +kernel

theorem objOf_journalStop : objOf 0x9000 7 = some Od.JOURNAL_STOP := by decide +kernel

theorem objOf_journalData : objOf 0x9000 0x15 = some Od.JOURNAL_HBM_DATA := by decide +kernel

theorem objOf_replayStart : objOf 0x9100 1 = some Od.REPLAY_START := by decide +kernel

/-- The write that asks for a journal start. -/
def startWrite (v : Byte) : WriteOp := { idx := 0x9000, inst := 0, sub := 6, data := [v] }

/-- The write that asks for a journal stop. -/
def stopWrite : WriteOp := { idx := 0x9000, inst := 0, sub := 7, data := [1] }

theorem startWrite_pre (v : Byte) : (startWrite v).pre 2 = 0 := by
  rw [WriteOp.pre, startWrite, objOf_journalStart]
  simp [Od.JOURNAL_START, Obj.hasInst, WriteOp.role, WriteOp.fits, Obj.isBytes, ObjTy.bytes]

/-- A write passes its later checks (R566): its values, the device's state; of no plan and no view. -/
theorem Dev.post_passes {d a f : Dev} {w : WriteOp} {o : Obj} {m : Memory} (named : objOf w.idx w.sub = some o) (fixed : o.fixedBytes = false)
    (admitted : o.isBytes = true ∨ (w.elems o).all (fun x => o.admits x.2) = true) (device : o.ofPort = false) (plainObj : o.ctr = false)
    (value : ∀ e, Dev.valueOk o w a e f = true) (state : d.stateBar o w false m a = 0) (plan : planKey (o.idx * 256 + o.sub) = false)
    (view : o.idx ≠ 0x6010) : d.post w false m a f = 0 := by
  have values : (!o.isBytes && !(w.elems o).all fun x => o.admits x.2) = false := by
    rcases admitted with bytes | all
    · rw [bytes]; rfl
    · rw [all]; exact Bool.and_false _
  rw [Dev.post, named]
  simp only [fixed, values, device, plainObj, value, state, plan]
  simp [Dev.timeBar, view]

theorem startWrite_post {v : Byte} (known : v = 1 ∨ v = 2) (m : Memory) {d a : Dev} (f : Dev) (apart : d.n Od.JOURNAL_STATE 0 ≠ 1 ∧ d.n Od.JOURNAL_STATE 0 ≠ 2)
    (live : d.maint = false) (length : a.on Od.JOURNAL_LENGTH 0 = true) : d.post (startWrite v) false m a f = 0 := by
  refine Dev.post_passes objOf_journalStart rfl (.inr ?_) rfl rfl (fun e => ?_) ?_ (by decide) (by decide)
  · rcases known with rfl | rfl <;> decide
  · simp [Dev.valueOk, Od.JOURNAL_START]
  · simp [Dev.stateBar, Od.JOURNAL_START, apart, live, length]

theorem stopWrite_pre : stopWrite.pre 2 = 0 := by
  rw [WriteOp.pre, stopWrite, objOf_journalStop]
  decide

theorem stopWrite_post (m : Memory) (d a f : Dev) : d.post stopWrite false m a f = 0 := by
  refine Dev.post_passes objOf_journalStop rfl (.inr (by decide)) rfl rfl (fun e => ?_) ?_ (by decide) (by decide)
  · simp [Dev.valueOk, Od.JOURNAL_STOP]
  · simp [Dev.stateBar, Od.JOURNAL_STOP]

/-- A write of JOURNAL.START leaves all to the boundary's end. -/
theorem Dev.applyWrite_start (k : Clk) (m : Memory) (v : Byte) (d : Dev) :
    d.applyWrite k (startWrite v) [startWrite v] [] 0 false m = (m, d.healWrite Od.JOURNAL_START (startWrite v)) := by
  rw [Dev.applyWrite, startWrite, objOf_journalStart]
  simp [Dev.journalWriteOp_own, Od.JOURNAL_START, Dev.effect]

theorem Dev.applyWrite_stop (k : Clk) (m : Memory) (d : Dev) :
    d.applyWrite k stopWrite [stopWrite] [] 0 false m = (d.healWrite Od.JOURNAL_STOP stopWrite).journalStop k 1 m := by
  have one : ((stopWrite.value Od.JOURNAL_STOP).toNat = 1) := by decide
  have stops : Od.JOURNAL_STOP.idx * 256 + Od.JOURNAL_STOP.sub = 0x900007 := by decide
  rw [Dev.applyWrite, show objOf stopWrite.idx stopWrite.sub = some Od.JOURNAL_STOP from objOf_journalStop]
  simp only [Dev.journalWriteOp_own k (w := stopWrite) (by decide), stops, one, if_true]

/-! SUPPORT. The start of a journal (R513, R521). -/

theorem Dev.insts_lt {d : Dev} {o : Obj} {i : Nat} (h : i ∈ d.insts o) : i < 65536 := by
  simp only [Dev.insts, Store.instsOf, List.mem_dedup, List.mem_map] at h
  obtain ⟨x, -, rfl⟩ := h
  omega

theorem Dev.linkPorts_lt {d : Dev} {p : Nat} (h : p ∈ d.linkPorts) : p < 65536 := by
  simp only [Dev.linkPorts, List.mem_dedup, List.mem_append] at h
  rcases h with (h | h) | h <;> exact Dev.insts_lt h

/-- The objects that a start returns to their defaults. -/
def startCleared : List Obj :=
  [Od.JOURNAL_STOP_TICK, Od.JOURNAL_STOP_REASON, Od.JOURNAL_CHECKPOINT_DONE, Od.JOURNAL_RECORDS, Od.JOURNAL_LOST,
    Od.JOURNAL_FIRST_LOSS_TICK, Od.JOURNAL_MIXED, Rg.USE_METER, Rg.USE_STREAM, Rg.J_FRAME, Rg.J_CARRY, Rg.J_TRIGGER, Rg.J_COPIED, Rg.J_LOST, Rg.J_LINK]

/-- The journal's objects as a start leaves them. -/
def Dev.startWritten (k : Clk) (d : Dev) : Dev :=
  let e := d.each startCleared Dev.clearObj
  (((e.each e.linkPorts fun d p => d.put Rg.J_LINK p (d.linkCode p)).put Od.JOURNAL_START_TICK 0 k.tick).put Od.JOURNAL_CLEAN_START 0
    (if d.clean then 1 else 0)).put Od.JOURNAL_STATE 0 2

theorem Dev.journalBegin_reads (d : Dev) (k : Clk) : (d.journalBegin k).jstage = [] ∧ (d.journalBegin k).ckpt.map (·.tick) = some k.tick := ⟨rfl, rfl⟩

/-- An object that a start clears reads its default after it. -/
theorem Dev.get_startWritten (k : Clk) {o : Obj} (known : o ∈ startCleared) (apart : o.idx * 256 + o.sub ≠ Rg.J_LINK.idx * 256 + Rg.J_LINK.sub)
    (stands : o.key 0 0 ∉ [Od.JOURNAL_START_TICK.key 0 0, Od.JOURNAL_CLEAN_START.key 0 0, Od.JOURNAL_STATE.key 0 0]) (d : Dev) :
    (d.startWritten k).get o 0 0 = o.default 0 0 := by
  simp only [List.mem_cons, List.not_mem_nil, or_false, not_or] at stands
  obtain ⟨start, clean, state⟩ := stands
  rw [Dev.startWritten, Dev.get_put_apart _ (Ne.symm state), Dev.get_put_apart _ (Ne.symm clean), Dev.get_put_apart _ (Ne.symm start)]
  refine (Dev.each_get _ _ _ _ _ (fun e p member => ?_) _).trans (Dev.get_each_clearObj known (by decide) (by decide) d)
  exact Dev.get_put_other _ _ _ _ _ _ _ _ (Obj.key_ne (Ne.symm apart) (Dev.linkPorts_lt member) (by decide) (by decide) (by decide))

theorem Dev.n_journalBegin (k : Clk) (d : Dev) :
    (d.journalBegin k).n Od.JOURNAL_STATE 0 = 2 ∧ (d.journalBegin k).n Od.JOURNAL_RECORDS 0 = 0 ∧ (d.journalBegin k).n Od.JOURNAL_LOST 0 = 0 ∧
      (d.journalBegin k).n Od.JOURNAL_CLEAN_START 0 = (if d.clean then 1 else 0) ∧
      (d.journalBegin k).get Od.JOURNAL_START_TICK 0 = Od.JOURNAL_START_TICK.ty.norm (k.tick : Nat) := by
  have written : (d.journalBegin k).objs = (d.startWritten k).objs := by unfold Dev.journalBegin Dev.startWritten startCleared; rfl
  have reads (o : Obj) (i : Nat) : (d.journalBegin k).get o i = (d.startWritten k).get o i := congrArg (fun st : Store => st.rd o i 0) written
  have counts (o : Obj) (i : Nat) : (d.journalBegin k).n o i = (d.startWritten k).n o i := congrArg Int.toNat (reads o i)
  have cleared {o : Obj} (known : o ∈ startCleared) (apart : o.idx * 256 + o.sub ≠ Rg.J_LINK.idx * 256 + Rg.J_LINK.sub)
      (stands : o.key 0 0 ∉ [Od.JOURNAL_START_TICK.key 0 0, Od.JOURNAL_CLEAN_START.key 0 0, Od.JOURNAL_STATE.key 0 0]) :
      (d.startWritten k).n o 0 = (o.default 0 0).toNat := congrArg Int.toNat (Dev.get_startWritten k known apart stands d)
  rw [counts, counts, counts, counts, reads]
  refine ⟨Dev.n_put_same _ _ _ _ _ rfl, cleared (by decide) (by decide) (by decide), cleared (by decide) (by decide) (by decide), ?_, ?_⟩
  · rw [Dev.startWritten, Dev.n_put_apart _ (by decide)]
    exact Dev.n_put_same _ _ _ _ _ (by cases d.clean <;> rfl)
  · rw [Dev.startWritten, Dev.get_put_apart _ (by decide), Dev.get_put_apart _ (by decide), Dev.get_put_same]

theorem Dev.journalAsk_one (k : Clk) (d : Dev) : d.journalAsk k (1 : Byte).toNat = d.journalBegin k := if_pos rfl

theorem Dev.journalAsk_two (k : Clk) (d : Dev) : d.journalAsk k (2 : Byte).toNat = d.put Od.JOURNAL_STATE 0 1 := (if_neg (by decide)).trans (if_pos rfl)

theorem startWrite_asksLittle (v : Byte) : (startWrite v).asksLittle := by simp only [WriteOp.asksLittle, startWrite]; decide

theorem stopWrite_asksLittle : stopWrite.asksLittle := by simp only [WriteOp.asksLittle, stopWrite]; decide

theorem State.rowAny_does {s : State} (running : ready s = true) (boundary : s.clk.c = 0) {w : WriteOp} {m : Memory} {e : Dev}
    (h : s.dev.silent.writeNow s.clk 2 w s.mem = (m, e)) : s.rowAny w = .next { s with mem := m, dev := e.atOpen } := by
  rw [State.rowAny, State.row_next (ready_halted running) boundary rfl, h]

section
variable {s : State} (running : ready s = true) (c : calm s) (boundary : s.clk.c = 0)
include running c boundary

/-- A write of JOURNAL.START that may stand: the start it asks for, of the device with the write's words whole. -/
theorem exec_startWrite {v : Byte} (known : v = 1 ∨ v = 2) (apart : s.dev.n Od.JOURNAL_STATE 0 ≠ 1 ∧ s.dev.n Od.JOURNAL_STATE 0 ≠ 2)
    (live : s.dev.maint = false) (length : s.dev.on Od.JOURNAL_LENGTH 0 = true) :
    s.rowAny (startWrite v) = .next { s with dev := ((s.dev.silent.healWrite Od.JOURNAL_START (startWrite v)).journalAsk s.clk v.toNat).atOpen } := by
  have quiet : s.dev.silent.maint = false := live
  have asks : lastOf 0x900006 [startWrite v] = some v.toNat := by rcases known with rfl | rfl <;> decide +kernel
  have passed := Dev.writeNow_passed (d := s.dev.silent) (startWrite_asksLittle v) (startWrite_pre v) (startWrite_post known s.mem _ apart quiet length)
    (Dev.applyWrite_start s.clk s.mem v _) ((s.dev.silent.healWrite_sameGround _ _).calm c)
  rw [Dev.startsOf, asks] at passed
  exact State.rowAny_does running boundary passed

end

/-- Such a start records from this tick, with no records, no losses and a checkpoint taken. -/
theorem exec_journalStart_begins {s : State} (running : ready s = true) (c : calm s) (boundary : s.clk.c = 0)
    (apart : s.dev.n Od.JOURNAL_STATE 0 ≠ 1 ∧ s.dev.n Od.JOURNAL_STATE 0 ≠ 2) (live : s.dev.maint = false) (length : s.dev.on Od.JOURNAL_LENGTH 0 = true) :
    ∃ t, exec .journalStart s = .next t ∧ outsideKept s t ∧ t.dev.n Od.JOURNAL_STATE 0 = 2 ∧ t.dev.n Od.JOURNAL_RECORDS 0 = 0 ∧
      t.dev.n Od.JOURNAL_LOST 0 = 0 ∧ t.dev.get Od.JOURNAL_START_TICK 0 = Od.JOURNAL_START_TICK.ty.norm (s.clk.tick : Nat) ∧
      t.dev.jstage = [] ∧ t.dev.ckpt.map (·.tick) = some s.clk.tick := by
  obtain ⟨state, records, lost, -, tick⟩ := Dev.n_journalBegin s.clk (s.dev.silent.healWrite Od.JOURNAL_START (startWrite 1))
  obtain ⟨staging, taken⟩ := (s.dev.silent.healWrite Od.JOURNAL_START (startWrite 1)).journalBegin_reads s.clk
  have starts := exec_startWrite running c boundary (.inl rfl) apart live length
  rw [Dev.journalAsk_one] at starts
  exact ⟨_, starts, ⟨rfl, rfl, rfl⟩, (Dev.n_atOpen ..).trans state, (Dev.n_atOpen ..).trans records, (Dev.n_atOpen ..).trans lost,
    (Dev.get_atOpen ..).trans tick, staging, taken⟩

theorem exec_journalStartWhenClean_waits {s : State} (running : ready s = true) (c : calm s) (boundary : s.clk.c = 0)
    (apart : s.dev.n Od.JOURNAL_STATE 0 ≠ 1 ∧ s.dev.n Od.JOURNAL_STATE 0 ≠ 2) (live : s.dev.maint = false) (length : s.dev.on Od.JOURNAL_LENGTH 0 = true) :
    ∃ t, exec .journalStartWhenClean s = .next t ∧ outsideKept s t ∧ t.dev.n Od.JOURNAL_STATE 0 = 1 := by
  have starts := exec_startWrite running c boundary (.inr rfl) apart live length
  rw [Dev.journalAsk_two] at starts
  exact ⟨_, starts, ⟨rfl, rfl, rfl⟩, (Dev.n_atOpen ..).trans (Dev.n_put_same _ Od.JOURNAL_STATE _ _ _ rfl)⟩

theorem exec_journalCleanStart_begins {s : State} (running : ready s = true) (boundary : s.clk.c = 0) (waits : s.dev.n Od.JOURNAL_STATE 0 = 1)
    (clean : s.dev.clean = true) : exec .journalCleanStart s = .next { s with dev := s.dev.silent.journalBegin s.clk } :=
  State.run_eq running (if_pos ⟨boundary, waits, clean⟩)

/-! SUPPORT. The copy of the checkpoint (R521) and the stop of a journal (R523, R524). -/

theorem Dev.checkpointDone_copied {m : Memory} {d : Dev} {x : Ckpt} (taken : d.ckpt = some x) (under : d.on Od.JOURNAL_CHECKPOINT_DONE 0 = false)
    (copied : 0x7400000 ≤ d.n Rg.J_COPIED 0) : d.checkpointDone m =
      (d.checkpointWrite x m, (d.hbmWrite (d.n Od.JOURNAL_CHECKPOINT_BASE 0) 0x7400000).put Od.JOURNAL_CHECKPOINT_DONE 0 1) := by
  unfold Dev.checkpointDone
  rw [taken]
  exact if_pos (by rw [under, decide_eq_true copied]; rfl)

theorem Dev.checkpointWrite_silent (x : Ckpt) (m : Memory) (d : Dev) : d.silent.checkpointWrite x m = d.checkpointWrite x m := by
  unfold Dev.checkpointWrite
  rfl

theorem exec_checkpointDone_eq {s : State} (running : ready s = true) :
    exec .checkpointDone s = .next { s with mem := (s.dev.silent.checkpointDone s.mem).1, dev := (s.dev.silent.checkpointDone s.mem).2 } := by
  change execCheckpointDone s = _
  exact State.runM_next (ready_halted running) rfl _

/-- What a stop leaves: its state, reason and tick, nothing in staging (R523). -/
def journalStopped (k : Clk) (reason : Nat) (e : Dev) : Prop :=
  e.n Od.JOURNAL_STATE 0 = 3 ∧ e.n Od.JOURNAL_STOP_REASON 0 = reason ∧ e.jstage = [] ∧
    e.get Od.JOURNAL_STOP_TICK 0 = Od.JOURNAL_STOP_TICK.ty.norm (k.tick : Nat)

/-- The last writes of a stop. -/
def Dev.stopNoted (k : Clk) (reason : Nat) (d : Dev) : Dev :=
  ((d.note Od.JOURNAL_STATE 3 39).put Od.JOURNAL_STOP_REASON 0 reason).put Od.JOURNAL_STOP_TICK 0 k.tick

theorem Dev.stopNoted_stopped (k : Clk) {reason : Nat} (known : reason < 256) {d : Dev} (empty : d.jstage = []) : journalStopped k reason (d.stopNoted k reason) := by
  refine ⟨?_, ?_, ?_, Dev.get_put_same ..⟩
  · rw [Dev.stopNoted, Dev.n_put_apart _ (by decide), Dev.n_put_apart _ (by decide)]
    exact Dev.n_note rfl (by decide) _ _
  · rw [Dev.stopNoted, Dev.n_put_apart _ (by decide)]
    refine Dev.n_put_same _ _ _ _ _ ?_
    simp only [ObjTy.norm, Od.JOURNAL_STOP_REASON]; omega
  · have kept : (d.note Od.JOURNAL_STATE 3 39).jstage = d.jstage := by unfold Dev.note; split <;> rfl
    exact kept.trans empty

theorem Dev.journalPut_sameGround (bs : List Byte) (m : Memory) (d : Dev) : d.SameGround (d.journalPut bs m).2 := by
  unfold Dev.journalPut
  exact Dev.SameGround.put (d := d) (e := d.hbmWrite (d.n Od.JOURNAL_BASE 0 + 160 * d.n Od.JOURNAL_RECORDS 0) 160) (o := Od.JOURNAL_RECORDS) ⟨rfl, rfl, rfl, rfl⟩ (by decide)

theorem Dev.journalWrite_sameGround (n : Nat) (m : Memory) (d : Dev) : d.SameGround (d.journalWrite n m).2 := by
  induction n generalizing m d with
  | zero => exact .refl d
  | succ n ih =>
    unfold Dev.journalWrite
    split
    next r t _ =>
      split
      · have put := ({ d with jstage := t } : Dev).journalPut_sameGround r.bytes m
        have written : d.SameGround (({ d with jstage := t } : Dev).journalPut r.bytes m).2 := ⟨put.sess, put.views, put.gates, put.flip⟩
        exact (written.put (by decide)).trans (ih _ _)
      · exact .refl d
    · exact .refl d

/-- The records of the tick join those in staging, each complete (R519, R523). -/
def Dev.allComplete (d : Dev) : Dev := { d.journalTabs with jstage := d.journalTabs.jstage.map fun (x : JRec) => { x with fin := true } }

/-- The bytes in hand suffice for all of them (R520). -/
def Dev.stopGathered (d : Dev) : Dev := d.allComplete.put Rg.J_CARRY 0 (160 * d.allComplete.jstage.length)

/-- What the area held no room for is lost, and the units that both kinds of frames reached are counted (R520, R523). -/
def Dev.stopCounted (k : Clk) (d : Dev) : Dev :=
  let d := d.each (List.range (d.jstage.filter (·.frame)).length) fun d _ => d.jlose k
  (d.put Od.JOURNAL_MIXED 0 (d.mixed Rg.USE_METER) 0).put Od.JOURNAL_MIXED 0 (d.mixed Rg.USE_STREAM) 1

theorem Dev.stopGathered_sameGround (d : Dev) : d.SameGround d.stopGathered :=
  Dev.SameGround.put (d := d) (e := d.allComplete) ⟨rfl, rfl, rfl, rfl⟩ (by decide)

theorem Dev.stopCounted_sameGround (k : Clk) (d : Dev) : d.SameGround (d.stopCounted k) :=
  ((Dev.SameGround.each _ (fun d _ => d.jlose_sameGround k) d).put (by decide)).put (by decide)

/-- Nothing is left in staging. -/
def Dev.unstaged (d : Dev) : Dev := { d with jstage := [], jtab := [], now := { d.now with jrecs := [] } }

/-- A stop of a recording journal: END follows what staging held, then its last writes. -/
theorem Dev.journalStop_ends (k : Clk) (reason : Nat) (m : Memory) {d : Dev} (records : d.n Od.JOURNAL_STATE 0 = 2) :
    ∃ (n l : Memory) (bs : List Byte) (e : Dev), d.SameGround e ∧ d.journalStop k reason m = (n, (e.unstaged.journalPut bs l).2.stopNoted k reason) := by
  have ground : d.SameGround ((d.stopGathered.journalWrite d.stopGathered.jstage.length m).2.stopCounted k) :=
    d.stopGathered_sameGround.trans ((Dev.journalWrite_sameGround _ _ _).trans (Dev.stopCounted_sameGround k _))
  have recording : d.recording = true := by rw [Dev.recording, records]; rfl
  unfold Dev.journalStop
  rw [if_neg (by rw [records]; decide), if_neg (by rw [recording]; decide)]
  exact ⟨_, _, _, _, ground, rfl⟩

/-- A recording journal stops; what writes leave half made it leaves alone. -/
theorem Dev.journalStop_stopped (k : Clk) {reason : Nat} (known : reason < 256) (m : Memory) {d : Dev} (records : d.n Od.JOURNAL_STATE 0 = 2) :
    ∃ (n : Memory) (e : Dev), d.journalStop k reason m = (n, e) ∧ journalStopped k reason e ∧ (d.calm → e.calm) := by
  obtain ⟨n, l, bs, e, ground, stops⟩ := Dev.journalStop_ends k reason m records
  refine ⟨n, _, stops, Dev.stopNoted_stopped k known rfl, fun c => ?_⟩
  have still : e.unstaged.calm := ground.calm c
  have put : (e.unstaged.journalPut bs l).2.calm := (Dev.journalPut_sameGround bs l _).calm still
  have noted : ((e.unstaged.journalPut bs l).2.note Od.JOURNAL_STATE 3 39).calm := by
    unfold Dev.note
    split <;> exact put
  exact noted

theorem exec_journalStop_stops {s : State} (running : ready s = true) (c : calm s) (boundary : s.clk.c = 0) (records : s.dev.n Od.JOURNAL_STATE 0 = 2) :
    ∃ t, exec .journalStop s = .next t ∧ t.clk = s.clk ∧ t.pending = s.pending ∧ journalStopped s.clk 1 t.dev := by
  obtain ⟨p, q, healed⟩ := s.dev.silent.healWrite_eq Od.JOURNAL_STOP stopWrite
  have still : (s.dev.silent.healWrite Od.JOURNAL_STOP stopWrite).n Od.JOURNAL_STATE 0 = 2 := by rw [healed]; exact records
  obtain ⟨n, e, stops, stopped, kept⟩ := Dev.journalStop_stopped s.clk (reason := 1) (by decide) s.mem still
  have passed := Dev.writeNow_passed (d := s.dev.silent) stopWrite_asksLittle stopWrite_pre (stopWrite_post s.mem _ _ _)
    ((Dev.applyWrite_stop s.clk s.mem _).trans stops) (kept ((s.dev.silent.healWrite_sameGround _ _).calm c))
  have starts : e.startsOf s.clk [stopWrite] = e := by rw [Dev.startsOf, lastOf_other (by decide)]
  rw [starts] at passed
  obtain ⟨state, reason, empty, tick⟩ := stopped
  exact ⟨_, State.rowAny_does running boundary passed, rfl, rfl, (Dev.n_atOpen ..).trans state, (Dev.n_atOpen ..).trans reason, empty,
    (Dev.get_atOpen ..).trans tick⟩

/-- A stop that the boundary finds due, of one reason. -/
theorem State.runM_stops {s : State} (running : ready s = true) (records : s.dev.n Od.JOURNAL_STATE 0 = 2) {reason : Nat} (known : reason < 256)
    {f : Clk → Memory → Dev → Memory × Dev} (stops : f s.clk s.mem s.dev.silent = s.dev.silent.journalStop s.clk reason s.mem) :
    ∃ t, s.runM true f = .next t ∧ t.clk = s.clk ∧ t.pending = s.pending ∧ journalStopped s.clk reason t.dev := by
  obtain ⟨n, e, ends, stopped, -⟩ := Dev.journalStop_stopped s.clk known s.mem (d := s.dev.silent) records
  refine ⟨{ s with mem := n, dev := e }, ?_, rfl, rfl, stopped⟩
  rw [State.runM_next (ready_halted running) rfl, stops, ends]

theorem exec_journalFull_stops {s : State} (running : ready s = true) (boundary : s.clk.c = 0) (records : s.dev.n Od.JOURNAL_STATE 0 = 2)
    (full : s.dev.journalFull = true) :
    ∃ t, exec .journalFull s = .next t ∧ t.clk = s.clk ∧ t.pending = s.pending ∧ journalStopped s.clk 2 t.dev := by
  have due : s.dev.silent.journalFull = true := full
  change ∃ t, execJournalFull s = _ ∧ _
  refine State.runM_stops running records (reason := 2) (by decide) ?_
  simp only [boundary, due, BEq.rfl, Bool.and_self, if_true]

theorem exec_journalTrigger_stops {s : State} (running : ready s = true) (boundary : s.clk.c = 0) (records : s.dev.n Od.JOURNAL_STATE 0 = 2)
    (room : s.dev.journalFull = false) (triggered : s.dev.journalTriggered s.clk = true) :
    ∃ t, exec .journalTrigger s = .next t ∧ t.clk = s.clk ∧ t.pending = s.pending ∧ journalStopped s.clk 3 t.dev := by
  have open_ : s.dev.silent.journalFull = false := room
  have due : s.dev.silent.journalTriggered s.clk = true := triggered
  change ∃ t, execJournalTrigger s = _ ∧ _
  refine State.runM_stops running records (reason := 3) (by decide) ?_
  simp only [boundary, due, open_, BEq.rfl, Bool.and_self, if_true, Bool.false_eq_true, if_false]

/-- Settles O43: a start is its boundary's last act (`Dev.n_journalBegin`), a stop ends in the same writes whatever asks for it (`Dev.journalStop_stopped`). -/
theorem journalStartsAndStops : Obligations.JournalStartsAndStops := by
  intro s running
  refine ⟨fun c boundary waits records live length => ⟨?_, ?_⟩, fun boundary waits clean => ?_, fun x taken under copied => ?_,
    fun boundary records => ⟨fun c => ?_, fun full => ?_, fun room triggered => ?_⟩⟩
  · exact exec_journalStart_begins running c boundary ⟨waits, records⟩ live length
  · exact exec_journalStartWhenClean_waits running c boundary ⟨waits, records⟩ live length
  · obtain ⟨state, -, -, start, tick⟩ := Dev.n_journalBegin s.clk s.dev.silent
    have found : s.dev.silent.clean = true := clean
    exact ⟨_, exec_journalCleanStart_begins running boundary waits clean, ⟨rfl, rfl, rfl⟩, state, start.trans (if_pos found), tick⟩
  · have completes := exec_checkpointDone_eq running
    rw [Dev.checkpointDone_copied (d := s.dev.silent) taken under copied, Dev.checkpointWrite_silent] at completes
    exact ⟨_, completes, rfl, rfl, by dsimp only, Dev.n_put_same _ Od.JOURNAL_CHECKPOINT_DONE _ _ _ rfl⟩
  · obtain ⟨t, stops, clk, pending, state, reason, empty, tick⟩ := exec_journalStop_stops running c boundary records
    exact ⟨t, stops, clk, pending, state, reason, empty, tick⟩
  · obtain ⟨t, stops, clk, pending, state, reason, empty, -⟩ := exec_journalFull_stops running boundary records full
    exact ⟨t, stops, clk, pending, state, reason, empty⟩
  · obtain ⟨t, stops, clk, pending, state, reason, empty, -⟩ := exec_journalTrigger_stops running boundary records room triggered
    exact ⟨t, stops, clk, pending, state, reason, empty⟩

end Sys2Proof.Machine

namespace Sys2Proof.Machine
open Sys2Proof.Safety

/-! SUPPORT. JOURNAL.HBM.DATA (R534). -/

/-- The write of bytes of the journal's areas. -/
def loadWrite (data : List Byte) : WriteOp := { idx := 0x9000, inst := 0, sub := 0x15, data := data }

theorem loadWrite_asksLittle (data : List Byte) : (loadWrite data).asksLittle := by simp only [WriteOp.asksLittle, loadWrite]; decide

theorem loadWrite_pre {data : List Byte} (size : data.length ≤ 32768) : (loadWrite data).pre 2 = 0 := by
  rw [WriteOp.pre, loadWrite, objOf_journalData]
  simp [Od.JOURNAL_HBM_DATA, Obj.hasInst, WriteOp.role, WriteOp.fits, Obj.isBytes, Obj.limit, Nat.not_lt.mpr size]

theorem loadWrite_post {data : List Byte} (m : Memory) {d a : Dev} (f : Dev) (maintained : d.maint = true) (live : d.replaying = false)
    (inside : inArea (a.areas.getD 3 (0, 0)) (a.n Od.JOURNAL_HBM_ADDR 0) data.length = true) : d.post (loadWrite data) false m a f = 0 := by
  refine Dev.post_passes objOf_journalData (by decide) (.inl rfl) (by decide) rfl (fun e => ?_) ?_ (by decide) (by decide)
  · simp only [Dev.valueOk, Od.JOURNAL_HBM_DATA, loadWrite, inside, Bool.true_or]
  · simp [Dev.stateBar, Od.JOURNAL_HBM_DATA, maintained, live]

theorem Dev.applyWrite_load (k : Clk) (m : Memory) (data : List Byte) (d : Dev) :
    d.applyWrite k (loadWrite data) [loadWrite data] [] 0 false m = (d.healWrite Od.JOURNAL_HBM_DATA (loadWrite data)).journalLoad data m := by
  have loads : Od.JOURNAL_HBM_DATA.idx * 256 + Od.JOURNAL_HBM_DATA.sub = 0x900015 := by decide
  rw [Dev.applyWrite, show objOf (loadWrite data).idx (loadWrite data).sub = some Od.JOURNAL_HBM_DATA from objOf_journalData]
  simp only [Dev.journalWriteOp_own k (w := loadWrite data) (by simp only [loadWrite]; decide), loads]
  rfl

/-- Bytes outside the checkpoint's area go to HBM as they are. -/
theorem Dev.journalLoad_outside {data : List Byte} {m : Memory} {d : Dev}
    (outside : inArea (d.areas.getD 4 (0, 0)) (d.n Od.JOURNAL_HBM_ADDR 0) data.length = false) :
    d.journalLoad data m = (m.wrBytes (d.n Od.JOURNAL_HBM_ADDR 0) data, d.hbmWrite (d.n Od.JOURNAL_HBM_ADDR 0) data.length) := by
  unfold Dev.journalLoad
  simp only [outside, Bool.false_eq_true, if_false]

theorem exec_journalHbmDataWrite_loads {s : State} (running : ready s = true) {data : List Byte} (c : calm s) (boundary : s.clk.c = 0)
    (maintained : s.dev.maint = true) (live : s.dev.replaying = false) (size : data.length ≤ 32768)
    (inside : inArea (s.dev.areas.getD 3 (0, 0)) (s.dev.n Od.JOURNAL_HBM_ADDR 0) data.length = true)
    (outside : inArea (s.dev.areas.getD 4 (0, 0)) (s.dev.n Od.JOURNAL_HBM_ADDR 0) data.length = false) :
    ∃ t, exec (.journalHbmDataWrite data) s = .next t ∧ t.clk = s.clk ∧ t.pending = s.pending ∧
      t.mem = s.mem.wrBytes (s.dev.n Od.JOURNAL_HBM_ADDR 0) data := by
  obtain ⟨p, q, healed⟩ := s.dev.silent.healWrite_eq Od.JOURNAL_HBM_DATA (loadWrite data)
  have loads : (s.dev.silent.healWrite Od.JOURNAL_HBM_DATA (loadWrite data)).journalLoad data s.mem = (s.mem.wrBytes (s.dev.n Od.JOURNAL_HBM_ADDR 0) data,
      (s.dev.silent.healWrite Od.JOURNAL_HBM_DATA (loadWrite data)).hbmWrite (s.dev.n Od.JOURNAL_HBM_ADDR 0) data.length) := by
    rw [healed]
    exact Dev.journalLoad_outside outside
  have passed := Dev.writeNow_passed (d := s.dev.silent) (loadWrite_asksLittle data) (loadWrite_pre size) (loadWrite_post s.mem _ maintained live inside)
    ((Dev.applyWrite_load s.clk s.mem data _).trans loads) ((s.dev.silent.healWrite_sameGround _ _).calm c)
  exact ⟨_, State.rowAny_does running boundary passed, rfl, rfl, by dsimp only⟩

/-- A read of the journal's area where no unit of HBM is poisoned and no checkpoint is under way. -/
theorem Dev.journalRead_area {d : Dev} (inside : inArea (d.n Od.JOURNAL_BASE 0, d.n Od.JOURNAL_LENGTH 0) (d.n Od.JOURNAL_HBM_ADDR 0) 1 = true)
    (sound : d.hbmPoison = []) (own : d.ckpt = none) (m : Memory) : d.journalRead m = (some (m.rdBytes (d.n Od.JOURNAL_HBM_ADDR 0)
      (min 32768 (d.n Od.JOURNAL_BASE 0 + d.n Od.JOURNAL_LENGTH 0 - d.n Od.JOURNAL_HBM_ADDR 0))), d) := by
  have seen (a n : Nat) : d.journalSeen m a n = m.rdBytes a n := by
    unfold Dev.journalSeen
    rw [own]
    show d.hbmSeen m a n = _
    rw [Dev.hbmSeen, sound]
    rfl
  have whole (a n : Nat) : d.hbmRead a n = d :=
    congrArg (fun l => ({ d with found := l } : Dev)) (by rw [sound]; exact List.append_nil _)
  have first : ([3, 4, 5].map fun i => d.areas.getD i (0, 0)).find? (fun r => inArea r (d.n Od.JOURNAL_HBM_ADDR 0) 1) =
      some (d.n Od.JOURNAL_BASE 0, d.n Od.JOURNAL_LENGTH 0) := List.find?_cons_of_pos inside
  unfold Dev.journalRead
  simp only [first, seen, whole]

/-- The bytes a read answers there: up to 32,768, none past the area. -/
def Dev.areaBytes (m : Memory) (d : Dev) : List Byte :=
  m.rdBytes (d.n Od.JOURNAL_HBM_ADDR 0) (min 32768 (d.n Od.JOURNAL_BASE 0 + d.n Od.JOURNAL_LENGTH 0 - d.n Od.JOURNAL_HBM_ADDR 0))

theorem exec_journalHbmDataRead_area {s : State} (running : ready s = true)
    (inside : inArea (s.dev.n Od.JOURNAL_BASE 0, s.dev.n Od.JOURNAL_LENGTH 0) (s.dev.n Od.JOURNAL_HBM_ADDR 0) 1 = true)
    (sound : s.dev.hbmPoison = []) (own : s.dev.ckpt = none) : ∃ t, exec .journalHbmDataRead s = .next t ∧ onlyWrites [] s t ∧
      t.dev.out = [{ kind := .response, vals := [0x9000], bytes := s.dev.areaBytes s.mem }] := by
  refine ⟨{ s with dev := s.dev.silent.emit { kind := .response, vals := [0x9000], bytes := s.dev.areaBytes s.mem } }, ?_,
    onlyWrites_of (Dev.wrote_emit (Dev.wrote_silent _ _) _), rfl⟩
  change execJournalHbmDataRead s = _
  unfold execJournalHbmDataRead
  rw [State.runM_next (ready_halted running) rfl]
  simp only [Dev.journalRead_area (d := s.dev.silent) inside sound own, Dev.n_silent, Dev.areaBytes]

/-! SUPPORT. The start of a replay (R525). -/

/-- The write that asks for a replay. -/
def replayWrite : WriteOp := { idx := 0x9100, inst := 0, sub := 1, data := [1] }

theorem replayWrite_asksLittle : replayWrite.asksLittle := by simp only [WriteOp.asksLittle, replayWrite]; decide

theorem replayWrite_pre : replayWrite.pre 2 = 0 := by
  rw [WriteOp.pre, replayWrite, objOf_replayStart]
  decide

theorem replayWrite_post {m : Memory} {d : Dev} (a f : Dev) (stopped : d.n Od.JOURNAL_STATE 0 = 3) (complete : d.on Od.JOURNAL_CHECKPOINT_DONE 0 = true)
    (apart : d.n Od.MAT_STATE 0 = 0) (level : (m.rd (d.n Od.JOURNAL_CHECKPOINT_BASE 0 + 4)).toNat = d.n Od.DEVICE_BEHAVIOUR_LEVEL 0) :
    d.post replayWrite false m a f = 0 := by
  refine Dev.post_passes objOf_replayStart (by decide) (.inr (by decide)) (by decide) rfl (fun e => ?_) ?_ (by decide) (by decide)
  · simp [Dev.valueOk, Od.REPLAY_START]
  · simp [Dev.stateBar, Od.REPLAY_START, stopped, complete, apart, level]

theorem Dev.applyWrite_replay (k : Clk) (m : Memory) (d : Dev) :
    d.applyWrite k replayWrite [replayWrite] [] 0 false m = (m, (d.healWrite Od.REPLAY_START replayWrite).replayStart k) := by
  have one : (replayWrite.value Od.REPLAY_START).toNat = 1 := by decide
  have begins : Od.REPLAY_START.idx * 256 + Od.REPLAY_START.sub = 0x910001 := by decide
  have effect (e : Dev) : e.effect k Od.REPLAY_START replayWrite [replayWrite] [] 0 false = e.replayStart k := by
    unfold Dev.effect
    simp only [begins, one]
    rfl
  rw [Dev.applyWrite, show objOf replayWrite.idx replayWrite.sub = some Od.REPLAY_START from objOf_replayStart]
  simp only [Dev.journalWriteOp_own k (w := replayWrite) (by decide), begins, effect]

theorem Dev.each_empty {α : Type} {l : List α} (empty : l = []) (f : Dev → α → Dev) (d : Dev) : d.each l f = d := by
  subst empty
  rfl

/-- The device without the frames that its MACs and pipelines are receiving, which are counted (R525). -/
def Dev.receivingNone (d : Dev) : Dev :=
  ({ d with rx := d.rx.filter fun f => !(f.kind == 0 && (f.phase == 0 || f.phase == 2)) } : Dev).bump Od.REPLAY_RX_DISCARDED 0
    (d.rx.filter fun f => f.kind == 0 && (f.phase == 0 || f.phase == 2)).length

/-- The queued copies go (R525), then the capture jobs release their frames. -/
def Dev.jobsReleased (k : Clk) (d : Dev) : Dev :=
  let e := d.receivingNone.each d.copies (Dev.flushCopy k)
  e.each e.jobs fun d j => d.release k j.owner j.fr

/-- With no copy, job or buffer held, maintenance ends the frames in reception and writes objects. -/
theorem Dev.maintain_empty (k : Clk) (mode : Nat) {d : Dev} (sent : d.tx = []) (copies : d.copies = []) (jobs : d.jobs = []) (bufs : d.bufs = []) :
    d.maintain k mode = ({ d.receivingNone with jobs := [] } : Dev).put Rg.MAINT 0 mode := by
  have uncut : d.cutCopies k (fun _ => true) = d := Dev.each_empty (by rw [sent]; rfl) _ d
  have unflushed : d.receivingNone.each d.copies (Dev.flushCopy k) = d.receivingNone := Dev.each_empty copies _ _
  have unreleased : d.jobsReleased k = d.receivingNone := by
    unfold Dev.jobsReleased
    rw [unflushed]
    exact Dev.each_empty jobs _ _
  have parts : d.maintain k mode = (({ d.jobsReleased k with jobs := [] } : Dev).each (d.jobsReleased k).bufs Dev.dropBuf).put Rg.MAINT 0 mode := by
    unfold Dev.maintain
    rw [uncut]
    rfl
  have empty : d.receivingNone.bufs = [] := bufs
  rw [parts, unreleased, Dev.each_empty empty]

/-- A replay begins with maintenance, its state LOADING (R525). -/
theorem exec_replayStart_loads {s : State} (running : ready s = true) (c : calm s) (boundary : s.clk.c = 0) (stopped : s.dev.n Od.JOURNAL_STATE 0 = 3)
    (complete : s.dev.on Od.JOURNAL_CHECKPOINT_DONE 0 = true) (apart : s.dev.n Od.MAT_STATE 0 = 0)
    (level : (s.mem.rd (s.dev.n Od.JOURNAL_CHECKPOINT_BASE 0 + 4)).toNat = s.dev.n Od.DEVICE_BEHAVIOUR_LEVEL 0)
    (sent : s.dev.tx = []) (copies : s.dev.copies = []) (jobs : s.dev.jobs = []) (bufs : s.dev.bufs = []) :
    ∃ t, exec .replayStart s = .next t ∧ outsideKept s t ∧ t.dev.n Od.REPLAY_STATE 0 = 1 ∧ t.dev.n Od.REPLAY_FRAMES 0 = 0 ∧ t.dev.n Rg.MAINT 0 = 1 ∧
      (∀ f ∈ t.dev.rx, f.kind = 0 → f.phase ≠ 0 ∧ f.phase ≠ 2) := by
  obtain ⟨p, q, healed⟩ := s.dev.silent.healWrite_eq Od.REPLAY_START replayWrite
  have ground := (s.dev.silent.healWrite_sameGround Od.REPLAY_START replayWrite).calm c
  have applies := Dev.applyWrite_replay s.clk s.mem s.dev.silent
  rw [healed] at applies ground
  have maintained := Dev.maintain_empty s.clk 1 (d := { s.dev.silent with poison := p, dictPoison := q }) sent copies jobs bufs
  rw [Dev.replayStart, maintained] at applies
  have passed := Dev.writeNow_passed (d := s.dev.silent) replayWrite_asksLittle replayWrite_pre (replayWrite_post _ _ stopped complete apart level) applies ground
  have starts (e : Dev) : e.startsOf s.clk [replayWrite] = e := by rw [Dev.startsOf, lastOf_other (by decide)]
  rw [starts] at passed
  refine ⟨_, State.rowAny_does running boundary passed, ⟨rfl, rfl, rfl⟩, ?_, ?_, ?_, fun f member data => ?_⟩
  · rw [Dev.n_atOpen, Dev.n_put_apart _ (by decide), Dev.n_put_apart _ (by decide), Dev.n_put_same _ _ _ _ _ rfl]
  · rw [Dev.n_atOpen, Dev.n_put_apart _ (by decide), Dev.n_put_same _ _ _ _ _ rfl]
  · simp (disch := decide) only [Dev.n_atOpen, Dev.n_put_apart]
    exact Dev.n_put_wide _ rfl _ _
  · have kept := (List.mem_filter.mp (show f ∈ s.dev.rx.filter fun f => !(f.kind == 0 && (f.phase == 0 || f.phase == 2)) from member)).2
    simpa [data, not_or] using kept

/-- Settles O44: the loads and the reads touch the journal's area alone (`Dev.journalLoad_outside`, `Dev.journalRead_area`), and a replay's start is
maintenance with nothing held (`Dev.maintain_empty`). -/
theorem journalAreasAreReached : Obligations.JournalAreasAreReached := by
  intro s running
  refine ⟨fun data c boundary maintained live size inside outside => ?_, fun a at_ inside sound own => ?_,
    fun c boundary stopped complete apart level sent copies jobs bufs => ?_⟩
  · exact exec_journalHbmDataWrite_loads running c boundary maintained live size inside outside
  · subst at_
    exact exec_journalHbmDataRead_area running inside sound own
  · exact exec_replayStart_loads running c boundary stopped complete apart level sent copies jobs bufs

end Sys2Proof.Machine

namespace Sys2Proof.Machine
open Sys2Proof.Safety

/-! SUPPORT. The end of a replay's load (R525, R526). -/

/-- Two elements of the replay that its first boundary leaves: neither the next record nor the tick's length. -/
theorem Dev.replayOpen_wrote (m : Memory) (n : Nat) (l : List JAct) (d : Dev) : d.wrote [Rg.R_NEXT.key 0 0, Rg.REPLAY_LEN.key 0 0] (d.replayOpen m n l).2 := by
  induction n generalizing l d with
  | zero => exact Dev.wrote_refl _ d
  | succ n ih =>
    have next : d.wrote [Rg.R_NEXT.key 0 0, Rg.REPLAY_LEN.key 0 0] (d.put Rg.R_NEXT 0 (d.n Rg.R_NEXT 0 + 1)) :=
      Dev.wrote_put (Dev.wrote_refl _ d) _ _ _ _ (by simp)
    unfold Dev.replayOpen
    split
    · dsimp only
      split
      · split
        · exact Dev.wrote_trans (Dev.wrote_put next _ _ _ _ (by simp)) (ih _ _)
        · split
          · exact Dev.wrote_trans next (ih _ _)
          · split <;> exact Dev.wrote_trans next (ih _ _)
      · exact Dev.wrote_refl _ d
    · exact Dev.wrote_refl _ d

theorem mem_bitsIn {m : Memory} {a n i : Nat} (h : i ∈ bitsIn m a n) : i < n := List.mem_range.mp (List.mem_of_mem_filter h)

theorem Dev.usageIn_touched (m : Memory) (o : Obj) (a : Nat) {objs : List Obj} {d e : Dev} (h : d.touched objs e) (known : o ∈ objs) :
    d.touched objs (e.usageIn m o a) := by
  refine Dev.each_keeps _ (fun e b member h => ?_) (Dev.touched_clearObj h known)
  have := mem_bitsIn member
  exact Dev.touched_put h known (by omega) (by decide) _

/-- The objects that a load's end writes besides the replay's state and tick. -/
def loadObjs : List Obj := [Rg.USE_METER, Rg.USE_STREAM, Rg.REPLAY_RAW, Rg.REPLAY_LEN, Rg.R_NEXT]

/-- A replay of a good checkpoint begins: its state, next record and tick (R526). -/
def Dev.replayBegun (m : Memory) (base : Nat) (d : Dev) : Dev :=
  ((d.put Od.REPLAY_STATE 0 2).put Rg.R_NEXT 0 0).put Od.REPLAY_TICK 0 (ofBytesLE (m.rdBytes (base + 8) 8))

theorem Dev.replayBegun_reads (m : Memory) (base : Nat) (d : Dev) : (d.replayBegun m base).n Od.REPLAY_STATE 0 = 2 ∧
    (d.replayBegun m base).get Od.REPLAY_TICK 0 = Od.REPLAY_TICK.ty.norm (ofBytesLE (m.rdBytes (base + 8) 8) : Nat) := by
  refine ⟨?_, Dev.get_put_same ..⟩
  rw [Dev.replayBegun, Dev.n_put_apart _ (by decide), Dev.n_put_apart _ (by decide), Dev.n_put_same _ _ _ _ _ rfl]

/-- The usage bits of the journal enter, and the replay's time is the checkpoint's (R523, R526). -/
def Dev.usageLoaded (m : Memory) (base : Nat) (d : Dev) : Dev :=
  (((d.usageIn m Rg.USE_METER (base + 0x1000)).usageIn m Rg.USE_STREAM (base + 0x5000)).put Rg.REPLAY_RAW 0 (ofBytesLE (m.rdBytes (base + 16) 9))).put
    Rg.REPLAY_LEN 0 800

theorem Dev.usageLoaded_touched (m : Memory) (base : Nat) (d : Dev) : d.touched loadObjs (d.usageLoaded m base) := by
  refine Dev.touched_scalar (Dev.touched_scalar ?_ (by simp [loadObjs]) _) (by simp [loadObjs]) _
  exact Dev.usageIn_touched m _ _ (Dev.usageIn_touched m _ _ (Dev.touched_refl _ d) (by simp [loadObjs])) (by simp [loadObjs])

theorem Dev.replayOpen_touched (m : Memory) (n : Nat) (l : List JAct) (d : Dev) : d.touched loadObjs (d.replayOpen m n l).2 := by
  refine ⟨_, fun key member => ?_, d.replayOpen_wrote m n l⟩
  simp only [List.mem_cons, List.not_mem_nil, or_false] at member
  rcases member with rfl | rfl
  · exact ⟨Rg.R_NEXT, by simp [loadObjs], 0, 0, by decide, by decide, rfl⟩
  · exact ⟨Rg.REPLAY_LEN, by simp [loadObjs], 0, 0, by decide, by decide, rfl⟩

/-- With a good checkpoint the replay runs from the checkpoint's tick. -/
theorem Dev.replayLoaded_good {m : Memory} {d : Dev} (good : d.checkpointGood m = true) :
    (d.replayLoaded m).n Od.REPLAY_STATE 0 = 2 ∧ (d.replayLoaded m).get Od.REPLAY_TICK 0 =
      Od.REPLAY_TICK.ty.norm (ofBytesLE (m.rdBytes (d.n Od.JOURNAL_CHECKPOINT_BASE 0 + 8) 8) : Nat) := by
  obtain ⟨state, tick⟩ := (d.checkpointLoad m).replayBegun_reads m (d.n Od.JOURNAL_CHECKPOINT_BASE 0)
  let begun := (d.checkpointLoad m).replayBegun m (d.n Od.JOURNAL_CHECKPOINT_BASE 0)
  let loaded := begun.usageLoaded m (d.n Od.JOURNAL_CHECKPOINT_BASE 0)
  have parts : d.replayLoaded m = (loaded.replayOpen m loaded.journalRoom []).2 := by
    unfold Dev.replayLoaded
    rw [good]
    rfl
  have touched : begun.touched (loadObjs ++ loadObjs) (d.replayLoaded m) := by
    rw [parts]
    exact Dev.touched_trans (begun.usageLoaded_touched m _) (Dev.replayOpen_touched m _ _ _)
  exact ⟨(Dev.n_touched touched (by decide) (by decide) (by decide)).trans state, (Dev.get_touched touched (by decide) (by decide) (by decide)).trans tick⟩

theorem Dev.replayLoaded_bad {m : Memory} {d : Dev} (bad : d.checkpointGood m = false) : (d.replayLoaded m).n Od.REPLAY_STATE 0 = 4 := by
  have fails : d.replayLoaded m = (d.checkpointLoad m).note Od.REPLAY_STATE 4 39 := by
    unfold Dev.replayLoaded
    rw [bad]
    rfl
  rw [fails]
  exact Dev.n_note rfl (by decide) _ _

section
variable {s : State} (running : ready s = true) (loading : s.dev.n Od.REPLAY_STATE 0 = 1) (boundary : s.clk.c = 0)
include running loading boundary

theorem exec_replayLoadEnd_eq : exec .replayLoadEnd s = .next { s with
    clk := if (s.dev.silent.replayLoaded s.mem).replaying then
      { s.clk with len := tickLength ((s.dev.silent.replayLoaded s.mem).n Rg.REPLAY_LEN 0) } else s.clk
    dev := s.dev.silent.replayLoaded s.mem } := by
  change execReplayLoadEnd s = _
  have ends : s.dev.silent.n Od.REPLAY_STATE 0 = 1 ∧ s.clk.c = 0 := ⟨loading, boundary⟩
  unfold execReplayLoadEnd State.runAll
  rw [ready_halted running]
  simp only [ends, and_self, if_true, Bool.false_eq_true, if_false]

theorem exec_replayLoadEnd_good (good : s.dev.checkpointGood s.mem = true) :
    ∃ t, exec .replayLoadEnd s = .next t ∧ t.mem = s.mem ∧ t.pending = s.pending ∧ t.clk.tick = s.clk.tick ∧ t.clk.raw = s.clk.raw ∧
      t.dev.n Od.REPLAY_STATE 0 = 2 ∧ t.dev.get Od.REPLAY_TICK 0 =
        Od.REPLAY_TICK.ty.norm (ofBytesLE (s.mem.rdBytes (s.dev.n Od.JOURNAL_CHECKPOINT_BASE 0 + 8) 8) : Nat) ∧
      t.clk.len = tickLength (t.dev.n Rg.REPLAY_LEN 0) := by
  obtain ⟨state, tick⟩ := Dev.replayLoaded_good (m := s.mem) (d := s.dev.silent) good
  have runs : (s.dev.silent.replayLoaded s.mem).replaying = true := by rw [Dev.replaying, state]; rfl
  have ends := exec_replayLoadEnd_eq running loading boundary
  rw [runs] at ends
  exact ⟨_, ends, rfl, rfl, rfl, rfl, state, tick, rfl⟩

theorem exec_replayLoadEnd_bad (bad : s.dev.checkpointGood s.mem = false) :
    ∃ t, exec .replayLoadEnd s = .next t ∧ outsideKept s t ∧ t.dev.n Od.REPLAY_STATE 0 = 4 := by
  have state := Dev.replayLoaded_bad (m := s.mem) (d := s.dev.silent) bad
  have stands : (s.dev.silent.replayLoaded s.mem).replaying = false := by rw [Dev.replaying, state]; rfl
  have ends := exec_replayLoadEnd_eq running loading boundary
  rw [stands] at ends
  exact ⟨_, ends, ⟨rfl, rfl, rfl⟩, state⟩

end

/-! SUPPORT. The records of a replay's clock (R527, R528). -/

/-- A quanta of 0 releases each class of the list from the next clock. -/
theorem Dev.n_loadHolds_release (k : Clk) {p : Nat} (cs : List Nat) (c : Nat) (d : Dev) : (d.loadHolds k p 0 cs).n Rg.PAUSE_UNTIL p c =
    if c ∈ cs then min (d.n Rg.PAUSE_UNTIL p c) (k.clock + 1) else d.n Rg.PAUSE_UNTIL p c := by
  induction cs generalizing d with
  | nil => rfl
  | cons x cs ih =>
    have first : d.loadHolds k p 0 (x :: cs) = (d.put Rg.PAUSE_UNTIL p (min (d.n Rg.PAUSE_UNTIL p x) (k.clock + 1)) x).loadHolds k p 0 cs := rfl
    rw [first, ih]
    by_cases same : c = x
    · subst same
      rw [Dev.n_put_wide _ (o := Rg.PAUSE_UNTIL) rfl p _ c]
      simp
    · rw [Dev.n_put_apart _ (Obj.key_ne_elem _ (Ne.symm same))]
      simp [same]

/-- The timer of a class that a request of the list names, for a quanta of any number. -/
theorem Dev.n_loadHolds_any (k : Clk) {p q : Nat} (port : p < 1024) {cs : List Nat} (classes : ∀ c ∈ cs, c < 8) {c : Nat} (hc : c ∈ cs) (d : Dev) :
    (d.loadHolds k p q cs).n Rg.PAUSE_UNTIL p c =
      if q = 0 then min (d.n Rg.PAUSE_UNTIL p c) (k.clock + 1) else k.clock + d.holdClocks p q := by
  split
  case isTrue none =>
    subst none
    rw [Dev.n_loadHolds_release, if_pos hc]
  case isFalse asks => exact Dev.n_loadHolds k port asks classes hc d

/-- A request's record: its number is taken, and the timers of its classes loaded (R528). -/
def Dev.flowTaken (k : Clk) (r : List Byte) (d : Dev) : Dev :=
  (d.put Rg.R_NEXT 0 (d.n Rg.R_NEXT 0 + 1)).loadHolds k (jnum r 16 2 % 1024) (jnum r 20 2) ((List.range 8).filter (bit (jnum r 19 1)))

theorem exec_replayFlowRecord_pause {s : State} (running : ready s = true) {r : List Byte} (here : s.dev.replayHere (s.dev.rk s.clk) s.mem 5 = some r)
    (pause : jnum r 18 1 = 1) : exec .replayFlowRecord s = .next { s with dev := s.dev.silent.flowTaken (s.dev.rk s.clk) r } := by
  have taken : s.dev.silent.replayHere (s.dev.silent.rk s.clk) s.mem 5 = some r := here
  have does : s.dev.silent.replayFlow (s.dev.silent.rk s.clk) s.mem = s.dev.silent.flowTaken (s.dev.rk s.clk) r := by
    unfold Dev.replayFlow
    rw [taken]
    exact if_pos pause
  change execReplayFlowRecord s = _
  unfold execReplayFlowRecord
  rw [State.runM_next (ready_halted running) rfl, does]

/-- A request's timers go by the device before it: the record's number is no part of a port's rate. -/
theorem replayFlow_reads {s : State} (p q : Nat) (port : p < 1024) {c n : Nat} (k : Clk) {cs : List Nat} (classes : ∀ c ∈ cs, c < 8) (hc : c ∈ cs) :
    ((s.dev.silent.put Rg.R_NEXT 0 n).loadHolds k p q cs).n Rg.PAUSE_UNTIL p c =
      if q = 0 then min (s.dev.n Rg.PAUSE_UNTIL p c) (k.clock + 1) else k.clock + s.dev.holdClocks p q := by
  have touched : s.dev.touched [Rg.R_NEXT] (s.dev.silent.put Rg.R_NEXT 0 n) := Dev.touched_scalar (Dev.touched_silent _ _) (by simp) _
  have short := classes c hc
  rw [Dev.n_loadHolds_any k port classes hc, Dev.holdClocks_touched touched port (by decide),
    Dev.n_touched touched (show p < 65536 by omega) (show c < 65536 by omega) (by decide)]

/-- A frame record's clock: it is counted, and taken by the pipeline (R527, R529). -/
def Dev.frameCounted (r : List Byte) (d : Dev) : Dev :=
  ((((d.put Rg.R_NEXT 0 (d.n Rg.R_NEXT 0 + 1)).bump Od.REPLAY_FRAMES 0).when (bit (jnum r 9 1) 4) fun d => d.bump Od.REPLAY_DEEP 0)).put Rg.R_MIXED 0 0

theorem Dev.resultOut_mem (k : Clk) (r : List Byte) (o : PipeOut) (m : Memory) (d : Dev) : (d.resultOut k r o m).1 =
    m.wrBytes (d.n Od.REPLAY_RESULT_BASE 0 + 32 * jnum r 28 4) (replayResult r k.tick k.c (d.on Rg.R_MIXED 0) o) := by
  dsimp only [Dev.resultOut]

theorem Dev.replayEntry_takes {k : Clk} {m : Memory} {d : Dev} {r : List Byte} (taken : d.replayHere k m 0 = some r) : d.replayEntry k m =
    let o := if bit (jnum r 9 1) 5 then (d.frameCounted r).replayInject k r else (d.frameCounted r).replayFrame k r
    o.2.resultOut k r o.1 m := by
  simp only [Dev.replayEntry, taken, Dev.frameCounted]

theorem exec_replayFrameEntry_takes {s : State} (running : ready s = true) {r : List Byte} (here : s.dev.replayHere (s.dev.rk s.clk) s.mem 0 = some r) :
    ∃ (t : State) (o : PipeOut) (e : Dev), exec .replayFrameEntry s = .next t ∧ t.clk = s.clk ∧ t.pending = s.pending ∧
      (o, e) = (if bit (jnum r 9 1) 5 then Dev.replayInject else Dev.replayFrame) (s.dev.rk s.clk) r (s.dev.silent.frameCounted r) ∧
      t.mem = s.mem.wrBytes (e.n Od.REPLAY_RESULT_BASE 0 + 32 * jnum r 28 4)
        (replayResult r (s.dev.rk s.clk).tick s.clk.c (e.on Rg.R_MIXED 0) o) := by
  have taken : s.dev.silent.replayHere (s.dev.silent.rk s.clk) s.mem 0 = some r := here
  have clock : (s.dev.rk s.clk).c = s.clk.c := by unfold Dev.rk; split <;> rfl
  obtain ⟨o, e, made⟩ : ∃ o e, (o, e) =
    (if bit (jnum r 9 1) 5 then Dev.replayInject else Dev.replayFrame) (s.dev.rk s.clk) r (s.dev.silent.frameCounted r) := ⟨_, _, rfl⟩
  have does : s.dev.silent.replayEntry (s.dev.silent.rk s.clk) s.mem = e.resultOut (s.dev.rk s.clk) r o s.mem := by
    rw [Dev.replayEntry_takes taken, show s.dev.silent.rk s.clk = s.dev.rk s.clk from rfl]
    by_cases injected : bit (jnum r 9 1) 5 = true
    · rw [if_pos injected] at made ⊢
      rw [← made]
    · rw [if_neg injected] at made ⊢
      rw [← made]
  have out := Dev.resultOut_mem (s.dev.rk s.clk) r o s.mem e
  rw [clock] at out
  have takes : exec .replayFrameEntry s = .next { s with mem := (e.resultOut (s.dev.rk s.clk) r o s.mem).1, dev :=
      (e.resultOut (s.dev.rk s.clk) r o s.mem).2 } := by
    change execReplayFrameEntry s = _
    unfold execReplayFrameEntry
    rw [State.runM_next (ready_halted running) rfl, does]
  generalize e.resultOut (s.dev.rk s.clk) r o s.mem = ends at takes out
  exact ⟨_, o, e, takes, rfl, rfl, made, out⟩

theorem Dev.endAhead_silent (m : Memory) (t : Nat) (d : Dev) (n i : Nat) : d.silent.endAhead m t n i = d.endAhead m t n i := by
  induction n generalizing i with
  | zero => rfl
  | succ n ih =>
    have record : d.silent.jrec m i = d.jrec m i := by unfold Dev.jrec; rfl
    unfold Dev.endAhead
    rw [record]
    cases d.jrec m i with
    | none => rfl
    | some r => rw [Dev.n_silent, ih]

theorem Dev.replayEnds_silent (m : Memory) (t : Nat) (d : Dev) : d.silent.replayEnds m t = d.replayEnds m t := by
  unfold Dev.replayEnds
  rw [Dev.endAhead_silent]
  rfl

theorem exec_replayEnd_ends {s : State} (running : ready s = true) (live : s.dev.replaying = true)
    (done : s.dev.replayEnds s.mem (s.dev.n Od.REPLAY_TICK 0) = true) :
    exec .replayEnd s = .next { s with dev := s.dev.silent.note Od.REPLAY_STATE 3 39 } := by
  have runs : s.dev.silent.replaying = true := live
  have ends : s.dev.silent.replayEnds s.mem (s.dev.silent.n Od.REPLAY_TICK 0) = true := by rw [Dev.replayEnds_silent]; exact done
  change execReplayEnd s = _
  unfold execReplayEnd
  rw [State.runM_next (ready_halted running) rfl]
  simp only [runs, ends, Bool.and_self, if_true]

/-- Settles O45: the load's end writes its state and tick before the objects of the first boundary (`Dev.replayLoaded_good`); a record's timers are those of
`Dev.loadHold`. -/
theorem replayRuns : Obligations.ReplayRuns := by
  intro s running
  refine ⟨fun loading boundary => ⟨fun good => ?_, fun bad => ?_⟩, fun r here pause => ?_, fun r here => ?_, fun live ends => ?_⟩
  · exact exec_replayLoadEnd_good running loading boundary good
  · exact exec_replayLoadEnd_bad running loading boundary bad
  · have classes : ∀ c ∈ (List.range 8).filter (bit (jnum r 19 1)), c < 8 := fun c member => List.mem_range.mp (List.mem_of_mem_filter member)
    have port : jnum r 16 2 % 1024 < 1024 := Nat.mod_lt _ (by decide)
    have touched := Dev.loadHolds_touched (s.dev.rk s.clk) port (jnum r 20 2) classes (s.dev.silent.put Rg.R_NEXT 0 (s.dev.silent.n Rg.R_NEXT 0 + 1))
    refine ⟨_, exec_replayFlowRecord_pause running here pause, ⟨rfl, rfl, rfl⟩, (Dev.touched_objsOnly touched).trans rfl, ?_, fun c short named => ?_⟩
    · exact (Dev.n_touched touched (by decide) (by decide) (by decide)).trans (Dev.n_put_wide _ rfl _ _)
    · exact replayFlow_reads _ _ port _ classes (List.mem_filter.mpr ⟨List.mem_range.mpr short, named⟩)
  · exact exec_replayFrameEntry_takes running here
  · refine ⟨_, exec_replayEnd_ends running live ends, onlyWrites_of ?_, Dev.n_note rfl (by decide) _ _⟩
    unfold Dev.note
    split
    · exact Dev.wrote_silent _ _
    · exact Dev.wrote_put (Dev.wrote_put (Dev.wrote_silent _ _) _ _ _ _ (by simp)) _ _ _ _ (by simp)

end Sys2Proof.Machine

namespace Sys2Proof.Machine
open Sys2Proof.Safety

/-! SUPPORT. Sessions by a management port (R555, R558, R559, R562): what each message leaves. -/

/-- A message leaves by a management port at once, as one datagram (R555). -/
theorem Dev.answer_port {entry : Nat} (least : 1 ≤ entry) (most : entry ≤ 2) (k : Clk) (source : Nat) (via : List Byte × List (Nat × Nat)) (bs : List Byte)
    (d : Dev) : d.answer k entry source via bs = d.emit { kind := .response, unit := entry, vals := [source], bytes := bs } := by
  rw [Dev.answer, if_neg (by omega), if_pos (.inl (by omega))]

/-- A message of a kind by an open management port is taken by the engine. -/
theorem Dev.take_port {entry : Nat} (least : 1 ≤ entry) (most : entry ≤ 2) {d : Dev} (opened : d.entryOpen entry = true) (k : Clk) (m : Memory) (source : Nat)
    (bs : List Byte) : d.take k m entry source bs = (d.bluntoak k m entry source ([], []) bs).2 := by
  rw [Dev.take, if_neg (by omega), if_pos (by omega), Dev.messageIn, opened]
  rfl

/-- A HELLO of a role whose key is set, rightly tagged, from an address not locked out (R558, R559). -/
structure helloComes (d : Dev) (entry : Nat) (bs : List Byte) : Prop where
  len : bs.length = 56
  role : be bs 16 1 < 3
  keySet : bit (d.n Od.DICT_KEY_SET 0) (be bs 16 1) = true
  free : d.fails = []
  tagged : d.tagGood entry (d.blob Od.DICT_KEY (be bs 16 1)) bs = true
  least : 1024 ≤ be bs 36 2
  most : be bs 36 2 ≤ 8960

/-- With no session there, it takes slot 0 and is answered by one message. -/
theorem Dev.hello_takes {k : Clk} {d : Dev} {entry : Nat} (low : 1 ≤ entry) (high : entry ≤ 2) {bs : List Byte} (comes : helloComes d entry bs)
    (alone : d.sess = []) (source : Nat) : (d.hello k entry source ([], []) bs).2.out.length = d.out.length + 1 ∧
      (d.hello k entry source ([], []) bs).2.sess.map (fun y => (y.role, y.entry, y.source, y.opened, y.since, y.most)) =
        [(be bs 16 1, entry, source, false, k.tick, be bs 36 2)] := by
  obtain ⟨len, role, keySet, free, tagged, least, most⟩ := comes
  have slot : ((List.range 16).find? fun x => !d.sess.any fun y => y.num % 16 == x) = some 0 := by simp [alone]
  have good : ¬ (bs.length ≠ 56 ∨ d.lockedOut k entry source ∨ 3 ≤ be bs 16 1 ∨
      (¬ (entry = 0 ∧ !d.on Od.DICT_PCIE_AUTH 0) ∧ !bit (d.n Od.DICT_KEY_SET 0) (be bs 16 1)) ∨ !d.tagGood entry (d.blob Od.DICT_KEY (be bs 16 1)) bs ∨
      be bs 36 2 < 1024 ∨ 8960 < be bs 36 2) := by
    simp [len, Dev.lockedOut, free, keySet, tagged]; omega
  unfold Dev.hello
  dsimp only
  rw [if_neg good, slot]
  dsimp only
  rw [Dev.answer_port low high]
  exact ⟨by simp [Dev.emit, Dev.freeSeq, Dev.fresh, Dev.put, Dev.set], by simp [Dev.emit, Dev.freeSeq, Dev.fresh, Dev.put, Dev.set, alone]⟩

/-- A message of a session by an entry finds the session (R557). -/
theorem Dev.bluntoak_finds {k : Clk} {m : Memory} {d : Dev} {entry source : Nat} {bs : List Byte} {x : Sess} {kind : Nat} (len : bs.length = 32)
    (size : be bs 2 2 = bs.length) (of : be bs 0 1 = kind) (known : kind = 0x13 ∨ kind = 0x17) (alone : d.sess = [x]) (from_ : x.entry = entry)
    (named : x.num = be bs 4 4) (may : x.opened = true ∨ kind = 0x13) :
    d.bluntoak k m entry source ([], []) bs =
      if kind = 0x13 then (d.updSess x.num fun s => { s with source := source, via := ([], []) }).openSess k { x with source := source, via := ([], []) } bs
      else if !d.tagGood entry x.key bs then d.badMessage
      else (false, (d.updSess x.num fun s => { s with source := source, via := ([], []) }).closeSess k 1 { x with source := source, via := ([], []) }) := by
  have listed : ([0x11, 0x13, 0x15, 0x17].contains kind) = true := by rcases known with rfl | rfl <;> rfl
  have found : (d.sess.find? fun s => s.num == be bs 4 4 && s.entry == entry && (s.opened || kind == 0x13)) = some x := by
    rw [alone]
    refine List.find?_cons_of_pos ?_
    rcases may with opened | rfl
    · simp [from_, named, opened]
    · simp [from_, named]
  have other : kind ≠ 0x11 ∧ kind ≠ 0x15 := by omega
  unfold Dev.bluntoak
  simp only [of, listed, found]
  simp [len, size, other]

/-- An OPEN with the right tag opens its session (R558). -/
theorem Dev.openSess_opens {k : Clk} {d : Dev} {x : Sess} {bs : List Byte} (low : 1 ≤ x.entry) (high : x.entry ≤ 2) (len : bs.length = 32)
    (seq : be bs 8 4 = 0) (alone : d.sess = [x]) (tagged : d.tagGood x.entry x.key bs = true) :
    (d.openSess k x bs).2.out.length = d.out.length + 1 ∧
      (d.openSess k x bs).2.sess.map (fun y => (y.num, y.opened, y.since)) = [(x.num, true, k.tick)] := by
  unfold Dev.openSess
  rw [if_neg (by simp [tagged]), if_neg (by simp [len, seq])]
  dsimp only
  rw [Dev.answer_port low high]
  exact ⟨by simp [Dev.emit, Dev.freeSeq, Dev.fresh, Dev.updSess], by simp [Dev.emit, Dev.freeSeq, Dev.fresh, Dev.updSess, alone]⟩

/-- The close of the only session leaves none, and says so where it was open (R562). -/
theorem Dev.closeSess_only {k : Clk} {d : Dev} {x : Sess} (low : 1 ≤ x.entry) (high : x.entry ≤ 2) (opened : x.opened = true) (reason : Nat)
    (alone : d.sess.map (·.num) = [x.num]) :
    (d.closeSess k reason x).out.length = d.out.length + 1 ∧ (d.closeSess k reason x).sess = [] := by
  have gone : (d.sess.filter fun y => y.num != x.num) = [] := by
    refine List.filter_eq_nil_iff.mpr fun y member => ?_
    have same : y.num ∈ d.sess.map (·.num) := List.mem_map_of_mem member
    rw [alone] at same
    simpa using same
  unfold Dev.closeSess
  rw [if_pos opened]
  dsimp only
  rw [Dev.answer_port low high, gone]
  exact ⟨by simp [Dev.emit, Dev.freeSeq, Dev.fresh], by simp [Dev.emit, Dev.freeSeq, Dev.fresh]⟩

section
variable {s : State} (running : ready s = true) {entry source : Nat} {bs : List Byte} (low : 1 ≤ entry) (high : entry ≤ 2)
  (opened : s.dev.entryOpen entry = true)
include running low high opened

theorem exec_bluntoakHello_takes (size : be bs 2 2 = bs.length) (kind : be bs 0 1 = 0x11) (comes : helloComes s.dev entry bs) (alone : s.dev.sess = []) :
    ∃ t, exec (.bluntoakHello entry source bs) s = .next t ∧ outsideKept s t ∧ t.dev.out.length = 1 ∧
      (t.dev.sess.map fun y => (y.role, y.entry, y.source, y.opened, y.since, y.most)) =
        [(be bs 16 1, entry, source, false, s.clk.tick, be bs 36 2)] := by
  have still : helloComes s.dev.silent entry bs := ⟨comes.len, comes.role, comes.keySet, comes.free, comes.tagged, comes.least, comes.most⟩
  obtain ⟨out, sess⟩ := Dev.hello_takes (k := s.clk) low high still alone source
  have taken : s.dev.silent.bluntoak s.clk s.mem entry source ([], []) bs = s.dev.silent.hello s.clk entry source ([], []) bs := by
    simp [Dev.bluntoak, kind, size, comes.len]
  refine ⟨{ s with dev := (s.dev.silent.hello s.clk entry source ([], []) bs).2 }, ?_, ⟨rfl, rfl, rfl⟩, out, sess⟩
  change execBluntoakHello entry source bs s = _
  refine State.run_eq running ?_
  rw [← taken, ← Dev.take_port low high (d := s.dev.silent) opened, kind]
  rfl

/-- A message of a session there is, as the engine takes it. -/
theorem exec_bluntoak_of {kind : Nat} (of : be bs 0 1 % 16 = kind) (other : kind ≠ 5) {d : Dev}
    (takes : (s.dev.silent.bluntoak s.clk s.mem entry source ([], []) bs).2 = d) (op : Nat → Bool) :
    s.say (fun k m d => d.takeKind k m kind op entry source bs) = .next { s with dev := d } := by
  refine State.run_eq running ?_
  change s.dev.silent.takeKind s.clk s.mem kind op entry source bs = d
  unfold Dev.takeKind
  rw [if_pos ⟨of, .inl other⟩, Dev.take_port low high (d := s.dev.silent) opened, takes]

theorem exec_bluntoakOpen_opens (size : be bs 2 2 = bs.length) (len : bs.length = 32) (kind : be bs 0 1 = 0x13) {x : Sess} (alone : s.dev.sess = [x])
    (from_ : x.entry = entry) (named : x.num = be bs 4 4) (seq : be bs 8 4 = 0) (tagged : s.dev.tagGood entry x.key bs = true) :
    ∃ t, exec (.bluntoakOpen entry source bs) s = .next t ∧ outsideKept s t ∧ t.dev.out.length = 1 ∧
      (t.dev.sess.map fun y => (y.num, y.opened, y.since)) = [(x.num, true, s.clk.tick)] := by
  have found := Dev.bluntoak_finds (k := s.clk) (m := s.mem) (d := s.dev.silent) (source := source) len size kind (.inl rfl) alone from_ named (.inr rfl)
  rw [if_pos rfl, Dev.updSess_single (d := s.dev.silent) alone] at found
  subst from_
  obtain ⟨out, sess⟩ := Dev.openSess_opens (k := s.clk) (d := { s.dev.silent with sess := [{ x with source := source, via := ([], []) }] })
    (x := { x with source := source, via := ([], []) }) low high len seq rfl tagged
  exact ⟨_, exec_bluntoak_of running low high opened (by rw [kind]) (by decide) (congrArg Prod.snd found) _, ⟨rfl, rfl, rfl⟩, out, sess⟩

theorem exec_bluntoakClose_closes (size : be bs 2 2 = bs.length) (len : bs.length = 32) (kind : be bs 0 1 = 0x17) {x : Sess} (alone : s.dev.sess = [x])
    (from_ : x.entry = entry) (named : x.num = be bs 4 4) (stands : x.opened = true) (tagged : s.dev.tagGood entry x.key bs = true) :
    ∃ t, exec (.bluntoakClose entry source bs) s = .next t ∧ outsideKept s t ∧ t.dev.out.length = 1 ∧ t.dev.sess = [] := by
  have good : (!s.dev.silent.tagGood entry x.key bs) = false := by rw [show s.dev.silent.tagGood entry x.key bs = true from tagged]; rfl
  have found := Dev.bluntoak_finds (k := s.clk) (m := s.mem) (d := s.dev.silent) (source := source) len size kind (.inr rfl) alone from_ named (.inl stands)
  rw [if_neg (by decide), good, if_neg (by decide), Dev.updSess_single (d := s.dev.silent) alone] at found
  subst from_
  obtain ⟨out, sess⟩ := Dev.closeSess_only (k := s.clk) (d := { s.dev.silent with sess := [{ x with source := source, via := ([], []) }] })
    (x := { x with source := source, via := ([], []) }) low high stands 1 rfl
  exact ⟨_, exec_bluntoak_of running low high opened (by rw [kind]) (by decide) (congrArg Prod.snd found) _, ⟨rfl, rfl, rfl⟩, out, sess⟩

end

/-! SUPPORT. What times out (R558, R559, R562, R569). -/

section
variable {s : State} (running : ready s = true)
include running

theorem exec_challengeTimeout_frees {x : Sess} (alone : s.dev.sess = [x]) (closed : x.opened = false) (due : x.since + 2000000 ≤ s.clk.tick) :
    exec (.challengeTimeout (x.num % 16)) s = .next { s with dev := { s.dev.silent with sess := [] } } := by
  have gone : (s.dev.silent.sess.filter fun y => !(y.num % 16 == x.num % 16 && !y.opened && decide (y.since + 2000000 ≤ s.clk.tick))) = [] := by
    rw [show s.dev.silent.sess = [x] from alone]
    simp [closed, due]
  exact State.runIf_eq running (decide_eq_true (Nat.mod_lt _ (by decide))) (congrArg (fun l => ({ s.dev.silent with sess := l } : Dev)) gone)

theorem exec_sessionIdleTimeout_closes {x : Sess} (alone : s.dev.sess = [x]) (opened : x.opened = true) (port : x.entry = 1 ∨ x.entry = 2)
    (due : x.since + 2000000 * s.dev.n Od.DICT_SESSION_IDLE 0 ≤ s.clk.tick) :
    ∃ t, exec (.sessionIdleTimeout (x.num % 16)) s = .next t ∧ outsideKept s t ∧ t.dev.sess = [] ∧ t.dev.out.length = 1 := by
  have idle : (s.dev.silent.sess.filter fun y => y.num % 16 == x.num % 16 && y.opened &&
      decide (y.since + 2000000 * s.dev.silent.n Od.DICT_SESSION_IDLE 0 ≤ s.clk.tick)) = [x] := by
    rw [show s.dev.silent.sess = [x] from alone]
    simp [opened, due]
  obtain ⟨out, none_⟩ := Dev.closeSess_only (k := s.clk) (d := s.dev.silent) (x := x) (by omega) (by omega) opened 2 (congrArg (List.map (·.num)) alone)
  exact ⟨_, State.runIf_eq running (decide_eq_true (Nat.mod_lt _ (by decide))) (congrArg (fun l => s.dev.silent.each l (Dev.closeSess s.clk 2)) idle),
    ⟨rfl, rfl, rfl⟩, none_, out⟩

theorem exec_helloLockoutEnd_lifts {a n u : Nat} (only : s.dev.fails = [(a, n, u)]) (locked : u ≠ 0) (due : u ≤ s.clk.tick) :
    exec (.helloLockoutEnd a) s = .next { s with dev := { s.dev.silent with fails := [] } } := by
  have lifted : (s.dev.silent.fails.filter fun f => !(f.1 == a && f.2.2 != 0 && decide (f.2.2 ≤ s.clk.tick))) = [] := by
    rw [show s.dev.silent.fails = [(a, n, u)] from only]
    simp [locked, due]
  exact State.run_eq running (congrArg (fun l => ({ s.dev.silent with fails := l } : Dev)) lifted)

theorem exec_snapshotTimeout_frees {x : Sess} {y : Snap} (alone : s.dev.sess = [x]) (only : x.snaps = [y]) (handle : y.handle < 8)
    (due : y.tick + 2000000 ≤ s.clk.tick) :
    exec (.snapshotTimeout (x.num % 16) y.handle) s = .next { s with dev := { s.dev.silent with sess := [{ x with snaps := [] }] } } := by
  have freed : (s.dev.silent.sess.map fun z => if z.num % 16 = x.num % 16 then
      { z with snaps := z.snaps.filter fun v => !(v.handle == y.handle && decide (v.tick + 2000000 ≤ s.clk.tick)) } else z) = [{ x with snaps := [] }] := by
    rw [show s.dev.silent.sess = [x] from alone]
    simp [only, due]
  exact State.runIf_eq running (decide_eq_true ⟨Nat.mod_lt _ (by decide), handle⟩) (congrArg (fun l => ({ s.dev.silent with sess := l } : Dev)) freed)

end

/-- Settles O47: each message is taken by its port (`Dev.bluntoak_finds`) and answered there at once (`Dev.answer_port`); what is due leaves its list. -/
theorem sessionsOpenAndClose : Obligations.SessionsOpenAndClose := by
  intro s entry source bs running
  refine ⟨fun low high opened size => ⟨?_, ?_, ?_⟩, fun x alone closed due => ?_, fun x alone opened port due => ?_, fun a n u only locked due => ?_,
    fun x y alone only handle due => ?_⟩
  · rintro role len kind rfl known keySet free tagged least most alone
    exact exec_bluntoakHello_takes running low high opened size kind ⟨len, known, keySet, free, tagged, least, most⟩ alone
  · intro x len kind alone from_ named seq tagged
    exact exec_bluntoakOpen_opens running low high opened size len kind alone from_ named seq tagged
  · intro x len kind alone from_ named stands tagged
    exact exec_bluntoakClose_closes running low high opened size len kind alone from_ named stands tagged
  · exact ⟨_, exec_challengeTimeout_frees running alone closed due, onlyWrites_of (s := { s with dev := _ }) (Dev.wrote_silent _ _)⟩
  · exact exec_sessionIdleTimeout_closes running alone opened port due
  · exact ⟨_, exec_helloLockoutEnd_lifts running only locked due, onlyWrites_of (s := { s with dev := _ }) (Dev.wrote_silent _ _)⟩
  · exact ⟨_, exec_snapshotTimeout_frees running alone only handle due, onlyWrites_of (s := { s with dev := _ }) (Dev.wrote_silent _ _)⟩

end Sys2Proof.Machine

namespace Sys2Proof.Machine
open Sys2Proof.Safety

/-! SUPPORT. A completion of a ring (R582, R584, R597): what it writes, and that its two writes leave. -/

/-- Where objects alone have changed, what is kept of the device besides reads as before. -/
theorem Dev.objsOnly_reads {α : Type} (f : Dev → α) (kept : ∀ d, f (bare d) = f d) {d e : Dev} (h : d.objsOnly e) : f e = f d := by
  rw [← kept e, ← kept d]
  exact congrArg f h

/-- The objects of a ring's completions. -/
def completeObjs : List Obj := [Rg.CQ_TAIL, Rg.CQ_PASS, Rg.CQ_UNSIGNALLED, Rg.CQ_OLDEST, Rg.MSIX_PENDING]

/-- Something left the device after what had left it before, and objects of a list alone have changed. -/
def Dev.leaves (objs : List Obj) (n : Nat) (d e : Dev) : Prop := d.touched objs e ∧ ∃ l, e.out = d.out ++ l ∧ n ≤ l.length

section
variable {objs : List Obj} {n : Nat} {d e : Dev}

theorem Dev.leaves_refl (objs : List Obj) (d : Dev) : d.leaves objs 0 d := ⟨Dev.touched_refl _ _, [], by simp, Nat.zero_le _⟩

theorem Dev.leaves_put (h : d.leaves objs n e) {o : Obj} (known : o ∈ objs) {i : Nat} (hi : i < 65536) (v : Nat) : d.leaves objs n (e.put o i v) :=
  ⟨Dev.touched_put h.1 known hi (by decide) v, h.2⟩

theorem Dev.leaves_ite {c : Prop} [Decidable c] {e' : Dev} (yes : d.leaves objs n e) (no : d.leaves objs n e') : d.leaves objs n (if c then e else e') := by
  split <;> assumption

theorem Dev.leaves_whenPut (h : d.leaves objs n e) (c : Bool) {o : Obj} (known : o ∈ objs) {i : Nat} (hi : i < 65536) (v : Dev → Nat) :
    d.leaves objs n (e.when c fun e => e.put o i (v e)) := Dev.leaves_ite (Dev.leaves_put h known hi _) h

theorem Dev.leaves_emit (h : d.leaves objs n e) (x : Out) : d.leaves objs (n + 1) (e.emit x) := by
  obtain ⟨⟨keys, within, wrote⟩, l, out, most⟩ := h
  exact ⟨⟨keys, within, Dev.wrote_emit wrote x⟩, l ++ [x], by simp [Dev.emit, out], by simp; omega⟩

theorem Dev.leaves_least {m : Nat} (h : d.leaves objs n e) (le : m ≤ n) : d.leaves objs m e := by
  obtain ⟨touched, l, out, most⟩ := h
  exact ⟨touched, l, out, by omega⟩

end

theorem Dev.vector_leaves (v : Nat) {d e : Dev} {n : Nat} (h : d.leaves completeObjs n e) : d.leaves completeObjs n (e.vector v) := by
  unfold Dev.vector
  refine Dev.leaves_ite h (Dev.leaves_ite (Dev.leaves_put h (by simp [completeObjs]) (by decide) _) ?_)
  exact Dev.leaves_least (Dev.leaves_emit h _) (Nat.le_succ _)

/-- Where a completion is signalled, its ring's counts of unsignalled ones are zero again (R597). -/
theorem Dev.leaves_signals {c : Prop} [Decidable c] {r n : Nat} (unit : r < 65536) {d e : Dev} (h : d.leaves completeObjs n e) :
    d.leaves completeObjs n (if c then e.signal r else e) :=
  Dev.leaves_ite (Dev.vector_leaves r (Dev.leaves_put (Dev.leaves_put h (by simp [completeObjs]) unit 0) (by simp [completeObjs]) unit 0)) h

/-- A completion is two writes to the ring's queue (R582), and the ring's own counts. -/
theorem Dev.complete_leaves (k : Clk) {r : Nat} (ring : r < 16) (bs : List Byte) (d : Dev) : d.leaves completeObjs 2 (d.complete k r bs) := by
  have unit : r < 65536 := by omega
  refine Dev.leaves_signals unit (Dev.leaves_whenPut (Dev.leaves_put ?_ (by simp [completeObjs]) unit _) _ (by simp [completeObjs]) unit _)
  refine Dev.leaves_whenPut (Dev.leaves_put ?_ (by simp [completeObjs]) unit _) _ (by simp [completeObjs]) unit _
  exact Dev.leaves_emit (Dev.leaves_emit (Dev.leaves_refl completeObjs d) _) _

/-! SUPPORT. A ring writes what waits for its completion entries (R583, R585): its one held delivery, its one command. -/

section
variable {k : Clk} {r : Nat} {d : Dev} (usable : d.linkOk = true) (room : 0 < d.cqFree r)
include usable room

theorem Dev.pumpAll_delivery {v : Deliv} (held : d.backlog = [v]) (own : v.ring = r) (commands : d.hcmds = []) :
    d.pumpAll k r = ((({ d with backlog := [] } : Dev).bump Od.HOST_RING_DELIVERED r).complete k r (v.bytes k)).pump k r 1 := by
  have free : (!d.linkOk || d.cqFree r == 0) = false := by simp [usable]; omega
  unfold Dev.pumpAll
  rw [held, commands]
  show d.pump k r 2 = _
  conv_lhs => unfold Dev.pump
  simp [free, held, own, commands]

theorem Dev.pumpAll_command {c : HostCmd} (held : d.backlog = []) (commands : d.hcmds = [c]) (own : c.ring = r) (heard : c.mute = false)
    (done : c.phase = 2) : d.pumpAll k r = (({ d with hcmds := [] } : Dev).complete k r c.bytes).pump k r 1 := by
  have free : (!d.linkOk || d.cqFree r == 0) = false := by simp [usable]; omega
  unfold Dev.pumpAll
  rw [held, commands]
  show d.pump k r 2 = _
  conv_lhs => unfold Dev.pump
  simp [free, held, commands, own, heard, done]

end

theorem Dev.pump_idle {d : Dev} (commands : d.hcmds = []) (held : d.backlog = []) (k : Clk) (r : Nat) : d.pump k r 1 = d := by
  unfold Dev.pump
  simp [commands, held]

/-- A command that ends, alone on its ring, with room for its completion: it is completed at once (R589). -/
theorem Dev.endCmd_only {k : Clk} {d : Dev} {c x : HostCmd} {status : Nat} (usable : d.linkOk = true) (room : 0 < d.cqFree c.ring) (ring : c.ring < 16)
    (held : d.backlog = []) (commands : d.hcmds = [x]) (same : x.ring = c.ring ∧ x.sq = c.sq ∧ x.mute = c.mute) (heard : c.mute = false)
    (good : ((c.entry.getD 0 0).toNat == 4 && status != 0) = false) :
    d.endCmd k c status = (({ d with hcmds := [] } : Dev).complete k c.ring ({ c with phase := 2, status := status, tick := k.tick } : HostCmd).bytes) := by
  have set : d.setCmd { c with phase := 2, status := status, tick := k.tick } = { d with hcmds := [{ c with phase := 2, status := status, tick := k.tick }] } := by
    simp [Dev.setCmd, commands, same]
  unfold Dev.endCmd
  rw [if_neg (by simp [heard])]
  dsimp only
  rw [good, set]
  have pumped := Dev.pumpAll_command (k := k) (d := { d with hcmds := [{ c with phase := 2, status := status, tick := k.tick }] }) usable room held rfl rfl
    heard rfl
  refine pumped.trans (Dev.pump_idle ?_ ?_ k c.ring)
  · exact Dev.objsOnly_reads Dev.hcmds (fun _ => rfl) (Dev.touched_objsOnly (Dev.complete_leaves k ring _ _).1)
  · exact (Dev.objsOnly_reads Dev.backlog (fun _ => rfl) (Dev.touched_objsOnly (Dev.complete_leaves k ring _ _).1)).trans held


/-! SUPPORT. A buffer of a ring freed or handed on (R306, R310). -/

/-- Elements of the generations' objects, which a pool index may carry beyond one object's instances, are no elements of an object apart. -/
theorem Obj.key_ne_long {o q : Obj} {i j e f : Nat} (apart : ∀ n ∈ [0, 1, 2], o.idx * 256 + o.sub ≠ q.idx * 256 + q.sub + n)
    (hi : i < 65536) (he : e < 65536) (hj : j < 3 * 65536) (hf : f < 65536) : q.key j f ≠ o.key i e := by
  simp only [List.mem_cons, List.not_mem_nil, or_false, forall_eq_or_imp, forall_eq] at apart
  unfold Obj.key
  omega

/-- An object apart from what the return of a buffer writes: its index's generation and the list of quarantined cells. -/
abbrev apartFromDrop (o : Obj) : Prop :=
  (∀ n ∈ [0, 1, 2], o.idx * 256 + o.sub ≠ Rg.POOL_GEN.idx * 256 + Rg.POOL_GEN.sub + n) ∧
    Od.POOL_QUARANTINE_LIST.idx * 256 + Od.POOL_QUARANTINE_LIST.sub ≠ o.idx * 256 + o.sub

theorem Dev.get_settleQuarantine {d : Dev} (count : d.n Od.POOL_QUARANTINE_COUNT 0 ≤ 4096) {o : Obj} {i e : Nat} (hi : i < 65536) (he : e < 65536)
    (apart : Od.POOL_QUARANTINE_LIST.idx * 256 + Od.POOL_QUARANTINE_LIST.sub ≠ o.idx * 256 + o.sub) : d.settleQuarantine.get o i e = d.get o i e := by
  refine Dev.each_get _ _ o i e (fun x c at_ => ?_) d
  have small : c < 65536 := by have := List.mem_range.mp at_; omega
  dsimp only
  split
  · exact Dev.get_put_apart x (Obj.key_ne apart (by decide) hi small he)
  · rfl

/-- The devices agree but for what quarantine settles: objects and the count of free values drawn. -/
def Dev.settled (d e : Dev) : Prop := bare { e with freeCtr := d.freeCtr } = bare d

theorem Dev.settleQuarantine_settled (d : Dev) : d.settled d.settleQuarantine := by
  refine Dev.each_keeps (P := d.settled) _ (fun x c _ so => ?_) rfl
  dsimp only
  split <;> exact so

theorem Dev.settled_reads {α : Type} (f : Dev → α) (kept : ∀ d n, f (bare { d with freeCtr := n }) = f d) {d e : Dev} (h : d.settled e) : f e = f d := by
  rw [← kept e d.freeCtr, show bare { e with freeCtr := d.freeCtr } = bare d from h]
  exact kept d d.freeCtr

/-- A device that a buffer has left, before its index's generation advances. -/
def Dev.bufLeft (d : Dev) (b : Buf) : Dev :=
  let d : Dev := { d with now := { d.now with gone := d.now.gone ++ [(b.pool, b.idx)] } }
  { d.bufCellsGone b with bufs := d.bufs.filter (·.handle != b.handle) }

theorem Dev.dropBuf_eq (d : Dev) (b : Buf) : d.dropBuf b = ((d.bufLeft b).bumpGen b.pool b.idx).settleQuarantine := rfl

theorem Dev.bufLeft_eq (d : Dev) (b : Buf) : ∃ now, d.bufLeft b = { d with now := now, bufs := d.bufs.filter (·.handle != b.handle) } := by
  unfold Dev.bufLeft Dev.bufCellsGone
  dsimp only
  split <;> exact ⟨_, rfl⟩

/-- The return of a buffer leaves all of the device but its objects, its buffers and what the instant notes. -/
theorem Dev.dropBuf_keeps {α : Type} (f : Dev → α) (settled : ∀ d n, f (bare { d with freeCtr := n }) = f d)
    (kept : ∀ (d : Dev) now bufs, f { d with now := now, bufs := bufs } = f d) (d : Dev) (b : Buf) : f (d.dropBuf b) = f d := by
  obtain ⟨now, left⟩ := Dev.bufLeft_eq d b
  have objs : f ((d.bufLeft b).bumpGen b.pool b.idx) = f (d.bufLeft b) :=
    (settled _ _).symm.trans (settled (d.bufLeft b) (d.bufLeft b).freeCtr)
  rw [Dev.dropBuf_eq, Dev.settled_reads f settled (Dev.settleQuarantine_settled _), objs, left, kept]

theorem Dev.dropBuf_bufs (d : Dev) (b : Buf) : (d.dropBuf b).bufs = d.bufs.filter (·.handle != b.handle) :=
  Dev.settled_reads Dev.bufs (fun _ _ => rfl) (Dev.settleQuarantine_settled _)

theorem Dev.get_dropBuf {d : Dev} {b : Buf} (range : b.pool * 8 + b.idx / 32768 < 3 * 65536) (count : d.n Od.POOL_QUARANTINE_COUNT 0 ≤ 4096) {o : Obj}
    {i e : Nat} (hi : i < 65536) (he : e < 65536) (apart : apartFromDrop o) : (d.dropBuf b).get o i e = d.get o i e := by
  obtain ⟨now, left⟩ := Dev.bufLeft_eq d b
  have kept {q : Obj} {j f : Nat} (hj : j < 65536) (hf : f < 65536)
      (far : ∀ n ∈ [0, 1, 2], q.idx * 256 + q.sub ≠ Rg.POOL_GEN.idx * 256 + Rg.POOL_GEN.sub + n) :
      ((d.bufLeft b).bumpGen b.pool b.idx).get q j f = d.get q j f := by
    rw [Dev.bumpGen, Dev.get_put_apart _ (Obj.key_ne_long far hj hf range (by omega)), left]
    rfl
  rw [Dev.dropBuf_eq, Dev.get_settleQuarantine ?_ hi he apart.2, kept hi he apart.1]
  rw [Dev.n, kept (by decide) (by decide) (by decide)]
  exact count

theorem bits_handle_lt (h : Nat) : bits h 17 0 < 262144 := by
  unfold bits
  omega

section
variable {d : Dev} {h owner : Nat} {b : Buf} (plain : bits h 23 18 = 0) (named : d.buf h = some b) (own : b.owner = owner)

include named in
theorem Dev.buf_handle : b.handle = h := by simpa using List.find?_some named

include plain named own

theorem Dev.bufCheck_own : d.bufCheck h owner = (0, owner) := by
  have small := bits_handle_lt h
  rw [Dev.bufCheck, if_neg (by omega), named]
  exact if_pos own

theorem Dev.freeBuf_own (k : Clk) : d.freeBuf k h owner = (0, (d.bufOp h owner).dropBuf b) := by
  have same : (d.bufOp h owner).buf h = some b := named
  simp [Dev.freeBuf, Dev.bufCheck_own plain named own, same]

theorem Dev.handBuf_own (k : Clk) (heir : Nat) : d.handBuf k h owner heir = (0, (d.bufOp h owner).updBuf h fun b => { b with owner := heir }) := by
  simp [Dev.handBuf, Dev.bufCheck_own plain named own]

end

/-- What is found first, changed where it is found, is found changed. -/
theorem find?_map_found {α : Type} {l : List α} {p : α → Bool} {f : α → α} (kept : ∀ x, p (f x) = p x) {b : α} (first : l.find? p = some b) :
    (l.map fun x => if p x then f x else x).find? p = some (f b) := by
  have same : (p ∘ fun x => if p x then f x else x) = p := by
    funext x
    by_cases at_ : p x = true <;> simp [at_, kept]
  rw [List.find?_map, same, first, Option.map_some, if_pos (List.find?_some first)]

theorem Dev.buf_updBuf {d : Dev} {h : Nat} {b : Buf} (named : d.buf h = some b) {f : Buf → Buf} (kept : ∀ x, (f x).handle = x.handle) :
    (d.updBuf h f).buf h = some (f b) := find?_map_found (fun x => by rw [kept]) named


/-- The index of a buffer whose handle has four bytes lies within three of the generations' objects. -/
theorem Buf.index_range {b : Buf} {h : Nat} (handle : b.handle = h) (small : h < 2 ^ 32) : b.pool * 8 + b.idx / 32768 < 3 * 65536 := by
  unfold Buf.handle at handle
  omega

/-! SUPPORT. The next command of a ring is read (R583): its entry leaves the queue, and the buffer it names is the host's. -/

/-- The command of an entry at the head of its ring. -/
def Dev.headCmd (r : Nat) (entry data : List Byte) (d : Dev) : HostCmd := { ring := r, entry := entry, sq := d.n Rg.SQ_HEAD r, data := data }

/-- The entry at the head of a ring has left its queue. -/
def Dev.entryTaken (r : Nat) (d : Dev) : Dev := d.put Rg.SQ_HEAD r ((d.n Rg.SQ_HEAD r + 1) % d.n Od.HOST_RING_SQ_ENTRIES r)

/-- What the reading of a command changes. -/
def Dev.commandRead (r h : Nat) (c : HostCmd) (d : Dev) : Dev :=
  ({ d.entryTaken r with hcmds := [c] } : Dev).updBuf h fun b => { b with ring := none }

/-- A ring that can take the next command: enabled, the link usable, an entry to read, room for its completion, nothing else under way. -/
structure Dev.readsNext (r : Nat) (d : Dev) : Prop where
  enabled : d.on Od.HOST_RING_ENABLE r = true
  usable : d.linkOk = true
  waiting : d.n Rg.SQ_HEAD r ≠ d.n Rg.SQ_TAIL r
  room : 0 < d.cqFree r
  held : d.backlog = []
  commands : d.hcmds = []

/-- An entry of a listed opcode that names a buffer of the ring, on chip and not being stashed. -/
structure Dev.names (r h : Nat) (b : Buf) (entry : List Byte) (d : Dev) : Prop where
  size : entry.length = 64
  good : cmdOk entry = true
  handle : h = ofBytesLE (sliceZ entry 4 4)
  plain : bits h 23 18 = 0
  named : d.buf h = some b
  own : b.owner = 8 + r
  onChip : b.slot = none
  calm : b.stashing = false

/-- An INJECT of a buffer on chip waits for no transfer (R590). -/
theorem Dev.injectMove_onChip {d : Dev} {c : HostCmd} {b : Buf} (flagged : c.flag 1 = true) (plain : bits (c.num 4 4) 23 18 = 0)
    (named : d.buf (c.num 4 4) = some b) (own : b.owner = 8 + c.ring) (onChip : b.slot = none) (k : Clk) : d.injectMove k c = some d := by
  have check := Dev.bufCheck_own plain named own
  simp [Dev.injectMove, flagged, check, named, onChip]

section
variable {r h : Nat} {b : Buf} {entry : List Byte} {d : Dev} (next : d.readsNext r) (names : d.names r h b entry)

include names in
theorem Dev.names_small : h < 2 ^ 32 := by
  have := ofBytesLE_lt (sliceZ entry 4 4)
  have size : (sliceZ entry 4 4).length = 4 := by simp [sliceZ, names.size]
  rw [size] at this
  rw [names.handle]
  omega

include next names

theorem Dev.hostCmd_reads {op : Nat} (code : (entry.getD 0 0).toNat = op)
    (injects : op = 4 → bit (entry.getD 1 0).toNat 1 = true ∧ d.inject.length < 64) (k : Clk) (data : List Byte) (ok : Bool) :
    d.hostCmd k op r entry data ok = (d.commandRead r h (d.headCmd r entry data)).runCmd k (d.headCmd r entry data) ok := by
  have move (e : Dev) (same : e.bufs = d.bufs) (inj : op = 4) : e.injectMove k { ring := r, entry := entry, sq := 0 } = some e := by
    refine Dev.injectMove_onChip (c := { ring := r, entry := entry, sq := 0 }) (b := b) (injects inj).1 ?_ ?_ names.own names.onChip k
    · rw [HostCmd.num, ← names.handle]
      exact names.plain
    · rw [HostCmd.num, ← names.handle, Dev.buf, same]
      exact names.named
  have fits : (op == 4 && decide (64 ≤ (d.inject.filter fun j => j.port / 16 == ofBytesLE (sliceZ entry 20 2) % 1024 / 16).length)) = false := by
    by_cases inj : op = 4
    · have := List.length_filter_le (fun j => j.port / 16 == ofBytesLE (sliceZ entry 20 2) % 1024 / 16) d.inject
      have := (injects inj).2
      simp [inj]
      omega
    · simp [inj]
  have still : (op == 4 && (d.injectMove k { ring := r, entry := entry, sq := 0 }).isNone) = false := by
    by_cases inj : op = 4
    · simp [move d rfl inj]
    · simp [inj]
  have taken : (if op = 4 then ((d.entryTaken r).injectMove k { ring := r, entry := entry, sq := 0 }).getD (d.entryTaken r) else d.entryTaken r) =
      d.entryTaken r := by
    split
    next inj => rw [move (d.entryTaken r) rfl inj, Option.getD_some]
    next => rfl
  have alone : (d.entryTaken r).hcmds = [] := next.commands
  have named : (if op != 4 || bit (entry.getD 1 0).toNat 1 then d.buf h else none) = some b := by
    rw [if_pos, names.named]
    by_cases inj : op = 4
    · rw [(injects inj).1, Bool.or_true]
    · simp [inj]
  have room : ¬ d.cqFree r ≤ 0 := by have := next.room; omega
  unfold Dev.hostCmd
  dsimp only
  rw [code, ← names.handle, if_neg (by simp [fits, still, names.size, next.enabled, next.usable, next.waiting, next.held, next.commands, room]),
    show d.put Rg.SQ_HEAD r ((d.n Rg.SQ_HEAD r + 1) % d.n Od.HOST_RING_SQ_ENTRIES r) = d.entryTaken r from rfl, taken, alone]
  split
  next x found =>
    obtain rfl : x = b := Option.some.inj (found.symm.trans named)
    rw [if_neg (by simp [names.calm]), if_pos names.own]
    rfl
  next none => exact absurd (none.symm.trans named) nofun

end


/-- The elements that say whether a ring's completions can be written (R583, R594). -/
def completionReads (r : Nat) : List (Obj × Nat) :=
  [(Od.HOST_LINK_STATE, 0), (Rg.BME, 0), (Od.HOST_RING_CQ_ENTRIES, r), (Od.HOST_RING_ENABLE, r), (Rg.CQ_TAIL, r), (Rg.CQ_HEAD, r)]

theorem Dev.completions_same {r : Nat} {d e : Dev} (same : ∀ x ∈ completionReads r, e.n x.1 x.2 = d.n x.1 x.2) :
    e.linkOk = d.linkOk ∧ e.cqFree r = d.cqFree r := by
  simp only [completionReads, List.mem_cons, List.not_mem_nil, or_false, forall_eq_or_imp, forall_eq] at same
  obtain ⟨link, bme, entries, enabled, tail, head⟩ := same
  constructor
  · rw [Dev.linkOk, Dev.linkOk, Dev.on, Dev.on, link, bme]
  · rw [Dev.cqFree, Dev.cqFree, Dev.on, Dev.on, entries, enabled, tail, head]

/-- The elements of completions are none of an object's that the list names. -/
theorem completionReads_apart {P : Obj → Prop} (each : P Od.HOST_LINK_STATE ∧ P Rg.BME ∧ P Od.HOST_RING_CQ_ENTRIES ∧ P Od.HOST_RING_ENABLE ∧
    P Rg.CQ_TAIL ∧ P Rg.CQ_HEAD) {r : Nat} (ring : r < 16) : ∀ x ∈ completionReads r, P x.1 ∧ x.2 < 65536 := by
  have small : r < 65536 := by omega
  simp only [completionReads, List.mem_cons, List.not_mem_nil, or_false, forall_eq_or_imp, forall_eq]
  exact ⟨⟨each.1, by decide⟩, ⟨each.2.1, by decide⟩, ⟨each.2.2.1, small⟩, ⟨each.2.2.2.1, small⟩, ⟨each.2.2.2.2.1, small⟩, each.2.2.2.2.2, small⟩

/-- A ring's only command has ended and is completed: its completion has left, objects of completions alone have changed (R589). -/
def Dev.cmdDone (d e : Dev) : Prop :=
  e.hcmds = [] ∧ e.bufs = d.bufs ∧ (∃ l, e.out = d.out ++ l ∧ 2 ≤ l.length) ∧ ({ d with hcmds := [] } : Dev).touched completeObjs e

theorem Dev.cmdDone_outs {d e : Dev} (h : d.cmdDone e) : 2 ≤ e.out.length := by
  obtain ⟨-, -, ⟨l, out, two⟩, -⟩ := h
  rw [out, List.length_append]
  omega

theorem Dev.cmdDone_n {d e : Dev} (h : d.cmdDone e) {o : Obj} {i : Nat} (hi : i < 65536)
    (apart : ∀ q ∈ completeObjs, o.idx * 256 + o.sub ≠ q.idx * 256 + q.sub) : e.n o i = d.n o i :=
  Dev.n_touched h.2.2.2 hi (by decide) apart

theorem Dev.endCmd_ends {k : Clk} {d : Dev} {c x : HostCmd} {status : Nat} (usable : d.linkOk = true) (room : 0 < d.cqFree c.ring) (ring : c.ring < 16)
    (held : d.backlog = []) (commands : d.hcmds = [x]) (same : x.ring = c.ring ∧ x.sq = c.sq ∧ x.mute = c.mute) (heard : c.mute = false)
    (good : status = 0) : d.cmdDone (d.endCmd k c status) := by
  rw [Dev.endCmd_only usable room ring held commands same heard (by simp [good])]
  obtain ⟨touched, written⟩ := Dev.complete_leaves k ring ({ c with phase := 2, status := status, tick := k.tick } : HostCmd).bytes
    ({ d with hcmds := [] } : Dev)
  exact ⟨Dev.objsOnly_reads Dev.hcmds (fun _ => rfl) (Dev.touched_objsOnly touched),
    Dev.objsOnly_reads (d := ({ d with hcmds := [] } : Dev)) Dev.bufs (fun _ => rfl) (Dev.touched_objsOnly touched), written, touched⟩

/-! SUPPORT. Each opcode of a command that names a buffer of its ring (R589, R590). -/

section
variable {d : Dev} {c : HostCmd} {b : Buf} {h : Nat} (good : cmdOk c.entry = true) (handle : c.num 4 4 = h) (plain : bits h 23 18 = 0)
  (named : d.buf h = some b) {r : Nat} (ring : c.ring = r) (own : b.owner = 8 + r) (k : Clk) (ok : Bool)
include good handle plain named ring own

theorem Dev.runCmd_free (code : (c.entry.getD 0 0).toNat = 2) :
    d.runCmd k c ok = ((d.bufOp h (8 + r)).dropBuf b).endCmd k { c with handle := h } 0 := by
  subst ring
  unfold Dev.runCmd
  dsimp only
  rw [if_neg (by simp [good]), code, handle, Dev.freeBuf_own plain named own]
  rfl

theorem Dev.runCmd_hand {heir : Nat} (code : (c.entry.getD 0 0).toNat = 3) (to_ : (c.entry.getD 2 0).toNat = heir)
    (enabled : d.on Od.HOST_RING_ENABLE heir = true) :
    d.runCmd k c ok = ((d.bufOp h (8 + r)).updBuf h fun b => { b with owner := 8 + heir }).endCmd k { c with handle := h } 0 := by
  subst ring
  unfold Dev.runCmd
  dsimp only
  rw [if_neg (by simp [good]), code, handle, to_, Dev.handBuf_own plain named own, enabled]
  rfl

theorem Dev.runCmd_fetch (code : (c.entry.getD 0 0).toNat = 1) (onChip : b.slot = none) (some_ : c.num 16 2 ≠ 0)
    (within : c.num 18 2 + c.num 16 2 ≤ b.bytes.length) : ∃ status, d.runCmd k c ok = d.setCmd { c with
      handle := h, phase := 1, data := b.view (c.num 18 2) (c.num 16 2), len := c.num 16 2, stashed := false, status := status } := by
  subst ring
  unfold Dev.runCmd
  dsimp only
  rw [if_neg (by simp [good]), code, handle, Dev.bufCheck_own plain named own, named]
  change ∃ status, (if b.bytes.length < c.num 18 2 + (if c.num 16 2 = 0 then b.bytes.length - c.num 18 2 else c.num 16 2) ∨ b.bytes.length < c.num 18 2 then
    d.endCmd k { c with handle := h } 17 else _) = _
  rw [if_neg (by rw [if_neg some_]; omega)]
  have length : (if ({ c with handle := h } : HostCmd).num 16 2 = 0 then b.bytes.length - ({ c with handle := h } : HostCmd).num 18 2
      else ({ c with handle := h } : HostCmd).num 16 2) = c.num 16 2 := if_neg some_
  rw [length, onChip]
  refine ⟨if (List.range (c.num 16 2)).any fun i => b.poisoned.contains ((c.num 18 2 + i) / 8) then 16 else 0, ?_⟩
  simp only [Dev.bufBad, onChip]
  rfl

theorem Dev.runCmd_inject {p n : Nat} (code : (c.entry.getD 0 0).toNat = 4) (flagged : c.flag 1 = true) (port : p = c.num 20 2 % 1024)
    (length : n = c.num 16 2) (exists_ : d.portExists p = true) (least : 14 ≤ n) (most : n + 4 ≤ d.n Od.PORT_MTU p) (within : n ≤ b.bytes.length)
    (onChip : b.slot = none) : ∃ (j : Inject) (x : HostCmd), (j.port, j.bytes, j.handle, j.ring) = (p, b.bytes.take n, h, r) ∧
      d.runCmd k c ok = ({ d with inject := d.inject ++ [j] } : Dev).setCmd x := by
  subst ring
  have acts : d.runCmd k c ok = d.runInject k { c with handle := h } ok := by
    unfold Dev.runCmd
    dsimp only
    rw [if_neg (by simp [good]), code, handle]
    rfl
  have nums (o m : Nat) : ({ c with handle := h } : HostCmd).num o m = c.num o m := rfl
  have flag : ({ c with handle := h } : HostCmd).flag 1 = true := flagged
  rw [acts]
  unfold Dev.runInject
  dsimp only
  rw [nums, nums, nums, ← port, ← length, handle, exists_, flag, Dev.bufCheck_own plain named own, named, if_neg (by simp), if_neg (by omega), if_pos rfl,
    if_neg (by simp)]
  dsimp only
  rw [if_neg (by omega), onChip, if_neg (by simp)]
  exact ⟨_, _, rfl, rfl⟩

end

/-- A buffer of the ring freed: all of the device reads as before but what its return writes. -/
theorem Dev.n_freed {b : Buf} {h : Nat} {e : Dev} (count : e.n Od.POOL_QUARANTINE_COUNT 0 ≤ 4096) (range : b.pool * 8 + b.idx / 32768 < 3 * 65536) {o : Obj} {i : Nat}
    (hi : i < 65536) (apart : apartFromDrop o) (owner : Nat) : ((e.bufOp h owner).dropBuf b).n o i = e.n o i :=
  congrArg Int.toNat (Dev.get_dropBuf (d := e.bufOp h owner) range count hi (by decide) apart)

section
variable {d : Dev} {r h : Nat} {b : Buf} {entry : List Byte} (ring : r < 16) (next : d.readsNext r) (names : d.names r h b entry)

theorem Dev.n_entryTaken (r : Nat) (d : Dev) : (d.entryTaken r).n Rg.SQ_HEAD r = (d.n Rg.SQ_HEAD r + 1) % d.n Od.HOST_RING_SQ_ENTRIES r :=
  Dev.n_put_wide _ rfl _ _

include ring

theorem Dev.entryTaken_other (d : Dev) {o : Obj} {i e : Nat} (hi : i < 65536) (he : e < 65536)
    (apart : Rg.SQ_HEAD.idx * 256 + Rg.SQ_HEAD.sub ≠ o.idx * 256 + o.sub) : (d.entryTaken r).n o i e = d.n o i e :=
  Dev.n_put_apart _ (Obj.key_ne apart (by omega) hi (by decide) he)

include next in
theorem Dev.commandRead_completes (c : HostCmd) :
    (d.commandRead r h c).linkOk = true ∧ 0 < (d.commandRead r h c).cqFree r := by
  have same := Dev.completions_same (r := r) (d := d) (e := d.commandRead r h c) fun x at_ => by
    obtain ⟨apart, small⟩ := completionReads_apart (P := fun o => Rg.SQ_HEAD.idx * 256 + Rg.SQ_HEAD.sub ≠ o.idx * 256 + o.sub) (by decide) ring x at_
    exact Dev.entryTaken_other ring d small (by decide) apart
  rw [same.1, same.2]
  exact ⟨next.usable, next.room⟩

omit ring in
include names in
theorem Dev.commandRead_named (c : HostCmd) : (d.commandRead r h c).buf h = some { b with ring := none } :=
  Dev.buf_updBuf (d := { d.entryTaken r with hcmds := [c] }) names.named fun _ => rfl

/-- The ring's queue has moved on, in a device that differs from the one read no more than a completion and the return of a buffer do (R583). -/
def Dev.headMoved (r : Nat) (d e : Dev) : Prop := e.n Rg.SQ_HEAD r = (d.n Rg.SQ_HEAD r + 1) % d.n Od.HOST_RING_SQ_ENTRIES r

include next in
/-- A command that ends in a device as the reading left it, but for its buffers, is completed. -/
theorem Dev.endCmd_read {q : Dev} {c : HostCmd} (own : c.ring = r) (heard : c.mute = false)
    (same : ∀ o i, i < 65536 → apartFromDrop o → q.n o i = (d.commandRead r h c).n o i) (held : q.backlog = []) (commands : q.hcmds = [c]) (k : Clk) (x : Nat) :
    q.cmdDone (q.endCmd k { c with handle := x } 0) ∧ Dev.headMoved r d (q.endCmd k { c with handle := x } 0) := by
  have completes := Dev.commandRead_completes (h := h) ring next c
  have reads := Dev.completions_same (r := r) (d := d.commandRead r h c) (e := q) fun x at_ => by
    obtain ⟨apart, small⟩ := completionReads_apart (P := apartFromDrop) (by decide) ring x at_
    exact same _ _ small apart
  have done := Dev.endCmd_ends (k := k) (d := q) (c := { c with handle := x }) (x := c) (status := 0) (reads.1.trans completes.1)
    (by rw [show ({ c with handle := x } : HostCmd).ring = r from own, reads.2]; exact completes.2) (own.symm ▸ ring) held commands ⟨rfl, rfl, rfl⟩ heard rfl
  refine ⟨done, ?_⟩
  rw [Dev.headMoved, Dev.cmdDone_n done (by omega) (by decide), same _ _ (by omega) (by decide)]
  exact Dev.n_entryTaken r d

include next names

/-- FREE: the buffer has left its pool, and the command is completed (R310, R589). -/
theorem Dev.hostCmd_free (count : d.n Od.POOL_QUARANTINE_COUNT 0 ≤ 4096) (code : (entry.getD 0 0).toNat = 2) (k : Clk) :
    (d.hostCmd k 2 r entry [] true).hcmds = [] ∧ (d.hostCmd k 2 r entry [] true).buf h = none ∧ 2 ≤ (d.hostCmd k 2 r entry [] true).out.length ∧
      Dev.headMoved r d (d.hostCmd k 2 r entry [] true) := by
  have frees := Dev.runCmd_free (r := r) (c := d.headCmd r entry []) names.good names.handle.symm names.plain (Dev.commandRead_named names (d.headCmd r entry [])) rfl names.own k true code
  rw [Dev.hostCmd_reads next names code (fun inj => absurd inj (by decide)) k [] true, frees]
  have handle := Dev.buf_handle names.named
  have range := Buf.index_range handle (Dev.names_small names)
  have few : (d.commandRead r h (d.headCmd r entry [])).n Od.POOL_QUARANTINE_COUNT 0 ≤ 4096 :=
    (Dev.entryTaken_other ring d (by decide) (by decide) (by decide)).trans_le count
  obtain ⟨done, moved⟩ := Dev.endCmd_read (h := h) ring next (c := d.headCmd r entry [])
    (q := ((d.commandRead r h (d.headCmd r entry [])).bufOp h (8 + r)).dropBuf { b with ring := none }) rfl rfl
    (fun o i hi apart => Dev.n_freed few range hi apart _)
    ((Dev.dropBuf_keeps Dev.backlog (fun _ _ => rfl) (fun _ _ _ => rfl) _ _).trans next.held)
    (Dev.dropBuf_keeps Dev.hcmds (fun _ _ => rfl) (fun _ _ _ => rfl) _ _) k h
  refine ⟨done.1, ?_, Dev.cmdDone_outs done, moved⟩
  rw [Dev.buf, done.2.1, Dev.dropBuf_bufs, List.find?_filter]
  refine List.find?_eq_none.mpr fun x _ => ?_
  have same : ({ b with ring := none } : Buf).handle = h := handle
  simp [same]

/-- HAND: the other ring owns the buffer, and the command is completed (R310, R589). -/
theorem Dev.hostCmd_hand (code : (entry.getD 0 0).toNat = 3) (heir : d.on Od.HOST_RING_ENABLE (entry.getD 2 0).toNat = true) (k : Clk) :
    (d.hostCmd k 3 r entry [] true).hcmds = [] ∧ 2 ≤ (d.hostCmd k 3 r entry [] true).out.length ∧
      (d.hostCmd k 3 r entry [] true).buf h = some { b with ring := none, owner := 8 + (entry.getD 2 0).toNat } ∧
      Dev.headMoved r d (d.hostCmd k 3 r entry [] true) := by
  have named := Dev.commandRead_named names (d.headCmd r entry [])
  have byte := (entry.getD 2 0).isLt
  have heir_read : (d.commandRead r h (d.headCmd r entry [])).on Od.HOST_RING_ENABLE (entry.getD 2 0).toNat = true := by
    have kept := Dev.entryTaken_other ring d (o := Od.HOST_RING_ENABLE) (i := (entry.getD 2 0).toNat) (e := 0) (by omega) (by decide) (by decide)
    exact (congrArg (· != 0) kept).trans heir
  have hands := Dev.runCmd_hand (r := r) (heir := (entry.getD 2 0).toNat) (c := d.headCmd r entry []) names.good names.handle.symm names.plain named rfl names.own k true code rfl heir_read
  rw [Dev.hostCmd_reads next names code (fun inj => absurd inj (by decide)) k [] true, hands]
  obtain ⟨done, moved⟩ := Dev.endCmd_read (h := h) ring next (c := d.headCmd r entry [])
    (q := ((d.commandRead r h (d.headCmd r entry [])).bufOp h (8 + r)).updBuf h fun b => { b with owner := 8 + (entry.getD 2 0).toNat }) rfl rfl
    (fun _ _ _ _ => rfl) next.held rfl k h
  refine ⟨done.1, Dev.cmdDone_outs done, ?_, moved⟩
  rw [Dev.buf, done.2.1]
  exact Dev.buf_updBuf (d := (d.commandRead r h (d.headCmd r entry [])).bufOp h (8 + r)) named fun _ => rfl

omit ring in
/-- FETCH: the bytes of the buffer are being copied (R589). -/
theorem Dev.hostCmd_fetch (code : (entry.getD 0 0).toNat = 1) (some_ : ofBytesLE (sliceZ entry 16 2) ≠ 0)
    (within : ofBytesLE (sliceZ entry 18 2) + ofBytesLE (sliceZ entry 16 2) ≤ b.bytes.length) (k : Clk) :
    Dev.headMoved r d (d.hostCmd k 1 r entry [] true) ∧ ((d.hostCmd k 1 r entry [] true).hcmds.map fun c => (c.ring, c.phase, c.len, c.data)) =
      [(r, 1, ofBytesLE (sliceZ entry 16 2), b.view (ofBytesLE (sliceZ entry 18 2)) (ofBytesLE (sliceZ entry 16 2)))] := by
  obtain ⟨status, copies⟩ := Dev.runCmd_fetch (r := r) (c := d.headCmd r entry []) names.good names.handle.symm names.plain
    (Dev.commandRead_named names (d.headCmd r entry [])) rfl names.own k true code names.onChip some_ within
  rw [Dev.hostCmd_reads next names code (fun inj => absurd inj (by decide)) k [] true, copies]
  refine ⟨Dev.n_entryTaken r d, ?_⟩
  simp [Dev.setCmd, Dev.commandRead, Dev.updBuf, Dev.headCmd, HostCmd.num, Buf.view]

/-- INJECT of a buffer: its frame is queued (R590). -/
theorem Dev.hostCmd_inject {p n : Nat} (code : (entry.getD 0 0).toNat = 4) (flagged : bit (entry.getD 1 0).toNat 1 = true)
    (port : p = ofBytesLE (sliceZ entry 20 2) % 1024) (length : n = ofBytesLE (sliceZ entry 16 2)) (exists_ : d.portExists p = true) (least : 14 ≤ n)
    (most : n + 4 ≤ d.n Od.PORT_MTU p) (within : n ≤ b.bytes.length) (few : d.inject.length < 64) (k : Clk) (data : List Byte) (ok : Bool) :
    Dev.headMoved r d (d.hostCmd k 4 r entry data ok) ∧ ((d.hostCmd k 4 r entry data ok).inject.map fun j => (j.port, j.bytes, j.handle, j.ring)) =
      (d.inject.map fun j => (j.port, j.bytes, j.handle, j.ring)) ++ [(p, b.bytes.take n, h, r)] := by
  have small := Dev.portExists_lt exists_
  have kept (o : Obj) (i : Nat) (unit : i < 65536) (apart : Rg.SQ_HEAD.idx * 256 + Rg.SQ_HEAD.sub ≠ o.idx * 256 + o.sub) :
      (d.commandRead r h (d.headCmd r entry data)).n o i = d.n o i := Dev.entryTaken_other ring d unit (by decide) apart
  have stands : (d.commandRead r h (d.headCmd r entry data)).portExists p = true := by
    rw [Dev.portExists, Dev.portWidth, kept _ _ (by omega) (by decide)]
    exact exists_
  obtain ⟨j, x, fields, queued⟩ := Dev.runCmd_inject (r := r) (c := d.headCmd r entry data) names.good names.handle.symm names.plain
    (Dev.commandRead_named names (d.headCmd r entry data)) rfl names.own k ok code flagged port length stands least
    (by rw [kept _ _ (by omega) (by decide)]; exact most) within names.onChip
  rw [Dev.hostCmd_reads next names code (fun _ => ⟨flagged, few⟩) k data ok, queued]
  refine ⟨Dev.n_entryTaken r d, ?_⟩
  exact (List.map_append).trans (congrArg (fun y => d.inject.map (fun j => (j.port, j.bytes, j.handle, j.ring)) ++ [y]) fields)

end

/-! SUPPORT. Transfers complete within their grants (R313, R586, R589). -/

/-- Two totals of the tick's use have been written, no more. -/
def Dev.used (a b : Obj) (d e : Dev) : Prop := d.touched [a, b] e ∧ e.out = d.out

theorem Dev.used_puts {a b : Obj} (d : Dev) (v w : Nat) : d.used a b ((d.put a 0 v).put b 0 w) :=
  ⟨Dev.touched_put (Dev.touched_put (Dev.touched_refl _ d) (by simp) (by decide) (by decide) _) (by simp) (by decide) (by decide) _, rfl⟩

theorem Dev.dma_used {k : Clk} {n b : Nat} {d e : Dev} (granted : d.dma k n b = some e) : d.used Rg.DMA_USED Rg.XFER_HBM e := by
  unfold Dev.dma at granted
  split at granted
  · obtain rfl := Option.some.inj granted
    exact Dev.used_puts d _ _
  · exact absurd granted nofun

theorem Dev.dmaOf_used {k : Clk} {o n : Nat} {stashed : Bool} {d e : Dev} (granted : d.dmaOf k o n stashed = some e) :
    d.used Rg.DMA_USED Rg.XFER_HBM e := by
  unfold Dev.dmaOf at granted
  dsimp only at granted
  split at granted <;> exact Dev.dma_used granted

theorem Dev.xfer_used {k : Clk} {n b : Nat} {d e : Dev} (granted : d.xfer k n b = some e) : d.used Rg.XFER_USED Rg.XFER_HBM e := by
  unfold Dev.xfer at granted
  split at granted
  · obtain rfl := Option.some.inj granted
    exact Dev.used_puts d _ _
  · exact absurd granted nofun

theorem Dev.dmaOf_silent (k : Clk) (o n : Nat) (stashed : Bool) (d : Dev) : (d.silent.dmaOf k o n stashed).isSome = (d.dmaOf k o n stashed).isSome := by
  have dma (a b : Nat) : (d.silent.dma k a b).isSome = (d.dma k a b).isSome := by
    rw [Dev.dma, Dev.dma, apply_ite Option.isSome, apply_ite Option.isSome]
    rfl
  unfold Dev.dmaOf
  dsimp only
  split <;> exact dma _ _

theorem Dev.xfer_silent (k : Clk) (n b : Nat) (d : Dev) : (d.silent.xfer k n b).isSome = (d.xfer k n b).isSome := by
  rw [Dev.xfer, Dev.xfer, apply_ite Option.isSome, apply_ite Option.isSome]
  rfl

/-- A delivery's transfer has ended, the one that is held: its buffer holds the frame for the host (R585). -/
def Dev.deliveryEnded (k : Clk) (v : Deliv) (d : Dev) : Dev :=
  ({ d with deliv := d.deliv.erase v, backlog := [] } : Dev).updBuf v.handle fun b => { b with xfer := 0, ring := some v.ring, since := k.tick }

section
variable {d : Dev} {r : Nat} (ring : r < 16) (usable : d.linkOk = true) (room : 0 < d.cqFree r) (held : d.backlog = []) (k : Clk)
include ring usable room held

/-- The copy of a FETCH ends: its bytes have left, and its completion after them (R589). -/
theorem Dev.fetchDone_copies {c : HostCmd} (commands : d.hcmds = [c]) (own : c.ring = r) (copying : c.phase = 1) (good : c.status = 0)
    (keeps : c.flag 0 = false) (heard : c.mute = false) (granted : (d.dmaOf k (c.num 18 2) c.len c.stashed).isSome = true) :
    (d.fetchDone k r true).hcmds = [] ∧ (∃ l, (d.fetchDone k r true).out = d.out ++ { kind := .host, unit := r, vals := [c.num 8 8], bytes := c.data } :: l) ∧
      (d.fetchDone k r true).n Od.HOST_RING_FETCHED r = satAdd Od.HOST_RING_FETCHED.ty.top (d.n Od.HOST_RING_FETCHED r) 1 := by
  obtain ⟨e, moved⟩ := Option.isSome_iff_exists.mp granted
  obtain ⟨touched, out⟩ := Dev.dmaOf_used moved
  have shape : d.fetchDone k r true =
      ((e.emit { kind := .host, unit := r, vals := [c.num 8 8], bytes := c.data }).bump Od.HOST_RING_FETCHED r).endCmd k c 0 := by
    have first : d.hcmds.find? (fun c => c.ring == r && c.phase == 1) = some c := by simp [commands, own, copying]
    unfold Dev.fetchDone
    simp [first, moved, good, keeps, Dev.when]
  obtain ⟨keys, within, wrote⟩ := touched
  have changed : d.touched [Rg.DMA_USED, Rg.XFER_HBM, Od.HOST_RING_FETCHED]
      ((e.emit { kind := .host, unit := r, vals := [c.num 8 8], bytes := c.data }).bump Od.HOST_RING_FETCHED r) :=
    Dev.touched_put (Dev.touched_mono ⟨keys, within, Dev.wrote_emit wrote _⟩ (by simp)) (by simp) (by omega) (by decide) _
  have same := Dev.completions_same (r := r) fun x at_ => by
    obtain ⟨apart, small⟩ := completionReads_apart (P := fun o => ∀ q ∈ [Rg.DMA_USED, Rg.XFER_HBM, Od.HOST_RING_FETCHED],
      o.idx * 256 + o.sub ≠ q.idx * 256 + q.sub) (by decide) ring x at_
    exact Dev.n_touched changed small (by decide) apart
  have done := Dev.endCmd_ends (k := k) (c := c) (x := c) (status := 0) (same.1.trans usable) (by rw [own, same.2]; exact room) (own ▸ ring)
    ((Dev.objsOnly_reads Dev.backlog (fun _ => rfl) (Dev.touched_objsOnly changed)).trans held)
    ((Dev.objsOnly_reads Dev.hcmds (fun _ => rfl) (Dev.touched_objsOnly changed)).trans commands) ⟨rfl, rfl, rfl⟩ heard rfl
  rw [shape]
  refine ⟨done.1, ?_, ?_⟩
  · obtain ⟨-, -, ⟨l, written, -⟩, -⟩ := done
    exact ⟨l, by rw [written]; simp [Dev.bump, Dev.put, Dev.set, Dev.emit, out]⟩
  · rw [Dev.cmdDone_n done (by omega) (by decide), Dev.n_bump_same _ _ _ _ fun _ => ObjTy.norm_u64_top]
    exact congrArg (fun n => satAdd _ n 1) (Dev.n_touched ⟨keys, within, wrote⟩ (by omega) (by decide) (by decide))

/-- The transfer of a whole delivery ends: it is reported and counted (R585, R586). -/
theorem Dev.deliveryDone_reports {e : Dev} {n b : Nat} {v : Deliv} (commands : d.hcmds = []) (own : v.ring = r) (granted : d.xfer k n b = some e) :
    (e.deliveryDone k v).deliv = d.deliv.erase v ∧ (e.deliveryDone k v).backlog = [] ∧ 2 ≤ (e.deliveryDone k v).out.length ∧
      (e.deliveryDone k v).n Od.HOST_RING_DELIVERED r = satAdd Od.HOST_RING_DELIVERED.ty.top (d.n Od.HOST_RING_DELIVERED r) 1 := by
  obtain ⟨touched, -⟩ := Dev.xfer_used granted
  have objs := Dev.touched_objsOnly touched
  have none_held : e.backlog = [] := (Dev.objsOnly_reads Dev.backlog (fun _ => rfl) objs).trans held
  have none_read : e.hcmds = [] := (Dev.objsOnly_reads Dev.hcmds (fun _ => rfl) objs).trans commands
  have same := Dev.completions_same (r := r) (d := d) (e := e) fun x at_ => by
    obtain ⟨apart, small⟩ := completionReads_apart (P := fun o => ∀ q ∈ [Rg.XFER_USED, Rg.XFER_HBM], o.idx * 256 + o.sub ≠ q.idx * 256 + q.sub) (by decide)
      ring x at_
    exact Dev.n_touched touched small (by decide) apart
  have shape : e.deliveryDone k v = ({ e.deliveryEnded k v with backlog := [v] } : Dev).pumpAll k r := by
    unfold Dev.deliveryDone
    simp [Dev.deliveryEnded, Dev.updBuf, none_held, own]
  have written := Dev.complete_leaves k ring (v.bytes k) ((e.deliveryEnded k v).bump Od.HOST_RING_DELIVERED r)
  have reported : e.deliveryDone k v = ((e.deliveryEnded k v).bump Od.HOST_RING_DELIVERED r).complete k r (v.bytes k) := by
    have objs := Dev.touched_objsOnly written.1
    rw [shape]
    refine (Dev.pumpAll_delivery (d := { e.deliveryEnded k v with backlog := [v] }) (same.1.trans usable) (same.2 ▸ room) rfl own none_read).trans ?_
    exact Dev.pump_idle ((Dev.objsOnly_reads Dev.hcmds (fun _ => rfl) objs).trans none_read)
      (Dev.objsOnly_reads Dev.backlog (fun _ => rfl) objs) k r
  rw [reported]
  refine ⟨?_, ?_, ?_, ?_⟩
  · refine (Dev.objsOnly_reads Dev.deliv (fun _ => rfl) (Dev.touched_objsOnly written.1)).trans ?_
    have left : ((e.deliveryEnded k v).bump Od.HOST_RING_DELIVERED r).deliv = e.deliv.erase v := rfl
    rw [left, Dev.objsOnly_reads Dev.deliv (fun _ => rfl) objs]
  · exact Dev.objsOnly_reads Dev.backlog (fun _ => rfl) (Dev.touched_objsOnly written.1)
  · obtain ⟨-, l, out, two⟩ := written
    rw [out, List.length_append]
    omega
  · rw [Dev.n_touched written.1 (by omega) (by decide) (by decide), Dev.n_bump_same _ _ _ _ fun _ => ObjTy.norm_u64_top]
    exact congrArg (fun n => satAdd _ n 1) (Dev.n_touched touched (by omega) (by decide) (by decide))

end

/-! The commands of a ring (R583 to R590). -/

/-- Settles O51. -/
theorem hostCommandsAct : Obligations.HostCommandsAct := by
  unfold Obligations.HostCommandsAct
  intro s r running ring enabled usable room held count
  refine ⟨fun entry h b commands size good waiting handle plain named own onChip calm late => ?_, fun c commands own copying good keeps heard granted => ?_,
    fun v commands whole own granted => ?_⟩
  · have next : s.dev.silent.readsNext r := ⟨enabled, usable, waiting, room, held, commands⟩
    have names : s.dev.silent.names r h b entry := ⟨size, good, handle, plain, named, own, onChip, calm⟩
    have on_time : s.dev.bufLate (ofBytesLE (sliceZ entry 4 4)) (8 + r) = false := handle ▸ late
    refine ⟨fun code => ?_, fun code heir => ?_, fun code some_ within => ?_, fun p n data ok code flagged port length exists_ least most within few fits => ?_⟩
    · have turn : exec (.free r entry) s = .next (s.quiet.act fun k m d => (m, d.hostCmd k 2 r entry [] true)) := by
        change execFree r entry s = _
        exact State.inTurn_now (ready_halted running) (decide_eq_true ring) on_time _
      obtain ⟨ends, gone, written, moved⟩ := Dev.hostCmd_free ring next names count code s.clk
      exact ⟨_, turn, ⟨rfl, rfl, rfl⟩, ends, gone, written, moved⟩
    · have turn : exec (.hand r entry) s = .next (s.quiet.act fun k m d => (m, d.hostCmd k 3 r entry [] true)) := by
        change execHand r entry s = _
        exact State.inTurn_now (ready_halted running) (decide_eq_true ring) on_time _
      obtain ⟨ends, written, given, moved⟩ := Dev.hostCmd_hand ring next names code heir s.clk
      exact ⟨_, turn, ⟨rfl, rfl, rfl⟩, ends, written, given, moved⟩
    · have turn : exec (.fetch r entry) s = .next { s with dev := s.dev.silent.hostCmd s.clk 1 r entry [] true } :=
        State.runIf_eq running (decide_eq_true ring) rfl
      obtain ⟨moved, copies⟩ := Dev.hostCmd_fetch next names code some_ within s.clk
      exact ⟨_, turn, ⟨rfl, rfl, rfl⟩, moved, copies⟩
    · have turn : exec (.inject r entry data ok) s = .next (s.quiet.act fun k m d => (m, d.hostCmd k 4 r entry data ok)) := by
        change execInject r entry data ok s = _
        exact State.inTurn_now (ready_halted running) (decide_eq_true ring) (length ▸ fits) _
      obtain ⟨moved, queued⟩ := Dev.hostCmd_inject ring next names code flagged port length exists_ least most within few s.clk data ok
      exact ⟨_, turn, ⟨rfl, rfl, rfl⟩, moved, queued⟩
  · have unlate : s.dev.fetchLate r = false := by simp [Dev.fetchLate, commands, own, copying, keeps]
    have turn : exec (.fetchDone r true) s = .next (s.quiet.act fun k m d => (m, d.fetchDone k r true)) := by
      change execFetchDone r true s = _
      exact State.inTurn_now (ready_halted running) (decide_eq_true ring) unlate _
    obtain ⟨ends, ⟨l, out⟩, fetched⟩ := Dev.fetchDone_copies (d := s.dev.silent) ring usable room held s.clk commands own copying good keeps heard
      ((Dev.dmaOf_silent ..).trans granted)
    exact ⟨_, turn, ⟨rfl, rfl, rfl⟩, ends, congrArg List.head? out, fetched⟩
  · obtain ⟨e, moved⟩ := Option.isSome_iff_exists.mp ((Dev.xfer_silent ..).trans granted)
    have oldest : ((s.dev.silent.deliv.find? (·.whole)).filter fun v => v.ring == r) = some v := by
      rw [show s.dev.silent.deliv.find? (·.whole) = some v from whole, Option.filter_some, if_pos (by simpa using own)]
    have turn : exec (.deliveryComplete r) s = .next { s with dev := e.deliveryDone s.clk v } :=
      State.runIf_eq running (decide_eq_true ring) (by rw [oldest]; dsimp only; rw [moved])
    obtain ⟨taken, reported, written, counted⟩ := Dev.deliveryDone_reports (d := s.dev.silent) ring usable room held s.clk commands own moved
    exact ⟨_, turn, ⟨rfl, rfl, rfl⟩, taken, reported, written, counted⟩

end Sys2Proof.Machine

namespace Sys2Proof.Machine
open Sys2Proof.Safety

/-! SUPPORT. A pipeline flushed with nothing in transmission (R606): counted, its state cleared, held. -/

/-- The objects of a pipeline's state that a flush clears. -/
def flushObjs : List Obj := Od.all.filter (·.kept == .f)

theorem Dev.touched_clearInst {objs : List Obj} {d e : Dev} (h : d.touched objs e) {o : Obj} (known : o ∈ objs) {i : Nat} (unit : i < 65536) :
    d.touched objs (e.clearInst o i) := by
  refine Dev.touched_filter h (fun k => !(k / 65536 == (o.idx * 256 + o.sub) * 65536 + i)) fun k cleared => ?_
  have here : k / 65536 = (o.idx * 256 + o.sub) * 65536 + i := by simpa using cleared
  exact ⟨o, known, i, k % 65536, unit, by omega, by unfold Obj.key; omega⟩

/-- The device once a flush is counted and noted for its boundary (R602, R622). -/
def Dev.flushNoted (i : Nat) (d : Dev) : Dev := d.mildReset (8 + i)

theorem Dev.flushNoted_counts (i : Nat) (d : Dev) :
    (d.flushNoted i).n Od.RESET_COUNTS 0 4 = satAdd Od.RESET_COUNTS.ty.top (d.n Od.RESET_COUNTS 0 4) 1 := by
  have kind : (if 8 + i < 8 then 4 else 5) = 5 := if_neg (by omega)
  have counted : (d.flushNoted i).n Od.RESET_COUNTS 0 4 = (d.countReset 5).n Od.RESET_COUNTS 0 4 := by
    rw [← kind]
    rfl
  exact counted.trans (Dev.n_put_same _ _ _ _ _ (ObjTy.norm_u32_top (Nat.min_le_left _ _)))

theorem Dev.flushPipe_does (k : Clk) {i : Nat} (pipe : i < 64) {d : Dev} (runs : d.sorusRuns (i / 8) = true) (sent : d.tx = []) :
    (d.flushNoted i).touched (flushObjs ++ holdObjs) (d.flushPipe k i) ∧ k.raw / 64 + 64 ≤ (d.flushPipe k i).n Rg.HOLD_FLUSH i := by
  have uncut : (d.flushNoted i).cutCopies k (fun p => pipeOf p == i) = d.flushNoted i :=
    Dev.each_empty (by rw [show (d.flushNoted i).tx = [] from sent]; rfl) _ _
  have shape : d.flushPipe k i = ((d.flushNoted i).each flushObjs fun d o => d.each ((d.insts o).filter fun n => n * 64 / (o.insts + 1) == i)
      fun d n => d.clearInst o n).hold k Rg.HOLD_FLUSH i (k.raw / 64 + 64) := by
    rw [Dev.flushPipe, if_neg (by simp [runs])]
    exact congrArg (fun e : Dev => (e.each flushObjs _).hold k Rg.HOLD_FLUSH i (k.raw / 64 + 64)) uncut
  rw [shape]
  have cleared : (d.flushNoted i).touched flushObjs ((d.flushNoted i).each flushObjs fun d o =>
      d.each ((d.insts o).filter fun n => n * 64 / (o.insts + 1) == i) fun d n => d.clearInst o n) := by
    refine Dev.each_keeps (P := (d.flushNoted i).touched flushObjs) _ (fun e o known so => ?_) (Dev.touched_refl _ _)
    exact Dev.each_keeps (P := (d.flushNoted i).touched flushObjs) _
      (fun g n listed so => Dev.touched_clearInst so known (Dev.insts_lt (List.mem_filter.mp listed).1)) so
  exact ⟨Dev.touched_trans cleared (Dev.hold_touched (by decide) k (by omega) _ _), Dev.n_hold_same rfl k i _ _⟩

theorem resetCounts_unflushed : ∀ q ∈ flushObjs ++ holdObjs, Od.RESET_COUNTS.idx * 256 + Od.RESET_COUNTS.sub ≠ q.idx * 256 + q.sub := by
  decide +kernel

/-- A flush of a running sorus's pipeline holds it for 64 clocks and counts itself (R606, R622). -/
theorem Dev.flushPipe_reads (k : Clk) {i : Nat} (pipe : i < 64) {d : Dev} (runs : d.sorusRuns (i / 8) = true) (sent : d.tx = []) :
    k.raw / 64 + 64 ≤ (d.flushPipe k i).n Rg.HOLD_FLUSH i ∧
      (d.flushPipe k i).n Od.RESET_COUNTS 0 4 = satAdd Od.RESET_COUNTS.ty.top (d.n Od.RESET_COUNTS 0 4) 1 := by
  obtain ⟨touched, held⟩ := Dev.flushPipe_does k pipe runs sent
  exact ⟨held, (Dev.n_touched touched (by decide) (by decide) resetCounts_unflushed).trans (Dev.flushNoted_counts i d)⟩

/-! SUPPORT. A recovery starts (R627, R634). -/

/-- What a recovery's start leaves before its action: its entry of the log, where it had waited, and the recovery under way. -/
def Dev.recovLogged (k : Clk) (r : Recov) (d : Dev) : Dev :=
  if r.via = 0 then d else d.faultLog k (match r.via with | 1 => 0 | 2 => 5 | _ => 3) r

/-- A recovery is under way in place of any of the same resource. -/
def Dev.underWay (r x : Recov) (d : Dev) : Dev := { d with flt := (d.flt.filter fun w => !r.same w) ++ [x] }

theorem Dev.recovStart_eq (k : Clk) (r : Recov) (d : Dev) :
    d.recovStart k r = ((d.recovLogged k (started k d r)).underWay r (started k d r)).rungAction k (started k d r) := rfl

theorem Dev.recovLogged_touched (k : Clk) (r : Recov) {d : Dev} (room : d.n Od.FAULT_LOG_NEXT 0 < 32) :
    d.touched [Od.FAULT_LOG, Od.FAULT_LOG_NEXT] (d.recovLogged k r) := by
  unfold Dev.recovLogged
  refine Dev.touched_ite (Dev.touched_refl _ d) ?_
  have first := Dev.touched_put (Dev.touched_refl [Od.FAULT_LOG, Od.FAULT_LOG_NEXT] d) (o := Od.FAULT_LOG) (i := 0) (by simp) (by decide) (f := 2 * d.n Od.FAULT_LOG_NEXT 0)
    (by omega)
  exact Dev.touched_put (Dev.touched_put (first _) (by simp) (by decide) (by omega) _) (by simp) (by decide) (by decide) _

section
variable (k : Clk) {r : Recov}

/-- Rungs DETECT and ISOLATE have no action of their own (R625). -/
theorem Dev.recovStart_idle (rung : r.rung = 0 ∨ r.rung = 5) (fresh : r.via = 0) (d : Dev) :
    d.recovStart k r = d.underWay r (started k d r) := by
  have logged : d.recovLogged k (started k d r) = d := if_pos fresh
  have still (e : Dev) : e.rungAction k (started k d r) = e := by
    unfold Dev.rungAction
    rw [show (started k d r).rung = r.rung from rfl]
    rcases rung with detect | isolate
    · rw [detect]
      rfl
    · rw [isolate]
      rfl
  rw [Dev.recovStart_eq, still, logged]

/-- At rung 4 the ring of the resource is disabled (R625). -/
theorem Dev.recovStart_ring (rung : r.rung = 4) (d : Dev) :
    d.recovStart k r = ((d.recovLogged k (started k d r)).underWay r (started k d r)).ringOff r.unit := by
  rw [Dev.recovStart_eq, Dev.rungAction, show (started k d r).rung = 4 from rung]
  rfl

theorem Dev.freshStart_ring (rung : r.rung = 4) (fresh : r.via = 0) (unit : r.unit < 16) {d : Dev} (bufless : d.bufs = []) :
    (d.recovStart k r).on Od.HOST_RING_ENABLE r.unit = false ∧ (d.recovStart k r).fltDue = d.fltDue ∧
      (d.recovStart k r).flt = (d.flt.filter fun w => !r.same w) ++ [started k d r] := by
  have logged : d.recovLogged k (started k d r) = d := if_pos fresh
  have no_buf : (d.underWay r (started k d r)).bufs = [] := bufless
  rw [Dev.recovStart_ring k rung, logged]
  refine ⟨(Dev.ringOff_stands no_buf unit).2.2 _ unit (Or.inl (by simp)), ?_, ?_⟩ <;> rw [Dev.ringOff_bufless no_buf] <;> rfl

omit k in
theorem Dev.sorusRuns_of_uncovered {k : Clk} {d : Dev} (rung : r.rung = 1) (uncovered : d.covered k r = false) : d.sorusRuns (r.unit / 8) = true := by
  by_contra stopped
  simp [Dev.covered, rung, stopped] at uncovered

/-- At rung 1 the pipeline of the resource is flushed, unless a stronger action covers it (R602, R625). -/
theorem Dev.recovStart_flush (rung : r.rung = 1) (fresh : r.via = 0) {d : Dev} (uncovered : d.covered k r = false) :
    d.recovStart k r = (d.underWay r (started k d r)).flushPipe k r.unit := by
  have logged : d.recovLogged k (started k d r) = d := if_pos fresh
  rw [Dev.recovStart_eq, Dev.rungAction, show (started k d r).rung = 1 from rung, logged]
  exact if_neg (fun covered => Bool.false_ne_true (uncovered.symm.trans covered))

end

/-! SUPPORT. What follows an isolation (R632): the views that track are held over, a mat's lease is let go. -/

section
variable (k : Clk) {v : Nat} (view : v < 4)
include view

theorem Dev.holdover_isoDue (d : Dev) : (d.holdover k v).isoDue = d.isoDue := by
  have recorded := Dev.event_recorded (code := 0x0E01) (by decide) k v 0 [] (d.heldOver k v)
  rw [Dev.holdover_eq view]
  refine (Dev.objsOnly_reads Dev.isoDue (fun _ => rfl) (Dev.touched_objsOnly recorded)).trans ?_
  change (d.heldOver k v).isoDue = d.isoDue
  unfold Dev.heldOver
  dsimp only
  split <;> rfl

theorem Dev.n_holdover_state_other {w : Nat} (other : w < 4) (apart : w ≠ v) (d : Dev) :
    (d.holdover k v).n Od.TIME_VIEW_STATE w = d.n Od.TIME_VIEW_STATE w := by
  have held : (d.put Od.TIME_VIEW_STATE v 2).n Od.TIME_VIEW_STATE w = d.n Od.TIME_VIEW_STATE w :=
    Dev.n_put_apart _ (Obj.key_ne_inst _ (Ne.symm apart) (by decide) (by decide))
  rw [Dev.holdover_eq view, Dev.n_recorded (Dev.event_recorded (by decide) k _ _ _ _) (by omega) (by decide) (by decide)]
  unfold Dev.heldOver
  dsimp only
  split
  · exact held
  · exact (Dev.n_put_apart _ (Obj.key_ne_view view other (by decide))).trans held

end

/-- A view that tracks is held over. -/
def Dev.holdTracking (k : Clk) (d : Dev) (v : Nat) : Dev := d.when (d.n Od.TIME_VIEW_STATE v == 1) (Dev.holdover k v)

theorem Dev.holdTracking_eq (k : Clk) (d : Dev) (v : Nat) : d.holdTracking k v = if d.n Od.TIME_VIEW_STATE v == 1 then d.holdover k v else d := rfl

/-- Of views taken in turn, one that tracks or is held over already is held over at the end. -/
theorem Dev.each_holdTracking_state (k : Clk) {v : Nat} (view : v < 4) (l : List Nat) (views : ∀ w ∈ l, w < 4) {d : Dev}
    (state : d.n Od.TIME_VIEW_STATE v = 2 ∨ v ∈ l ∧ d.n Od.TIME_VIEW_STATE v = 1) :
    (d.each l (Dev.holdTracking k)).n Od.TIME_VIEW_STATE v = 2 := by
  induction l generalizing d with
  | nil => exact state.elim id fun tracks => absurd tracks.1 (by simp)
  | cons w l ih =>
    rw [Dev.each_cons]
    refine ih (fun x listed => views x (by simp [listed])) ?_
    rw [Dev.holdTracking_eq]
    by_cases same : w = v
    · left
      subst same
      split
      · exact Dev.n_holdover_state view k d
      next still => exact state.resolve_right fun tracks => still (by simp [tracks.2])
    · have kept : (if d.n Od.TIME_VIEW_STATE w == 1 then d.holdover k w else d).n Od.TIME_VIEW_STATE v = d.n Od.TIME_VIEW_STATE v := by
        split
        · exact Dev.n_holdover_state_other k (views w (by simp)) view (Ne.symm same) d
        · rfl
      rw [kept]
      exact state.imp_right fun tracks => ⟨(List.mem_cons.mp tracks.1).resolve_left (Ne.symm same), tracks.2⟩

/-- The part in a mat ends with the isolation: its leases are let go (R632, R438). -/
def Dev.leasesDropped (d : Dev) : Dev :=
  d.when (d.on Od.MAT_ENABLE 0) fun d => ((d.note Od.MAT_STATE 5 38).put Rg.H_TERM 0 0).put Rg.O_TERM 0 0

theorem Dev.leasesDropped_touched (d : Dev) : d.touched [Od.MAT_STATE, Rg.MSIX_CAUSE, Rg.H_TERM, Rg.O_TERM] d.leasesDropped := by
  refine Dev.touched_when (Dev.touched_refl _ d) _ (Dev.touched_scalar (Dev.touched_scalar ?_ (by simp) _) (by simp) _)
  exact Dev.touched_note (Dev.touched_refl _ _) (by simp) (by simp) _ _

theorem Dev.isolateNow_eq (k : Clk) (cause : Nat) {d : Dev} (free : d.on Od.FAULT_ISOLATED 0 = false) :
    d.isolateNow k cause = (d.isolationNoted cause).leasesDropped.each (List.range 4) (Dev.holdTracking k) :=
  if_neg (show ¬ d.on Od.FAULT_ISOLATED 0 = true by rw [free]; exact Bool.false_ne_true)

section
variable (k : Clk) (cause : Nat) {d : Dev} (free : d.on Od.FAULT_ISOLATED 0 = false)
include free

theorem Dev.isolateNow_isoDue : (d.isolateNow k cause).isoDue = none := by
  rw [Dev.isolateNow_eq k cause free]
  refine Dev.each_keeps (P := fun e => e.isoDue = none) _ (fun e v listed so => ?_) ?_
  · rw [Dev.holdTracking_eq]
    split
    · exact (Dev.holdover_isoDue k (List.mem_range.mp listed) e).trans so
    · exact so
  · exact Dev.objsOnly_reads Dev.isoDue (fun _ => rfl) (Dev.touched_objsOnly (Dev.leasesDropped_touched _))

omit free in
/-- An isolation reads what it does not write as before. -/
theorem Dev.n_isolationNoted {o : Obj} {i : Nat} (hi : i < 65536) (apart : ∀ q ∈ [Od.FAULT_ISOLATED, Od.FAULT_CAUSE, Od.FAULT_ISOLATIONS],
    o.idx * 256 + o.sub ≠ q.idx * 256 + q.sub) : (d.isolationNoted cause).n o i = d.n o i :=
  Dev.n_touched (d := { d with isoDue := none }) (Dev.touched_scalar (Dev.touched_scalar (Dev.touched_scalar (Dev.touched_refl
    [Od.FAULT_ISOLATED, Od.FAULT_CAUSE, Od.FAULT_ISOLATIONS] _) (by simp) _) (by simp) _) (by simp) _) hi (by decide) apart

theorem Dev.isolateNow_views {v : Nat} (view : v < 4) (tracks : d.n Od.TIME_VIEW_STATE v = 1) : (d.isolateNow k cause).n Od.TIME_VIEW_STATE v = 2 := by
  rw [Dev.isolateNow_eq k cause free]
  refine Dev.each_holdTracking_state k view _ (fun w => List.mem_range.mp) (Or.inr ⟨List.mem_range.mpr view, ?_⟩)
  exact (Dev.n_touched (Dev.leasesDropped_touched _) (by omega) (by decide) (by decide)).trans
    ((Dev.n_isolationNoted cause (by omega) (by decide)).trans tracks)

theorem Dev.isolateNow_leases (enabled : d.on Od.MAT_ENABLE 0 = true) :
    (d.isolateNow k cause).n Rg.O_TERM 0 = 0 ∧ (d.isolateNow k cause).n Rg.H_TERM 0 = 0 := by
  have held : (d.isolationNoted cause).leasesDropped.faultsKept holdoverObjs
      ((d.isolationNoted cause).leasesDropped.each (List.range 4) (Dev.holdTracking k)) := by
    refine Dev.each_keeps (P := Dev.faultsKept holdoverObjs _) _ (fun e v listed so => ?_) (Dev.faultsKept_refl _ _)
    refine Dev.faultsKept_mono (List.append_subset.mpr ⟨List.Subset.refl _, List.Subset.refl _⟩) (Dev.faultsKept_trans so (more := holdoverObjs) ?_)
    rw [Dev.holdTracking_eq]
    split
    · exact Dev.holdover_faultsKept k (List.mem_range.mp listed) e
    · exact Dev.faultsKept_refl _ e
  have stands : (d.isolationNoted cause).on Od.MAT_ENABLE 0 = true :=
    (congrArg (· != 0) (Dev.n_isolationNoted cause (o := Od.MAT_ENABLE) (i := 0) (by decide) (by decide))).trans enabled
  have dropped : (d.isolationNoted cause).leasesDropped = (((d.isolationNoted cause).note Od.MAT_STATE 5 38).put Rg.H_TERM 0 0).put Rg.O_TERM 0 0 :=
    if_pos stands
  rw [Dev.isolateNow_eq k cause free, held.2 _ (by decide), held.2 _ (by decide), dropped]
  exact ⟨Dev.n_put_wide _ rfl _ _, (Dev.n_put_scalar _ (by decide) (by decide) (by decide) _).trans (Dev.n_put_wide _ rfl _ _)⟩

end

/-! SUPPORT. The rows of recoveries (R627, R629). -/

/-- The oldest recovery that is due at a tick. -/
def Dev.dueRecovery (k : Clk) (d : Dev) : Option Recov := d.fltDue.find? fun r => decide (r.start ≤ k.tick)

section
variable {s : State} (running : ready s = true)
include running

theorem exec_recoveryStart_none (none_due : s.dev.dueRecovery s.clk = none) : exec .recoveryStart s = .next { s with dev := s.dev.silent } :=
  State.run_eq running (by
    unfold Dev.recoverNext
    rw [show s.dev.silent.fltDue.find? (fun r => decide (r.start ≤ s.clk.tick)) = none from none_due])

theorem exec_recoveryStart_due {r : Recov} (due : s.dev.dueRecovery s.clk = some r) :
    exec .recoveryStart s = .next { s with dev := ({ s.dev.silent with fltDue := s.dev.fltDue.erase r } : Dev).recovStart s.clk r } :=
  State.run_eq running (by
    unfold Dev.recoverNext
    rw [show s.dev.silent.fltDue.find? (fun r => decide (r.start ≤ s.clk.tick)) = some r from due]
    rfl)

omit running in
theorem Dev.windowsEnd_unqueued (k : Clk) {d : Dev} (unqueued : d.fltQ = []) : d.windowsEnd k = { d with flt := d.flt.filter fun r => !r.over k } := by
  unfold Dev.windowsEnd
  exact Dev.each_empty (by simp [unqueued]) _ _

omit running in
/-- The only window ends, and the recovery that waited for it starts (R629). -/
theorem Dev.windowsEnd_queued {k : Clk} {d : Dev} {r q : Recov} (only : d.flt = [r]) (ended : r.over k = true) (due : d.fltDue = []) (queue : d.fltQ = [q]) :
    d.windowsEnd k = (({ d with flt := [], fltQ := [] } : Dev).pending (faultSub q.kind)).recovStart k q := by
  have closed : (d.flt.filter fun r => !r.over k) = [] := by simp [only, ended]
  have subs : (d.fltQ.map fun r => faultSub r.kind).dedup.filter (fun s => !({ d with flt := [] } : Dev).subBusy k s) = [faultSub q.kind] := by
    simp [queue, Dev.subBusy, due]
  unfold Dev.windowsEnd
  dsimp only
  rw [closed, subs]
  change (match d.fltQ.find? (fun x => faultSub x.kind == faultSub q.kind) with
    | some x => (({ d with flt := [], fltQ := d.fltQ.erase x } : Dev).pending (faultSub q.kind)).recovStart k x
    | none => { d with flt := [] }) = _
  rw [queue, List.find?_cons_of_pos (by simp)]
  simp

end

theorem faultSub_le (kind : Nat) : faultSub kind ≤ 25 := by
  unfold faultSub
  split <;> decide

/-- The recovery that had waited starts at rung 4, once its subsystem's queue is counted anew (R625, R629). -/
theorem Dev.queuedStart_ring (k : Clk) {q : Recov} (rung : q.rung = 4) (unit : q.unit < 16) {d : Dev} (bufless : d.bufs = [])
    (room : d.n Od.FAULT_LOG_NEXT 0 < 32) (idle : d.flt = []) (queue : d.fltQ = []) :
    ((d.pending (faultSub q.kind)).recovStart k q).fltQ = [] ∧ ((d.pending (faultSub q.kind)).recovStart k q).flt = [started k d q] ∧
      ((d.pending (faultSub q.kind)).recovStart k q).n Od.FAULT_PENDING 0 (faultSub q.kind - 1) = 0 ∧
      ((d.pending (faultSub q.kind)).recovStart k q).on Od.HOST_RING_ENABLE q.unit = false := by
  have small := faultSub_le q.kind
  have kept {o : Obj} {f : Nat} (elem : f < 65536) (apart : Od.FAULT_PENDING.idx * 256 + Od.FAULT_PENDING.sub ≠ o.idx * 256 + o.sub) :
      (d.pending (faultSub q.kind)).n o 0 f = d.n o 0 f := Dev.n_put_scalar d apart (by omega) elem _
  have same : started k (d.pending (faultSub q.kind)) q = started k d q := by rw [started, started, kept (by omega) (by decide)]
  have logged := Dev.recovLogged_touched k (started k d q) (d := d.pending (faultSub q.kind)) ((kept (by decide) (by decide)).trans_lt room)
  have objs := Dev.touched_objsOnly logged
  have no_buf : ((Dev.recovLogged k (started k d q) (d.pending (faultSub q.kind))).underWay q (started k d q)).bufs = [] :=
    (Dev.objsOnly_reads Dev.bufs (fun _ => rfl) objs).trans bufless
  have no_window := (Dev.objsOnly_reads Dev.flt (fun _ => rfl) objs).trans idle
  have no_queue := (Dev.objsOnly_reads Dev.fltQ (fun _ => rfl) objs).trans queue
  have counted : (d.pending (faultSub q.kind)).n Od.FAULT_PENDING 0 (faultSub q.kind - 1) = 0 := by
    rw [Dev.pending, queue]
    exact Dev.n_put_same _ _ _ _ _ rfl
  rw [Dev.recovStart_ring k rung, same]
  refine ⟨?_, ?_, ?_, ((Dev.ringOff_stands no_buf unit).2.2 _ unit (Or.inl (by simp)))⟩
  · rw [Dev.ringOff_bufless no_buf]
    exact no_queue
  · rw [Dev.ringOff_bufless no_buf]
    exact congrArg (fun l => (l.filter fun w => !q.same w) ++ [started k d q]) no_window
  · rw [Dev.ringOff_bufless no_buf, Dev.n_put_apart _ (Obj.key_ne (by decide) (by omega) (by decide) (by decide) (by omega)),
      Dev.n_bump_apart _ (Obj.key_ne (by decide) (by omega) (by decide) (by decide) (by omega))]
    exact (Dev.n_touched logged (by decide) (by omega) (by decide)).trans counted

section
variable {s : State} (running : ready s = true)
include running

theorem exec_isolationEntry_unasked (unasked : s.dev.isoDue = none) : exec .isolationEntry s = .next { s with dev := s.dev.silent } :=
  State.run_eq running (by rw [show s.dev.silent.isoDue = none from unasked])

theorem exec_isolationEntry_asked {c at_ : Nat} (asked : s.dev.isoDue = some (c, at_)) : exec .isolationEntry s =
    .next { s with dev := if at_ ≤ s.clk.tick then s.dev.silent.isolateNow s.clk c else s.dev.silent } :=
  State.run_eq running (by rw [show s.dev.silent.isoDue = some (c, at_) from asked])

end

/-! Recoveries and isolation (R625 to R632). -/

/-- Settles O56. -/
theorem recoveriesAndIsolation : Obligations.RecoveriesAndIsolation := by
  unfold Obligations.RecoveriesAndIsolation
  intro s running
  refine ⟨fun none_due => ?_, fun r due fresh => ⟨fun rung => ?_, fun rung unit bufless => ?_, fun rung pipe plain sent uncovered => ?_⟩, fun unqueued => ?_,
    fun r q only ended active due queue sub rung unit bufless room => ?_, fun unasked => ?_, fun c at_ asked named => ⟨fun early => ?_, fun time isolated => ?_,
    fun time free => ?_⟩⟩
  · exact ⟨_, exec_recoveryStart_none running none_due, onlyWrites_of (Dev.wrote_silent _ _)⟩
  · rw [exec_recoveryStart_due running due, Dev.recovStart_idle s.clk rung fresh]
    exact ⟨_, rfl, ⟨rfl, rfl, rfl⟩, rfl, fun _ _ _ _ => rfl⟩
  · rw [exec_recoveryStart_due running due]
    obtain ⟨off, left, under⟩ := Dev.freshStart_ring s.clk rung fresh unit (d := { s.dev.silent with fltDue := s.dev.fltDue.erase r }) bufless
    exact ⟨_, rfl, ⟨rfl, rfl, rfl⟩, off, left, under⟩
  · have runs : s.dev.sorusRuns (r.unit / 8) = true := Dev.sorusRuns_of_uncovered (d := { s.dev with fltDue := s.dev.fltDue.erase r }) rung uncovered
    rw [exec_recoveryStart_due running due, Dev.recovStart_flush s.clk rung fresh (d := { s.dev.silent with fltDue := s.dev.fltDue.erase r }) uncovered]
    obtain ⟨held, counted⟩ := Dev.flushPipe_reads s.clk pipe (d := Dev.underWay r (started s.clk s.dev r)
      { s.dev.silent with fltDue := s.dev.fltDue.erase r }) runs sent
    exact ⟨_, rfl, ⟨rfl, rfl, rfl⟩, held, counted⟩
  · have ends : exec .recoveryWindowEnd s = _ := State.run_eq running (Dev.windowsEnd_unqueued s.clk (d := s.dev.silent) unqueued)
    exact ⟨_, ends, ⟨rfl, rfl, rfl⟩, rfl, fun _ _ _ _ => rfl⟩
  · have ends : exec .recoveryWindowEnd s = _ := State.run_eq running (Dev.windowsEnd_queued (d := s.dev.silent) only ended due queue)
    obtain ⟨unqueued, started, counted, off⟩ := Dev.queuedStart_ring s.clk rung unit (d := { s.dev.silent with flt := [], fltQ := [] }) bufless room rfl rfl
    exact ⟨_, ends, ⟨rfl, rfl, rfl⟩, unqueued, started, sub ▸ counted, off⟩
  · exact ⟨_, exec_isolationEntry_unasked running unasked, onlyWrites_of (Dev.wrote_silent _ _)⟩
  · rw [exec_isolationEntry_asked running asked, if_neg (by omega)]
    exact ⟨_, rfl, onlyWrites_of (Dev.wrote_silent _ _)⟩
  · rw [exec_isolationEntry_asked running asked, if_pos time]
    have stays : s.dev.silent.isolateNow s.clk c = { s.dev.silent with isoDue := none } := if_pos isolated
    rw [stays]
    exact ⟨_, rfl, ⟨rfl, rfl, rfl⟩, rfl, fun _ _ _ _ => rfl⟩
  · rw [exec_isolationEntry_asked running asked, if_pos time]
    have quiet : s.dev.silent.on Od.FAULT_ISOLATED 0 = false := free
    obtain ⟨isolated, cause, -, -⟩ := Dev.isolateNow_does s.clk named quiet
    refine ⟨_, rfl, ⟨rfl, rfl, rfl⟩, Dev.isolateNow_isoDue s.clk c quiet, ?_, cause, fun v view tracks => Dev.isolateNow_views s.clk c quiet view tracks,
      fun enabled => Dev.isolateNow_leases s.clk c quiet enabled⟩
    rw [Dev.on, isolated]
    rfl

end Sys2Proof.Machine

namespace Sys2Proof.Machine
open Sys2Proof.Safety

/-! A warm reset in a state whose findings carry numbers of no memory (R464, R604). -/

/-- The number of the memory and die under which a finding's count is the element of RESET.LEVEL.NEXT: far beyond the 16 memories of 16 dies of R453, but the
model's finding holds any number. -/
def strayMemDie : Nat := (Od.RESET_LEVEL_NEXT.key 0 0 - Od.INTEG_MEM_CORRECTED.key 0 0) / 65536

/-- A device with RESET.LEVEL.NEXT 2 and one corrected finding of this clock, under that number. -/
def strayFinding : Dev :=
  { ({} : Dev).put Od.RESET_LEVEL_NEXT 0 2 with found := [{ mem := strayMemDie / 16, die := strayMemDie % 16, addr := 0, bits := 1 }] }

/-- The behaviour level of the state that a command answers, 0 where it answers none. -/
def levelAfter (o : Host.Outcome State Fault Refusal) : Int :=
  match o with
  | .next t => t.dev.get Od.DEVICE_BEHAVIOUR_LEVEL 0
  | _ => 0

/-- The finding's count reaches RESET.LEVEL.NEXT before the reset adopts it (R464). -/
theorem levelAfter_strayFinding : levelAfter (exec (.warmReset 4) { dev := strayFinding }) = 3 := by decide +kernel

/-- Refutes O53: a finding of this clock enters its log before the reset acts (R464), and the model's finding may carry a number of memory and die whose count
is the element of RESET.LEVEL.NEXT: with RESET.LEVEL.NEXT at 2 the level adopted is 3. -/
theorem not_warmResetAndStart : ¬ Obligations.WarmResetAndStart := by
  unfold Obligations.WarmResetAndStart
  intro h
  obtain ⟨resets, -, -⟩ := h { dev := strayFinding } rfl
  obtain ⟨t, ran, -, -, -, -, adopts⟩ := resets 4 (by decide) (by decide) (Or.inl (by decide))
  obtain ⟨-, level, -, -⟩ := adopts rfl rfl (by decide) rfl (by decide)
  have reads : t.dev.get Od.DEVICE_BEHAVIOUR_LEVEL 0 = 3 := (congrArg levelAfter ran).symm.trans levelAfter_strayFinding
  have before : Od.DEVICE_BEHAVIOUR_LEVEL.ty.norm (strayFinding.n Od.RESET_LEVEL_NEXT 0 : Nat) = 2 := by decide
  exact absurd (reads.symm.trans (level.trans before)) (by decide)

/-! A park with a copy that waits whose epoch is none of the two (R139, R618). -/

/-- The epoch under which a drain count is an element of another object: the copy's epoch of R139 is 0 or 1, but the model's descriptor holds any number. -/
def strayEpoch (o : Obj) (i e : Nat) : Nat := o.key i e - Od.CLASS_DRAIN_COUNT.key 0 0

/-- A device whose sorus 0 alone is not parked, with POWER.IDLE_ENABLE, and one copy that waits at port 0 under the epoch of POWER.SORUS.STATE of sorus 1. -/
def lastRunning : Dev :=
  { (((List.range 7).foldl (fun d i => d.put Od.POWER_SORUS_STATE (i + 1) 2) ({} : Dev)).put Od.POWER_IDLE_ENABLE 0 1) with
    copies := [{ queue := 0, fr := 0, desc := { epoch := strayEpoch Od.POWER_SORUS_STATE 1 0 } }] }

/-- The device of the state that a command answers is in idle. -/
def idleAfter (o : Host.Outcome State Fault Refusal) : Bool :=
  match o with
  | .next t => t.dev.idle
  | _ => true

/-- The park flushes the copy, and its drain count takes one from the state of sorus 1, which then is not parked (R293). -/
theorem idleAfter_lastRunning : idleAfter (exec (.sorusPark 0) { dev := lastRunning }) = false := by decide +kernel

theorem lastRunning_parks : lastRunning.parkOk 0 = true ∧ lastRunning.sorusRuns 0 = true ∧ plainWords lastRunning = true ∧
    lastRunning.on Od.POWER_IDLE_ENABLE 0 = true ∧ ∀ o, o < 8 → o ≠ 0 → lastRunning.n Od.POWER_SORUS_STATE o = 2 := by decide +kernel

/-- Refutes O55: a park flushes the queues of the sorus's ports, and a flushed copy lowers the drain count of its epoch; the model's copy may carry a number
under which that count is POWER.SORUS.STATE of another sorus, which then leaves 2, and the device does not enter idle. -/
theorem not_soriParkAndWake : ¬ Obligations.SoriParkAndWake := by
  unfold Obligations.SoriParkAndWake
  intro h
  obtain ⟨mayPark, runs, plain, enabled, parked⟩ := lastRunning_parks
  obtain ⟨parks, -⟩ := h { dev := lastRunning } 0 rfl (by decide)
  obtain ⟨t, ran, -, -, -, -, idles⟩ := parks rfl mayPark runs plain
  have awake : t.dev.idle = false := (congrArg idleAfter ran).symm.trans idleAfter_lastRunning
  exact Bool.false_ne_true (awake.symm.trans (idles enabled parked))

end Sys2Proof.Machine

namespace Sys2Proof.Machine
open Sys2Proof.Safety

/-! SUPPORT. A reset of a running sorus, taken apart: its ports, and then its items, its memories, its tree and its buffers (R605). -/

/-- A running sorus's reset up to its ports' going down: counted, its frames and copies ended, each port down with its lock kept or lost. -/
def Dev.portsReset (k : Clk) (s : Nat) (lanes : Bool) (d : Dev) : Dev :=
  let d := (d.covers fun x => x == s || decide (8 ≤ x) && (x - 8) / 8 == s).mildReset s
  let ps := (d.sorusPorts s).filter fun p => d.link p != lkDISABLED && d.link p != lkNO_REFCLK
  let d := d.cutCopies k fun p => sorusOf p == s
  let d := d.each (d.rx.filter fun f => sorusOf f.port == s) (Dev.discardRx k)
  d.each ps fun d p =>
    (d.portDown k p false).put Rg.LOCK_HELD p (if (d.receives p && d.on Od.PORT_ACTIVE_LANES p) && !lanes then 1 else 0)

/-- What follows the ports: items, memories, tree and buffers of the sorus. -/
def Dev.sorusCleared (k : Clk) (s : Nat) (d : Dev) : Dev :=
  let d := ((d.sorusItems s).sorusHeal s).sorusTree k s false
  d.each (d.bufs.filter (·.owner == s)) Dev.dropBuf

theorem Dev.sorusReset_running (k : Clk) {s : Nat} (lanes : Bool) {d : Dev} (runs : d.sorusRuns s = true) : d.sorusReset k s lanes false =
    (((d.portsReset k s lanes).sorusCleared k s).put Od.POWER_SORUS_STATE s 1).put Rg.SORUS_UNTIL s (k.tick + 2001) := by
  have state : d.n Od.POWER_SORUS_STATE s = 0 := by simpa [Dev.sorusRuns] using runs
  unfold Dev.sorusReset
  rw [if_neg (by simp [state])]
  have again : (!false && !d.sorusRuns s) = false := by simp [runs]
  rw [again]
  rfl

/-- The objects that a sorus's items stand in (R18), with those of its schedulers (R337). -/
def itemObjs : List Obj :=
  (Od.all.filter fun o => o.kept == .s || o.kept == .f) ++
    [Od.SCHED_VTIME, Od.SCHED_TURN, Od.PSHAPER_TOKENS, Od.SCHED_DEFICIT, Od.SCHED_TAG, Od.SHAPER_TOKENS]

theorem Dev.schedReset_touched {d e : Dev} (h : d.touched itemObjs e) {p : Nat} (port : p < 1024) : d.touched itemObjs (e.schedReset p) := by
  have known {o : Obj} (listed : o ∈ [Od.SCHED_VTIME, Od.SCHED_TURN, Od.PSHAPER_TOKENS, Od.SCHED_DEFICIT, Od.SCHED_TAG, Od.SHAPER_TOKENS]) :
      o ∈ itemObjs := List.mem_append_right _ listed
  have unit : p < 65536 := by omega
  have filled (e : Dev) (so : d.touched itemObjs e) : d.touched itemObjs (e.fillPort p) :=
    Dev.touched_put (Dev.touched_put so (known (by simp)) unit (by decide) _) (known (by simp)) unit (by decide) _
  refine Dev.each_keeps (P := d.touched itemObjs) _ (fun e o listed so => ?_)
    (filled _ (Dev.touched_clearInst (Dev.touched_clearInst h (known (by simp)) unit) (known (by simp)) unit))
  have queue : 16 * p + o < 65536 := by have := List.mem_range.mp listed; omega
  have fresh := Dev.touched_put (Dev.touched_put so (known (o := Od.SCHED_DEFICIT) (by simp)) queue (f := 0) (by decide) 0)
    (known (o := Od.SCHED_TAG) (by simp)) queue (f := 0) (by decide) 0
  exact Dev.touched_put (Dev.touched_put fresh (known (by simp)) queue (by decide) _) (known (by simp)) queue (by decide) _

theorem Dev.sorusPorts_lt {d : Dev} {s p : Nat} (listed : p ∈ d.sorusPorts s) : p < 1024 := Dev.portExists_lt (List.mem_filter.mp listed).2

theorem Dev.sorusItems_touched (s : Nat) (d : Dev) : d.touched itemObjs (d.sorusItems s) := by
  refine Dev.each_keeps (P := d.touched itemObjs) _ (fun e p listed so => Dev.schedReset_touched so (Dev.sorusPorts_lt listed)) ?_
  refine Dev.each_keeps (P := d.touched itemObjs) _ (fun e o known so => ?_) (Dev.touched_refl _ d)
  exact Dev.each_keeps (P := d.touched itemObjs) _
    (fun g n listed so => Dev.touched_clearInst so (List.mem_append_left _ known) (Dev.insts_lt (List.mem_filter.mp listed).1)) so

/-- The tree of a sorus is copied from another, or the device is to isolate; of the objects TREE_STALE alone is written. -/
theorem Dev.get_sorusTree (k : Clk) {s : Nat} (sorus : s < 8) (waking : Bool) (d : Dev) {o : Obj} {i e : Nat} (hi : i < 65536) (he : e < 65536)
    (apart : Rg.TREE_STALE.idx * 256 + Rg.TREE_STALE.sub ≠ o.idx * 256 + o.sub) : (d.sorusTree k s waking).get o i e = d.get o i e := by
  unfold Dev.sorusTree
  split
  · exact (Dev.get_put_apart _ (Obj.key_ne apart (by omega) hi (by decide) he)).trans rfl
  · unfold Dev.isolateDue
    split
    · split <;> rfl
    · split <;> rfl

theorem Dev.sorusTree_bufs (k : Clk) (s : Nat) (waking : Bool) (d : Dev) : (d.sorusTree k s waking).bufs = d.bufs := by
  unfold Dev.sorusTree
  split
  · rfl
  · unfold Dev.isolateDue
    split
    · split <;> rfl
    · split <;> rfl

/-- What follows the ports of a reset sorus that owns no buffer leaves an object that is none of its items. -/
theorem Dev.get_sorusCleared (k : Clk) {s : Nat} (sorus : s < 8) {d : Dev} (bufless : d.bufs = []) {o : Obj} {i e : Nat} (hi : i < 65536) (he : e < 65536)
    (apart : ∀ q ∈ itemObjs, o.idx * 256 + o.sub ≠ q.idx * 256 + q.sub) (stale : Rg.TREE_STALE.idx * 256 + Rg.TREE_STALE.sub ≠ o.idx * 256 + o.sub) :
    (d.sorusCleared k s).get o i e = d.get o i e := by
  have items := Dev.sorusItems_touched s d
  have none_held : (((d.sorusItems s).sorusHeal s).sorusTree k s false).bufs = [] :=
    (Dev.sorusTree_bufs k s false _).trans ((Dev.objsOnly_reads Dev.bufs (fun _ => rfl) (Dev.touched_objsOnly items)).trans bufless)
  rw [Dev.sorusCleared, Dev.each_empty (by rw [none_held]; rfl), Dev.get_sorusTree k sorus false _ hi he stale]
  exact Dev.get_touched items hi he apart

theorem resetCounts_apart : ∀ q ∈ itemObjs, Od.RESET_COUNTS.idx * 256 + Od.RESET_COUNTS.sub ≠ q.idx * 256 + q.sub := by decide +kernel

/-- The counts of resets stand at the end of a sorus's reset as its ports left them (R622). -/
theorem Dev.n_sorusReset_counts (k : Clk) {s : Nat} (sorus : s < 8) (lanes : Bool) {d : Dev} (runs : d.sorusRuns s = true)
    (bufless : (d.portsReset k s lanes).bufs = []) :
    (d.sorusReset k s lanes false).n Od.RESET_COUNTS 0 3 = (d.portsReset k s lanes).n Od.RESET_COUNTS 0 3 := by
  have unit : s < 65536 := by omega
  rw [Dev.sorusReset_running k lanes runs, Dev.n_put_apart _ (Obj.key_ne (by decide) unit (by decide) (by decide) (by decide)),
    Dev.n_put_apart _ (Obj.key_ne (by decide) unit (by decide) (by decide) (by decide))]
  exact congrArg Int.toNat (Dev.get_sorusCleared k sorus bufless (by decide) (by decide) resetCounts_apart (by decide))

theorem exec_sorusResetLogic_opening {s : State} (running : ready s = true) (boundary : s.clk.c = 0) {x : Nat} (sorus : x < 8) :
    exec (.sorusResetLogic x) s = .next { s with dev := (s.dev.silent.sorusReset s.clk x false false).atOpen } := by
  change execSorusResetLogic x s = _
  exact State.rowD_eq running boundary (decide_eq_true sorus) _ rfl

/-- What a sorus's reset of form LOGIC leaves of its count, where the sorus owns no buffer. -/
theorem exec_sorusResetLogic_counts {s t : State} (running : ready s = true) (boundary : s.clk.c = 0) {x : Nat} (sorus : x < 8)
    (runs : s.dev.silent.sorusRuns x = true) (bufless : (s.dev.silent.portsReset s.clk x false).bufs = []) (ran : exec (.sorusResetLogic x) s = .next t) :
    t.dev.n Od.RESET_COUNTS 0 3 = (s.dev.silent.portsReset s.clk x false).n Od.RESET_COUNTS 0 3 := by
  obtain rfl := Host.Outcome.next.inj ((exec_sorusResetLogic_opening running boundary sorus).symm.trans ran)
  exact Dev.n_sorusReset_counts s.clk sorus false runs bufless

/-! A reset of a sorus with a copy that waits whose epoch is none of the two (R139, R605). -/

/-- A device with port 0 up and one copy that waits there under the epoch of the count of resets of a sorus. -/
def strayReset : State where
  dev := { ((({} : Dev).put Od.PORT_LINK_STATE 0 2).put Od.PORT_HOLD_TIME 0 0) with
    copies := [{ queue := 0, fr := 0, desc := { epoch := strayEpoch Od.RESET_COUNTS 0 3 } }] }

theorem strayReset_may : plainWords strayReset.dev = true ∧ strayReset.dev.sorusRuns 0 = true ∧ strayReset.dev.silent.sorusRuns 0 = true ∧
    strayReset.dev.replaying = false ∧ satAdd Od.RESET_COUNTS.ty.top (strayReset.dev.n Od.RESET_COUNTS 0 3) 1 = 1 := by decide +kernel

/-- The reset counts itself, and the copy flushed as port 0 goes down takes the count away again. -/
theorem portsReset_strayReset : (strayReset.dev.silent.portsReset strayReset.clk 0 false).n Od.RESET_COUNTS 0 3 = 0 ∧
    (strayReset.dev.silent.portsReset strayReset.clk 0 false).bufs = [] := by decide +kernel

/-- Refutes O54: a reset of a sorus flushes the queues of its ports as they go down, and a flushed copy lowers the drain count of its epoch; the model's copy
may carry a number under which that count is the count of sorus resets, which then stays 0. -/
theorem not_sorusResetsAndFlushes : ¬ Obligations.SorusResetsAndFlushes := by
  unfold Obligations.SorusResetsAndFlushes
  intro h
  obtain ⟨plain, runs, quiet, live, counts⟩ := strayReset_may
  obtain ⟨lowered, bufless⟩ := portsReset_strayReset
  obtain ⟨resets, -⟩ := h strayReset 0 rfl plain rfl
  obtain ⟨⟨t, ran, -, -, -, counted, -⟩, -⟩ := resets (by decide) rfl rfl rfl runs live
  have stays := exec_sorusResetLogic_counts rfl rfl (by decide) quiet bufless ran
  exact absurd ((counted.symm.trans (stays.trans lowered)).symm.trans counts) (by decide)

end Sys2Proof.Machine
